-- ==== Sys2Proof/Word.lean ====
section
/-!
DEFINITION. Word.lean: the word types of the NZ-64T (00 R6: every register is 32 bits wide, its address a
24-bit byte address) and the finite index types of Table 0.5.
-/
namespace Sys2Proof

/-- A register or memory word. -/
abbrev Word := BitVec 32

/-- A byte of a memory or of a bus transfer. -/
abbrev Byte := BitVec 8

/-- A device byte address (00 R6). -/
abbrev Addr := BitVec 24

/-- Physical port 0 to 63 (Table 0.5). -/
abbrev PortId := Fin 64

/-- Tile 0 to 7; group g is the eight ports of tile g (00 R5). -/
abbrev TileId := Fin 8

/-- Team and UFP 0 to 3. -/
abbrev TeamId := Fin 4

/-- Event queue 0 to 15. -/
abbrev QueueId := Fin 16

/-- PSI general register g0 to g15 (09 R292). -/
abbrev Reg := Fin 16

end Sys2Proof
end

