-- ==== Sys2Proof/Syntax.lean ====
section
/-!
DEFINITION. Syntax.lean: the commands of the NZ-64T block. `Instr` has one constructor per row of
spec/opcode_table.json; the types before it are the operands the rows carry (what an observer at the balls, a bus
master or a program would name).
-/
namespace Sys2Proof

/-- The masters of register accesses (02 R34, Table 2.9). -/
inductive Master where
  | sup
  | spi
  | ws
  | weaver (t : TileId)
deriving DecidableEq, Repr

/-- A PSI core: the weaver of a port (thread p mod 8 of tile p div 8, 09 R288) or the supervisor (R290). -/
inductive Core where
  | weaver (p : PortId)
  | sup
deriving DecidableEq, Repr

/-- Width of a device access by RLD or RST (09 R307). -/
inductive Width where
  | byte
  | half
  | word
  | dbl
deriving DecidableEq, Repr

/-- What a CC pin reads (09 R327). -/
inductive Cc where
  | vOpen
  | vRa
  | vRd
  | high
deriving DecidableEq, Repr

/-- Speed of an attached USB device, or of a team (03 Tables 3.2 and 3.9). -/
inductive Speed where
  | low
  | full
  | high
deriving DecidableEq, Repr

/-- PD frames the port can send or receive (06 R179, 09 R323). -/
inductive Frame where
  | sop
  | sop1
  | hardReset
deriving DecidableEq, Repr

/-- Transfer types of a split token (04 R118). -/
inductive XferType where
  | control
  | iso
  | bulk
  | intr
deriving DecidableEq, Repr

/-- Part of an isochronous OUT carried by one start-split (04 R126). -/
inductive SplitPart where
  | whole
  | first
  | mid
  | last
deriving DecidableEq, Repr

/-- What the device on the port bus answered, as the tile's result frame reports it (04 R137, Table 4.3). -/
inductive BusResult where
  | ack
  | nak
  | stall
  | data (one : Bool) (bytes : List Byte)
  | moreData (bytes : List Byte)
  | err
deriving DecidableEq, Repr

/-- The USB 2.0 test modes (03 R83). -/
inductive TestMode where
  | testJ
  | testK
  | testSe0Nak
  | testPacket
  | forceEnable
deriving DecidableEq, Repr

/-- Hub class port feature selectors of Table 3.8. -/
inductive ChangeBit where
  | connection
  | enable
  | suspend
  | overCurrent
  | reset
  | l1
deriving DecidableEq, Repr

/-- Answer of a device to an LPM transaction (03 R102). -/
inductive LpmAnswer where
  | ack
  | nyet
  | stall
  | none
deriving DecidableEq, Repr

/-- What a host asks for in a standard GetDescriptor request, of the hub or of the station function (03 R78, R91). -/
inductive DescKind where
  | device
  | configuration
  | string (i : Nat)
  | qualifier
  | otherSpeed
  | bos
deriving DecidableEq, Repr

/-- Which device of a team a standard request addresses. -/
inductive TeamDevice where
  | hub
  | station
deriving DecidableEq, Repr

/-- The waiting place from which the event-queue engine takes a record (05 R156, 09 R319). -/
inductive PostSource where
  | hub
  | tile (t : TileId)
  | tilePost (t : TileId)
  | supPost
deriving DecidableEq, Repr

/-- The memories under ECC (01 R12, 13 Table 13.16). -/
inductive EccMem where
  | creel
  | codeTcm
  | dataTcm
  | context
  | retention
  | tileProg (t : TileId)
  | tileData (t : TileId)
deriving DecidableEq, Repr

/-- Time references (08 Table 8.1). -/
inductive PpsInput where
  | a
  | b
deriving DecidableEq, Repr

/-- Element of an IRIG-B frame (08 Table 8.1). -/
inductive IrigSym where
  | zero
  | one
  | mark
deriving DecidableEq, Repr

/-- An IRIG-B frame as received (08 R262, R266): the widths of its pulses in µs from Pr on, and the capture of its on-time edge
by the counter in quarter nanoseconds of phase error. -/
structure IrigFrame where
  widths : List Nat
  phase : Int
deriving DecidableEq, Repr

/-- Sources of a wake (12 Table 12.4). -/
inductive WakeSrc where
  | wakeSerial
  | ufp (u : TeamId) (vbusChange : Bool)
  | downstream (p : PortId)
  | supEvent (bit : Fin 12)
  | record (cls : Nat)
deriving DecidableEq, Repr

/-- Lane of a die-to-die link (13 Table 13.19): 0 to 3 downstream, 4 to 7 upstream, 8 the control channel. -/
abbrev Lane := Fin 9

/-- How the flash answers a boot (10 R349, R355, 11 R370): whether it answers, whether it takes an entry, whether it answers the read of
step 5, and the steps in which the commands that follow still find the boot ROM
(log 176). -/
structure FlashStatus where
  answers : Bool
  writes : Bool
  block : Bool := true
  pauses : List Nat := []
deriving DecidableEq, Repr

/-- Where a wake-serial transaction goes: the device address on the bus (02 R43) and the register address. -/
structure WsAddr where
  dev : BitVec 7
  reg : Addr
deriving DecidableEq, Repr

/-- A vendor request of type 0xC1 to a station function (03 Table 3.15). -/
structure VendorIn where
  team : TeamId
  req : Byte
  value : BitVec 16
  len : Nat
deriving DecidableEq, Repr

/-- A vendor request of type 0x41 to a station function: bRequest and wValue (03 Table 3.15). -/
structure VendorOut where
  req : Byte
  value : BitVec 16
deriving DecidableEq, Repr

/-- An IN transaction on endpoint 0x81, and whether the host acknowledged its data (05 R167). -/
structure EventIn where
  team : TeamId
  acked : Bool
deriving DecidableEq, Repr

/-- The current of a group's feed where it crosses its limit (07 R230). -/
structure FeedSample where
  grp : TileId
  current : Nat
deriving DecidableEq, Repr

/-- A step of the gate loop: the measured slew in 10 mV/ms, and the change the driver makes (07 R246). -/
structure GateStep where
  slew : Nat
  delta : Nat
deriving DecidableEq, Repr

/-- IMM12 of a PDSEND, and whether the PHY is receiving as it executes (09 R324). -/
structure PdsendArg where
  imm : BitVec 12
  receiving : Bool
deriving DecidableEq, Repr

/-- The commands: one constructor per row of spec/opcode_table.json, in the table's order. -/
inductive Instr where
  -- 02 Register access, semaphores and mailboxes
  | registerWrite (m : Master) (a : Addr) (v : Word) (w : Width)
  | spiWrite (a : Addr) (v : Word)
  | spiGuardedWrite (a : Addr) (v c : Word)
  | spiRead (a : Addr)
  | readResult
  | spiStatus
  | badcmd (code : Byte)
  | frameErr (code : Byte) (bits : Nat)
  | spiReadComplete
  | wsWrite (addrBytes : Nat) (a : WsAddr) (data : List Byte) (stop : Bool)
  | wsGuardedWrite (a : WsAddr) (v c : Word)
  | wsRead (addrBytes : Nat) (a : WsAddr) (extra : Nat)
  | wsReadTimeout (a : WsAddr)
  | mgmtPathLost (wakeSerial : Bool)
  | postedWriteComplete (busy : Fin 10)
  | guardWindowExpire (a : Addr)
  | accLockWrite (m : Master) (v c : Word)
  | semAcquire (m : Master) (n : Fin 16)
  | semRelease (m : Master) (n : Fin 16)
  | semForce (m : Master) (v c : Word)
  | mbxDataWrite (m : Master) (b : Fin 24) (v : Word)
  | mbxDataRead (m : Master) (b : Fin 24)
  | mbxTimeout (b : Fin 24)
  | ttcPdropCntRead (m : Master)
  | ttcTtCntRead (m : Master) (p : PortId)
  | crlNorouteCntRead (m : Master)
  | crlQDropRead (m : Master) (q : QueueId)
  | portPdCntRead (m : Master) (p : PortId)
  | budCntRead (m : Master)
  | tileCntRead (m : Master) (t : TileId)
  | crpPsRefuseRead (m : Master)
  -- 03 Teams
  | teamAttach (u : TeamId)
  | teamDetach (u : TeamId)
  | teamEnable (m : Master) (u : TeamId) (v : Word)
  | teamDisable (m : Master) (u : TeamId) (v : Word)
  | busReset (u : TeamId) (chirp : Bool)
  | teamSuspend (u : TeamId)
  | hostResume (u : TeamId)
  | remoteWakeK (p : PortId)
  | remoteWakeDriveEnd (u : TeamId)
  | lpmToken (u : TeamId) (l1 : Bool) (besl : Fin 16) (remoteWake : Bool)
  | l1Exit (u : TeamId)
  | getDescriptor (u : TeamId) (d : TeamDevice) (k : DescKind) (len : Nat)
  | setInterface (u : TeamId) (alt : Nat)
  | clearHubFeature (u : TeamId) (sel : Nat)
  | clearPortEnable (u : TeamId) (port : Nat)
  | setPortSuspend (u : TeamId) (port : Nat)
  | clearPortSuspend (u : TeamId) (port : Nat)
  | portResumeComplete (p : PortId)
  | setPortReset (u : TeamId) (port : Nat)
  | portResetComplete (p : PortId) (sp : Speed)
  | clearPortL1 (u : TeamId) (port : Nat)
  | setPortPower (u : TeamId) (port : Nat)
  | clearPortPower (u : TeamId) (port : Nat)
  | setPortTest (u : TeamId) (port : Nat) (mode : TestMode)
  | clearPortChange (u : TeamId) (port : Nat) (c : ChangeBit)
  | clearTtBuffer (u : TeamId) (port : Nat) (dev ep : Nat) (ty : XferType) (dirIn : Bool)
  | getBusState (u : TeamId)
  | getHubDescriptor (u : TeamId) (len : Nat)
  | getHubStatus (u : TeamId)
  | getPortStatus (u : TeamId) (port : Nat)
  | getTtState (u : TeamId) (port : Nat)
  | resetTt (u : TeamId) (port : Nat)
  | stopTt (u : TeamId) (port : Nat)
  | setHubDescriptor (u : TeamId)
  | setHubFeature (u : TeamId) (sel : Nat)
  | setAndTestPortL1 (u : TeamId) (port : Nat) (besl : Fin 16) (remoteWake : Bool) (dev : Nat) (a1 a2 a3 : LpmAnswer)
  | hubRequestUnsupported (u : TeamId) (bRequest : Byte)
  | statusChangeIn (u : TeamId)
  | deviceConnect (p : PortId) (sp : Speed)
  | deviceDisconnect (p : PortId)
  | portBabble (p : PortId)
  | portContextFree (p : PortId)
  | getInfo (x : VendorIn)
  | setQueues (u : TeamId) (x : VendorOut)
  | teamQmaskWrite (m : Master) (u : TeamId) (v : Word)
  | eventEndpointIn (x : EventIn)
  | correlationEndpointIn (u : TeamId)
  | dfuDetach (u : TeamId)
  | portMove (m : Master) (p : PortId) (v c : Word)
  | moveRetireEnd (p : PortId)
  | moveGapExpire (p : PortId)
  | ufpSof (u : TeamId) (frame : Nat)
  -- 04 Transaction translators
  | microframeTimeout (u : TeamId)
  | startSplitPeriodic (u : TeamId) (port dev ep : Nat) (dirIn : Bool) (ty : XferType) (low : Bool) (part : SplitPart) (data : List Byte)
  | startSplitNonperiodic (u : TeamId) (port dev ep : Nat) (dirIn setup : Bool) (ty : XferType) (low crcOk : Bool) (data : List Byte)
  | completeSplit (u : TeamId) (port dev ep : Nat) (dirIn : Bool) (ty : XferType)
  | ttDescriptor (p : PortId)
  | microframeMarker (t : TileId) (u : TeamId)
  | portBusTxnStart (p : PortId) (fits : Bool)
  | ttResult (p : PortId) (r : BusResult)
  | ttResultLost (p : PortId)
  | lateDrop (p : PortId)
  | periodicContextExpire (p : PortId)
  | npHoldExpire (p : PortId) (dev ep : Nat) (dirIn : Bool)
  | ttStop (m : Master) (p : PortId)
  | ttReset (m : Master) (p : PortId)
  | ttResetEnd (p : PortId)
  -- 05 Creel and event queues
  | recordEnqueue (src : PostSource)
  | queueRead (m : Master) (q : QueueId)
  | holdTimeout (q : QueueId)
  | queueFlush (m : Master) (q : QueueId)
  | queuePtrMismatch (q : QueueId) (ecc : Bool)
  | queueReclaimEnd (q : QueueId)
  | freelistRebuild
  | freelistRebuildEnd
  | queueEnable (m : Master) (q : QueueId) (v : Word)
  | queueDisable (m : Master) (q : QueueId) (v : Word)
  | queueCapChange (m : Master) (q : QueueId) (v : Word)
  | debugWindowWrite (m : Master) (a : Addr) (v : Word)
  | scrubWord (mem : EccMem) (word : Nat)
  -- 06 Type-C and Power Delivery
  | attachWait (p : PortId)
  | tCcDebounce (p : PortId)
  | ccUnsupported (p : PortId)
  | tPdDebounce (p : PortId) (vbus : Nat)
  | errorRecoveryEnd (p : PortId)
  | transitionDetach (p : PortId) (vbus : Nat)
  | pdMessageRx (p : PortId) (f : Frame) (h : BitVec 16) (objs : List Word) (crcOk : Bool) (low : Int)
  | pdTxStart (p : PortId)
  | tReceive (p : PortId)
  | goodcrc (p : PortId)
  | request (p : PortId) (h : BitVec 16) (rdo : Word)
  | softReset (p : PortId) (h : BitVec 16)
  | hardReset (p : PortId)
  | getSourceCap (p : PortId) (h : BitVec 16)
  | getSourceCapExtended (p : PortId) (h : BitVec 16)
  | getStatus (p : PortId) (h : BitVec 16)
  | getSourceInfo (p : PortId) (h : BitVec 16)
  | getRevision (p : PortId) (h : BitVec 16)
  | drSwap (p : PortId) (h : BitVec 16)
  | prSwap (p : PortId) (h : BitVec 16)
  | vconnSwap (p : PortId) (h : BitVec 16) (pinHigh : Bool)
  | psRdy (p : PortId) (h : BitVec 16)
  | pdAccept (p : PortId) (h : BitVec 16) (pinHigh : Bool)
  | pdReject (p : PortId) (h : BitVec 16)
  | notSupported (p : PortId) (h : BitVec 16)
  | bist (p : PortId) (h : BitVec 16) (mode : Word)
  | alert (p : PortId) (h : BitVec 16)
  | unsupportedMessage (p : PortId) (h : BitVec 16)
  | extendedMessage (p : PortId) (h : BitVec 16) (multiChunk : Bool)
  | tChunkingNotSupported (p : PortId)
  | discoverIdentity (p : PortId) (h : BitVec 16)
  | discoverSvids (p : PortId) (h : BitVec 16)
  | discoverModes (p : PortId) (h : BitVec 16) (svid : BitVec 16)
  | enterMode (p : PortId) (h : BitVec 16) (svid : BitVec 16)
  | unstructuredVdm (p : PortId) (h : BitVec 16)
  | attention (p : PortId) (h : BitVec 16)
  | vdmResponse (p : PortId) (f : Frame) (h : BitVec 16) (vdm : Word) (vdos : List Word)
  | tVdmSenderResponse (p : PortId)
  | tSourceCapability (p : PortId)
  | tSenderResponse (p : PortId)
  | commitLate (p : PortId)
  | tSrcTransition (p : PortId)
  | tSrcSettle (p : PortId)
  | tPsHardReset (p : PortId)
  | tSrcRecover (p : PortId) (pinHigh : Bool)
  | tNoResponse (p : PortId)
  | tSinkTx (p : PortId)
  | tVconnStable (p : PortId)
  | tDiscoverIdentity (p : PortId)
  | tVconnSourceTimeout (p : PortId)
  | vconnPinWaitTimeout (p : PortId)
  | vconnOc (p : PortId)
  | ccOvervoltHold (p : PortId) (sbu high : Bool)
  | tcEnWrite (m : Master) (p : PortId) (en : Bool)
  | pdEnWrite (m : Master) (p : PortId) (en : Bool)
  | stEnWrite (m : Master) (p : PortId) (en : Bool)
  | base (p : PortId) (tag : Byte) (power : BitVec 16)
  | hold (p : PortId) (tag : Byte) (power : BitVec 16)
  | commit (p : PortId) (tag : Byte) (power : BitVec 16)
  | release (p : PortId) (tag : Byte) (power : BitVec 16)
  | grant (p : PortId) (tag : Byte) (power : BitVec 16)
  | short (p : PortId) (tag : Byte) (power : BitVec 16)
  | offer (p : PortId) (power : BitVec 16)
  | reclaim (p : PortId) (power : BitVec 16)
  | budHoldWrite (m : Master) (p : PortId) (v : Word)
  -- 07 Group feeds, port switches and protection
  | feedQualify (g : TileId) (volt : Nat)
  | feedRampStart (g : TileId)
  | feedOn (g : TileId)
  | feedPgood (g : TileId) (volt : Nat)
  | feedWarn (g : TileId) (volt : Nat)
  | feedLimit (x : FeedSample)
  | feedFaultTimer (g : TileId)
  | feedFastTrip (g : TileId) (current : Nat)
  | feedUv (g : TileId) (volt : Nat)
  | feedOv (g : TileId) (volt : Nat)
  | feedGateRiseFail (g : TileId)
  | feedEnWrite (m : Master) (g : TileId) (en : Bool)
  | feedCooldownEnd (g : TileId)
  | feedStageReset (g : TileId)
  | railUp (g : TileId) (volt : Nat)
  | railLost (g : TileId) (volt : Nat)
  | railChange (m : Master) (g : TileId) (rail : Fin 4)
  | keeperWrite (m : Master) (p : PortId) (v c : Word)
  | relayGrant
  | rampProbeEnd (p : PortId) (vbus current slew : Nat)
  | rampCheck (p : PortId) (vbus current : Nat)
  | gateLoopTick (p : PortId) (x : GateStep)
  | breakersArm (p : PortId)
  | rampComplete (p : PortId) (sample : Nat)
  | rampTimeout (p : PortId) (current : Nat)
  | transitionEnd (p : PortId) (vbus : Nat)
  | pgoodRise (p : PortId) (vbus : Nat)
  | pgoodFall (p : PortId) (vbus : Nat)
  | fastTrip (p : PortId) (current : Nat)
  | reverseTrip (p : PortId) (current : Nat)
  | ovTrip (p : PortId) (vbus : Nat)
  | classATrip (p : PortId) (current : Nat)
  | curveTrip (p : PortId) (k : Fin 8) (current : Nat)
  | gateRiseFail (p : PortId)
  | fetShort (p : PortId) (isMv : Nat)
  | fetOpen (p : PortId)
  | portCooldownEnd (p : PortId)
  | portStageReset (p : PortId)
  | dischargeEnd (p : PortId)
  | clrPfet (m : Master) (p : PortId)
  | clrLatch (m : Master) (p : PortId)
  | fwOffSet (m : Master) (p : PortId)
  | fwOffClear (m : Master) (p : PortId)
  -- 08 Station time
  | ppsEdge (i : PpsInput) (sec : Nat) (qns : Nat)
  | ppsLost (i : PpsInput)
  | irigFrame (f : IrigFrame)
  | irigLost
  | ref10mGate (ppb : Int)
  | ref10mLost
  | secondBoundary
  | holdoverExpire
  | immediate (m : Master)
  | atEdge (m : Master)
  | atEdgeTimeout
  | timFreqWrite (m : Master) (v : Word)
  | replicaSync (t : TileId) (offset : Int)
  | ppsOutPulseEnd
  -- 09 PSI
  | add (k : Core) (rd ra rb : Reg) (f : Bool)
  | adc (k : Core) (rd ra rb : Reg) (f : Bool)
  | sub (k : Core) (rd ra rb : Reg) (f : Bool)
  | sbc (k : Core) (rd ra rb : Reg) (f : Bool)
  | and (k : Core) (rd ra rb : Reg) (f : Bool)
  | or (k : Core) (rd ra rb : Reg) (f : Bool)
  | xor (k : Core) (rd ra rb : Reg) (f : Bool)
  | andn (k : Core) (rd ra rb : Reg) (f : Bool)
  | shl (k : Core) (rd ra rb : Reg) (f : Bool)
  | shr (k : Core) (rd ra rb : Reg) (f : Bool)
  | sar (k : Core) (rd ra rb : Reg) (f : Bool)
  | ror (k : Core) (rd ra rb : Reg) (f : Bool)
  | mul (k : Core) (rd ra rb : Reg) (f : Bool)
  | mulhu (k : Core) (rd ra rb : Reg) (f : Bool)
  | min (k : Core) (rd ra rb : Reg) (f : Bool)
  | max (k : Core) (rd ra rb : Reg) (f : Bool)
  | minu (k : Core) (rd ra rb : Reg) (f : Bool)
  | maxu (k : Core) (rd ra rb : Reg) (f : Bool)
  | clz (k : Core) (rd ra rb : Reg) (f : Bool)
  | popc (k : Core) (rd ra rb : Reg) (f : Bool)
  | cmp (k : Core) (rd ra rb : Reg)
  | tst (k : Core) (rd ra rb : Reg)
  | addi (k : Core) (rd ra : Reg) (imm : BitVec 18)
  | andi (k : Core) (rd ra : Reg) (imm : BitVec 18)
  | ori (k : Core) (rd ra : Reg) (imm : BitVec 18)
  | xori (k : Core) (rd ra : Reg) (imm : BitVec 18)
  | cmpi (k : Core) (rd ra : Reg) (imm : BitVec 18)
  | tsti (k : Core) (rd ra : Reg) (imm : BitVec 18)
  | shi (k : Core) (rd ra : Reg) (imm : BitVec 18)
  | lui (k : Core) (rd : Reg) (imm : BitVec 22)
  | addpc (k : Core) (rd : Reg) (imm : BitVec 22)
  | crc (k : Core) (rd ra rb : Reg) (fn : BitVec 6) (f : Bool)
  | ldw (k : Core) (rd ra : Reg) (imm : BitVec 18)
  | ldh (k : Core) (rd ra : Reg) (imm : BitVec 18)
  | ldhu (k : Core) (rd ra : Reg) (imm : BitVec 18)
  | ldb (k : Core) (rd ra : Reg) (imm : BitVec 18)
  | ldbu (k : Core) (rd ra : Reg) (imm : BitVec 18)
  | ldd (k : Core) (rd ra : Reg) (imm : BitVec 18)
  | stw (k : Core) (rd ra : Reg) (imm : BitVec 18)
  | sth (k : Core) (rd ra : Reg) (imm : BitVec 18)
  | stb (k : Core) (rd ra : Reg) (imm : BitVec 18)
  | std (k : Core) (rd ra : Reg) (imm : BitVec 18)
  | rld (k : Core) (rd ra : Reg) (imm : BitVec 18)
  | rldComplete (k : Core)
  | rldTimeout
  | rst (k : Core) (rd ra : Reg) (imm : BitVec 18)
  | b (k : Core) (cond : Fin 16) (off : BitVec 22)
  | bl (k : Core) (cond : Fin 16) (off : BitVec 22)
  | jlr (k : Core) (rd ra : Reg) (imm : BitVec 18)
  | ewait (k : Core) (rd ra : Reg)
  | ewaitResume (k : Core)
  | wait (k : Core) (rd ra : Reg)
  | srd (k : Core) (rd : Reg) (n : BitVec 12)
  | swr (k : Core) (ra : Reg) (n : BitVec 12)
  | trap (k : Core) (n : Fin 16)
  | eret (k : Core)
  | fence (k : Core)
  | fenceComplete (k : Core)
  | wdog (k : Core)
  | sig (k : Core) (i : BitVec 12)
  | tset (k : Core) (n : Reg) (ra : Reg)
  | tseti (k : Core) (n : Reg) (ra : Reg) (imm : BitVec 18)
  | tclr (k : Core) (n : BitVec 12)
  | trd (k : Core) (rd : Reg) (n : BitVec 12)
  | timerExpire (k : Core) (n : Fin 4)
  | tstamp (k : Core) (rd : Reg) (src : BitVec 12)
  | epost (k : Core) (ra rd : Reg) (cls : BitVec 12)
  | msend (k : Core) (rd ra : Reg) (imm : BitVec 12)
  | msendComplete (k : Core)
  | mtry (k : Core) (rd ra : Reg) (imm : BitVec 12)
  | mrecv (k : Core) (rd ra : Reg) (imm : BitVec 12)
  | mstat (k : Core) (rd ra : Reg) (imm : BitVec 12)
  | mclr (k : Core) (rd ra : Reg) (imm : BitVec 12)
  | pdrd (k : Core) (rd : Reg) (w : BitVec 12)
  | pdwr (k : Core) (ra : Reg) (w : BitVec 12)
  | pdsend (k : Core) (f : PdsendArg)
  | pdrel (k : Core)
  | pdstat (k : Core) (rd : Reg)
  | pdcfg (k : Core) (b : BitVec 12)
  | pctlRp (k : Core) (x : Byte)
  | pctlCcsel (k : Core) (x : Byte)
  | pctlVconn (k : Core) (x : Byte) (pinHigh : Bool)
  | pctlSbu (k : Core) (x : Byte)
  | pctlState (k : Core) (x : Byte)
  | pctlBase (k : Core) (x : Byte)
  | pstat (k : Core) (rd : Reg)
  | portb (k : Core) (rd : Reg)
  | sema (k : Core) (rd : Reg) (n : BitVec 12)
  | semr (k : Core) (rd : Reg) (n : BitVec 12)
  | interrupt
  | nmi
  | tileRun (m : Master) (t : TileId) (run : Byte)
  | tileRestart (m : Master) (t : TileId) (restart run : Byte)
  | programWindowWrite (m : Master) (a : Addr) (v : Word)
  -- 10 Start-up, clocks and reset
  | vrimPor
  | rimPorRelease
  | pwrOkAssert
  | pwrOkLoss
  | pwrTimeout
  | oscReady
  | oscTimeout
  | coreEnOffExpire
  | coreResetRelease
  | bootStart (testMode : Bool) (flash : FlashStatus)
  | bootStepTimeout (step : Fin 16)
  | tileSwitchOn (t : TileId)
  | tileReady (t : TileId)
  | resetPin
  | resetPinRelease
  | chip (m : Master)
  | sup (m : Master)
  | tile (m : Master) (t : TileId)
  | tapReset
  | phyCfgWrite (m : Master) (a : Addr) (v : Word)
  -- 11 Firmware images and field update
  | begin (m : Master)
  | write (m : Master)
  | writeComplete (programOk eraseOk : Bool)
  | verify (m : Master)
  | verifyComplete
  | activate (m : Master)
  | activationCommit (programOk : Bool)
  | abort (m : Master)
  | sessionTimeout
  | dfuDnload (u : TeamId) (block : Nat) (data : List Byte)
  | dfuManifest (u : TeamId)
  | dfuUpload (u : TeamId)
  | dfuGetstatus (u : TeamId)
  | dfuClrstatus (u : TeamId)
  | dfuAbort (u : TeamId)
  | confirm (m : Master)
  | confirmWindowExpire (flash : FlashStatus)
  -- 12 Power states and wake
  | offDischargeDone
  | wakeSource (w : WakeSrc)
  | sleepWakeComplete
  | wakeMinOffExpire
  | deepWakeHandover
  | retry (m : Master) (v c : Word)
  | retDataAccess (m : Master) (write : Bool) (v : Word)
  -- 13 Fault collection, recovery and crash dump
  | faultReport (src : Fin 64) (detail : Word)
  | scorecardRecord
  | fltStatClear (m : Master) (hi : Bool) (v : Word)
  | fltLostClear (m : Master)
  | fltSrcWrite (m : Master) (n : Fin 64) (v c : Word)
  | swFault (m : Master) (v : Word)
  | faultInject (m : Master) (v c : Word)
  | collectorMismatch (index : Nat)
  | lockstepMismatch
  | supWatchdog
  | warmScrubEnd (uncorrectable digestOk : Bool)
  | done (m : Master)
  | doneTimeout
  | weaverWatchdog (p : PortId)
  | rimDetach (p : PortId) (vbus : Nat)
  | controlFrame (t : TileId) (crcOk : Bool)
  | linkLaneFault (t : TileId) (lane : Lane)
  | spareLaneSwitchDone (t : TileId)
  | linkSecondFailure (t : TileId) (lane : Lane)
  -- rows added after the chapters' own
  | uuVbusValid (u : TeamId)
  | ccPatternChange (p : PortId) (cc1 cc2 : Cc)
  | l1ResumeEnd (p : PortId)
  | setAddress (u : TeamId) (d : TeamDevice) (addr : BitVec 7)
  | setConfiguration (u : TeamId) (d : TeamDevice) (cfg : Nat)
  | deviceRemoteWakeup (u : TeamId) (d : TeamDevice) (on : Bool)
  | repeatPathPacket (u : TeamId) (up : Option PortId) (sp : Speed)
  | feedQualifyBreak (g : TileId) (volt : Nat)
  | feedLimitEnd (x : FeedSample)
  | breakerCurrentCrossing (p : PortId) (current : Nat)
  | waitSourceCapTimeout (p : PortId)
  | sbuSignalElement (p : PortId)
  | bistCarrierModeEnd (p : PortId)
  | entryResident
  | linkTrainingFailed (t : TileId)
deriving DecidableEq, Repr

end Sys2Proof
end

