-- ==== Sys2Proof/Decode.lean ====
section
/-!
DEFINITION. Decode.lean: commands spelled by the bits of spec/opcode_table.json: the block takes its commands from outside and no
row of the table gives any bits ("fields" is empty in all 405 rows), so no word spells a command. And the instruction words of the
PSI cores (09 R299, R300): opcode, format, fields, sub-codes and the fields that must be 0, which the cores check at fetch.
-/
namespace Sys2Proof

/-- The command a word of `nbits` bits spells by the opcode table: none, for every row has no bits. -/
def decodeTableWord (_nbits _w : Nat) : Option Instr := none

/-! ### Fields of an instruction word (09 Table 9.4) -/

/-- Bits hi:lo of a word. -/
def wordBits (w : Word) (hi lo : Nat) : Nat := w.toNat / 2 ^ lo % 2 ^ (hi + 1 - lo)

/-- Register fields. -/
def wordReg (w : Word) (lo : Nat) : Reg := Fin.ofNat 16 (w.toNat / 2 ^ lo)

def wordOp (w : Word) : Nat := wordBits w 31 26
def wordRd (w : Word) : Reg := wordReg w 22
def wordRa (w : Word) : Reg := wordReg w 18
def wordFn (w : Word) : Nat := wordBits w 5 0
def wordSub (w : Word) : Nat := wordBits w 17 12
def wordImm12 (w : Word) : BitVec 12 := BitVec.ofNat 12 (wordBits w 11 0)

/-- The PSI instructions, by mnemonic (09 Table 9.5). -/
inductive PsiOp where
  | add
  | adc
  | sub
  | sbc
  | and
  | or
  | xor
  | andn
  | shl
  | shr
  | sar
  | ror
  | mul
  | mulhu
  | min
  | max
  | minu
  | maxu
  | clz
  | popc
  | cmp
  | tst
  | ewait
  | wait
  | srd
  | swr
  | trap
  | eret
  | fence
  | wdog
  | sig
  | tset
  | tclr
  | trd
  | tstamp
  | epost
  | msend
  | mtry
  | mrecv
  | mstat
  | mclr
  | pdrd
  | pdwr
  | pdsend
  | pdrel
  | pdstat
  | pdcfg
  | pctl
  | pstat
  | portb
  | sema
  | semr
  | addi
  | andi
  | ori
  | xori
  | cmpi
  | tsti
  | shi
  | lui
  | addpc
  | crc
  | ldw
  | ldh
  | ldhu
  | ldb
  | ldbu
  | ldd
  | stw
  | sth
  | stb
  | std
  | rld
  | rst
  | b
  | bl
  | jlr
  | tseti
deriving DecidableEq, Repr

/-! ### Groups -/

/-- The ALU group: FN (09 Table 9.6). -/
def decodeAlu (fn : Nat) : Option PsiOp :=
  match fn with
  | 0x00 => some .add
  | 0x01 => some .adc
  | 0x02 => some .sub
  | 0x03 => some .sbc
  | 0x04 => some .and
  | 0x05 => some .or
  | 0x06 => some .xor
  | 0x07 => some .andn
  | 0x08 => some .shl
  | 0x09 => some .shr
  | 0x0A => some .sar
  | 0x0B => some .ror
  | 0x0C => some .mul
  | 0x0D => some .mulhu
  | 0x0E => some .min
  | 0x0F => some .max
  | 0x10 => some .minu
  | 0x11 => some .maxu
  | 0x12 => some .clz
  | 0x13 => some .popc
  | 0x14 => some .cmp
  | 0x15 => some .tst
  | _ => none

/-- The control group: SUB (09 Table 9.14). -/
def decodeControl (sub : Nat) : Option PsiOp :=
  match sub with
  | 0x00 => some .ewait
  | 0x01 => some .wait
  | 0x02 => some .srd
  | 0x03 => some .swr
  | 0x04 => some .trap
  | 0x05 => some .eret
  | 0x06 => some .fence
  | 0x07 => some .wdog
  | 0x08 => some .sig
  | _ => none

/-- The time group: SUB (09 Table 9.11). -/
def decodeTime (sub : Nat) : Option PsiOp :=
  match sub with
  | 0x00 => some .tset
  | 0x01 => some .tclr
  | 0x02 => some .trd
  | 0x03 => some .tstamp
  | 0x04 => some .epost
  | _ => none

/-- The mailbox group: SUB (09 Table 9.12). -/
def decodeMailbox (sub : Nat) : Option PsiOp :=
  match sub with
  | 0x00 => some .msend
  | 0x01 => some .mtry
  | 0x02 => some .mrecv
  | 0x03 => some .mstat
  | 0x04 => some .mclr
  | _ => none

/-- The PD buffer group: SUB (09 R323). -/
def decodePdBuffer (sub : Nat) : Option PsiOp :=
  match sub with
  | 0x00 => some .pdrd
  | 0x01 => some .pdwr
  | 0x02 => some .pdsend
  | 0x03 => some .pdrel
  | 0x04 => some .pdstat
  | 0x05 => some .pdcfg
  | _ => none

/-- The port group: SUB (09 R326, R327). -/
def decodePort (sub : Nat) (rd ra : Reg) (imm : BitVec 12) : Option PsiOp :=
  match sub with
  | 0x00 => if rd = 0 ∧ ra = 0 ∧ imm.toNat / 256 ≤ 5 then some .pctl else none
  | 0x01 => if ra = 0 ∧ imm = 0 then some .pstat else none
  | 0x02 => if ra = 0 ∧ imm = 0 then some .portb else none
  | _ => none

/-- The semaphore group: SUB (09 R328). -/
def decodeSem (sub : Nat) (ra : Reg) : Option PsiOp :=
  if ra ≠ 0 then none
  else
    match sub with
    | 0x00 => some .sema
    | 0x01 => some .semr
    | _ => none

/-! ### The opcode map (09 Table 9.5) -/

/-- The instruction that a word spells; `none` for a word that is no instruction: an opcode, FN, SUB or PCTL function not assigned, or a
field not 0 that no command carries. The fields that a command carries its meaning checks. A field that the format leaves unnamed for an
instruction is not checked (log 142). -/
def decodePsi (w : Word) : Option PsiOp :=
  let rd := wordRd w
  let ra := wordRa w
  let rOk := wordBits w 12 6 == 0
  match wordOp w with
  | 0x00 => if rOk then decodeAlu (wordFn w) else none
  | 0x01 => some .addi
  | 0x02 => some .andi
  | 0x03 => some .ori
  | 0x04 => some .xori
  | 0x05 => some .cmpi
  | 0x06 => some .tsti
  | 0x07 => some .shi
  | 0x08 => some .lui
  | 0x09 => some .addpc
  | 0x0F => if rOk then some .crc else none
  | 0x10 => some .ldw
  | 0x11 => some .ldh
  | 0x12 => some .ldhu
  | 0x13 => some .ldb
  | 0x14 => some .ldbu
  | 0x15 => some .ldd
  | 0x16 => some .stw
  | 0x17 => some .sth
  | 0x18 => some .stb
  | 0x19 => some .std
  | 0x1C => some .rld
  | 0x1D => some .rst
  | 0x20 => some .b
  | 0x21 => some .bl
  | 0x22 => some .jlr
  | 0x28 => decodeControl (wordSub w)
  | 0x29 => decodeTime (wordSub w)
  | 0x2A => some .tseti
  | 0x2B => decodeMailbox (wordSub w)
  | 0x2C => decodePdBuffer (wordSub w)
  | 0x2D => decodePort (wordSub w) rd ra (wordImm12 w)
  | 0x2E => decodeSem (wordSub w) ra
  | _ => none

end Sys2Proof
end

