-- ==== Sys2Proof/Config.lean ====
section
/-!
DEFINITION. Config.lean: what the spec leaves open. Every constant here is opaque and has no body: no proof and no
run can see a value of it. The counter `State.free` is applied to the fresh ones (log 2).
-/
namespace Sys2Proof.Config

/-- A fresh open number: which of several allowed outcomes or values occurs (00 R499; log 2). -/
opaque freeNat : Nat → Nat

/-- A fresh open truth value, as where the spec says "may" (02 R41; log 2). -/
opaque freeBool : Nat → Bool

/-- A fresh open word, as a payload that no table lays out (05 Table 5.5; log 2). -/
opaque freeWord : Nat → Word

/-- The error of the n-th stamp in ns, before it is confined to ±100 ns (01 R22; log 3). -/
opaque stampError : Nat → Int

/-- Factory trim word of the time servo (08 R273; log 4). -/
opaque factoryFreq : Word

/-- Factory trim of a port's CC receive baseline in mV (06 R177; log 4). -/
opaque factoryBaseline : PortId → Int

/-- Factory trim of a port's squelch threshold in mV (10 Table 10.10; log 4). -/
opaque factorySquelch : PortId → Nat

/-- Factory trims of a port's HS transmitter: amplitude code and pre-emphasis step (10 Table 10.10; log 4). -/
opaque factoryPe : PortId → Nat

/-- Horbex public key k that the boot ROM holds, a point of P-256 (11 R362; log 5). -/
opaque horbexKey : Nat → Nat × Nat

/-- The boot ROM's 128 KiB of code (09 Table 9.3), of which the spec gives no byte (log 6). -/
opaque bootRom : Nat → Byte

/-- The boot ROM's built-in tile program and its length in bytes (11 R383; log 6). -/
opaque rescueProgram : Nat → Byte

/-- Factory trims of a UFP's transmitter and squelch (10 Table 10.10; log 4). -/
opaque factoryTeamPe : TeamId → Nat

opaque factoryTeamSquelch : TeamId → Nat

/-- Hub die junction temperature in °C at the n-th Status message (06 Table 6.4; log 7). -/
opaque junction : Nat → Nat

/-- Mean voltage in mV of the attached CC pin in the low halves of a message's preamble (06 R177; log 153). -/
opaque preambleLow : Nat → Int

end Sys2Proof.Config
end

