-- ==== Sys2Proof/Machine/Crypto.lean ====
section
/-!
DEFINITION. Machine/Crypto.lean: the digest and the signature check of releases (11 R362, R363): SHA-256 (FIPS 180-4) and
ECDSA P-256 (FIPS 186), the standards of 00 Table 0.3. The public keys the boot ROM holds are open (log 5).
-/
namespace Sys2Proof.Machine

/-! ### SHA-256 -/

/-- The round constants. -/
def shaK : List Word :=
  [0x428a2f98#32, 0x71374491#32, 0xb5c0fbcf#32, 0xe9b5dba5#32, 0x3956c25b#32, 0x59f111f1#32, 0x923f82a4#32, 0xab1c5ed5#32,
    0xd807aa98#32, 0x12835b01#32, 0x243185be#32, 0x550c7dc3#32, 0x72be5d74#32, 0x80deb1fe#32, 0x9bdc06a7#32, 0xc19bf174#32] ++
  [0xe49b69c1#32, 0xefbe4786#32, 0x0fc19dc6#32, 0x240ca1cc#32, 0x2de92c6f#32, 0x4a7484aa#32, 0x5cb0a9dc#32, 0x76f988da#32,
    0x983e5152#32, 0xa831c66d#32, 0xb00327c8#32, 0xbf597fc7#32, 0xc6e00bf3#32, 0xd5a79147#32, 0x06ca6351#32, 0x14292967#32] ++
  [0x27b70a85#32, 0x2e1b2138#32, 0x4d2c6dfc#32, 0x53380d13#32, 0x650a7354#32, 0x766a0abb#32, 0x81c2c92e#32, 0x92722c85#32,
    0xa2bfe8a1#32, 0xa81a664b#32, 0xc24b8b70#32, 0xc76c51a3#32, 0xd192e819#32, 0xd6990624#32, 0xf40e3585#32, 0x106aa070#32] ++
  [0x19a4c116#32, 0x1e376c08#32, 0x2748774c#32, 0x34b0bcb5#32, 0x391c0cb3#32, 0x4ed8aa4a#32, 0x5b9cca4f#32, 0x682e6ff3#32,
    0x748f82ee#32, 0x78a5636f#32, 0x84c87814#32, 0x8cc70208#32, 0x90befffa#32, 0xa4506ceb#32, 0xbef9a3f7#32, 0xc67178f2#32]

/-- The working variables. -/
structure ShaVars where
  a : Word
  b : Word
  c : Word
  d : Word
  e : Word
  f : Word
  g : Word
  h : Word
deriving DecidableEq, Repr

/-- The initial hash value. -/
def shaInit : ShaVars :=
  { a := 0x6a09e667#32, b := 0xbb67ae85#32, c := 0x3c6ef372#32, d := 0xa54ff53a#32
    e := 0x510e527f#32, f := 0x9b05688c#32, g := 0x1f83d9ab#32, h := 0x5be0cd19#32 }

/-- A number from bytes, high byte first. -/
def ofBytesHigh (bs : List Byte) : Nat := bs.foldl (fun n b => 256 * n + b.toNat) 0

/-- n bytes of a number, high byte first. -/
def toBytesHigh (n v : Nat) : List Byte := (List.range n).map fun i => BitVec.ofNat 8 (v / 256 ^ (n - 1 - i))

/-- The message with its padding: a 1 bit, zeros, and the length in bits. -/
def shaPad (m : List Byte) : List Byte :=
  m ++ 0x80#8 :: List.replicate ((119 - m.length % 64) % 64) 0x00#8 ++ toBytesHigh 8 (8 * m.length)

/-- The next n words of the message schedule, the newest first. -/
def shaExpand : Nat → List Word → List Word
  | 0, ws => ws
  | n + 1, ws =>
    let w (i : Nat) : Word := ws.getD i 0
    let s0 := (w 14).rotateRight 7 ^^^ (w 14).rotateRight 18 ^^^ w 14 >>> 3
    let s1 := (w 1).rotateRight 17 ^^^ (w 1).rotateRight 19 ^^^ w 1 >>> 10
    shaExpand n ((s1 + w 6 + s0 + w 15) :: ws)

/-- The message schedule of a 64-byte block. -/
def shaSchedule (block : List Byte) : List Word :=
  (shaExpand 48 ((List.range 16).map fun i => BitVec.ofNat 32 (ofBytesHigh ((block.drop (4 * i)).take 4))).reverse).reverse

/-- One round. -/
def shaRound (v : ShaVars) (kw : Word × Word) : ShaVars :=
  let s1 := v.e.rotateRight 6 ^^^ v.e.rotateRight 11 ^^^ v.e.rotateRight 25
  let ch := (v.e &&& v.f) ^^^ (~~~v.e &&& v.g)
  let t1 := v.h + s1 + ch + kw.1 + kw.2
  let s0 := v.a.rotateRight 2 ^^^ v.a.rotateRight 13 ^^^ v.a.rotateRight 22
  let maj := (v.a &&& v.b) ^^^ (v.a &&& v.c) ^^^ (v.b &&& v.c)
  { a := t1 + (s0 + maj), b := v.a, c := v.b, d := v.c, e := v.d + t1, f := v.e, g := v.f, h := v.g }

/-- One block. -/
def shaBlock (v : ShaVars) (block : List Byte) : ShaVars :=
  let x := (shaK.zip (shaSchedule block)).foldl shaRound v
  { a := v.a + x.a, b := v.b + x.b, c := v.c + x.c, d := v.d + x.d, e := v.e + x.e, f := v.f + x.f, g := v.g + x.g, h := v.h + x.h }

/-- The first n blocks of a padded message. -/
def shaBlocks : Nat → ShaVars → List Byte → ShaVars
  | 0, v, _ => v
  | n + 1, v, m => shaBlocks n (shaBlock v (m.take 64)) (m.drop 64)

/-- SHA-256: 32 bytes. -/
def sha256 (m : List Byte) : List Byte :=
  let p := shaPad m
  let v := shaBlocks (p.length / 64) shaInit p
  [v.a, v.b, v.c, v.d, v.e, v.f, v.g, v.h].flatMap fun w => toBytesHigh 4 w.toNat

/-! ### ECDSA P-256 -/

def p256P : Nat := 0xffffffff00000001000000000000000000000000ffffffffffffffffffffffff
def p256N : Nat := 0xffffffff00000000ffffffffffffffffbce6faada7179e84f3b9cac2fc632551
def p256G : Nat × Nat :=
  (0x6b17d1f2e12c4247f8bce6e563a440f277037d812deb33a0f4a13945d898c296, 0x4fe342e2fe1a7f9b8ee7eb4a7c0f9e162bce33576b315ececbb6406837bf51f5)

/-- b ^ e modulo m, over the low n bits of e. -/
def powMod (m : Nat) : Nat → Nat → Nat → Nat
  | 0, _, _ => 1 % m
  | n + 1, b, e => powMod m n (b * b % m) (e / 2) * (if e % 2 = 1 then b else 1) % m

/-- The inverse modulo a prime. -/
def invMod (m a : Nat) : Nat := powMod m 256 (a % m) (m - 2)

/-- The sum of two points of the curve; `none` is the point at infinity. -/
def pointAdd (x y : Option (Nat × Nat)) : Option (Nat × Nat) :=
  match x, y with
  | none, z => z
  | z, none => z
  | some (x1, y1), some (x2, y2) =>
    if x1 = x2 ∧ (y1 + y2) % p256P = 0 then none
    else
      let l := if x1 = x2 then (3 * x1 * x1 + (p256P - 3)) * invMod p256P (2 * y1) % p256P
        else (y2 + (p256P - y1)) * invMod p256P (x2 + (p256P - x1)) % p256P
      let x3 := (l * l + (2 * p256P - x1 - x2)) % p256P
      some (x3, (l * (x1 + (p256P - x3)) + (p256P - y1)) % p256P)

/-- A multiple of a point, over the low n bits of k. -/
def pointMul : Nat → Nat → Option (Nat × Nat) → Option (Nat × Nat)
  | 0, _, _ => none
  | n + 1, k, x => pointAdd (pointMul n (k / 2) (pointAdd x x)) (if k % 2 = 1 then x else none)

/-- The signature (r, s) of a digest verifies under a public key. -/
def ecdsaOk (key : Nat × Nat) (r s digest : Nat) : Bool :=
  let w := invMod p256N s
  decide (0 < r ∧ r < p256N ∧ 0 < s ∧ s < p256N) &&
    match pointAdd (pointMul 256 (digest * w % p256N) (some p256G)) (pointMul 256 (r * w % p256N) (some key)) with
    | some (x, _) => x % p256N == r
    | none => false

/-- The signature of a digest verifies under the boot ROM's key k (11 R362). -/
def signatureOk (k : Nat) (r s digest : List Byte) : Bool := ecdsaOk (Config.horbexKey k) (ofBytesHigh r) (ofBytesHigh s) (ofBytesHigh digest)

end Sys2Proof.Machine
end

