-- ==== Sys2Proof/Machine/Bits.lean ====
section
/-!
DEFINITION. Machine/Bits.lean: fields of words and bytes of values (00 R6, 02 R36: little-endian).
-/
namespace Sys2Proof.Machine

/-- Field [hi:lo] of a word as a number. -/
def fld (w : Word) (hi lo : Nat) : Nat := w.toNat / 2 ^ lo % 2 ^ (hi + 1 - lo)

/-- Bit i of a word. -/
def bitOf (w : Word) (i : Nat) : Bool := w.getLsbD i

/-- A truth value as a bit. -/
def b2n (b : Bool) : Nat := if b then 1 else 0

/-- A word with the given fields: (value, lowest bit). -/
def pack (fs : List (Nat × Nat)) : Word := BitVec.ofNat 32 (fs.foldl (fun a f => a + f.1 * 2 ^ f.2) 0)

/-- The bits of `new` where the mask is 1, of `old` elsewhere. -/
def mix (mask new old : Word) : Word := (new &&& mask) ||| (old &&& ~~~mask)

/-- A mask of the field [hi:lo]. -/
def maskOf (hi lo : Nat) : Word := BitVec.ofNat 32 ((2 ^ (hi + 1 - lo) - 1) * 2 ^ lo)

/-- A word with field [hi:lo] set. -/
def setFld (w : Word) (hi lo v : Nat) : Word := mix (maskOf hi lo) (BitVec.ofNat 32 (v * 2 ^ lo)) w

/-- A word with bit i set. -/
def orBit (w : Word) (i : Nat) : Word := w ||| BitVec.ofNat 32 (2 ^ i)

/-- A counter that saturates at `top`. -/
def satInc (n top : Nat) : Nat := if n < top then n + 1 else n

/-- A number confined to [lo, hi]. -/
def clampNat (lo hi n : Nat) : Nat := max lo (min hi n)

/-- A signed number confined to [lo, hi]. -/
def clampInt (lo hi n : Int) : Int := max lo (min hi n)

/-- A field of n bits read as two's complement. -/
def signedOf (n v : Nat) : Int := if v % 2 ^ n < 2 ^ (n - 1) then (v % 2 ^ n : Nat) else (v % 2 ^ n : Nat) - (2 ^ n : Nat)

/-- Two's complement of n bits as a number. -/
def unsignedOf (n : Nat) (i : Int) : Nat := (i % (2 ^ n : Nat)).toNat

/-- The low byte of a number. -/
def lowByte (n : Nat) : Byte := BitVec.ofNat 8 n

/-- The n little-endian bytes of a number. -/
def toBytes : Nat → Nat → List Byte
  | 0, _ => []
  | n + 1, v => lowByte v :: toBytes n (v / 256)

/-- The number with the given little-endian bytes. -/
def ofBytes : List Byte → Nat
  | [] => 0
  | b :: bs => b.toNat + 256 * ofBytes bs

/-- The most significant byte first form of a word, as SPI and wake serial carry it (02 R38, R43). -/
def msbBytes (w : Word) : List Byte := (toBytes 4 w.toNat).reverse

/-- The word with the given bytes, most significant first. -/
def ofMsb (bs : List Byte) : Word := BitVec.ofNat 32 (ofBytes bs.reverse)

/-- `f s` where the condition holds, `s` elsewhere. -/
def onlyIf {α : Type} (c : Bool) (f : α → α) (s : α) : α := if c then f s else s

/-- `f` applied for each element in turn. -/
def forEach {α β : Type} (l : List β) (f : β → α → α) (s : α) : α := l.foldl (fun a b => f b a) s

/-- All indices 0 to n − 1. -/
def fins (n : Nat) : List (Fin n) := List.finRange n

/-- Tile of a port (00 R5). -/
def tileOf (p : PortId) : TileId := ⟨p.val / 8, by omega⟩

/-- Lane of a port within its tile (00 R5). -/
def laneOf (p : PortId) : Fin 8 := ⟨p.val % 8, by omega⟩

/-- Port 8t + i (00 R5). -/
def portOf (t : TileId) (i : Fin 8) : PortId := ⟨8 * t.val + i.val, by omega⟩

/-- The ports of a tile, ascending. -/
def portsOf (t : TileId) : List PortId := (fins 8).map (portOf t)

/-- CRC-32 of IEEE 802.3: reflected polynomial 0xEDB88320, start and final complement (00 Table 0.3). -/
def crcShift : Nat → BitVec 32 → BitVec 32
  | 0, c => c
  | n + 1, c => crcShift n (if c.getLsbD 0 then (c >>> 1) ^^^ 0xEDB88320#32 else c >>> 1)

/-- CRC-32 of a byte string. -/
def crc32 (bs : List Byte) : Word := ~~~(bs.foldl (fun c b => crcShift 8 (c ^^^ b.setWidth 32)) 0xFFFFFFFF#32)

end Sys2Proof.Machine
end

