-- ==== Sys2Proof/Machine/Irig.lean ====
section
/-!
DEFINITION. Machine/Irig.lean: IRIG-B frames: the elements of Table 8.1, the time that a received frame carries, and the
IRIG-B004 frame of SBU2 (08 R262, R266, R268, R286). The places of the digits in a frame are those of IRIG Standard 200, the
leap flags those of the IEEE C37.118.1 control functions, which the spec names without repeating them (PRESUMED, log 137).
-/
namespace Sys2Proof.Machine

/-- An element by the width of its pulse in µs (08 Table 8.1). -/
def irigSym (us : Nat) : Option IrigSym :=
  if 1500 ≤ us ∧ us ≤ 3500 then some .zero
  else if 4000 ≤ us ∧ us ≤ 6500 then some .one
  else if 7000 ≤ us ∧ us ≤ 9000 then some .mark
  else none

/-- Pr at 0 and P1 to P9 and P0 at the last element of each ten. -/
def irigMarkAt (i : Nat) : Bool := i == 0 || i % 10 == 9

/-- 100 elements, with markers exactly where they belong. -/
def irigShape (l : List IrigSym) : Bool :=
  l.length == 100 && (List.range 100).all fun i => (l[i]? == some .mark) == irigMarkAt i

/-- A number whose bits stand at the given places, each with its weight. -/
def irigNumber (l : List IrigSym) (places : List (Nat × Nat)) : Nat :=
  (places.map fun x => if l[x.1]? = some .one then x.2 else 0).sum

def irigSecU : List (Nat × Nat) := [(1, 1), (2, 2), (3, 4), (4, 8)]
def irigSecT : List (Nat × Nat) := [(6, 1), (7, 2), (8, 4)]
def irigMinU : List (Nat × Nat) := [(10, 1), (11, 2), (12, 4), (13, 8)]
def irigMinT : List (Nat × Nat) := [(15, 1), (16, 2), (17, 4)]
def irigHourU : List (Nat × Nat) := [(20, 1), (21, 2), (22, 4), (23, 8)]
def irigHourT : List (Nat × Nat) := [(25, 1), (26, 2)]
def irigDayU : List (Nat × Nat) := [(30, 1), (31, 2), (32, 4), (33, 8)]
def irigDayT : List (Nat × Nat) := [(35, 1), (36, 2), (37, 4), (38, 8)]
def irigDayH : List (Nat × Nat) := [(40, 1), (41, 2)]
def irigYearU : List (Nat × Nat) := [(50, 1), (51, 2), (52, 4), (53, 8)]
def irigYearT : List (Nat × Nat) := [(55, 1), (56, 2), (57, 4), (58, 8)]
/-- Straight binary seconds of day. -/
def irigSbs : List (Nat × Nat) :=
  (List.range 9).map (fun k => (80 + k, 2 ^ k)) ++ (List.range 8).map (fun k => (90 + k, 2 ^ (9 + k)))

/-- The time that a frame carries: two digits of the year, day of year, second of day (86,400 in an inserted second), and the
leap flags of its control functions. -/
structure IrigTime where
  year : Nat := 0
  day : Nat := 0
  sod : Nat := 0
  leapPending : Bool := false
  leapDelete : Bool := false
deriving DecidableEq, Repr

/-- Formats B004 to B007 carry the year. -/
def fmtYear (fmt : Nat) : Bool := decide (4 ≤ fmt)

/-- Formats B000, B001, B004 and B005 carry control functions. -/
def fmtControl (fmt : Nat) : Bool := fmt % 4 == 0 || fmt % 4 == 1

/-- The time of a frame whose markers and BCD digits are valid in the format (08 Table 8.1). -/
def irigTime (fmt : Nat) (l : List IrigSym) : Option IrigTime :=
  let n := irigNumber l
  let digits := [n irigSecU, n irigMinU, n irigHourU, n irigDayU, n irigDayT] ++ (if fmtYear fmt then [n irigYearU, n irigYearT] else [])
  let sec := 10 * n irigSecT + n irigSecU
  let min := 10 * n irigMinT + n irigMinU
  let hour := 10 * n irigHourT + n irigHourU
  let day := 100 * n irigDayH + 10 * n irigDayT + n irigDayU
  if irigShape l && digits.all (fun d => decide (d ≤ 9)) && decide (sec ≤ 60) && decide (min ≤ 59) && decide (hour ≤ 23) &&
      decide (1 ≤ day) && decide (day ≤ 366) then
    some {
      year := if fmtYear fmt then 10 * n irigYearT + n irigYearU else 0
      day := day
      sod := 3600 * hour + 60 * min + sec
      leapPending := fmtControl fmt && decide (l[60]? = some .one)
      leapDelete := fmtControl fmt && decide (l[61]? = some .one) }
  else none

/-- The time of a received frame, from the widths of its pulses. -/
def readFrame (fmt : Nat) (f : IrigFrame) : Option IrigTime :=
  let l := f.widths.filterMap irigSym
  if l.length = f.widths.length then irigTime fmt l else none

/-- Days of a year. -/
def yearLen (y : Nat) : Nat := if y % 4 = 0 ∧ (y % 100 ≠ 0 ∨ y % 400 = 0) then 366 else 365

/-- The date of b is the day after that of a; a format without a year lets the year end with day 365 or 366 (08 R266). -/
def nextDate (fmt : Nat) (a b : IrigTime) : Bool :=
  if fmtYear fmt then
    if a.day < yearLen (2000 + a.year) then b.day == a.day + 1 && b.year == a.year
    else b.day == 1 && b.year == (a.year + 1) % 100
  else b.day == a.day + 1 || (decide (365 ≤ a.day) && b.day == 1)

/-- The seconds of b follow those of a by one: within a day, second 60 included, or over midnight, from second 58 where second 59
was deleted (08 R262, R268; log 140). -/
def followsOne (fmt : Nat) (a b : IrigTime) : Bool :=
  (b.sod == a.sod + 1 && b.day == a.day && b.year == a.year) ||
    (b.sod == 0 && decide (86398 ≤ a.sod) && nextDate fmt a b)

/-! ### The frame of SBU2 (08 R286) -/

/-- Days from 1970-01-01 to the first day of a year. -/
def daysTo (y : Nat) : Nat := 365 * (y - 1970) + ((y - 1969) / 4 - (y - 1901) / 100 + (y - 1601) / 400)

/-- The year in which a day since 1970-01-01 lies, as far as 32-bit seconds reach. -/
def yearOf (days : Nat) : Nat := 1969 + ((List.range 140).filter fun k => decide (daysTo (1970 + k) ≤ days)).length

/-- The time to send: UTC of the second that starts, second 60 while an inserted leap second runs. -/
def sendTime (utc : Nat) (leap60 : Bool) : IrigTime :=
  let u := if leap60 then utc - 1 else utc
  let d := u / 86400
  let y := yearOf d
  { year := y % 100, day := d - daysTo y + 1, sod := if leap60 then 86400 else u % 86400 }

/-- Bits of a number at their places. -/
def irigPlace (places : List (Nat × Nat)) (n i : Nat) : Bool := places.any fun x => x.1 == i && n / x.2 % 2 == 1

/-- Element i of an IRIG-B004 frame: BCD time and year, control functions 0, straight binary seconds. -/
def sendSym (t : IrigTime) (i : Nat) : IrigSym :=
  let sec := if t.sod = 86400 then 60 else t.sod % 60
  let min := if t.sod = 86400 then 59 else t.sod / 60 % 60
  let hour := if t.sod = 86400 then 23 else t.sod / 3600
  let one :=
    irigPlace irigSecU (sec % 10) i || irigPlace irigSecT (sec / 10) i || irigPlace irigMinU (min % 10) i || irigPlace irigMinT (min / 10) i ||
    irigPlace irigHourU (hour % 10) i || irigPlace irigHourT (hour / 10) i || irigPlace irigDayU (t.day % 10) i ||
    irigPlace irigDayT (t.day / 10 % 10) i || irigPlace irigDayH (t.day / 100) i || irigPlace irigYearU (t.year % 10) i ||
    irigPlace irigYearT (t.year / 10) i || irigPlace irigSbs t.sod i
  if irigMarkAt i then .mark else if one then .one else .zero

/-- The frame. -/
def irigB004 (t : IrigTime) : List IrigSym := (List.range 100).map (sendSym t)

/-- High time of an element in ms (08 Table 8.6). -/
def symHighMs : IrigSym → Nat
  | .zero => 2
  | .one => 5
  | .mark => 8

end Sys2Proof.Machine
end

