-- ==== Sys2Proof/Machine/State.lean ====
section
/-!
DEFINITION. Machine/State.lean: the state of the NZ-64T block, all of it plain data. Registers that software reads and
writes whole are words; status that lives inside the device is Bool, Nat or an inductive, and Machine/Registers.lean
composes the register's bits from it. The default of every field is its reset value (INVENTORY.md, State).
-/
namespace Sys2Proof.Machine

/-- Reasons for a command to stop the block. -/
inductive Fault where
  /-- BOOT_START with TEST_MODE high: the device enters factory test and leaves the scope of the manual (10 R350).
  Raised by BOOT_START only. Safe: the model stops where the spec gives no effect. -/
  | factoryTest
deriving DecidableEq, Repr

/-- Reasons for a command to have no meaning. -/
inductive Refusal where
  /-- The command has no meaning yet; the string is its mnemonic. Raised by arms of exec only. Safe. -/
  | notModelled (mnemonic : String)
deriving DecidableEq, Repr

/-! ### Stamps, records, memory -/

/-- A station-time stamp (05 Table 5.3, 08 R279). -/
structure Stamp where
  sec : Nat := 0
  ns : Nat := 0
  tq : Bool := true
deriving DecidableEq, Repr

/-- An event record on its way to the event-queue engine (05 R151). -/
structure Record where
  cls : Nat
  src : Nat
  stamp : Stamp
  payload : BitVec 30
deriving DecidableEq, Repr

/-- Byte memory in canonical form: addresses strictly rising, no entry equal to what an unlisted address reads as.
Keys below 2^24 are device addresses; retention RAM and the QSPI flash have keys of their own above (Machine/Memory). -/
abbrev Mem := List Host.Cell

/-- A word with a latent ECC error: one bit (corrected at the next read or scrub) or two (uncorrectable) (13 R414). -/
structure EccError where
  mem : EccMem
  word : Nat
  fatal : Bool
deriving DecidableEq, Repr

/-! ### 02 Access, semaphores, mailboxes, management targets -/

/-- Holder of a semaphore or of a queue's head latch (02 Table 2.13, 05 Table 5.15). -/
inductive Holder where
  | sup
  | spi
  | ws
deriving DecidableEq, Repr

structure Sem where
  owner : Option Holder := none
  broken : Bool := false
deriving DecidableEq, Repr

/-- A posted write on its way to its domain (02 R48). -/
structure PostedWrite where
  addr : Nat
  value : Word
  master : Master
deriving DecidableEq, Repr

/-- The value word of a guarded pair waiting for its complement (02 R50); `refused` when it already met a lock or a busy
block, so that its complement has no effect. -/
structure HeldWord where
  addr : Nat
  value : Word
  master : Master
  refused : Bool := false
deriving DecidableEq, Repr

/-- How an access ended (02 Table 2.11). -/
inductive Verdict where
  | ok
  | decode
  | align
  | narrow
  | locked
  | guard
  | busy
  | value
deriving DecidableEq, Repr

structure Acc where
  errStat : Word := 0
  errCap : Word := 0
  errCap2 : Word := 0
  lock : Word := 0
  semForce : Word := 0
  sems : Vector Sem 16 := Vector.replicate 16 {}
  busy : Vector (Option PostedWrite) 10 := Vector.replicate 10 none
  held : List HeldWord := []
  /-- What the last access by a register master answered: its end and, for a read, the data. -/
  answer : Verdict := .ok
  data : Word := 0
deriving DecidableEq, Repr

structure Mailbox where
  data : Word := 0
  full : Bool := false
  timeout : Bool := false
  overrun : Bool := false
  rcvReset : Bool := false
  sndReset : Bool := false
  /-- TIMEOUT has been raised for the present word (02 R67). -/
  timedOut : Bool := false
  /-- The thread that wrote the word in MBX_T2St (09 R321). -/
  thread : Option (Fin 8) := none
  /-- The word is one that the shipped policy of the thread sent to the arbiter (06 R200). -/
  budget : Bool := false
deriving DecidableEq, Repr

structure MbxBlock where
  timeout : Word := 0x00001064#32
  /-- In the order of Table 2.15: 0–3 H2S, 4–7 S2H, 8–15 S2T, 16–23 T2S. -/
  box : Vector Mailbox 24 := Vector.replicate 24 {}
deriving DecidableEq, Repr

structure Spi where
  /-- The status of the last transaction, and the byte shifted out during the last command byte (02 R40). -/
  status : Byte := 0
  first : Byte := 0
  /-- The address of a read that is still in progress; status and data of the last read that completed (02 R41). -/
  pending : Option Addr := none
  lastStatus : Byte := 0
  lastData : Word := 0
  /-- The bytes SPI_SO shifted out in the last transaction, after its dummy clocks. -/
  out : List Byte := []
  /-- Consecutive transactions that ended with FRAME or BADCMD; declared lost and nothing completed since (02 R56). -/
  badFrames : Nat := 0
  lost : Bool := false
deriving DecidableEq, Repr

/-- Which byte of the last wake-serial transaction the target NACKed (02 R44, R45, R501). -/
inductive WsNack where
  | none
  | addrLow
  | firstData
  | lastData
  | extraData
  | addressRead
deriving DecidableEq, Repr

structure Ws where
  nack : WsNack := .none
  out : List Byte := []
  badCounts : Nat := 0
  lost : Bool := false
  answers : Bool := true
deriving DecidableEq, Repr

/-! ### 03 Teams -/

/-- USB state of a team (03 Table 3.2). -/
inductive UsbState where
  | detached
  | attached
  | default
  | address
  | configured
  | suspended
  | l1
deriving DecidableEq, Repr

/-- The last answer the device gave on a UFP. -/
inductive UsbAnswer where
  | none
  | ack
  | nak
  | stall
  | nyet
  | err
  | data (one : Bool) (bytes : List Byte)
  | mdata (bytes : List Byte)
  | corrupt
  | control (bytes : List Byte)
deriving DecidableEq, Repr

/-- State of the DFU interface (11 R374, DFU 1.1 names). -/
inductive DfuState where
  | appIdle
  | dfuIdle
  | dnloadSync
  | dnloadIdle
  | manifest
  | error
deriving DecidableEq, Repr

structure Station where
  st : UsbState := .default
  /-- ENABLE of hub port 65: a port reset has ended since it connected (03 Table 3.9). -/
  enabled : Bool := false
  addr : Nat := 0
  rwake : Bool := false
  l1 : Bool := false
  suspended : Bool := false
  /-- In DFU mode; reconnected in it and not yet reset (11 R374, 03 R95). -/
  dfuMode : Bool := false
  dfuFresh : Bool := false
  dfu : DfuState := .appIdle
  dfuStatus : Nat := 0
  pollMs : Nat := 0
deriving DecidableEq, Repr

/-- One entry of a team's correlation ring (08 Table 8.5). -/
structure CorrEntry where
  w0 : Word := 0
  w1 : Word := 0
  w2 : Word := 0
  w3 : Word := 0
deriving DecidableEq, Repr

structure Corr where
  seq : BitVec 12 := 0
  newest : Fin 8 := 0
  entries : Vector CorrEntry 8 := Vector.replicate 8 {}
  any : Bool := false
  /-- SOFs since the last entry (08 R282). -/
  sofs : Nat := 0
  /-- Entries the endpoint 0x82 has not sent, at most eight. -/
  unsent : Nat := 0
  ovf : Bool := false
  /-- The stamp of the previous entry in ns, when DELTA has a base (08 Table 8.5). -/
  prev : Option Nat := none
deriving DecidableEq, Repr

/-- State of one HS transmitter's adaptive loops (10 R358, Table 10.12). -/
structure Phy where
  amp : Int := 0
  pe : Nat := 0
  frozen : Bool := false
  sq : Nat := 0
  disc : Nat := 0
  /-- EOPs, EOPs of SOFs, and samples of the idle noise since the last HS connection. -/
  samples : Nat := 0
  sofs : Nat := 0
  idle : Nat := 0
  /-- ADAPT_EN has been 1 since the last HS connection (10 R359). -/
  adapting : Bool := false
deriving DecidableEq, Repr

structure Team where
  ctl : Word := 0
  timing : Word := 0x00000064#32
  qmask : BitVec 16 := 0
  phyCfg : Word := 0x00000200#32
  phy : Phy := {}
  fsOnly : Bool := false
  lpmEn : Bool := false
  rdEn : Bool := false
  /-- Uu_VBUS is valid (03 Table 3.2, 14 R465). -/
  vbusOk : Bool := false
  pullUp : Bool := false
  speed : Option Speed := none
  multiTt : Bool := false
  st : UsbState := .detached
  /-- The state to which resume or L1 exit returns. -/
  under : UsbState := .detached
  rwakeEn : Bool := false
  addr : Nat := 0
  drivingK : Bool := false
  /-- Ports whose remote wake waits for the host's resume, and the station function's (03 R98, R99). -/
  wakePorts : List PortId := []
  stationWoke : Bool := false
  l1Wake : Bool := false
  frame : Nat := 0
  uframe : Nat := 0
  /-- Microframes counted (04 R123): the microframe number that contexts name. -/
  count : Nat := 0
  /-- A SOF has come since bus reset, resume or L1 exit: the count runs (04 R123). -/
  counting : Bool := false
  /-- Where the last packet of the repeat path went: the ports that a lane carried it to, or the port whose packet went up (03 R89, R90). -/
  sentDown : List PortId := []
  sentUp : Option PortId := none
  /-- Logical power of hub ports 1–65 (index hub port − 1) (03 R72). -/
  power : Vector Bool 65 := Vector.replicate 65 false
  /-- wPortChange of hub ports 1–65 on this team (03 R72, R84). -/
  change : Vector (BitVec 16) 65 := Vector.replicate 65 0
  station : Station := {}
  corr : Corr := {}
  /-- Transmit buffer of the station function's endpoint 0x81: items sent and not yet acknowledged (03 R93, 05 R167). -/
  evBuf : List Byte := []
  answer : UsbAnswer := .none
deriving DecidableEq, Repr

/-! ### 04 Transaction translators -/

/-- Where a split transaction stands (04 Table 4.3). -/
inductive TxnPhase where
  | waiting
  | ready
  | running
  | complete (r : BusResult)
  | failed
  | retired
deriving DecidableEq, Repr

structure Txn where
  dev : Nat
  ep : Nat
  dirIn : Bool
  setup : Bool
  ty : XferType
  /-- The iso OUT parts are all here (04 R126); true for every other transaction. -/
  whole : Bool := true
  phase : TxnPhase := .waiting
  /-- Its data in the creel: the byte addresses of its 8-byte units in order, and the bytes written (04 R121). -/
  units : List Nat := []
  len : Nat := 0
  /-- Shared cells of the creel that it holds (04 R121). -/
  cells : List Nat := []
  /-- Bytes of an IN result returned by earlier complete-splits, the bytes of the last one, and the microframe count at
  it (04 R127). -/
  returned : Nat := 0
  last : Nat := 0
  answeredAt : Option Nat := none
  /-- The last answer carried the final bytes (04 R127). -/
  final : Bool := false
  /-- ClearTTBuffer met the transaction on the port bus: its result is discarded (04 R141). -/
  discard : Bool := false
  /-- Its descriptor was lost on a control channel in a spare switch: the tile never runs it (04 R139). -/
  lost : Bool := false
deriving DecidableEq, Repr

structure Ctx where
  periodic : Bool
  shared : Bool
  /-- Its place in the 512-context store (log 14). -/
  slot : Nat
  /-- The microframe count Y of a periodic context (04 R118). -/
  y : Nat := 0
  txns : List Txn
  /-- First answer given: NP_HOLD runs (04 R130). -/
  answered : Bool := false
deriving DecidableEq, Repr

structure Tt where
  ctxs : List Ctx := []
  /-- Next 8-byte unit of the periodic ring, 0 to 383 (04 R121). -/
  ringNext : Nat := 0
  stopped : Bool := false
  /-- Stop asked for while a reset runs (04 R144), or until the running transaction ends (R142). -/
  stopNext : Bool := false
  /-- Reset in progress, t0 to t0 + 2 ms (04 R143). -/
  resetting : Bool := false
  /-- The port has stopped being served and its contexts are not yet freed (03 R107). -/
  retiring : Bool := false
  busErr : Nat := 0
  npNak : Nat := 0
  /-- A ClearTTBuffer or ResetTT request waits for its status stage (04 R141, R143). -/
  statusPending : Bool := false
  /-- A transaction is on the port bus, whether its context still stands or not (04 R137, R141, R142). -/
  onBus : Bool := false
deriving DecidableEq, Repr

structure Ttc where
  ctl : Word := 0x00100410#32
  err : Word := 0
  npNak : BitVec 64 := 0
  pdrop : Word := 0
deriving DecidableEq, Repr

/-! ### 05 Creel and event queues -/

structure Queue where
  cfg : Word := 0x00000280#32
  head : Nat := 0
  tail : Nat := 0
  cells : Nat := 0
  /-- Words of the head cell already read or latched. -/
  rd : Nat := 0
  /-- Items on the list whose END word is not read or latched. -/
  records : Nat := 0
  nextSeq : BitVec 16 := 0
  flushed : Bool := false
  ptrReset : Bool := false
  noSpace : Bool := false
  holdTo : Bool := false
  gapOpen : Bool := false
  reserve : Option Nat := none
  /-- Enabled without a reserve and waiting for the first freed shared cell (05 R159). -/
  wantsReserve : Bool := false
  latch : List Word := []
  holder : Option Holder := none
  drop : Word := 0
  /-- The reclaim scan of a queue reset runs (05 R165). -/
  scanning : Bool := false
  /-- The cell that the scan visits next; the queue held no reserve when the reset began (05 R165, R166). -/
  scanAt : Nat := 4096
  bare : Bool := false
  /-- A marker that the engine holds until a cell is found (05 R166): its COUNT. -/
  heldMarker : Option Nat := none
deriving DecidableEq, Repr

structure Crl where
  ctl : Word := 0x00000001#32
  err : Word := 0
  noroute : Word := 0
  croute : Vector Word 63 := Vector.replicate 63 0x00000100#32
  pq : Vector Word 8 := Vector.replicate 8 0
  freeHead : Nat := 4096
  freeTail : Nat := 16383
  freeCount : Nat := 12288
  /-- `now` at the start of a running free-list rebuild (05 R168). -/
  rebuild : Option Nat := none
  /-- Cells freed below the scan position of the rebuild: the position and the cell, oldest first. -/
  late : List (Nat × Nat) := []
deriving DecidableEq, Repr

/-! ### 06 Type-C and Power Delivery -/

/-- PORT_TC_STAT.STATE (06 Table 6.13). -/
inductive TcState where
  | unattached
  | attachWait
  | attached
  | disabled
  | errorRecovery
  | unsupported
deriving DecidableEq, Repr

/-- Rp presented on the CC pins. -/
inductive Rp where
  | none
  | dflt
  | a15
  | a30
deriving DecidableEq, Repr

/-- Orientation, or a selected CC pin (06 Table 6.13, 09 R326). -/
inductive Pin where
  | none
  | cc1
  | cc2
deriving DecidableEq, Repr

/-- Setting of a port's SBU switch (09 R326). -/
inductive Sbu where
  | isOpen
  | straight
  | crossed
deriving DecidableEq, Repr

structure PortTc where
  cfg : Word := 0x0000E120#32
  /-- The configuration in effect since the last attach or capabilities (06 R225). -/
  eff : Word := 0x0000E120#32
  st : TcState := .unattached
  cc1 : Cc := .vOpen
  cc2 : Cc := .vOpen
  orient : Pin := .none
  ra : Bool := false
  vconnOn : Bool := false
  vconnPartner : Bool := false
  vconnOc : Bool := false
  /-- The over-current VCONN record is still to be posted (06 R205). -/
  ocDue : Bool := false
  rp : Rp := .none
  baseLearn : Bool := false
  baseFrozen : Bool := false
  samples : List Int := []
  baseline : Int := 0
  /-- tCCDebounce and tPDDebounce run (06 R172, R175). -/
  ccDebounce : Bool := false
  pdDebounce : Bool := false
  ccsel : Pin := .none
  sbu : Sbu := .isOpen
  /-- The station-time signals run on the closed SBU switches from the next second boundary on (06 R219); the level of
  SBU1's pulse and the number of the IRIG-B004 element on SBU2 (08 R286). -/
  sbuRun : Bool := false
  sbuPulse : Bool := false
  sbuElement : Nat := 0
  /-- Elements of 10 ms left of SBU1's pulse; the frame on SBU2, and that it ends with its running element (08 R277, R286). -/
  sbuLeft : Nat := 0
  sbuFrame : List IrigSym := []
  sbuStop : Bool := false
  ccHold : Bool := false
  sbuHold : Bool := false
deriving DecidableEq, Repr

/-- PORT_PD_STAT.PE_STATE (06 Table 6.15). -/
inductive PeState where
  | noPd
  | negotiating
  | ready
  | transition
  | hardReset
  | pdDisabled
deriving DecidableEq, Repr

/-- A Fixed Supply PDO the port advertises: voltage in 50 mV, maximum current in 10 mA. -/
structure Pdo where
  volt : Nat
  cur : Nat
deriving DecidableEq, Repr

/-- A PD message on the wire. -/
structure PdMsg where
  frame : Frame := .sop
  header : BitVec 16 := 0
  objs : List Word := []
  /-- Further bytes of an extended message's one chunk. -/
  bytes : List Byte := []
deriving DecidableEq, Repr

/-- Timers of the port policy (06 Table 6.2) that run at a moment. -/
inductive PdTimer where
  | sourceCapability
  | senderResponse
  | commit8ms
  | srcTransition
  | srcSettle
  | psHardReset
  | srcRecover
  | noResponse
  | sinkTx
  | vconnStable
  | discoverIdentity
  | vconnSource
  | vconnPin
  | vdm
  | chunk
  | waitCap
  | errorRecovery
deriving DecidableEq, Repr

/-- What the port waits for in a message sequence of its own (06 R213, R215). -/
inductive Seq where
  | none
  | request
  | capsHold
  | capsReduced
  | softReset
  | vconnSwap
  | cableId
  | stIdentity
  | stSvids
  | stModes
  | stEnter
  | stConfig
  | stStatus
  | stExit
deriving DecidableEq, Repr

/-- What happened on a port while its weaver's program could not act, for the policy to act on when it can (01 R20, 09 R332). -/
inductive Late where
  /-- A record of the shipped program: class, stamp and payload. -/
  | post (cls : Nat) (st : Stamp) (payload : Word)
  /-- Hard Reset signalling came. -/
  | hardReset
  /-- The rail was lost: Hard Reset is due. -/
  | sendReset
  /-- VBUS went with a trip or with the feed. -/
  | vbusLost
  /-- The want may have changed. -/
  | want
  /-- A send ended, acknowledged or failed. -/
  | sent (m : PdMsg)
  | failed (m : PdMsg)
  /-- A message was dropped for want of a slot. -/
  | rxOvf
  /-- The feed has returned; the cooldown or latch-off has ended. -/
  | feedBack
  | vbusAgain
  /-- The servo changed its state. -/
  | stStatus
  /-- PD_EN and ST_EN changed. -/
  | pdEn
  | stEn
deriving DecidableEq, Repr

/-- A valid Request whose COMMIT the arbiter has not answered (06 R189). -/
structure Req where
  objpos : Nat
  volt : Nat
  cur : Nat
  mismatch : Bool
  answered : Bool := false
deriving DecidableEq, Repr

structure PortPd where
  cfg : Word := 0xB0C80096#32
  eff : Word := 0xB0C80096#32
  pe : PeState := .noPd
  /-- 0 none, 1 Revision 2.0, 2 Revision 3.x (06 Table 6.15). -/
  rev : Nat := 0
  objpos : Nat := 0
  alt : Bool := false
  waits : Nat := 0
  cableId : Bool := false
  cable : Word := 0
  opCur : Nat := 0
  volt : Nat := 0
  mismatch : Bool := false
  hardResets : Nat := 0
  softResets : Nat := 0
  txFail : Nat := 0
  rxCrc : Nat := 0
  caps : List Pdo := []
  capsSent : Nat := 0
  hrCount : Nat := 0
  req : Option Req := none
  seq : Seq := .none
  /-- The VDM whose answer is still awaited while a sequence of the sink runs (06 R192, R215). -/
  after : Seq := .none
  /-- The port's own sequences that wait for tSinkTx or for another sequence to end, oldest first; one of them runs (06 R191). -/
  own : List Seq := []
  ownRun : Bool := false
  sinkNg : Bool := false
  timers : List PdTimer := []
  discCount : Nat := 0
  discDone : Bool := false
  stDone : Bool := false
  stRefused : Bool := false
  modeVdo : Word := 0
  transMon : Bool := false
  swapToPort : Bool := false
  /-- Protection trips since the last Status: OCP, OTP, OVP (06 Table 6.4). -/
  ocp : Bool := false
  ovp : Bool := false
  /-- Messages waiting for the PHY's transmitter, oldest first. -/
  outq : List PdMsg := []
  asked : List Nat := []
  /-- The hold that the weaver knows from the last budget word, in 0.1 W (06 R185). -/
  hold : Nat := 0
  /-- The hold is known and the first Source_Capabilities is due (06 R209). -/
  capsDue : Bool := false
  bistMode : Bool := false
  /-- What the policy has still to act on, oldest first. -/
  late : List Late := []
deriving DecidableEq, Repr

/-- A receive slot of the CC/PD PHY (09 Table 9.13). -/
structure Slot where
  msg : PdMsg
  stamp : Stamp
deriving DecidableEq, Repr

/-- A send in progress (09 R324). -/
structure Tx where
  msg : PdMsg
  started : Bool := false
  retries : Nat := 0
  /-- Sent by PDSEND of the weaver's program rather than by the shipped policy. -/
  bySend : Bool := false
deriving DecidableEq, Repr

structure PdPhy where
  slots : List Slot := []
  txBuf : Vector Word 8 := Vector.replicate 8 0
  tx : Option Tx := none
  rxOvf : Nat := 0
  optSop1 : Bool := false
  optRev2 : Bool := false
  bist : Bool := false
  idSop : Nat := 0
  idSop1 : Nat := 0
  rxId : Option Nat := none
  rxId1 : Option Nat := none
  /-- Frame and MessageID of the last GoodCRC that the PHY sent (01 R19). -/
  goodcrc : Option (Frame × Nat) := none
  txStamp : Option Stamp := none
  ccStamp : Option Stamp := none
  /-- Stamp of the message that the policy has taken last (09 R323, 08 Table 8.4). -/
  takenAt : Option Stamp := none
  /-- The CC monitor has latched a preamble while the tile's clock was gated (12 R393). -/
  heard : Bool := false
deriving DecidableEq, Repr

structure BudPort where
  prio : Byte := 0
  starved : Bool := false
  waiting : Bool := false
  /-- BUD_PORTn.HOLD as it reads (06 Table 6.24), and the arbiter's allocation behind it in 0.1 W (06 R226). -/
  hold : BitVec 16 := 0
  alloc : Nat := 0
  base : Nat := 0
  want : Nat := 0
  /-- `now` of the last OFFER (06 R197). -/
  offered : Option Nat := none
deriving DecidableEq, Repr

/-- Budget words of Table 6.5. -/
structure BudWord where
  op : Nat
  tag : Byte
  power : BitVec 16
deriving DecidableEq, Repr

structure Bud where
  ctl : Word := 0x00003230#32
  global : Word := 0x00002580#32
  relay : Word := 0x00000014#32
  /-- `now` at the last relay grant since the engine started (07 R243). -/
  relayAt : Option Nat := none
  oversub : Bool := false
  cntWaits : Nat := 0
  cntReduced : Nat := 0
  grp : Vector Word 8 := Vector.replicate 8 0x003204B0#32
  port : Vector BudPort 64 := Vector.replicate 64 {}
  /-- Budget words that wait for their mailbox: of weavers stalled in MSEND, and of the arbiter (01 R20, 06 R502). -/
  up : List (PortId × BudWord) := []
  down : List (PortId × BudWord) := []
deriving DecidableEq, Repr

/-! ### 07 Group feeds, port switches, protection -/

/-- Switch path (07 Table 7.16). -/
inductive Path where
  | none
  | five
  | rail
deriving DecidableEq, Repr

/-- PORT_PWR_STAT.PSTATE (07 Table 7.17). -/
inductive PState where
  | off
  | waiting
  | ramping
  | on
  | transition
  | cooldown
  | latched
  | fwOff
deriving DecidableEq, Repr

structure PortPwr where
  pwrCfg : Word := 0x00500A28#32
  protCfg : Word := 0x500A0551#32
  curve : Vector Word 8 := #v[0x0DC30D40#32, 0x0FA0C350#32, 0x12C02710#32, 0x15E00BB8#32, 0x190003E8#32, 0x1F40012C#32, 0x25800064#32, 0x32000014#32]
  /-- The configuration in effect since the last keeper write or ramp (07 R258). -/
  effPwr : Word := 0x00500A28#32
  effProt : Word := 0x500A0551#32
  effCurve : Vector Word 8 := #v[0x0DC30D40#32, 0x0FA0C350#32, 0x12C02710#32, 0x15E00BB8#32, 0x190003E8#32, 0x1F40012C#32, 0x25800064#32, 0x32000014#32]
  /-- PORT_KEEPER: the last accepted setting (07 R240). -/
  keeper : Word := 0
  /-- The setting the ramp or transition in progress was started for; the setting in force otherwise. -/
  inForce : Word := 0
  held : Bool := false
  pathNow : Path := .none
  pstate : PState := .off
  pgood : Bool := false
  armed : Bool := false
  stage : Nat := 0
  retries : Nat := 0
  pfetL : Bool := false
  pfetH : Bool := false
  /-- A latched fault is a FET short (07 R252). -/
  fetShort : Bool := false
  refuse : Nat := 0
  flags : Word := 0
  /-- `now` at the start of the cooldown that runs (07 R254). -/
  coolStart : Nat := 0
  vbus : Nat := 0
  cur : Int := 0
  cload : Nat := 0
  slew : Nat := 0
  gateLearn : Nat := 0
  gateSamples : List Nat := []
  gateNow : Nat := 0
  fwOff : Bool := false
  ftRun : Bool := false
  curveRun : Vector Bool 8 := Vector.replicate 8 false
  discharge : Bool := false
  /-- Over-voltage threshold in 50 mV that stands until the end of a transition (07 R239, R240). -/
  ovHigh : Nat := 0
  probed : Bool := false
  /-- VBUS from which the planned rise counts, in 50 mV, and the 250 µs checks since (07 R247). -/
  rampBase : Nat := 0
  rampChecks : Nat := 0
  /-- A trip has happened and VBUS has not been good since (07 R253). -/
  tripped : Bool := false
  /-- A relay slot has been granted for the present rise from vSafe0V (07 R243). -/
  granted : Bool := false
deriving DecidableEq, Repr

/-- FEED_STATE (07 Table 7.7). -/
inductive FeedState where
  | off
  | qualifying
  | ramping
  | on
  | good
  | warning
  | cooldown
  | disabled
deriving DecidableEq, Repr

structure Group where
  cfg : Word := 0x0000840A#32
  thr : Word := 0x1806C258#32
  lim : Word := 0x28A05014#32
  st : FeedState := .disabled
  pg : Bool := false
  railUp : Bool := false
  limiting : Bool := false
  stage : Nat := 0
  /-- Trips since STAGE was last reset (07 R233). -/
  trips : Nat := 0
  /-- GRP_STAT [7:2]: RAIL_BUSY, FET_FAIL, FAST, FT, OV, UV. -/
  flags : BitVec 8 := 0
  feedV : Nat := 0
  railV : Nat := 0
  feedI : Nat := 0
  /-- Comparators of UV, OV and WARN that have crossed and not yet returned by their hysteresis (07 R230, R231). -/
  uvLow : Bool := false
  ovOver : Bool := false
  warnLow : Bool := false
  /-- Boot step 6 has released the feed (07 R503). -/
  released : Bool := false
  /-- GRP_CFG, GRP_THR and GRP_LIM that a feed on across a chip reset keeps until boot step 6 (07 R503). -/
  rim : Option (Word × Word × Word) := none
  /-- The feed tripped in DEEP: it stays off until the device wakes (07 R256). -/
  deepTrip : Bool := false
deriving DecidableEq, Repr

/-! ### 03 hub side of a physical port -/

structure HubPort where
  /-- PORT_TEAM.TEAM, 4 = none (03 Table 3.20). -/
  owner : Nat := 0
  /-- PORT_TEAM.TEAM of the team that gives the port up, while MSTATE is retiring. -/
  oldOwner : Nat := 0
  mstate : Nat := 0
  refused : Bool := false
  dev : Option Speed := none
  conn : Bool := false
  enable : Bool := false
  suspend : Bool := false
  /-- Selective suspend was set and traffic goes on until the next microframe boundary (03 R97). -/
  lingers : Bool := false
  resuming : Bool := false
  /-- The resume answers the device's remote wake and not the host's request (03 R98, R100). -/
  devResume : Bool := false
  /-- K is driven down the port while its suspended team propagates a remote wake (03 R98). -/
  k : Bool := false
  oc : Bool := false
  reset : Bool := false
  l1 : Bool := false
  l1Besl : Nat := 0
  l1Wake : Bool := false
  l1Resuming : Bool := false
  lowSpeed : Bool := false
  highSpeed : Bool := false
  test : Option TestMode := none
  /-- The tile of the port is reset or isolated (10 R345): CONNECTION is held at 0. -/
  cut : Bool := false
  babbling : Bool := false
  phyCfg : Word := 0x00000200#32
  phy : Phy := {}
  /-- Logical power off with PWR_SW = 1 has withdrawn Rp (03 R86, 06 R176). -/
  rpOff : Bool := false
  /-- A ClearPortFeature(PORT_POWER) waits for the end of the discharge (03 R105). -/
  powerPending : Bool := false
  /-- Change bits that physical events set during a move, for the target team (03 R113). -/
  moveChange : BitVec 16 := 0
  /-- The frame at whose start the port sent its last SOF token, or keep-alive at low speed (04 R138). -/
  frameMark : Option Nat := none
deriving DecidableEq, Repr

structure Port where
  hub : HubPort := {}
  tc : PortTc := {}
  pd : PortPd := {}
  phy : PdPhy := {}
  pw : PortPwr := {}
deriving DecidableEq, Repr

/-! ### 08 Station time -/

/-- Servo states (08 Table 8.2). -/
inductive Servo where
  | unset
  | free
  | acquire
  | track
  | holdover
  | freq
deriving DecidableEq, Repr

/-- A phase reference in use (08 R263). -/
inductive Ref where
  | none
  | ppsA
  | ppsB
  | irig
  | ref10m
deriving DecidableEq, Repr

structure Pps where
  ok : Bool := false
  /-- Consecutive edges that qualified so far. -/
  run : Nat := 0
  /-- The counter's reading in quarter ns at the last accepted edge, and the phase error of that edge (08 R262, R265). -/
  lastEdge : Option Int := none
  err : Int := 0
deriving DecidableEq, Repr

structure Tim where
  sec : BitVec 32 := 0
  ns : Nat := 0
  running : Bool := false
  st : Servo := .unset
  valid : Bool := false
  ref : Ref := .none
  a : Pps := {}
  b : Pps := {}
  irigOk : Bool := false
  irigRun : Nat := 0
  irigBad : Nat := 0
  /-- Time of the last good frame while frames follow each other, its day of year and its phase error (08 R262, R266). -/
  irigLast : Option IrigTime := none
  irigDay : Nat := 0
  irigErr : Int := 0
  irigDiffN : Nat := 0
  refOk : Bool := false
  refRun : Nat := 0
  /-- Offset of REF10M from the crystal at its last gate, in ppb. -/
  refPpb : Int := 0
  learned : Bool := false
  freqAid : Bool := false
  holdSecs : Nat := 0
  evt : Word := 0
  refCfg : Word := 0x00000A14#32
  servoCfg : Word := 0x36320A43#32
  holdCfg : Word := 0x05A0060A#32
  leap : Word := 0
  setSec : Word := 0
  setNs : Word := 0
  /-- The seconds of an AT_EDGE set that waits (08 R275). -/
  pending : Option (BitVec 32) := none
  freq : Word := Config.factoryFreq
  /-- The start word (08 R273). -/
  start : Word := Config.factoryFreq
  phase : Int := 0
  ppsDiff : Word := 0x80000000#32
  disagreeN : Nat := 0
  ppsoutCfg : Word := 0x00019000#32
  corrCfg : Word := 0x00000003#32
  /-- The loop since entry to ACQUIRE (08 R271 to R273): samples, consecutive samples below LOCK_THR, Σe in quarter ns, the
  frequency word that the loop corrects, the last sample and the phase correction made at it in 0.1 ppb, and the sum and
  number of the frequency errors measured in the freeze. -/
  samplesN : Nat := 0
  lockN : Nat := 0
  sumE : Int := 0
  base : Int := 0
  /-- The counter's reading at the edge of the last sample, in quarter ns (08 R273); it moves with a step or a set. -/
  lastAt : Option Int := none
  lastProp : Int := 0
  errSum : Int := 0
  errN : Nat := 0
  /-- The first sample since entry is due; entry was from UNSET, so that it steps (08 R272). -/
  firstDue : Bool := false
  fromUnset : Bool := false
  outliers : List Int := []
  /-- Step of the counter at the next second boundary, in quarter ns; it sets the seconds by IRIG-B (08 R266). -/
  step : Option Int := none
  stepSets : Bool := false
  /-- The inserted leap second, second 60, runs: TAI_UTC rises at its end (08 R268, R286). -/
  leap60 : Bool := false
  trackWords : List Int := []
  /-- Second from whose boundary on pulses run again after a step or set (08 R277). -/
  quietTo : Nat := 0
  ppsOut : Bool := false
  /-- Width in ms of the pulse of PPS_OUT that runs (08 R285). -/
  ppsWidth : Nat := 0
  /-- Payloads of TIME_STATE records that wait for the second boundary whose stamp they carry (08 Table 8.4). -/
  due : List Word := []
deriving DecidableEq, Repr

/-! ### 09 PSI cores and tiles -/

/-- TILE_THRn_STAT.STATE (09 Table 9.22). -/
inductive RunState where
  | halted
  | running
  | ewait
  | wait
  | stallSend
  | stallRld
  | dead
  | stallFence
deriving DecidableEq, Repr

structure Timer where
  running : Bool := false
  /-- The count it was started with, and `now` at the start (one `now` is 8 ns). -/
  count : Nat := 0
  start : Nat := 0
  stamp : Option Stamp := none
  /-- The cycle of the last expiry, as `now` and the pc of the instruction that the core was at, with TMRn and the stamp before it: a start
  or stop in the same cycle wins (09 R316). -/
  undo : Option (Nat × Word × Bool × Option Stamp) := none
deriving DecidableEq, Repr

/-- A stalled instruction of a core: MSEND of a word to a mailbox, or a remote RLD. -/
inductive Stall where
  | none
  | send (mbx : Fin 24) (v : Word)
  | rld (rd : Reg) (addr : Nat) (w : Width)
deriving DecidableEq, Repr

structure Cpu where
  st : RunState := .halted
  /-- RUN of TILE_CTL for a weaver; the supervisor is out of reset. -/
  run : Bool := false
  pc : Word := 0
  regs : Vector Word 16 := Vector.replicate 16 0
  n : Bool := false
  z : Bool := false
  c : Bool := false
  v : Bool := false
  ex : Bool := false
  ie : Bool := false
  epc : Word := 0
  ecause : Byte := 0
  eaddr : Word := 0
  estat : Word := 0
  emask : Word := 0
  /-- The latched bits of EPEND. -/
  epend : Word := 0
  evec : Word := 0
  ien : Word := 0
  /-- `now` at the core's reset, from which CYCLE counts; `now` at the last reload of the watchdog (09 Table 9.14). -/
  cycle : Nat := 0
  wdogAt : Nat := 0
  timers : Vector Timer 4 := Vector.replicate 4 {}
  /-- Destination and mask of a waiting EWAIT or WAIT. -/
  waitRd : Reg := 0
  waitMask : Word := 0
  stall : Stall := .none
  restarts : Nat := 0
  /-- `now` of the hardware restarts (13 R438). -/
  hwRestarts : List Nat := []
  /-- The thread has not run since its reset or restart: it starts at its entry (09 R297, 10 R345). -/
  fresh : Bool := true
  /-- `now` when it last began to run (11 R380). -/
  ranAt : Nat := 0
  /-- Resets of the core; what an event compares across one latches nothing (10 R343). -/
  births : Nat := 0
deriving DecidableEq, Repr

/-- FLT_LINKt_STAT and the link's state (13 Table 13.19, R442, R443). -/
structure Link where
  trained : Bool := false
  spare : Option Lane := none
  switching : Bool := false
  second : Option Lane := none
  isolated : Bool := false
  resends : Nat := 0
  /-- Failed resends of the frame in flight (01 R14). -/
  fails : Nat := 0
  /-- Lanes that have failed since the last training that passed, oldest first (13 R442, R443). -/
  failed : List Lane := []
deriving DecidableEq, Repr

structure Tile where
  on : Bool := false
  ready : Bool := false
  evec : Word := 0x00007C00#32
  mbxCfg : Word := 0x00000118#32
  postLost : Nat := 0
  restarts : Nat := 0
  thr : Vector Cpu 8 := Vector.replicate 8 {}
  /-- The replica is outside its window, or had no sync frame yet (01 R23, 10 Table 10.10). -/
  replicaOut : Bool := true
  /-- `now` of the last step or set of the counter, which the replica applies within 2 µs (08 R276). -/
  changedAt : Option Nat := none
  /-- The ticks of `now` until it does, and how far behind its reading is until then, in ns; between sync frames it keeps its distance from
  the counter (log 166). -/
  applyIn : Nat := 0
  lag : Int := 0
  replicaErr : Int := 0
  link : Link := {}
  major : Nat := 0
  /-- Microframe count of each team whose marker has reached the tile (04 R137). -/
  micro : Vector Nat 4 := Vector.replicate 4 0
deriving DecidableEq, Repr

/-! ### 10–12 Power-up, boot, update, power states -/

/-- Where power-up stands (10 Table 10.2 instants), also at a wake (12 R401): `offWait` the 10 ms with CORE_EN low, `gaveUp`
after two failed attempts, `minOff` and `asleep` in DEEP and OFF before and after p2 + 1 ms. -/
inductive PwrPhase where
  | vrimOff
  | rimReset
  | waitPwrOk
  | waitOsc
  | waitCore
  | coreUp
  | boot
  | run
  | offWait
  | gaveUp
  | resetHeld
  | minOff
  | asleep
deriving DecidableEq, Repr

structure Pwr where
  phase : PwrPhase := .rimReset
  coreEn : Bool := false
  second : Bool := false
  resetLow : Bool := false
  /-- Boot step 9 is done: FAULT_N may be high (13 R418). -/
  bootDone : Bool := false
  /-- The level of FAULT_N low at p1, which the rim holds through DEEP and OFF (12 Table 12.3). -/
  faultHeld : Option Bool := none
  tapHeld : Bool := true
  trstLow : Bool := false
  fromDeep : Bool := false
  fromOff : Bool := false
  wakeFailed : Bool := false
deriving DecidableEq, Repr

/-- What boot step 5 finds: the writes of step 6, TEAM_CTL among them, and the word of step 8 (10 R353 to R356). -/
structure CfgPlan where
  records : List (Nat × Word × Bool)
  lock : Word
  start : Option Word
  fault : Nat
  index : Nat
  serial : List Byte
deriving DecidableEq, Repr

/-- An activation restart that waits for a tile's ports to leave PSTATE 4 (11 R376): the slot it loads, the tile, whether flash takes the
fallback entry, and `now` at the start of the wait. -/
structure Activation where
  slot : Nat
  tile : Nat
  writes : Bool
  since : Nat
deriving DecidableEq, Repr

/-- Paths of an update session (11 R371). -/
inductive UpdPath where
  | none
  | spi
  | ws
  | dfu (u : TeamId)
deriving DecidableEq, Repr

/-- BOOT_UPD_STAT.STATE (11 Table 11.14). -/
inductive UpdState where
  | idle
  | isOpen
  | writing
  | verifying
  | verified
  | activating
  | failed
deriving DecidableEq, Repr

/-- The slot record (11 Table 11.7). -/
structure SlotRecord where
  seq : Nat := 0
  active : Nat := 0
  trial : Bool := false
  tries : Nat := 0
  prev : Nat := 0
  minRollback : Nat := 0
  keyMin : Nat := 0
  version : Word := 0
deriving DecidableEq, Repr

/-- A command on the QSPI interface: its code, its 3-byte address, and whether data pass on four lanes (14 R459). -/
structure QspiCmd where
  op : Byte
  addr : Option (BitVec 24) := none
  quad : Bool := false
deriving DecidableEq, Repr

/-- The QSPI interface: started by boot step 3 on one lane at 25 MHz, afterwards on four lanes at 50 MHz; the commands of the latest
read, program or erase, in the order sent. -/
structure Qspi where
  started : Bool := false
  quad : Bool := false
  sent : List QspiCmd := []
deriving DecidableEq, Repr

structure Boot where
  cfgDefaulted : Bool := false
  rescue : Bool := false
  slot : Nat := 0
  cfgFault : Nat := 0
  cfgRec : Nat := 0
  step : Nat := 0
  serial : List Byte := List.replicate 12 0x30#8
  policy : Word := 0x000000F3#32
  arg : Word := 0
  upd : UpdState := .idle
  busy : Bool := false
  src : UpdPath := .none
  err : Nat := 0
  partIdx : Nat := 0
  units : Nat := 0
  length : Nat := 0
  /-- Slot offset and bytes of the unit being programmed. -/
  unit : Option (Nat × List Byte) := none
  actReset : Bool := false
  /-- The slot record in force. -/
  slotRec : SlotRecord := {}
  /-- BOOT_TRIAL.STATE reads trial; the window's seconds left when it stopped or, while it runs, at `now` = windowAt. -/
  trial : Bool := false
  window : Nat := 0
  windowOn : Bool := false
  windowAt : Nat := 0
  verRun : Word := 0
  /-- Entry address of the running supervisor image. -/
  entry : Word := 0
  vectors : Word := 0
  /-- How the flash answers the boot in progress, until its remaining steps run. -/
  plan : Option FlashStatus := none
  /-- The slot that boot step 3 has chosen, and what step 5 has found. -/
  chosen : Option Nat := none
  cfg : Option CfgPlan := none
  qspi : Qspi := {}
  /-- An activation restart in progress. -/
  act : Option Activation := none
  /-- A CONFIRM was accepted and its entry is still to be written (11 R381). -/
  confirmDue : Bool := false
  /-- This chip reset followed a reset-mode activation: its boot is not counted (11 R379). -/
  afterReset : Bool := false
  /-- The time-mode tables that the running image loaded: start of a UTC day in POSIX seconds, TAI − UTC from then on (11 R366). -/
  timeTable : List (Nat × Nat) := []
deriving DecidableEq, Repr

/-- CRP_PS_STAT.STATE (12 Table 12.10). -/
inductive PsState where
  | run
  | idle
  | sleep
  | deep
  | off
  | entering
  | waking
  | wakeFailed
deriving DecidableEq, Repr

structure Crp where
  mode : Word := 0
  wsAddr : BitVec 7 := 0x4E
  rstCause : Word := 0x00000001#32
  st : PsState := .run
  /-- The state being entered, resident in or left. -/
  target : PsState := .run
  /-- DEEP entry may still be aborted (12 R395). -/
  abortable : Bool := false
  wakeFail : Bool := false
  failOsc : Bool := false
  wakeLast : Word := 0
  refused : Nat := 0
  refuser : Nat := 0
  refIndex : Nat := 0
  retErr : Word := 0
  wakeCfg : Word := 0x0000000F#32
  resTime : Word := 0
  retPtr : BitVec 14 := 0
  /-- CRC-32 of the retention banks computed at DEEP entry (12 R394). -/
  crcs : List Word := []
  /-- The latched wake source, and whether it was latched during entry. -/
  wake : Option WakeSrc := none
  /-- `now` of its latching. -/
  wakeAt : Nat := 0
  /-- Further sources that were detected with it: all are acted on (12 R398). -/
  wakeMore : List WakeSrc := []
  replay : Bool := false
  residentAt : Option Nat := none
  wakeN : Bool := false
  vconnStamp : Stamp := {}
  /-- The entry to be replayed after a DEEP wake: bank 15 passed its check. -/
  imageOk : Bool := false
  badBanks : List Nat := []
  dumpSeq : Nat := 0
deriving DecidableEq, Repr

/-! ### 13 Fault collector -/

/-- A report that a source's error line raised and the collector has not latched (13 R412); `handled` when the
raising step has already taken the source's fixed reaction, or there is nothing for its block reset to act on. -/
structure Line where
  src : Fin 64
  detail : Word
  handled : Bool := false
deriving DecidableEq, Repr

/-- A report in the collector's intake, or being recorded (13 R420). -/
structure Intake where
  src : Fin 64
  sev : Nat
  count : Nat
  stamp : Stamp
  detail : Word
  /-- `now` of its last report. -/
  lastAt : Nat
  /-- In the scorecard: its parity does not fit its words (13 R425). -/
  badPar : Bool := false
deriving DecidableEq, Repr

structure Flt where
  stat : BitVec 64 := 0
  ctl : Word := 0x0A33C00A#32
  wdog : Word := 0x3264400A#32
  inj : Word := 0
  /-- FLT_SRCn in the order of Table 13.1. -/
  src : Vector Word 64
  /-- The second copies, complements of the first (13 R427). -/
  ctlC : Word := 0xF5CC3FF5#32
  wdogC : Word := 0xCD9BBFF5#32
  injC : Word := 0xFFFFFFFF#32
  srcC : Vector Word 64
  lostFlag : Bool := false
  lostCount : Nat := 0
  total : Nat := 0
  any : Bool := false
  newest : Fin 16 := 0
  entries : Vector (Option Intake) 16 := Vector.replicate 16 none
  intake : List Intake := []
  recording : Option Intake := none
  safe : Bool := false
  safeCause : Nat := 0
  scPar : Bool := false
  warm : Bool := false
  inWr : Bool := false
  m5 : Bool := false
  reloaded : Bool := false
  reload : Bool := false
  wrCause : Nat := 0
  wrCount : Nat := 0
  wrTimes : List Nat := []
  lines : List Line := []
  nmi : Bool := false
deriving DecidableEq, Repr

/-- Reset values of FLT_SRCn (13 Table 13.1). -/
def fltSrcReset : Vector Word 64 :=
  let hub : List Word := [0x00, 0x00, 0x41, 0x41, 0x41, 0x81, 0xD1, 0x41, 0x85, 0x85, 0x85, 0x00, 0x85, 0x00, 0x00, 0x00,
    0xC8, 0x81, 0x41, 0xD1, 0xD1, 0xD0, 0x41, 0x41]
  let tile : List Word := [0x81, 0x41, 0x00, 0x81, 0x41]
  let all := hub ++ tile ++ tile ++ tile ++ tile ++ tile ++ tile ++ tile ++ tile
  Vector.ofFn fun i => all.getD i.val 0

/-- The collector at reset, both copies of its configuration alike. -/
def fltReset : Flt := { src := fltSrcReset, srcC := fltSrcReset.map fun v => ~~~v }

/-! ### The whole state -/

structure State where
  acc : Acc := {}
  mbx : MbxBlock := {}
  spi : Spi := {}
  ws : Ws := {}
  teams : Vector Team 4 := Vector.replicate 4 {}
  ports : Vector Port 64 := Vector.replicate 64 {}
  grps : Vector Group 8 := Vector.replicate 8 {}
  tts : Vector Tt 64 := Vector.replicate 64 {}
  ttc : Ttc := {}
  crl : Crl := {}
  queues : Vector Queue 16 := Vector.replicate 16 {}
  bud : Bud := {}
  tim : Tim := {}
  tiles : Vector Tile 8 := Vector.replicate 8 {}
  sup : Cpu := {}
  flt : Flt := fltReset
  boot : Boot := {}
  crp : Crp := {}
  pwr : Pwr := {}
  mem : Mem := []
  ecc : List EccError := []
  /-- Records waiting for the event-queue engine, oldest first, each with its waiting place (05 R156, 09 R319). -/
  posts : List (PostSource × Record) := []
  /-- The model's own clock: 8 ns ticks since VRIM power-on that idle steps have counted (log 8). -/
  now : Nat := 0
  /-- The model's own counter of free values (log 2). -/
  free : Nat := 0
  /-- The model's own queue of commands, first in, first out. -/
  pending : List Instr := []
deriving DecidableEq, Repr

/-- Right after a VRIM power-on, at t0 of Table 10.2: every register at the reset value of its card. -/
def State.reset : State := {}

end Sys2Proof.Machine
end

