-- ==== Sys2Proof/Machine/Memory.lean ====
section
/-!
DEFINITION. Machine/Memory.lean: byte memory in one canonical form. One list holds every memory the spec gives: keys
below 2^24 are device addresses (the windows of 16 Table 16.14, with the creel at 0x80_0000), from 2^24 the 64 KiB of
retention RAM (12 R405), from 2^25 the 16 MiB of QSPI flash (11 Table 11.1).
-/
namespace Sys2Proof.Machine

/-- Key of byte b of retention bank k (12 R405). -/
def retBase : Nat := 2 ^ 24

/-- Key of flash offset 0 (11 Table 11.1). -/
def flashBase : Nat := 2 ^ 25

/-- Device address of creel cell c (05 R150). -/
def cellAddr (c : Nat) : Nat := 0x800000 + 64 * c

/-- Byte i of the LINK word of a cell that nothing has written since reset: shared cells are linked in ascending order,
NEXT in [13:0] and LAST in [31] (05 R147, R148); reserved cells hold 0. -/
def linkDefault (c i : Nat) : Byte :=
  if c < 4096 then 0 else lowByte ((if c = 16383 then 0x80000000 else c + 1) / 256 ^ i)

/-- What an unlisted address reads as (log 9): the free list of 05 R148 in the creel, erased flash, 0 elsewhere. -/
def memDefault (a : Nat) : Byte :=
  if flashBase ≤ a then 0xFF
  else if 0x800000 ≤ a ∧ a < 0x900000 ∧ a % 64 / 4 = 14 then linkDefault ((a - 0x800000) / 64) (a % 4)
  else 0

/-- One byte of memory. -/
def memGet : Mem → Nat → Byte
  | [], a => memDefault a
  | (k, v) :: r, a => if k = a then v else memGet r a

/-- Write one byte, keeping the canonical form. -/
def memPut : Mem → Nat → Byte → Mem
  | [], a, v => if v = memDefault a then [] else [(a, v)]
  | (k, w) :: r, a, v =>
    if a < k then (if v = memDefault a then (k, w) :: r else (a, v) :: (k, w) :: r)
    else if a = k then (if v = memDefault a then r else (a, v) :: r)
    else (k, w) :: memPut r a v

/-- The canonical form: addresses strictly rising above `lo`, no entry equal to what an unlisted address reads as. -/
def memWfFrom : Nat → Mem → Bool
  | _, [] => true
  | lo, (k, v) :: r => decide (lo ≤ k) && !(v == memDefault k) && memWfFrom (k + 1) r

/-- The memory is in canonical form. -/
def Mem.wf (m : Mem) : Bool := memWfFrom 0 m

/-- Write a byte string. -/
def memPutBytes : Mem → Nat → List Byte → Mem
  | m, _, [] => m
  | m, a, b :: bs => memPutBytes (memPut m a b) (a + 1) bs

/-- Read n bytes. -/
def memGetBytes (m : Mem) (a : Nat) : Nat → List Byte
  | 0 => []
  | n + 1 => memGet m a :: memGetBytes m (a + 1) n

/-- A little-endian word of memory (02 R36). -/
def memWord (m : Mem) (a : Nat) : Word := BitVec.ofNat 32 (ofBytes (memGetBytes m a 4))

/-- Write a little-endian word of memory (02 R36). -/
def memPutWord (m : Mem) (a : Nat) (v : Word) : Mem := memPutBytes m a (toBytes 4 v.toNat)

/-- Remove what the predicate says, so that those addresses read as an unlisted address does. -/
def memClear (m : Mem) (p : Nat → Bool) : Mem := m.filter fun c => !p c.1

/-- Word k of a creel cell (05 R146). -/
def cellWord (s : State) (c k : Nat) : Word := memWord s.mem (cellAddr c + 4 * k)

/-! ### ECC of the memories (01 R12, 13 R414, R426) -/

/-- TARGET of FLT_INJ that names a memory (13 Table 13.16). -/
def injTarget : EccMem → Nat
  | .creel => 0
  | .codeTcm => 1
  | .dataTcm => 2
  | .context => 3
  | .retention => 4
  | .tileProg t => 8 + t.val
  | .tileData t => 8 + t.val

/-- An injection of one of the given modes is armed for a target (13 R426). -/
def injArmed (s : State) (lo hi target : Nat) : Bool :=
  bitOf s.flt.inj 31 && decide (lo ≤ fld s.flt.inj 26 24) && decide (fld s.flt.inj 26 24 ≤ hi) && fld s.flt.inj 20 16 == target

/-- The injection is consumed: ARM reads 0. -/
def injDone (s : State) : State :=
  { s with flt := { s.flt with inj := s.flt.inj &&& 0x7FFFFFFF#32, injC := s.flt.injC ||| 0x80000000#32 } }

/-- A word is written: its check bits are new, and an armed injection of mode 0 or 1 spoils them (13 R426). -/
def eccStore (m : EccMem) (word : Nat) (s : State) : State :=
  let s := { s with ecc := s.ecc.filter fun e => !(e.mem == m && e.word == word) }
  if injArmed s 0 1 (injTarget m) then
    injDone { s with ecc := s.ecc ++ [{ mem := m, word := word, fatal := fld s.flt.inj 26 24 == 1 }] }
  else s

/-- Latent error found at a word of a memory: `some fatal`. -/
def eccAt (s : State) (m : EccMem) (word : Nat) : Option Bool :=
  (s.ecc.find? fun e => e.mem == m && e.word == word).map fun e => e.fatal

/-- Write word k of a creel cell (05 R146). -/
def setCellWord (c k : Nat) (v : Word) (s : State) : State :=
  eccStore .creel (16 * c + k) { s with mem := memPutWord s.mem (cellAddr c + 4 * k) v }

/-- n bytes of flash from an offset (11 Table 11.1). -/
def flashBytes (s : State) (off n : Nat) : List Byte := memGetBytes s.mem (flashBase + off) n

/-! ### The QSPI interface (14 R459; log 174) -/

def qspiSend (l : List QspiCmd) (s : State) : State := { s with boot := { s.boot with qspi := { s.boot.qspi with sent := l } } }

/-- Fast read, on four lanes once the interface runs on them. -/
def qspiRead (off : Nat) (s : State) : State :=
  let q := s.boot.qspi.quad
  qspiSend [{ op := if q then 0x6B#8 else 0x0B#8, addr := some (BitVec.ofNat 24 off), quad := q }] s

/-- A write or erase command between write enable and a read of the status register. -/
def qspiWrite (op : Byte) (off : Nat) : List QspiCmd := [{ op := 0x06#8 }, { op := op, addr := some (BitVec.ofNat 24 off) }, { op := 0x05#8 }]

/-- Start addresses of the 256-byte pages that n bytes from an offset touch (11 R361). -/
def pageStarts (off n : Nat) : List Nat := (List.range ((off % 256 + n + 255) / 256)).map fun i => max off (256 * (off / 256 + i))

/-- Program bytes of flash, page by page. -/
def flashWrite (off : Nat) (bs : List Byte) (s : State) : State :=
  qspiSend ((pageStarts off bs.length).flatMap (qspiWrite 0x02#8)) { s with mem := memPutBytes s.mem (flashBase + off) bs }

/-- The erase commands for n bytes: of 64 KiB blocks, or of 4 KiB sectors. -/
def eraseCmds (addr n : Nat) : List QspiCmd :=
  if n % 0x10000 = 0 then (List.range (n / 0x10000)).flatMap fun i => qspiWrite 0xD8#8 (addr + 0x10000 * i)
  else (List.range (n / 0x1000)).flatMap fun i => qspiWrite 0x20#8 (addr + 0x1000 * i)

end Sys2Proof.Machine
end

