-- ==== Sys2Proof/Machine/Ops.lean ====
section
/-!
DEFINITION. Machine/Ops.lean: the named operations on state that every chapter shares: access to the parts of the
state, free values, stamps and records (05 R151, 08 R279), error lines (13 R412).
-/
namespace Sys2Proof.Machine

/-- The result of a command that the block carries out. -/
abbrev Result := Host.Outcome State Fault Refusal

/-! ### Parts of the state -/

def State.team (s : State) (u : TeamId) : Team := s.teams[u]
def State.port (s : State) (p : PortId) : Port := s.ports[p]
def State.tile (s : State) (t : TileId) : Tile := s.tiles[t]
def State.queue (s : State) (q : QueueId) : Queue := s.queues[q]
def State.tt (s : State) (p : PortId) : Tt := s.tts[p]
def State.grp (s : State) (g : TileId) : Group := s.grps[g]

def modTeam (u : TeamId) (f : Team → Team) (s : State) : State := { s with teams := s.teams.set u (f s.teams[u]) }
def modPort (p : PortId) (f : Port → Port) (s : State) : State := { s with ports := s.ports.set p (f s.ports[p]) }
def modTile (t : TileId) (f : Tile → Tile) (s : State) : State := { s with tiles := s.tiles.set t (f s.tiles[t]) }
def modQueue (q : QueueId) (f : Queue → Queue) (s : State) : State := { s with queues := s.queues.set q (f s.queues[q]) }
def modTt (p : PortId) (f : Tt → Tt) (s : State) : State := { s with tts := s.tts.set p (f s.tts[p]) }
def modGrp (g : TileId) (f : Group → Group) (s : State) : State := { s with grps := s.grps.set g (f s.grps[g]) }
def modHub (p : PortId) (f : HubPort → HubPort) (s : State) : State := modPort p (fun x => { x with hub := f x.hub }) s
def modTc (p : PortId) (f : PortTc → PortTc) (s : State) : State := modPort p (fun x => { x with tc := f x.tc }) s
def modPd (p : PortId) (f : PortPd → PortPd) (s : State) : State := modPort p (fun x => { x with pd := f x.pd }) s
def modPhy (p : PortId) (f : PdPhy → PdPhy) (s : State) : State := modPort p (fun x => { x with phy := f x.phy }) s
def modPw (p : PortId) (f : PortPwr → PortPwr) (s : State) : State := modPort p (fun x => { x with pw := f x.pw }) s
def modThr (p : PortId) (f : Cpu → Cpu) (s : State) : State :=
  modTile (tileOf p) (fun x => { x with thr := x.thr.set (laneOf p) (f x.thr[laneOf p]) }) s
def modAcc (f : Acc → Acc) (s : State) : State := { s with acc := f s.acc }
def modMbx (f : MbxBlock → MbxBlock) (s : State) : State := { s with mbx := f s.mbx }
def modBox (b : Fin 24) (f : Mailbox → Mailbox) (s : State) : State :=
  modMbx (fun x => { x with box := x.box.set b (f x.box[b]) }) s
def modSpi (f : Spi → Spi) (s : State) : State := { s with spi := f s.spi }
def modWs (f : Ws → Ws) (s : State) : State := { s with ws := f s.ws }
def modTtc (f : Ttc → Ttc) (s : State) : State := { s with ttc := f s.ttc }
def modCrl (f : Crl → Crl) (s : State) : State := { s with crl := f s.crl }
def modBud (f : Bud → Bud) (s : State) : State := { s with bud := f s.bud }
def modTim (f : Tim → Tim) (s : State) : State := { s with tim := f s.tim }
def modFlt (f : Flt → Flt) (s : State) : State := { s with flt := f s.flt }
def modBoot (f : Boot → Boot) (s : State) : State := { s with boot := f s.boot }
def modCrp (f : Crp → Crp) (s : State) : State := { s with crp := f s.crp }
def modPwr (f : Pwr → Pwr) (s : State) : State := { s with pwr := f s.pwr }

/-- The core of a command's PSI operand: the weaver of port p is thread p mod 8 of its tile (09 R288). -/
def cpuOf (s : State) (k : Core) : Cpu :=
  match k with
  | .weaver p => (s.tile (tileOf p)).thr[laneOf p]
  | .sup => s.sup

def modCpu (k : Core) (f : Cpu → Cpu) (s : State) : State :=
  match k with
  | .weaver p => modThr p f s
  | .sup => { s with sup := f s.sup }

/-! ### Group settings in force: those a feed keeps across a chip reset, else the registers (07 R503) -/

def Group.cfgNow (x : Group) : Word := match x.rim with | some r => r.1 | none => x.cfg
def Group.thrNow (x : Group) : Word := match x.rim with | some r => r.2.1 | none => x.thr
def Group.limNow (x : Group) : Word := match x.rim with | some r => r.2.2 | none => x.lim

/-! ### Free values (log 2) -/

def drawNat (s : State) : Nat × State := (Config.freeNat s.free, { s with free := s.free + 1 })
def drawBool (s : State) : Bool × State := (Config.freeBool s.free, { s with free := s.free + 1 })
def drawWord (s : State) : Word × State := (Config.freeWord s.free, { s with free := s.free + 1 })

/-! ### Stamps (01 R22, R23, 08 R279 to R281) -/

/-- Nanoseconds in a second. -/
def nsPerSec : Nat := 1000000000

/-- The time counter in ns (08 R259). -/
def counterNs (s : State) : Nat := s.tim.sec.toNat * nsPerSec + s.tim.ns

/-- The tile's replica has not yet applied a step or set: it does so within 2 µs, 250 ticks of `now`, at an instant that the spec leaves
open (08 R276, 00 R499). -/
def replicaLags (s : State) (x : Tile) : Bool :=
  match x.changedAt with
  | some n => decide (s.now < n + x.applyIn)
  | none => false

/-- The tile's replica is outside its window, or has not yet applied a step or set. -/
def replicaBad (t : TileId) (s : State) : Bool := (s.tile t).replicaOut || replicaLags s (s.tile t)

/-- TQ of a stamp taken now (05 R152, 08 R280): time not valid, STATE other than TRACK, or the stamping tile's replica
outside its window. -/
def stampTq (tile : Option TileId) (s : State) : Bool :=
  !s.tim.valid || s.tim.st != .track || (match tile with | some t => replicaBad t s | none => false)

/-- A stamp of an event now: within ±100 ns of the counter (01 R22), the error a free value (log 3). -/
def takeStamp (tile : Option TileId) (s : State) : Stamp × State :=
  let n := ((counterNs s : Int) + clampInt (-100) 100 (Config.stampError s.free)).toNat
  ({ sec := n / nsPerSec, ns := n % nsPerSec, tq := stampTq tile s }, { s with free := s.free + 1 })

/-! ### Records on their way to the event-queue engine (05 R151 to R153, 01 R22, R24) -/

/-- Source codes (05 Table 5.4). -/
def srcPort (p : PortId) : Nat := p.val
def srcTeam (u : TeamId) : Nat := 0x40 + u.val
def srcGroup (g : TileId) : Nat := 0x48 + g.val
def srcTile (t : TileId) : Nat := 0x50 + t.val
def srcTime : Nat := 0x58
def srcFault : Nat := 0x59
def srcSup : Nat := 0x5A
def srcBoot : Nat := 0x5B
def srcPs : Nat := 0x5C
def srcBudget : Nat := 0x5D
def srcEngine : Nat := 0x5E

/-- Event classes (05 Table 5.5). -/
def clsAttach : Nat := 0x01
def clsDetach : Nat := 0x02
def clsUsbConnect : Nat := 0x03
def clsPdRx : Nat := 0x04
def clsPdTx : Nat := 0x05
def clsContract : Nat := 0x06
def clsProtTrip : Nat := 0x07
def clsPgood : Nat := 0x08
def clsFeedState : Nat := 0x09
def clsVconn : Nat := 0x0A
def clsAltMode : Nat := 0x0B
def clsPortMove : Nat := 0x0C
def clsTeamState : Nat := 0x0D
def clsTimeState : Nat := 0x0E
def clsFault : Nat := 0x0F
def clsFaultLost : Nat := 0x10
def clsPowerState : Nat := 0x11
def clsUpdate : Nat := 0x12
def clsBudget : Nat := 0x13

/-- A record joins the waiting place of its die. -/
def pushRecord (place : PostSource) (r : Record) (s : State) : State := { s with posts := s.posts ++ [(place, r)] }

/-- A hub-die event is stamped by the time counter and posted (01 R22). -/
def postHub (cls src : Nat) (payload : Word) (s : State) : State :=
  let (st, s) := takeStamp none s
  pushRecord .hub { cls := cls, src := src, stamp := st, payload := payload.setWidth 30 } s

/-- A tile event is stamped by the tile's replica and posted (01 R22). -/
def postTile (t : TileId) (cls src : Nat) (payload : Word) (s : State) : State :=
  let (st, s) := takeStamp (some t) s
  pushRecord (.tile t) { cls := cls, src := src, stamp := st, payload := payload.setWidth 30 } s

/-- A tile event of a port (05 Table 5.4). -/
def postPort (p : PortId) (cls : Nat) (payload : Word) (s : State) : State := postTile (tileOf p) cls (srcPort p) payload s

/-- A tile record with a stamp taken earlier. -/
def postPortAt (p : PortId) (st : Stamp) (cls : Nat) (payload : Word) (s : State) : State :=
  pushRecord (.tile (tileOf p)) { cls := cls, src := srcPort p, stamp := st, payload := payload.setWidth 30 } s

/-- A record whose payload no table lays out: a free value (05 Table 5.5; log 10). -/
def postHubFree (cls src : Nat) (s : State) : State :=
  let (w, s) := drawWord s
  postHub cls src w s

/-- Post buffer of a core: 16 records per tile, 8 for the supervisor (09 R319). -/
def postRoom (s : State) (place : PostSource) : Bool :=
  let n := (s.posts.filter fun x => x.1 == place).length
  match place with
  | .supPost => decide (n < 8)
  | .tilePost _ => decide (n < 16)
  | _ => true

/-- EPOST: into the core's post buffer, or discarded when it is full (09 R318, R319). -/
def epost (place : PostSource) (r : Record) (s : State) : State :=
  if postRoom s place then pushRecord place r s
  else
    match place with
    | .tilePost t => modTile t (fun x => { x with postLost := satInc x.postLost 0xFFFF }) s
    | _ => s

/-- A record that the port's weaver posts, with a stamp taken earlier (09 Table 9.10). -/
def weaverPostAt (p : PortId) (st : Stamp) (cls : Nat) (payload : Word) (s : State) : State :=
  epost (.tilePost (tileOf p)) { cls := cls, src := srcPort p, stamp := st, payload := payload.setWidth 30 } s

/-- A record that the port's weaver posts, stamped now. -/
def weaverPost (p : PortId) (cls : Nat) (payload : Word) (s : State) : State :=
  let (st, s) := takeStamp (some (tileOf p)) s
  weaverPostAt p st cls payload s

/-- A record that the supervisor posts. -/
def supPost (cls src : Nat) (payload : Word) (s : State) : State :=
  let (st, s) := takeStamp none s
  epost .supPost { cls := cls, src := src, stamp := st, payload := payload.setWidth 30 } s

/-- The clocks of the hub die run and its reset is over (10 R340). -/
def coreUp (s : State) : Bool :=
  match s.pwr.phase with
  | .coreUp | .boot | .run => true
  | _ => false

/-- A state of Table 12.1 in which the clocks of the hub die run. -/
def clocksRun (s : State) : Bool :=
  coreUp s &&
    (match s.crp.st with
    | .run | .idle => true
    | .entering => s.crp.target != .sleep
    | .waking => s.crp.target != .sleep
    | _ => false)

/-- The supervisor has a program, which runs or waits for its clock. -/
def supLives (s : State) : Bool := s.sup.run && s.sup.st != .halted && s.sup.st != .dead && !s.flt.safe

/-- The supervisor's program runs; in SLEEP its clock is gated (12 R392). -/
def supUp (s : State) : Bool := supLives s && clocksRun s

/-- The port's weaver has a program, which runs or waits for its clock. -/
def weaverLives (s : State) (p : PortId) : Bool :=
  let c := cpuOf s (.weaver p)
  c.run && c.st != .halted && c.st != .dead && !s.flt.safe

/-- The port's weaver runs its program; in SLEEP its clock is gated (12 R392). -/
def weaverUp (s : State) (p : PortId) : Bool := weaverLives s p && clocksRun s

/-- Latch event bits of the weaver of port p (09 Table 9.8). -/
def latchEv (p : PortId) (bits : Word) (s : State) : State := modThr p (fun c => { c with epend := c.epend ||| bits }) s

/-- A budget word of the port's weaver waits for its mailbox (01 R20). -/
def wordPends (s : State) (p : PortId) : Bool := s.bud.up.any fun x => x.1 == p

/-- The port's weaver is stalled in MSEND, by a budget word or by an instruction of its program (01 R20). -/
def sendStalled (s : State) (p : PortId) : Bool := wordPends s p || (cpuOf s (.weaver p)).st == .stallSend

/-- The port's weaver can act: its program runs and is not stalled in a send. A command that names an act of a stalled weaver has no
effect and may be given again (log 133). -/
def weaverActs (s : State) (p : PortId) : Bool := weaverUp s p && !sendStalled s p

/-- The policy acts on an event now, or once its weaver can act; one event that is due twice is acted on once. -/
def orLater (p : PortId) (x : Late) (f : State → State) (s : State) : State :=
  if weaverActs s p then f s
  else modPd p (fun d => { d with late := if d.late.contains x then d.late else d.late ++ [x] }) s

/-! ### Error lines (13 R412) -/

/-- Bits of Table 13.1. -/
def fAcc : Fin 64 := 0
def fMbx : Fin 64 := 1
def fTtc : Fin 64 := 2
def fCrl : Fin 64 := 3
def fTim : Fin 64 := 4
def fRetBank : Fin 64 := 5
def fBoot : Fin 64 := 6
def fCfgDef : Fin 64 := 7
def fLockstep : Fin 64 := 8
def fSupWdog : Fin 64 := 9
def fSupDexc : Fin 64 := 10
def fSupEcc1 : Fin 64 := 11
def fSupEcc2 : Fin 64 := 12
def fCrlEcc1 : Fin 64 := 13
def fCtxEcc1 : Fin 64 := 14
def fRetEcc1 : Fin 64 := 15
def fCollector : Fin 64 := 21
def fSw : Fin 64 := 22
def fMgmt : Fin 64 := 23
def fLink (t : TileId) : Fin 64 := ⟨24 + 5 * t.val, by omega⟩
def fWeaver (t : TileId) : Fin 64 := ⟨25 + 5 * t.val, by omega⟩
def fTmem1 (t : TileId) : Fin 64 := ⟨26 + 5 * t.val, by omega⟩
def fTmem2 (t : TileId) : Fin 64 := ⟨27 + 5 * t.val, by omega⟩
def fReplica (t : TileId) : Fin 64 := ⟨28 + 5 * t.val, by omega⟩

/-- A pulse on a source's error line: it waits in `lines` until FAULT_REPORT (13 R412; log 11). -/
def raiseLine (handled : Bool) (n : Fin 64) (detail : Word) (s : State) : State :=
  modFlt (fun f => { f with lines := f.lines ++ [{ src := n, detail := detail, handled := handled }] }) s

def raise (n : Fin 64) (detail : Word) (s : State) : State := raiseLine false n detail s

end Sys2Proof.Machine
end

