-- ==== Sys2Proof/Machine/Map.lean ====
section
/-!
DEFINITION. Machine/Map.lean: the address map (02 Table 2.1) and the register index (chapter 16): which register or
window an address names, who may reach it, and whether it is guarded, posted or lockable.
-/
namespace Sys2Proof.Machine

/-- Every software-visible register of 16 Tables 16.2 to 16.13. -/
inductive Rg where
  | sysId
  | accErrStat | accErrCap | accErrCap2 | accLock | accSemForce | accBusy | accSem (n : Fin 16)
  | mbxTimeout | mbxData (b : Fin 24) | mbxStat (b : Fin 24)
  | fltStatHi | fltStatLo | fltCtl | fltLost | fltScIdx | fltSafe | fltSupStat | fltSupCmd | fltInj | fltWdog | fltSwrep
  | fltLink (t : TileId) | fltScE (e : Fin 16) (w : Fin 4) | fltSrc (n : Fin 64)
  | crpMode | crpWsAddr | crpRstCause | crpRstCmd | crpPsStat | crpWakeLast | crpPsRefuse | crpRetErr | crpWakeCfg
  | crpResTime | crpRetPtr | crpRetData | crpPsCmd
  | timeSec | timeNs | timStat | timEvt | timRefCfg | timServoCfg | timHoldCfg | timLeap | timSetSec | timSetNs
  | timSetCtl | timFreq | timPhase | timPpsDiff | timPpsoutCfg | timCorrCfg | timCorrIdx (u : TeamId)
  | timCorrE (u : TeamId) (e : Fin 8) (w : Fin 4)
  | bootStat | bootPolicy | updCmd | updArg | updStat | bootTrial | bootConfirm | verRun | verOther
  | ttcCtl | ttcStat | ttcShcell | ttcErr | ttcNpnakHi | ttcNpnakLo | ttcPdropCnt
  | ttCtl (p : PortId) | ttStat (p : PortId) | ttCnt (p : PortId)
  | crlCtl | crlStat | crlErr | crlNoroute | crlCroute (c : Fin 63) | crlPq (k : Fin 8)
  | qCfg (q : QueueId) | qData (q : QueueId) | qCount (q : QueueId) | qStat (q : QueueId) | qCtl (q : QueueId) | qDrop (q : QueueId)
  | budCtl | budGlobal | budStat | budCnt | budRelay | budGrp (g : TileId) | budGrpUsed (g : TileId) | budPort (p : PortId)
  | teamCtl (u : TeamId) | teamStat (u : TeamId) | teamTiming (u : TeamId) | teamQmask (u : TeamId)
  | teamPortsLo (u : TeamId) | teamPortsHi (u : TeamId) | teamPhyCfg (u : TeamId) | teamPhyStat (u : TeamId)
  | grpCfg (g : TileId) | grpThr (g : TileId) | grpLim (g : TileId) | grpStat (g : TileId) | grpMeas (g : TileId)
  | portTeam (p : PortId) | portHubstat (p : PortId) | portTcCfg (p : PortId) | portTcStat (p : PortId)
  | portPdCfg (p : PortId) | portPdStat (p : PortId) | portCable (p : PortId) | portPdCnt (p : PortId)
  | portPwrCfg (p : PortId) | portProtCfg (p : PortId) | portKeeper (p : PortId) | portPwrStat (p : PortId)
  | portProtFlags (p : PortId) | portPwrMeas (p : PortId) | portSs (p : PortId) | portPwrCmd (p : PortId)
  | portCurve (p : PortId) (k : Fin 8) | portPhyCfg (p : PortId) | portPhyStat (p : PortId)
  | tileCtl (t : TileId) | tileStat (t : TileId) | tileEvec (t : TileId) | tileMbxCfg (t : TileId) | tileCnt (t : TileId)
  | thrStat (t : TileId) (n : Fin 8) | thrPc (t : TileId) (n : Fin 8)
deriving DecidableEq, Repr

/-- Memory windows (16 Table 16.14); each carries the byte address of its word. -/
inductive Window where
  | updBuf
  | tileProg (t : TileId)
  | tileData (t : TileId)
  | tcm
  | creel
deriving DecidableEq, Repr

/-- What an aligned address names (16 R486). -/
inductive Place where
  | reg (r : Rg)
  | comp (r : Rg)
  | win (w : Window)
  | none
deriving DecidableEq, Repr

/-! ### Attributes (chapter 16, column Type) -/

/-- G: the register is guarded. -/
def Rg.guarded : Rg → Bool
  | .accLock | .accSemForce | .fltCtl | .fltInj | .fltWdog | .fltSrc _ | .crpRstCmd | .crpPsCmd | .updCmd | .bootConfirm
  | .portTeam _ | .portKeeper _ => true
  | _ => false

/-- P: the register is posted. -/
def Rg.posted : Rg → Bool
  | .crpWsAddr | .crpWakeCfg | .crpRetPtr | .crpRetData
  | .timRefCfg | .timServoCfg | .timHoldCfg | .timLeap | .timSetSec | .timSetNs | .timSetCtl | .timFreq | .timPpsoutCfg | .timCorrCfg
  | .grpCfg _ | .grpThr _ | .grpLim _
  | .portTcCfg _ | .portPdCfg _ | .portPwrCfg _ | .portProtCfg _ | .portKeeper _ | .portPwrCmd _ | .portCurve _ _ | .portPhyCfg _
  | .tileCtl _ | .tileEvec _ | .tileMbxCfg _ => true
  | _ => false

/-- L under a bit of ACC_LOCK (02 Table 2.7, 16 R487); registers whose lock acts per field are not listed (02 R53). -/
def Rg.lockBit : Rg → Option Nat
  | .fltCtl | .fltInj | .fltWdog | .fltSrc _ => some 10
  | .portTeam _ | .portTcCfg _ | .portPdCfg _ | .portPwrCfg _ | .portProtCfg _ | .portCurve _ _ | .portPhyCfg _ => some 9
  | .budCtl | .budGlobal | .budRelay | .budGrp _ => some 8
  | .grpCfg _ | .grpThr _ | .grpLim _ => some 7
  | .crlCtl | .crlCroute _ | .crlPq _ | .qCfg _ => some 6
  | .ttcCtl => some 5
  | .teamCtl _ | .teamTiming _ | .teamPhyCfg _ => some 4
  | .bootPolicy => some 3
  | .timRefCfg | .timServoCfg | .timHoldCfg | .timPpsoutCfg | .timCorrCfg => some 2
  | _ => none

/-- Registers of the RIM domain and of tile domains: a read through SPI may be PENDING (02 R41, 16 R488). -/
def Rg.slow : Rg → Bool
  | .crpWsAddr | .crpRstCause | .crpRstCmd | .crpPsStat | .crpWakeLast | .crpPsRefuse | .crpRetErr | .crpWakeCfg | .crpResTime
  | .crpRetPtr | .crpRetData | .crpPsCmd
  | .grpCfg _ | .grpThr _ | .grpLim _ | .grpStat _ | .grpMeas _
  | .portTcCfg _ | .portTcStat _ | .portPdCfg _ | .portPdStat _ | .portCable _ | .portPdCnt _
  | .portPwrCfg _ | .portProtCfg _ | .portKeeper _ | .portPwrStat _ | .portProtFlags _ | .portPwrMeas _ | .portSs _ | .portPwrCmd _
  | .portCurve _ _ | .portPhyCfg _ | .portPhyStat _
  | .tileCtl _ | .tileStat _ | .tileEvec _ | .tileMbxCfg _ | .tileCnt _ | .thrStat _ _ | .thrPc _ _ => true
  | _ => false

/-- Registers in the RIM domain (16 Table 16.4): powered in every state. -/
def Rg.rim : Rg → Bool
  | .crpWsAddr | .crpRstCause | .crpRstCmd | .crpPsStat | .crpWakeLast | .crpPsRefuse | .crpRetErr | .crpWakeCfg | .crpResTime
  | .crpRetPtr | .crpRetData | .crpPsCmd => true
  | _ => false

/-! ### Decoding (16 Tables 16.2 to 16.14) -/

/-- A register at an exact offset. -/
def at0 (off a : Nat) (r : Rg) : Option Rg := if a = off then some r else none

/-- The register at base + step × i for i < n. -/
def atN (n : Nat) [NeZero n] (base step a : Nat) (r : Fin n → Rg) : Option Rg :=
  if base ≤ a ∧ a < base + step * n ∧ (a - base) % step = 0 then some (r (Fin.ofNat n ((a - base) / step))) else none

/-- First hit of a list of alternatives. -/
def firstOf : List (Option Rg) → Option Rg
  | [] => none
  | some r :: _ => some r
  | none :: l => firstOf l

def accReg (a : Nat) : Option Rg :=
  firstOf [at0 0x000 a .accErrStat, at0 0x004 a .accErrCap, at0 0x008 a .accErrCap2, at0 0x010 a .accLock, at0 0x020 a .accSemForce,
    at0 0x040 a .accBusy, atN 16 0x100 4 a .accSem]

/-- Mailboxes in the order of Table 2.15. -/
def mbxReg (a : Nat) : Option Rg :=
  firstOf [at0 0x000 a .mbxTimeout,
    atN 8 0x100 8 a (fun n => .mbxData (Fin.ofNat 24 n.val)), atN 8 0x104 8 a (fun n => .mbxStat (Fin.ofNat 24 n.val)),
    atN 16 0x200 8 a (fun n => .mbxData (Fin.ofNat 24 (8 + n.val))), atN 16 0x204 8 a (fun n => .mbxStat (Fin.ofNat 24 (8 + n.val)))]

def fltReg (a : Nat) : Option Rg :=
  firstOf [at0 0x000 a .fltStatHi, at0 0x004 a .fltStatLo, at0 0x008 a .fltCtl, at0 0x010 a .fltLost, at0 0x014 a .fltScIdx,
    at0 0x018 a .fltSafe, at0 0x01C a .fltSupStat, at0 0x020 a .fltSupCmd, at0 0x028 a .fltInj, at0 0x030 a .fltWdog,
    at0 0x038 a .fltSwrep, atN 8 0x040 4 a .fltLink,
    atN 64 0x100 4 a (fun n => .fltScE (Fin.ofNat 16 (n.val / 4)) (Fin.ofNat 4 n.val)), atN 64 0x200 8 a .fltSrc]

def crpReg (a : Nat) : Option Rg :=
  firstOf [at0 0x000 a .crpMode, at0 0x800 a .crpWsAddr, at0 0x810 a .crpRstCause, at0 0x814 a .crpRstCmd, at0 0x820 a .crpPsStat,
    at0 0x824 a .crpWakeLast, at0 0x828 a .crpPsRefuse, at0 0x82C a .crpRetErr, at0 0x830 a .crpWakeCfg, at0 0x834 a .crpResTime,
    at0 0x838 a .crpRetPtr, at0 0x83C a .crpRetData, at0 0x840 a .crpPsCmd]

def timReg (a : Nat) : Option Rg :=
  firstOf [at0 0x000 a .timeSec, at0 0x004 a .timeNs, at0 0x008 a .timStat, at0 0x00C a .timEvt, at0 0x010 a .timRefCfg,
    at0 0x014 a .timServoCfg, at0 0x018 a .timHoldCfg, at0 0x01C a .timLeap, at0 0x020 a .timSetSec, at0 0x024 a .timSetNs,
    at0 0x028 a .timSetCtl, at0 0x02C a .timFreq, at0 0x030 a .timPhase, at0 0x034 a .timPpsDiff, at0 0x038 a .timPpsoutCfg,
    at0 0x03C a .timCorrCfg, atN 4 0x040 4 a .timCorrIdx,
    atN 128 0x100 4 a (fun n => .timCorrE (Fin.ofNat 4 (n.val / 32)) (Fin.ofNat 8 (n.val / 4)) (Fin.ofNat 4 n.val))]

def bootReg (a : Nat) : Option Rg :=
  firstOf [at0 0x000 a .bootStat, at0 0x004 a .bootPolicy, at0 0x010 a .updCmd, at0 0x018 a .updArg, at0 0x01C a .updStat,
    at0 0x020 a .bootTrial, at0 0x024 a .bootConfirm, at0 0x030 a .verRun, at0 0x034 a .verOther]

def ttcReg (a : Nat) : Option Rg :=
  firstOf [at0 0x000 a .ttcCtl, at0 0x004 a .ttcStat, at0 0x008 a .ttcShcell, at0 0x00C a .ttcErr, at0 0x010 a .ttcNpnakHi,
    at0 0x014 a .ttcNpnakLo, at0 0x018 a .ttcPdropCnt,
    atN 64 0x1000 16 a .ttCtl, atN 64 0x1004 16 a .ttStat, atN 64 0x1008 16 a .ttCnt]

def crlReg (a : Nat) : Option Rg :=
  firstOf [at0 0x000 a .crlCtl, at0 0x004 a .crlStat, at0 0x008 a .crlErr, at0 0x00C a .crlNoroute, atN 63 0x100 4 a .crlCroute,
    atN 8 0x200 4 a .crlPq, atN 16 0x1000 64 a .qCfg, atN 16 0x1004 64 a .qData, atN 16 0x1008 64 a .qCount,
    atN 16 0x100C 64 a .qStat, atN 16 0x1010 64 a .qCtl, atN 16 0x1014 64 a .qDrop]

def budReg (a : Nat) : Option Rg :=
  firstOf [at0 0x000 a .budCtl, at0 0x004 a .budGlobal, at0 0x008 a .budStat, at0 0x00C a .budCnt, at0 0x010 a .budRelay,
    atN 8 0x100 8 a .budGrp, atN 8 0x104 8 a .budGrpUsed, atN 64 0x200 4 a .budPort]

def teamReg (u : TeamId) (a : Nat) : Option Rg :=
  firstOf [at0 0x00 a (.teamCtl u), at0 0x04 a (.teamStat u), at0 0x08 a (.teamTiming u), at0 0x0C a (.teamQmask u),
    at0 0x10 a (.teamPortsLo u), at0 0x14 a (.teamPortsHi u), at0 0x20 a (.teamPhyCfg u), at0 0x24 a (.teamPhyStat u)]

def grpReg (g : TileId) (a : Nat) : Option Rg :=
  firstOf [at0 0x00 a (.grpCfg g), at0 0x04 a (.grpThr g), at0 0x08 a (.grpLim g), at0 0x0C a (.grpStat g), at0 0x10 a (.grpMeas g)]

def portReg (p : PortId) (a : Nat) : Option Rg :=
  firstOf [at0 0x000 a (.portTeam p), at0 0x008 a (.portHubstat p), at0 0x100 a (.portTcCfg p), at0 0x104 a (.portTcStat p),
    at0 0x108 a (.portPdCfg p), at0 0x10C a (.portPdStat p), at0 0x110 a (.portCable p), at0 0x114 a (.portPdCnt p),
    at0 0x200 a (.portPwrCfg p), at0 0x204 a (.portProtCfg p), at0 0x208 a (.portKeeper p), at0 0x210 a (.portPwrStat p),
    at0 0x214 a (.portProtFlags p), at0 0x218 a (.portPwrMeas p), at0 0x21C a (.portSs p), at0 0x220 a (.portPwrCmd p),
    atN 8 0x240 4 a (.portCurve p), at0 0x300 a (.portPhyCfg p), at0 0x304 a (.portPhyStat p)]

def tileReg (t : TileId) (a : Nat) : Option Rg :=
  firstOf [at0 0x18000 a (.tileCtl t), at0 0x18004 a (.tileStat t), at0 0x18008 a (.tileEvec t), at0 0x1800C a (.tileMbxCfg t),
    at0 0x18010 a (.tileCnt t), atN 8 0x18100 8 a (.thrStat t), atN 8 0x18104 8 a (.thrPc t)]

/-- The register at an aligned address. -/
def regAt (a : Nat) : Option Rg :=
  if a < 0x1000 then at0 0 a .sysId
  else if a < 0x2000 then accReg (a - 0x1000)
  else if a < 0x3000 then mbxReg (a - 0x2000)
  else if a < 0x4000 then fltReg (a - 0x3000)
  else if a < 0x5000 then crpReg (a - 0x4000)
  else if a < 0x6000 then timReg (a - 0x5000)
  else if a < 0x8000 then bootReg (a - 0x6000)
  else if a < 0xA000 then teamReg (Fin.ofNat 4 ((a - 0x8000) / 0x800)) (a % 0x800)
  else if a < 0x10000 then none
  else if a < 0x20000 then ttcReg (a - 0x10000)
  else if a < 0x30000 then crlReg (a - 0x20000)
  else if a < 0x32000 then grpReg (Fin.ofNat 8 ((a - 0x30000) / 0x400)) (a % 0x400)
  else if a < 0x40000 then none
  else if a < 0x50000 then budReg (a - 0x40000)
  else if a < 0x100000 then none
  else if a < 0x140000 then portReg (Fin.ofNat 64 ((a - 0x100000) / 0x1000)) (a % 0x1000)
  else if a < 0x200000 then none
  else if a < 0x300000 then tileReg (Fin.ofNat 8 ((a - 0x200000) / 0x20000)) (a % 0x20000)
  else none

/-- The window an aligned address lies in (16 Table 16.14). -/
def windowAt (a : Nat) : Option Window :=
  if 0x7000 ≤ a ∧ a < 0x8000 then some .updBuf
  else if 0x200000 ≤ a ∧ a < 0x300000 ∧ a % 0x20000 < 0x8000 then some (.tileProg (Fin.ofNat 8 ((a - 0x200000) / 0x20000)))
  else if 0x200000 ≤ a ∧ a < 0x300000 ∧ 0x10000 ≤ a % 0x20000 ∧ a % 0x20000 < 0x14000 then
    some (.tileData (Fin.ofNat 8 ((a - 0x200000) / 0x20000)))
  else if 0x400000 ≤ a ∧ a < 0x480000 then some .tcm
  else if 0x800000 ≤ a ∧ a < 0x900000 then some .creel
  else none

/-- What an address names, its low two bits apart. -/
def placeAt (a : Nat) : Place :=
  let a := a / 4 * 4
  match regAt a with
  | some r => .reg r
  | none =>
    match windowAt a with
    | some w => .win w
    | none =>
      match regAt (a - 4) with
      | some r => if r.guarded && 4 ≤ a then .comp r else .none
      | none => .none

/-- The block of Table 2.1 an address lies in, as a number: guarded pairs are judged per block (02 R50). -/
def blockOf (a : Nat) : Nat :=
  if a < 0x6000 then a / 0x1000 * 0x1000
  else if a < 0x8000 then 0x6000
  else if a < 0x10000 then a / 0x800 * 0x800
  else if a < 0x30000 then a / 0x10000 * 0x10000
  else if a < 0x40000 then a / 0x400 * 0x400
  else if a < 0x100000 then a / 0x10000 * 0x10000
  else if a < 0x200000 then a / 0x1000 * 0x1000
  else if a < 0x400000 then a / 0x20000 * 0x20000
  else if a < 0x800000 then 0x400000
  else 0x800000

/-- ACC_BUSY bit that covers an address (02 Table 2.5, 16 R488). -/
def busyOf (a : Nat) : Option (Fin 10) :=
  if 0x4800 ≤ a ∧ a < 0x5000 then some 9
  else if 0x5000 ≤ a ∧ a < 0x6000 then some 8
  else if 0x30000 ≤ a ∧ a < 0x32000 then some (Fin.ofNat 10 ((a - 0x30000) / 0x400))
  else if 0x100000 ≤ a ∧ a < 0x140000 then some (Fin.ofNat 10 ((a - 0x100000) / 0x8000))
  else if 0x200000 ≤ a ∧ a < 0x300000 then some (Fin.ofNat 10 ((a - 0x200000) / 0x20000))
  else none

/-- The tile whose own block an address is, for which that tile's weavers are local (02 R48). -/
def tileOfAddr (a : Nat) : Option TileId :=
  if 0x30000 ≤ a ∧ a < 0x32000 then some (Fin.ofNat 8 ((a - 0x30000) / 0x400))
  else if 0x100000 ≤ a ∧ a < 0x140000 then some (Fin.ofNat 8 ((a - 0x100000) / 0x8000))
  else if 0x200000 ≤ a ∧ a < 0x300000 then some (Fin.ofNat 8 ((a - 0x200000) / 0x20000))
  else none

/-- The master may reach the address (02 Table 2.1). -/
def permitted (m : Master) (write : Bool) (a : Nat) : Bool :=
  match m with
  | .sup => true
  | .spi | .ws => if 0x400000 ≤ a ∧ a < 0x800000 then false else if 0x800000 ≤ a then !write else true
  | .weaver t =>
    match tileOfAddr a with
    | some t' => t == t'
    | none =>
      if a < 0x1000 ∨ (0x5000 ≤ a ∧ a < 0x6000) then !write
      else if 0x40200 ≤ a ∧ a < 0x40300 then !write && (a - 0x40200) / 32 == t.val
      else false

/-! ### Addresses of registers -/

def addrTeam (u : TeamId) (off : Nat) : Nat := 0x8000 + 0x800 * u.val + off
def addrGrp (g : TileId) (off : Nat) : Nat := 0x30000 + 0x400 * g.val + off
def addrPort (p : PortId) (off : Nat) : Nat := 0x100000 + 0x1000 * p.val + off
def addrTile (t : TileId) (off : Nat) : Nat := 0x200000 + 0x20000 * t.val + off
def addrQueue (q : QueueId) (off : Nat) : Nat := 0x21000 + 0x40 * q.val + off
def addrTt (p : PortId) (off : Nat) : Nat := 0x11000 + 0x10 * p.val + off
/-- Mailbox data registers in the order of Table 2.15. -/
def addrMbx (b : Fin 24) : Nat := if b.val < 8 then 0x2100 + 8 * b.val else 0x2200 + 8 * (b.val - 8)

end Sys2Proof.Machine
end

