-- ==== Sys2Proof/Machine/PhyOps.lean ====
section
/-!
DEFINITION. Machine/PhyOps.lean: the adaptive loops of the HS transmitters (10 R358, R359, Tables 10.10 to 10.12).
-/
namespace Sys2Proof.Machine

/-- The loops start at an HS connection from their configuration or the factory trims. -/
def phyStart (cfg : Word) (pe sq disc : Nat) : Phy :=
  { amp := if bitOf cfg 8 then signedOf 4 (fld cfg 3 0) else 0, pe := if bitOf cfg 8 then fld cfg 6 4 else pe % 8, frozen := true
    sq := clampNat 100 150 sq, disc := disc, samples := 0, adapting := bitOf cfg 9 }

/-- One step of −1, 0 or +1 taken from an open number. -/
def openStep (n : Nat) : Int := (n % 3 : Nat) - 1

/-- One EOP sent, of a SOF or of another packet, and the idle noise sampled since the one before: what the loops measure is open, and so is
how often the noise is sampled; each step within its limits is a free value (log 17). -/
def phyEop (n : Nat) (sof : Bool) (x : Phy) : Phy :=
  let k := x.samples + 1
  let x := { x with samples := k, sofs := x.sofs + b2n sof, idle := x.idle + n / 46359, frozen := decide (k < 16) }
  if ¬ x.adapting then x
  else
    let x := if 32 ≤ k ∧ k % 16 = 0 then { x with amp := clampInt (-8) 7 (x.amp + openStep n) } else x
    let x := if 80 ≤ k ∧ k % 64 = 16 then { x with pe := (clampInt 0 7 ((x.pe : Int) + openStep (n / 3))).toNat } else x
    let x := if 64 ≤ x.idle then { x with sq := 100 + n / 9 % 51 } else x
    if 16 ≤ x.sofs then { x with disc := 525 + n / 459 % 101 } else x

/-- PORT_PHY_STAT and TEAM_PHY_STAT (10 Table 10.12). -/
def phyStat (x : Phy) : Word :=
  pack [(unsignedOf 4 x.amp, 28), (x.pe % 8, 25), (b2n x.frozen, 24), (x.sq % 256, 16), (x.disc % 1024, 6), (min 63 x.samples, 0)]

/-- ADAPT_EN = 0 stops adaptation at once (10 R359). -/
def phyCfgWritten (cfg : Word) (x : Phy) : Phy := { x with adapting := x.adapting && bitOf cfg 9 }

/-- The UFP of team u sends an EOP; it sends no SOF. -/
def teamEop (u : TeamId) (s : State) : State :=
  if (s.team u).speed = some .high then
    let (n, s) := drawNat s
    modTeam u (fun t => { t with phy := phyEop n false t.phy }) s
  else s

/-- Port p sends an EOP to its high-speed device. -/
def portEop (sof : Bool) (p : PortId) (s : State) : State :=
  let (n, s) := drawNat s
  modHub p (fun h => { h with phy := phyEop n sof h.phy }) s

end Sys2Proof.Machine
end

