-- ==== Sys2Proof/Machine/QueueOps.lean ====
section
/-!
DEFINITION. Machine/QueueOps.lean: the creel's free list and the event queues (05 R146 to R170). The lists live in the
creel's own words 14 and 15, as the debug window shows them.
-/
namespace Sys2Proof.Machine

/-- A word with a single-bit error is corrected and reported (01 R12, 13 Table 13.1): source and DETAIL. -/
def ecc1Line (m : EccMem) (word : Nat) : Fin 64 × Word :=
  match m with
  | .creel => (fCrlEcc1, BitVec.ofNat 32 (word % 2 ^ 18))
  | .codeTcm => (fSupEcc1, BitVec.ofNat 32 word)
  | .dataTcm => (fSupEcc1, BitVec.ofNat 32 (0x18000 + word))
  | .context => (fCtxEcc1, BitVec.ofNat 32 (word % 2 ^ 13))
  | .retention => (fRetEcc1, BitVec.ofNat 32 (word % 2 ^ 14))
  | .tileProg t => (fTmem1 t, BitVec.ofNat 32 (word % 2 ^ 14))
  | .tileData t => (fTmem1 t, BitVec.ofNat 32 (0x8000 + word % 2 ^ 14))

/-- A word is read or scrubbed: a single-bit error is corrected and reported. -/
def eccFix (m : EccMem) (word : Nat) (s : State) : State :=
  if eccAt s m word = some false then
    raise (ecc1Line m word).1 (ecc1Line m word).2 { s with ecc := s.ecc.filter fun e => !(e.mem == m && e.word == word) }
  else s

/-- The words of a memory that the predicate names are read: their single-bit errors are corrected and reported. -/
def fixWords (m : EccMem) (p : Nat → Bool) (s : State) : State :=
  forEach ((s.ecc.filter fun e => e.mem == m && p e.word).map (·.word)) (eccFix m) s

/-! ### Cells (05 Table 5.2) -/

/-- Word 14: LAST in [31], NEXT in [13:0]. -/
def linkWord (last : Bool) (next : Nat) : Word := pack [(b2n last, 31), (next % 16384, 0)]

/-- Word 15: KIND in [31:30], OWNER in [21:16], FILL in [3:0]. -/
def kindWord (kind owner fill : Nat) : Word := pack [(kind, 30), (owner, 16), (fill, 0)]

def cellKind (s : State) (c : Nat) : Nat := fld (cellWord s c 15) 31 30
def cellOwner (s : State) (c : Nat) : Nat := fld (cellWord s c 15) 21 16
def cellFill (s : State) (c : Nat) : Nat := fld (cellWord s c 15) 3 0
def cellNext (s : State) (c : Nat) : Nat := fld (cellWord s c 14) 13 0

def setKind (c kind owner fill : Nat) (s : State) : State := setCellWord c 15 (kindWord kind owner fill) s
def setLink (c : Nat) (last : Bool) (next : Nat) (s : State) : State := setCellWord c 14 (linkWord last next) s

/-- Shared cells that a TT holds for periodic overflow (05 Table 5.1). -/
def ttCells (t : Tt) : Nat := (t.ctxs.map fun c => (c.txns.map fun x => x.cells.length).sum).sum

/-- Shared cells held by all TTs (04 Table 4.8). -/
def ttShared (s : State) : Nat := (s.tts.toList.map ttCells).sum

/-- TTC_CTL.PSHARE_MAX. -/
def pshareMax (s : State) : Nat := fld s.ttc.ctl 4 0

/-- The TT overflow allowance (04 R122). -/
def allowance (s : State) : Nat := 64 * pshareMax s - ttShared s

/-- A free-list rebuild runs (05 R168). -/
def rebuilding (s : State) : Bool := s.crl.rebuild.isSome

/-- CRL_ERR bit and its error line (05 Table 5.8, 13 Table 13.1 bit 3); the block reset of a report of FL_PTR or SCRUB2 acts on nothing. -/
def crlError (bit : Nat) (q : Nat) (s : State) : State :=
  let s := modCrl (fun x => { x with err := orBit x.err bit }) s
  raiseLine (bit == 0 || bit == 3) fCrl (pack [(q, 16), (s.crl.err.toNat % 16, 0)]) s

/-- Start or restart the scan that rebuilds the free list (05 R168). -/
def startRebuild (s : State) : State := crlError 0 0 (modCrl (fun x => { x with rebuild := some s.now, late := [] }) s)

/-- The free list's pointers are compared, at every allocation and every freeing; an armed injection of mode 2 fails the
comparison (05 R168, 13 R426). -/
def flCheck (s : State) : State := if injArmed s 2 2 16 then startRebuild (injDone s) else s

/-- Take the cell at the head of the free list (05 R148); none while the list is empty or being rebuilt (R168). -/
def allocCell (s : State) : Option (Nat × State) :=
  if s.crl.freeCount = 0 ∨ rebuilding s then none
  else
    let c := s.crl.freeHead
    let s := eccFix .creel (16 * c + 14) s
    some (c, modCrl (fun x => { x with freeHead := cellNext s c, freeCount := x.freeCount - 1 }) s)

/-- Link a free cell at the tail of the free list (05 R148). -/
def linkFree (c : Nat) (s : State) : State :=
  let s := setLink c true 0 (setKind c 0 0 0 s)
  if s.crl.freeCount = 0 then modCrl (fun x => { x with freeHead := c, freeTail := c, freeCount := 1 }) s
  else modCrl (fun x => { x with freeTail := c, freeCount := x.freeCount + 1 }) (setLink s.crl.freeTail false c s)

/-- The scan position of a running rebuild: two cells in each 8 ns of `now` (05 R168, one per CORE cycle). -/
def scanPos (start : Nat) (s : State) : Nat := 4096 + 2 * (s.now - start)

/-- The first queue that waits for a reserve (05 R159, R168: the lowest-numbered). -/
def waitingQueue (s : State) : Option QueueId := (fins 16).find? fun q => (s.queue q).wantsReserve

/-- A cell becomes the reserve of queue q: KIND 0b11 (05 R159). -/
def takeReserve (q : QueueId) (c : Nat) (s : State) : State :=
  setLink c true 0 (setKind c 3 q.val 0 (modQueue q (fun x => { x with reserve := some c, wantsReserve := false }) s))

/-- A freed shared cell goes to a queue that waits for a reserve, else to the free list; during a rebuild it joins the new
list (05 R148, R159, R168). -/
def giveCell (c : Nat) (s : State) : State :=
  match s.crl.rebuild with
  | some start =>
    let s := setLink c true 0 (setKind c 0 0 0 s)
    let p := scanPos start s
    modCrl (fun x => { x with freeCount := x.freeCount + 1, late := if c < p then x.late ++ [(p, c)] else x.late }) s
  | none =>
    match waitingQueue s with
    | some q => takeReserve q c s
    | none => linkFree c s

/-- Free a shared cell: every freeing compares the free list's pointers (05 R168). -/
def freeCell (c : Nat) (s : State) : State := giveCell c (flCheck s)

/-- Free a cell of queue q: its new reserve where its reserve was linked for a marker, except during a rebuild (05 R159, R168; log 163). A
queue that waits for the first cell freed anywhere waits in the order of the numbers. -/
def freeQueueCell (q : QueueId) (c : Nat) (s : State) : State :=
  let s := flCheck s
  if (s.queue q).reserve.isNone ∧ ¬ (s.queue q).wantsReserve ∧ bitOf (s.queue q).cfg 31 ∧ ¬ rebuilding s then takeReserve q c s else giveCell c s

/-! ### Words of a queue -/

/-- CAP in cells: 0 acts as 1, values above 12,288 as 12,288 (05 R170). -/
def capOf (x : Queue) : Nat := clampNat 1 12288 (fld x.cfg 13 0)

/-- The queue is enabled. -/
def queueEn (s : State) (q : QueueId) : Bool := bitOf (s.queue q).cfg 31

/-- Free payload words of the tail cell. -/
def tailFree (s : State) (q : QueueId) : Nat := if (s.queue q).cells = 0 then 0 else 14 - cellFill s (s.queue q).tail

/-- No word of the list is unread. -/
def listEmpty (s : State) (q : QueueId) : Bool :=
  (s.queue q).cells == 0 || ((s.queue q).cells == 1 && decide (cellFill s (s.queue q).head ≤ (s.queue q).rd))

/-- Link a cell as the new tail of queue q: KIND 0b01, no words. -/
def linkTail (q : QueueId) (c : Nat) (s : State) : State :=
  let x := s.queue q
  let s := setLink c true 0 (setKind c 1 q.val 0 s)
  if x.cells = 0 then modQueue q (fun x => { x with head := c, tail := c, cells := 1, rd := 0 }) s
  else modQueue q (fun x => { x with tail := c, cells := x.cells + 1 }) (setLink x.tail false c s)

/-- Write one word into the free payload word of the tail cell. -/
def putWord (q : QueueId) (w : Word) (s : State) : State :=
  let c := (s.queue q).tail
  let n := cellFill s c
  setKind c 1 q.val (n + 1) (setCellWord c n w s)

/-- Read the next word of the list and free its cell once all 14 payload words are read (05 R161). -/
def popWord (q : QueueId) (s : State) : Option (Word × State) :=
  if listEmpty s q then none
  else
    let x := s.queue q
    let w := cellWord s x.head x.rd
    let s := eccFix .creel (16 * x.head + x.rd) s
    if x.rd + 1 < 14 then some (w, modQueue q (fun x => { x with rd := x.rd + 1 }) s)
    else
      let nxt := cellNext s x.head
      some (w, freeQueueCell q x.head (modQueue q (fun x => { x with head := nxt, cells := x.cells - 1, rd := 0 }) s))

/-- The words of a record (05 Table 5.3). -/
def recordWords (r : Record) (seq : BitVec 16) : List Word :=
  [pack [(1, 31), (r.cls, 24), (b2n r.stamp.tq, 23), (r.src, 16), (seq.toNat, 0)],
   pack [(1, 31), (r.stamp.sec % 2 ^ 30, 0)],
   pack [(1, 31), (r.stamp.ns, 0)],
   pack [(1, 31), (1, 30), (r.payload.toNat, 0)]]

/-- The gap marker word (05 R158). -/
def markerWord (cause count : Nat) : Word := pack [(1, 31), (1, 30), (0x3F, 24), (cause, 22), (count, 0)]

/-! ### Enqueue, drop, gap markers (05 R157, R158) -/

/-- Why a record does not fit: 0 CAP, 1 no shared cell within the allowance, 2 queue reset; none where it fits. -/
def dropCause (s : State) (q : QueueId) : Option Nat :=
  let x := s.queue q
  if x.scanning then some 2
  else if capOf x < x.cells then some 0
  else if 4 ≤ tailFree s q then none
  else if capOf x < x.cells + 1 then some 0
  else if rebuilding s ∨ s.crl.freeCount < allowance s + 1 then some 1
  else none

/-- Place an open marker after the last word of the queue, in the reserve cell where the tail cell is full (05 R158);
without a free word and without a reserve no marker is placed (R159). -/
def placeMarker (q : QueueId) (cause count : Nat) (s : State) : State :=
  let put (s : State) := modQueue q (fun x => { x with gapOpen := true, records := x.records + 1 }) (putWord q (markerWord cause count) s)
  if 0 < tailFree s q then put s
  else
    match (s.queue q).reserve with
    | some c => put (linkTail q c (modQueue q (fun x => { x with reserve := none }) s))
    | none => s

/-- Add one to the COUNT of the open marker (05 R158). -/
def bumpMarker (q : QueueId) (s : State) : State :=
  let c := (s.queue q).tail
  let k := cellFill s c - 1
  let w := cellWord s c k
  setCellWord c k (setFld w 15 0 (satInc (fld w 15 0) 0xFFFF)) s

/-- Drop one record (05 R158). -/
def dropRecord (q : QueueId) (cause : Nat) (s : State) : State :=
  let s := modQueue q (fun x => { x with drop := BitVec.ofNat 32 (satInc x.drop.toNat 0xFFFFFFFF), noSpace := x.noSpace || cause == 1 }) s
  match (s.queue q).heldMarker with
  | some n => modQueue q (fun x => { x with heldMarker := some (satInc n 0xFFFF) }) s
  | none => if (s.queue q).gapOpen then bumpMarker q s else placeMarker q cause 1 s

/-- Write the record's words, taking a cell where the tail cell fills (05 R156, R157). -/
def putWords (q : QueueId) : List Word → State → State
  | [], s => s
  | w :: ws, s =>
    if 0 < tailFree s q then putWords q ws (putWord q w s)
    else
      match allocCell s with
      | some (c, s) => putWords q ws (setKind c 1 q.val 1 (linkTail q c (setCellWord c 0 w s)))
      | none => s

/-- A record routed to an enabled queue: it takes the next sequence number, and is accepted whole or dropped whole. -/
def enqueue (q : QueueId) (r : Record) (s : State) : State :=
  let seq := (s.queue q).nextSeq
  let s := if tailFree s q < 4 ∧ (s.queue q).cells + 1 ≤ capOf (s.queue q) then flCheck s else s
  let cause := dropCause s q
  let s := modQueue q (fun x => { x with nextSeq := x.nextSeq + 1 }) s
  match cause with
  | some c => dropRecord q c s
  | none => modQueue q (fun x => { x with gapOpen := false, records := x.records + 1 }) (putWords q (recordWords r seq) s)

/-! ### Routing (05 R155) -/

/-- CRL_CROUTEc; class 0x3F and class numbers without a register are never routed. -/
def croute (s : State) (cls : Nat) : Word := if h : cls < 63 then s.crl.croute[cls] else 0

/-- The queue a record goes to, if any. -/
def routeOf (s : State) (r : Record) : Option QueueId :=
  let w := croute s r.cls
  if ¬ bitOf w 8 then none
  else
    let q : QueueId :=
      if h : bitOf w 7 ∧ r.src < 64 then
        ⟨fld (s.crl.pq[r.src / 8]'(by omega)) (4 * (r.src % 8) + 3) (4 * (r.src % 8)) % 16, Nat.mod_lt _ (by decide)⟩
      else ⟨fld w 3 0 % 16, Nat.mod_lt _ (by decide)⟩
    if queueEn s q then some q else none

/-! ### Queue reset (05 R165, R166) -/

/-- The whole list becomes one cell with the open CAUSE 0b10 marker in word 0. -/
def resetList (q : QueueId) (c count : Nat) (s : State) : State :=
  modQueue q (fun x => { x with gapOpen := true, records := x.records + 1, heldMarker := none })
    (putWord q (markerWord 2 count) (linkTail q c s))

/-- Steps 1 and 2 of a queue reset. -/
def resetQueue (q : QueueId) (ecc : Bool) (s : State) : State :=
  let x := s.queue q
  let held := b2n (!x.latch.isEmpty)
  let count := min (x.records - held) 0xFFFF
  let s := crlError (if ecc then 2 else 1) q.val s
  let s := modQueue q (fun x => { x with
    ptrReset := true, scanning := true, scanAt := 4096, bare := x.reserve.isNone, gapOpen := false, cells := 0, rd := 0
    records := held, reserve := none, heldMarker := none }) s
  match x.reserve with
  | some c => resetList q c count s
  | none =>
    let s := flCheck s
    match allocCell s with
    | some (c, s) => resetList q c count s
    | none => modQueue q (fun x => { x with heldMarker := some count }) s

/-- The words of a queue's cells that the engine reads for its own books: FILL of the head and the tail, NEXT of the head, and
an open marker. -/
def engineWords (s : State) (q : QueueId) : List Nat :=
  let x := s.queue q
  if x.cells = 0 then []
  else [16 * x.head + 14, 16 * x.head + 15, 16 * x.tail + 15] ++ (if x.gapOpen then [16 * x.tail + (cellFill s x.tail - 1)] else [])

/-- The engine reads words of queue q: single-bit errors are corrected and reported, an uncorrectable one resets the queue
(01 R12, 05 R165). -/
def readWordsOf (q : QueueId) (ws : List Nat) (s : State) : State :=
  if ws.any fun w => eccAt s .creel w == some true then resetQueue q true s else forEach ws (eccFix .creel) s

/-- The queue's pointers are compared, at every enqueue, read, flush and count update; an armed injection of mode 2 fails the
comparison (05 R165, 13 R426). -/
def queueCheck (q : QueueId) (s : State) : State :=
  if injArmed s 2 2 q.val then resetQueue q false (injDone s) else readWordsOf q (engineWords s q) s

/-- The check found a mismatch or an uncorrectable word. -/
def checkFails (s : State) (q : QueueId) : Bool :=
  injArmed s 2 2 q.val || (engineWords s q).any fun w => eccAt s .creel w == some true

/-! ### Reading (05 R161 to R163) -/

/-- Positions of the next n words of the list, as creel word indices (cell × 16 + word). -/
def nextWords (s : State) : Nat → Nat → Nat → List Nat
  | 0, _, _ => []
  | n + 1, c, k => if k < 14 then (c * 16 + k) :: nextWords s n c (k + 1) else (cellNext s c * 16) :: nextWords s n (cellNext s c) 1

/-- The hold ends: the latched words are gone and RECORDS falls by one (05 R162). -/
def endHold (q : QueueId) (s : State) : State :=
  if (s.queue q).latch.isEmpty then s
  else modQueue q (fun x => { x with latch := [], holder := none, records := x.records - 1 }) (queueCheck q s)

/-- Words 1 to 3 move into the head latch. -/
def latchWords (q : QueueId) : Nat → State → State
  | 0, s => s
  | n + 1, s =>
    match popWord q s with
    | some (w, s) => latchWords q n (modQueue q (fun x => { x with latch := x.latch ++ [w] }) s)
    | none => s

/-- Close the books on a marker that was read: it is open no more once no word is left. -/
def gapAfterRead (q : QueueId) (s : State) : State := modQueue q (fun x => { x with gapOpen := x.gapOpen && !listEmpty s q }) s

/-! ### Flush, enable, disable (05 R164, R170) -/

/-- Free every cell of the list, head first. -/
def freeList (q : QueueId) : Nat → State → State
  | 0, s => s
  | n + 1, s =>
    if (s.queue q).cells = 0 then s
    else
      let c := (s.queue q).head
      let nxt := cellNext s c
      freeList q n (freeQueueCell q c (modQueue q (fun x => { x with head := nxt, cells := x.cells - 1 }) s))

/-- The link words that a flush follows. -/
def chainWords (s : State) : Nat → Nat → List Nat
  | 0, _ => []
  | n + 1, c => (16 * c + 14) :: chainWords s n (cellNext s c)

/-- The link words that a flush of queue q follows. -/
def listWords (s : State) (q : QueueId) : List Nat := chainWords s (s.queue q).cells (s.queue q).head

/-- Empty the list of queue q (05 R164), after the comparison of R165. A reset that the flush itself finds places its marker after the
flush, at t0 + 8 ns, and its scan frees the old cells. A marker that is held for want of a cell goes with the flush (log 165). -/
def flushQueue (q : QueueId) (s₀ : State) : State :=
  let found := checkFails s₀ q || (listWords s₀ q).any fun w => eccAt s₀ .creel w == some true
  let s := queueCheck q s₀
  let s := if checkFails s₀ q then s else readWordsOf q (listWords s q) s
  if found then modQueue q (fun x => { x with flushed := true }) s
  else
    modQueue q (fun x => { x with flushed := true, gapOpen := false, rd := 0, heldMarker := none, records := if x.latch.isEmpty then 0 else 1 })
      (freeList q (s.queue q).cells s)

/-- EN from 0 to 1: a reserve cell, without regard to the allowance (05 R159, R170). -/
def enableQueue (q : QueueId) (s : State) : State :=
  let s := flCheck s
  match allocCell s with
  | some (c, s) => takeReserve q c s
  | none => modQueue q (fun x => { x with wantsReserve := true }) s

/-- EN from 1 to 0: a flush that also discards a held record and returns the reserve (05 R170). -/
def disableQueue (q : QueueId) (s : State) : State :=
  let s := endHold q (flushQueue q s)
  let r := (s.queue q).reserve
  let s := modQueue q (fun x => { x with reserve := none, wantsReserve := false }) s
  match r with
  | some c => freeCell c s
  | none => s

/-- A write of CRL_Qq_CFG takes effect (05 R170). -/
def configQueue (q : QueueId) (v : Word) (s : State) : State :=
  let was := queueEn s q
  let v := v &&& 0x80003FFF#32
  if bitOf v 31 ∧ ¬ was then enableQueue q (modQueue q (fun x => { x with cfg := v }) s)
  else if was ∧ ¬ bitOf v 31 then
    modQueue q (fun x => { x with cfg := v }) (disableQueue q (modQueue q (fun x => { x with cfg := setFld x.cfg 31 31 0 }) s))
  else modQueue q (fun x => { x with cfg := v }) s

/-- The engine routes one record. -/
def route (r : Record) (s : State) : State :=
  match routeOf s r with
  | some q => enqueue q r (queueCheck q s)
  | none => modCrl (fun x => { x with noroute := BitVec.ofNat 32 (satInc x.noroute.toNat 0xFFFFFFFF) }) s

/-- The scan frees one cell of the old list: the held marker's cell first, then the reserve, then the free list; during a
rebuild only a queue that held no reserve at t0 takes one (05 R165, R166, R168). -/
def reclaimCell (q : QueueId) (c : Nat) (s : State) : State :=
  let s := flCheck s
  match (s.queue q).heldMarker with
  | some n => resetList q c n s
  | none =>
    if (s.queue q).reserve.isNone ∧ queueEn s q ∧ (¬ rebuilding s ∨ (s.queue q).bare) then takeReserve q c s else giveCell c s

/-- Shared cells from `lo` below `hi` of KIND 0b01 and OWNER q that are not on the new list, ascending. -/
def oldCells (s : State) (q : QueueId) (lo hi : Nat) : List Nat :=
  ((List.range (hi - lo)).map (· + lo)).filter fun c =>
    cellKind s c == 1 && cellOwner s c == q.val && !((s.queue q).cells != 0 && (s.queue q).head == c)

/-- The scan visits the cells up to `hi` (05 R165 step 3): it reads each word 15. -/
def scanTo (q : QueueId) (hi : Nat) (s : State) : State :=
  let lo := (s.queue q).scanAt
  let s := fixWords .creel (fun w => w % 16 == 15 && decide (lo ≤ w / 16 ∧ w / 16 < hi)) s
  modQueue q (fun x => { x with scanAt := max lo hi }) (forEach (oldCells s q lo hi) (fun c s => reclaimCell q c s) s)

/-- 8 ns pass: each running scan visits two cells, one per CORE cycle. -/
def scanTick (s : State) : State :=
  forEach ((fins 16).filter fun q => (s.queue q).scanning) (fun q s => scanTo q (min 16384 ((s.queue q).scanAt + 2)) s) s

/-- End of the reclaim scan (05 R165 steps 3 and 4, R166): a marker that no cell was found for is discarded, and the queue then
takes the first shared cell freed anywhere; a free list that is being rebuilt has no cell (log 164). -/
def endReclaim (q : QueueId) (s : State) : State :=
  let s := scanTo q 16384 s
  let s :=
    match (s.queue q).heldMarker with
    | some n =>
      let s := flCheck s
      match allocCell s with
      | some (c, s) => resetList q c n s
      | none => modQueue q (fun x => { x with heldMarker := none, wantsReserve := x.reserve.isNone && bitOf x.cfg 31 }) s
    | none => s
  modQueue q (fun x => { x with scanning := false, bare := false }) s

/-! ### Rebuild of the free list (05 R168) -/

/-- The order the scan links cells in, from position lo on: a cell freed below the scan position p is linked after the
cells below p. -/
def mergeLate (base : List Nat) : Nat → List (Nat × Nat) → List Nat
  | lo, [] => base.filter fun b => lo ≤ b
  | lo, (p, c) :: late => (base.filter fun b => lo ≤ b && b < p) ++ c :: mergeLate base p late

/-- Link the given cells into one list. -/
def linkAll : List Nat → State → State
  | [], s => s
  | [c], s => setLink c true 0 s
  | c :: d :: r, s => linkAll (d :: r) (setLink c false d s)

/-- Free cells in the order the finished scan has linked them. -/
def rebuiltOrder (s : State) : List Nat :=
  let free := ((List.range 12288).map (· + 4096)).filter fun c => cellKind s c == 0
  mergeLate (free.filter fun c => !(s.crl.late.any fun x => x.2 == c)) 0 s.crl.late

/-- End of the scan, which has read word 15 of every shared cell (01 R12). -/
def endRebuild (s : State) : State :=
  let s := fixWords .creel (fun w => w % 16 == 15 && decide (4096 ≤ w / 16)) s
  let l := rebuiltOrder s
  let s := linkAll l s
  modCrl (fun x => { x with rebuild := none, late := [], freeHead := l.headD 0, freeTail := l.getLastD 0, freeCount := l.length }) s

end Sys2Proof.Machine
end

