-- ==== Sys2Proof/Machine/TtOps.lean ====
section
/-!
DEFINITION. Machine/TtOps.lean: split contexts, creel cells of the translators, and answers to splits (chapter 04).
-/
namespace Sys2Proof.Machine

/-! ### Teams and ports as the translators see them -/

/-- The team that owns a port and reports it now: no team while the port retires or is in the gap (03 R110). -/
def servedBy (s : State) (p : PortId) : Option TeamId :=
  let h := (s.port p).hub
  if h : h.owner < 4 ∧ (h.mstate = 0 ∨ h.mstate = 3) then some ⟨(s.port p).hub.owner, h.1⟩ else none

/-- The port of a hub-port number that the team owns (03 R71). -/
def ownedPort (s : State) (u : TeamId) (port : Nat) : Option PortId :=
  if h : 1 ≤ port ∧ port ≤ 64 then
    let p : PortId := ⟨port - 1, by omega⟩
    if servedBy s p = some u then some p else none
  else none

/-- TT p stands: the port is enabled with a full-speed or low-speed device attached (04 R119). -/
def standing (s : State) (p : PortId) : Bool :=
  let h := (s.port p).hub
  h.enable && !h.highSpeed && h.dev.isSome

/-- The team hears its host's tokens: not detached or attached only, not suspended, not in L1. -/
def awake (s : State) (u : TeamId) : Bool :=
  clocksRun s && match (s.team u).st with
  | .default | .address | .configured => true
  | _ => false

/-! ### Contexts (04 R118 to R120) -/

/-- A TT's contexts of a kind and source. -/
def ctxCount (t : Tt) (periodic shared : Bool) : Nat := (t.ctxs.filter fun c => c.periodic == periodic && c.shared == shared).length

/-- Contexts of a kind, reserved and shared. -/
def ctxKind (t : Tt) (periodic : Bool) : Nat := (t.ctxs.filter fun c => c.periodic == periodic).length

/-- F: free shared contexts (04 R119). -/
def freeShared (s : State) : Nat := 256 - (s.tts.toList.map fun t => (t.ctxs.filter fun c => c.shared).length).sum

/-- C: the claims of the standing TTs (04 R119). -/
def claims (s : State) : Nat := ((fins 64).map fun p => if standing s p then 4 - ctxCount (s.tt p) true true else 0).sum

/-- TTC_CTL.NP_MAX (04 Table 4.6). -/
def npMax (s : State) : Nat := clampNat 2 16 (fld s.ttc.ctl 12 8)

/-- TTC_CTL.NP_HOLD in ms; 0 acts as 1 (04 Table 4.6). -/
def npHold (s : State) : Nat := max 1 (fld s.ttc.ctl 23 16)

/-- Places of the context store in use. -/
def usedSlots (s : State) : List Nat := (s.tts.toList.map fun t => t.ctxs.map (·.slot)).flatten

/-- First free place of a range of the context store (log 14). -/
def firstSlot (s : State) (base n : Nat) : Nat := (((List.range n).map (base + ·)).find? fun k => !(usedSlots s).contains k).getD base

/-- Table 4.2: the source of a context for a request of TT p, `some shared`; none where the request is refused. -/
def grantCtx (s : State) (p : PortId) (periodic : Bool) : Option Bool :=
  let t := s.tt p
  if periodic then
    if ctxCount t true false < 2 then some false
    else if ctxCount t true true < 4 then (if 0 < freeShared s then some true else none)
    else if claims s < freeShared s then some true else none
  else if npMax s ≤ ctxKind t false then none
  else if ctxCount t false false < 2 then some false
  else if claims s < freeShared s then some true else none

/-- The place of a granted context. -/
def slotFor (s : State) (p : PortId) (periodic shared : Bool) : Nat :=
  if shared then firstSlot s 256 256
  else if periodic then firstSlot s (2 * p.val) 2
  else firstSlot s (128 + 2 * p.val) 2

/-! ### Cells (04 R121) -/

/-- Byte address of unit k of the periodic ring of TT p. -/
def ringUnit (p : PortId) (k : Nat) : Nat := cellAddr (48 * p.val) + 8 * (k % 384)

/-- Byte address of non-periodic cell k of TT p. -/
def npCell (p : PortId) (k : Nat) : Nat := cellAddr (3072 + 16 * p.val + k)

/-- Units that a TT's transactions hold. -/
def liveUnits (t : Tt) : List Nat := (t.ctxs.map fun c => (c.txns.map (·.units)).flatten).flatten

/-- Consecutive free units of the ring from its next unit on. -/
def ringFree (s : State) (p : PortId) : Nat :=
  let live := liveUnits (s.tt p)
  ((List.range 384).takeWhile fun k => !live.contains (ringUnit p ((s.tt p).ringNext + k))).length

/-- Reserved periodic cells in use (04 Table 4.13, RING). -/
def ringCells (s : State) (p : PortId) : Nat :=
  let live := liveUnits (s.tt p)
  ((List.range 48).filter fun c => live.any fun a => decide (a / 64 = (cellAddr (48 * p.val + c)) / 64)).length

/-- Write bytes into units from byte position `pos` on. -/
def writeUnits (units : List Nat) (pos : Nat) : List Byte → State → State
  | [], s => s
  | b :: bs, s =>
    let a := units.getD (pos / 8) 0 + pos % 8
    let s := { s with mem := memPut s.mem a b }
    writeUnits units (pos + 1) bs (if a % 4 = 0 then eccStore .creel ((a - 0x800000) / 4) s else s)

/-- Bytes [pos, pos + n) of a transaction's data. -/
def readUnits (s : State) (units : List Nat) (pos n : Nat) : List Byte :=
  (List.range n).map fun i => memGet s.mem (units.getD ((pos + i) / 8) 0 + (pos + i) % 8)

/-- Take n overflow cells of the shared region for TT p (04 R121, 05 R148): KIND 0b10. -/
def takeCells (p : PortId) : Nat → List Nat → State → Option (List Nat × State)
  | 0, acc, s => some (acc, s)
  | n + 1, acc, s =>
    match allocCell s with
    | some (c, s) => takeCells p n (acc ++ [c]) (setKind c 2 p.val 0 s)
    | none => none

/-- Before overflow cells are taken, the free list's pointers are compared (05 R168). -/
def unitsCheck (p : PortId) (n : Nat) (s : State) : State := if n ≤ ringFree s p then s else flCheck s

/-- Room for n more 8-byte units of periodic data of TT p: from the ring, or overflow cells within PSHARE_MAX (04 R121; log 155);
the units, the cells, and the state after. -/
def takeUnits (p : PortId) (n : Nat) (s : State) : Option (List Nat × List Nat × State) :=
  if n ≤ ringFree s p then
    some ((List.range n).map (fun k => ringUnit p ((s.tt p).ringNext + k)), [],
      modTt p (fun t => { t with ringNext := (t.ringNext + n) % 384 }) s)
  else
    let need := (n + 6) / 7
    if pshareMax s < ttCells (s.tt p) + need then none
    else
      match takeCells p need [] s with
      | none => none
      | some (cells, s) =>
        let units := ((cells.map fun c => (List.range 7).map fun k => cellAddr c + 8 * k).flatten).take n
        some (units, cells, forEach cells (fun c s => setKind c 2 p.val (min 7 (n - 7 * cells.idxOf c)) s) s)

/-! ### Transactions -/

/-- Same endpoint of the same device in the same direction (04 R130). -/
def sameEp (x : Txn) (dev ep : Nat) (dirIn : Bool) : Bool := x.dev == dev && x.ep == ep && x.dirIn == dirIn

/-- The transaction has ended, well or not. -/
def Txn.ended (x : Txn) : Bool :=
  match x.phase with
  | .complete _ | .failed | .retired => true
  | _ => false

/-- Apply a change to the transactions of TT p that meet a condition on their context and themselves. -/
def modTxns (p : PortId) (q : Ctx → Txn → Bool) (f : Txn → Txn) (s : State) : State :=
  modTt p (fun t => { t with ctxs := t.ctxs.map fun c => { c with txns := c.txns.map fun x => if q c x then f x else x } }) s

/-- Apply a change to the first such transaction only. -/
def modFirstTxn (q : Ctx → Txn → Bool) (f : Txn → Txn) : List Ctx → List Ctx
  | [] => []
  | c :: cs =>
    if c.txns.any (q c) then { c with txns := c.txns.mapIdx fun i x => if i = c.txns.findIdx (q c) then f x else x } :: cs
    else c :: modFirstTxn q f cs

def modFirst (p : PortId) (q : Ctx → Txn → Bool) (f : Txn → Txn) (s : State) : State :=
  modTt p (fun t => { t with ctxs := modFirstTxn q f t.ctxs }) s

/-- The first transaction of TT p that meets a condition, with its context. -/
def findTxn (t : Tt) (q : Ctx → Txn → Bool) : Option (Ctx × Txn) :=
  t.ctxs.findSome? fun c => (c.txns.find? (q c)).map fun x => (c, x)

/-- Free the contexts of TT p that meet a condition, and their cells (04 R121, R125). -/
def freeCtxs (p : PortId) (q : Ctx → Bool) (s : State) : State :=
  let cells := (((s.tt p).ctxs.filter q).map fun c => (c.txns.map (·.cells)).flatten).flatten
  let s := modTt p (fun t => { t with ctxs := t.ctxs.filter fun c => !q c }) s
  forEach cells freeCell s

/-- A bit of TTC_ERR and its error line (04 Table 4.9, 13 Table 13.1 bit 2). -/
def ttcError (bit : Nat) (p : PortId) (s : State) : State :=
  let s := modTtc (fun x => { x with err := orBit x.err bit }) s
  raise fTtc (pack [(p.val, 16), (s.ttc.err.toNat % 64, 0)]) s

/-- TTC_PDROP_CNT counts a dropped periodic transaction (04 Table 4.11). -/
def pdropCount (n : Nat) (s : State) : State :=
  modTtc (fun x => { x with pdrop := BitVec.ofNat 32 (min 0xFFFFFFFF (x.pdrop.toNat + n)) }) s

/-- A periodic start-split is not accepted for shortage (04 Table 4.2). -/
def pdrop (p : PortId) (s : State) : State := pdropCount 1 (ttcError 3 p s)

/-- A non-periodic start-split is answered NAK for shortage (04 Tables 4.10 and 4.14). -/
def npShort (p : PortId) (s : State) : State :=
  modTtc (fun x => { x with npNak := x.npNak + 1 }) (modTt p (fun t => { t with npNak := satInc t.npNak 0xFFFF }) s)

/-- Retire the contexts whose port-bus transaction has not started (03 R107); they do not count as dropped (log 162). -/
def retireUnstarted (p : PortId) (s : State) : State :=
  modTxns p (fun _ x => x.phase == .waiting || x.phase == .ready) (fun x => { x with phase := .retired }) s

/-- The port of TT p stops being served (03 R107): unstarted contexts retire; all are freed at t0 + 2 ms. -/
def retireTt (p : PortId) (s : State) : State :=
  modTt p (fun t => { t with retiring := true }) (retireUnstarted p s)

/-- t0 + 2 ms: every context of the TT is freed (03 R107). -/
def freeTt (p : PortId) (s : State) : State :=
  modTt p (fun t => { t with retiring := false, statusPending := false, onBus := false }) (freeCtxs p (fun _ => true) s)

/-- A context is retired as an ECC drop (04 R136); each transaction is counted as dropped once (Table 4.11). -/
def eccDrop (p : PortId) (slot : Nat) (s : State) : State :=
  let per := (s.tt p).ctxs.any fun c => c.slot == slot && c.periodic
  let live (x : Txn) : Bool := x.phase != .failed && x.phase != .retired
  let n := (((s.tt p).ctxs.filter fun c => c.slot == slot).map fun c => (c.txns.filter live).length).sum
  onlyIf per (pdropCount n) (ttcError 4 p (modTxns p (fun c _ => c.slot == slot) (fun x => { x with phase := .failed }) s))

/-- The words of the units are read: single-bit errors are corrected (01 R12). -/
def unitsFix (units : List Nat) (s : State) : State :=
  forEach units (fun a s => eccFix .creel ((a - 0x800000) / 4 + 1) (eccFix .creel ((a - 0x800000) / 4) s)) s

/-- The words of a context are read: single-bit errors are corrected (01 R12). -/
def ctxFix (slot : Nat) (s : State) : State := forEach (List.range 16) (fun i => eccFix .context (16 * slot + i)) s

/-- Latent uncorrectable error in one of the units. -/
def unitsBad (s : State) (units : List Nat) : Bool :=
  units.any fun a => eccAt s .creel ((a - 0x800000) / 4) == some true || eccAt s .creel ((a - 0x800000) / 4 + 1) == some true

/-! ### Start-splits (04 R114, R116, R126, R128, R131) -/

/-- The port's device and the token's speed and type agree (04 R116). -/
def speedAgrees (s : State) (p : PortId) (low : Bool) (ty : XferType) : Bool :=
  (s.port p).hub.lowSpeed == low && !(low && (ty == .iso || ty == .bulk))

/-- The answer on a team's UFP; a packet sent ends with an EOP (10 R358). -/
def answer (u : TeamId) (a : UsbAnswer) (s : State) : State :=
  let s := modTeam u (fun t => { t with answer := a }) s
  if a = .none then s else teamEop u s

/-- TT p takes new start-splits: not stopped, not resetting (04 R142, R143). -/
def ttOpen (s : State) (p : PortId) : Bool := !(s.tt p).stopped && !(s.tt p).resetting

/-- A TT that receives a start-split from team u, if any (04 R114). -/
def splitPort (s : State) (u : TeamId) (port : Nat) : Option PortId :=
  if awake s u && (s.team u).speed == some .high then
    match ownedPort s u port with
    | some p => if standing s p then some p else none
    | none => none
  else none

/-- The 16 words of a context are written (04 Table 4.2; log 14). -/
def storeCtx (slot : Nat) (s : State) : State := forEach (List.range 16) (fun i => eccStore .context (16 * slot + i)) s

/-- Add a transaction to the context of microframe y of TT p, opening one under Table 4.2 (04 R118). -/
def addPeriodic (p : PortId) (y : Nat) (x : Txn) (s : State) : State :=
  let fits (c : Ctx) : Bool := c.periodic && c.y == y && decide (c.txns.length < 8)
  if (s.tt p).ctxs.any fits then
    modTt p (fun t =>
      { t with ctxs := t.ctxs.mapIdx fun i c => if i = t.ctxs.findIdx fits then { c with txns := c.txns ++ [x] } else c }) s
  else
    match grantCtx s p true with
    | none => pdrop p (forEach x.cells freeCell s)
    | some sh =>
      let c : Ctx := { periodic := true, shared := sh, slot := slotFor s p true sh, y := y, txns := [x] }
      storeCtx c.slot (modTt p (fun t => { t with ctxs := t.ctxs ++ [c] }) s)

/-- The first or only start-split of a periodic transaction. -/
def openPeriodic (p : PortId) (y : Nat) (x : Txn) (data : List Byte) (s : State) : State :=
  let s := unitsCheck p ((data.length + 7) / 8) s
  match takeUnits p ((data.length + 7) / 8) s with
  | none => pdrop p s
  | some (units, cells, s') => addPeriodic p y { x with units := units, cells := cells, len := data.length } (writeUnits units 0 data s')

/-- The iso OUT transaction that later parts feed (04 R126). -/
def openOut (dev ep : Nat) (_ : Ctx) (x : Txn) : Bool := sameEp x dev ep false && x.ty == .iso && !x.whole && !x.ended

/-- A later part of an isochronous OUT (04 R126); once the descriptor has gone, its data follows at once and is checked (R136, R137). -/
def feedOut (p : PortId) (dev ep : Nat) (last : Bool) (data : List Byte) (s : State) : State :=
  match findTxn (s.tt p) (openOut dev ep) with
  | none => s
  | some (c, x) =>
    let s := unitsCheck p ((x.len + data.length + 7) / 8 - x.units.length) s
    match takeUnits p ((x.len + data.length + 7) / 8 - x.units.length) s with
    | none => pdrop p (modFirst p (openOut dev ep) (fun x => { x with phase := .failed }) s)
    | some (units, cells, s') =>
      let all := x.units ++ units
      let s := modFirst p (openOut dev ep) (fun x =>
        { x with units := all, cells := x.cells ++ cells, len := x.len + data.length, whole := last }) (writeUnits all x.len data s')
      if x.phase = .waiting then s
      else if unitsBad s units then eccDrop p c.slot s
      else unitsFix units s

/-- First free non-periodic cell of TT p (log 14). -/
def freeNpCell (s : State) (p : PortId) : Nat :=
  let live := liveUnits (s.tt p)
  ((List.range 16).find? fun k => !live.contains (npCell p k)).getD 0

/-- A non-periodic start-split that has reached its TT: ACK, NAK or nothing (04 R128, R131; log 159). -/
def openNonperiodic (u : TeamId) (p : PortId) (x : Txn) (crcOk : Bool) (data : List Byte) (s : State) : State :=
  let mine (c : Ctx) : Bool := !c.periodic && c.txns.any fun y => sameEp y x.dev x.ep x.dirIn
  let busy := (s.tt p).ctxs.any fun c => mine c && !(c.txns.all Txn.ended)
  let nak (s : State) : State := if crcOk then answer u .nak s else answer u .none s
  if !ttOpen s p || busy then nak s
  else
    let s := freeCtxs p mine s
    match grantCtx s p false with
    | none => if crcOk then answer u .nak (npShort p s) else answer u .none s
    | some sh =>
      if !crcOk then answer u .none s
      else
        let k := freeNpCell s p
        let units := (List.range 8).map fun i => npCell p k + 8 * i
        let s' := writeUnits units 0 (data.take 64) s
        let c : Ctx :=
          { periodic := false, shared := sh, slot := slotFor s p false sh
            txns := [{ x with units := units, len := min 64 data.length }] }
        answer u .ack (storeCtx c.slot (modTt p (fun t => { t with ctxs := t.ctxs ++ [c] }) s'))

/-! ### Port bus (04 R124, R129, R137 to R140) -/

/-- Periodic work of the context may start on the tile: its microframe has begun there and its window is open. -/
def periodicReady (s : State) (p : PortId) (c : Ctx) (x : Txn) : Bool :=
  match servedBy s p with
  | some u =>
    c.periodic && x.phase == .ready && !x.lost && decide (c.y ≤ (s.tile (tileOf p)).micro[u.val]) &&
      decide ((s.team u).count ≤ c.y + (if (s.port p).hub.lowSpeed then 2 else 1))
  | none => false

/-- A transaction of TT p is on the port bus. -/
def busBusy (s : State) (p : PortId) : Bool := (s.tt p).onBus || (findTxn (s.tt p) fun _ x => x.phase == .running).isSome

/-- Data of an IN transaction arrives from the tile (04 R121, R137); a periodic one that finds no room fails (log 156). -/
def arrive (p : PortId) (x : Txn) (bytes : List Byte) (phase : TxnPhase) (s : State) : State :=
  let isRun (_ : Ctx) (y : Txn) : Bool := y.phase == .running
  let per := (findTxn (s.tt p) isRun).any fun c => c.1.periodic
  if per then
    let s := unitsCheck p ((x.len + bytes.length + 7) / 8 - x.units.length) s
    match takeUnits p ((x.len + bytes.length + 7) / 8 - x.units.length) s with
    | none => pdrop p (modFirst p isRun (fun y => { y with phase := .failed }) s)
    | some (units, cells, s') =>
      let all := x.units ++ units
      modFirst p isRun (fun y => { y with units := all, cells := y.cells ++ cells, len := y.len + bytes.length, phase := phase })
        (writeUnits all x.len bytes s')
  else
    let bytes := bytes.take (64 - x.len)
    modFirst p isRun (fun y => { y with len := y.len + bytes.length, phase := phase }) (writeUnits x.units x.len bytes s)

/-- A port-bus error counts in BUSERR (04 Table 4.14). -/
def busError (p : PortId) (s : State) : State := modTt p (fun t => { t with busErr := satInc t.busErr 0xFFFF }) s

/-- End of the transaction on the port bus: a stop or a discard that waited for it acts. -/
def afterBus (p : PortId) (s : State) : State :=
  let s := freeCtxs p (fun c => c.txns.any fun x => x.discard && x.ended) s
  modTt p (fun t => { t with
    onBus := false
    stopped := t.stopped || (t.stopNext && !t.resetting)
    stopNext := t.stopNext && t.resetting
    statusPending := t.statusPending && t.resetting }) s

/-! ### Complete-splits (04 Table 4.3, R127, R130, R132, R133, R136) -/

/-- A device's data packet as the host sees it. -/
def dataAnswer (one : Bool) (bytes : List Byte) : UsbAnswer := .data one bytes

/-- What a periodic IN transaction returns at this complete-split: bytes before, bytes now, and whether they are final (04 R127; log 158). -/
def inPortion (count : Nat) (x : Txn) : Nat × Nat × Bool :=
  let done := match x.phase with | .complete _ => true | _ => false
  let repeated := x.answeredAt == some count || x.final
  let from_ := if repeated then x.returned else x.returned + x.last
  let n := if repeated then x.last else min 188 (x.len - from_)
  (from_, n, done && from_ + n == x.len)

/-- The answer to a complete-split that found its transaction. -/
def csAnswer (s : State) (count : Nat) (c : Ctx) (x : Txn) : UsbAnswer :=
  let none_ : UsbAnswer := if c.periodic then .err else .none
  match x.phase with
  | .failed | .retired => none_
  | .complete r =>
    match r with
    | .err => none_
    | .ack => .ack
    | .nak => .nak
    | .stall => .stall
    | .data one _ =>
      if c.periodic then
        let (a, n, fin) := inPortion count x
        if fin then dataAnswer one (readUnits s x.units a n) else .mdata (readUnits s x.units a n)
      else dataAnswer one (readUnits s x.units 0 x.len)
    | .moreData _ => none_
  | .running =>
    if c.periodic && x.dirIn && 0 < x.len then
      let (a, n, _) := inPortion count x
      .mdata (readUnits s x.units a n)
    else .nyet
  | .waiting | .ready => .nyet

/-- The books after that answer; NYET is no answer of a result (R127, R130). -/
def csBooks (count : Nat) (c : Ctx) (x : Txn) : Txn :=
  if c.periodic && x.dirIn && 0 < x.len then
    let (a, n, fin) := inPortion count x
    { x with returned := a, last := n, answeredAt := some count, final := fin }
  else if x.ended then { x with answeredAt := some count }
  else x

/-- Units that hold the transaction's data. -/
def Txn.held (x : Txn) : List Nat := x.units.take ((x.len + 7) / 8)

/-- Units that the data of this complete-split's answer is read from (R136). -/
def csUnits (count : Nat) (c : Ctx) (x : Txn) : List Nat :=
  if c.periodic then
    let (a, n, _) := inPortion count x
    (x.units.drop (a / 8)).take ((a % 8 + n + 7) / 8)
  else x.held

/-- The hub port of a complete-split: owned, or still retiring on this team (03 R107, R110). -/
def csPort (s : State) (u : TeamId) (port : Nat) : Option PortId :=
  match ownedPort s u port with
  | some p => some p
  | none =>
    if h : 1 ≤ port ∧ port ≤ 64 then
      let p : PortId := ⟨port - 1, by omega⟩
      if (s.port p).hub.mstate = 1 ∧ (s.port p).hub.oldOwner = u.val then some p else none
    else none

/-! ### Stop and reset of a TT (04 R142 to R144) -/

/-- StopTT or STOP = 1: after the current port-bus transaction; during a reset, at its end. -/
def stopTt (p : PortId) (s : State) : State :=
  let wait := (s.tt p).resetting || busBusy s p
  modTt p (fun t => { t with stopNext := t.stopNext || wait, stopped := t.stopped || !wait }) s

/-- ResetTT or RESET = 1 at t0; a reset in progress goes on as the one reset. -/
def resetTt (p : PortId) (s : State) : State :=
  if (s.tt p).resetting then s
  else modTt p (fun t => { t with resetting := true, stopped := false, stopNext := false }) (retireUnstarted p s)

/-- t0 + 2 ms of a TT reset. -/
def endResetTt (p : PortId) (s : State) : State :=
  if (s.tt p).resetting then
    modTt p (fun t => { t with resetting := false, stopped := t.stopNext, stopNext := false, statusPending := false, onBus := false })
      (freeCtxs p (fun _ => true) s)
  else s

/-- ClearTTBuffer of one TT (04 R141): whether a context matched, and whether it must wait for the port bus. -/
def clearBuffer (p : PortId) (dev ep : Nat) (ty : XferType) (s : State) : State :=
  let hit (c : Ctx) : Bool := !c.periodic && c.txns.any fun x => x.dev == dev && x.ep == ep && x.ty == ty
  let runs (c : Ctx) : Bool := c.txns.any fun x => x.phase == .running
  let s := freeCtxs p (fun c => hit c && !runs c) s
  if (s.tt p).ctxs.any hit then
    modTt p (fun t => { t with statusPending := true }) (modTxns p (fun c x => hit c && x.phase == .running) (fun x => { x with discard := true }) s)
  else s

/-! ### Registers (04 Tables 4.7 to 4.14) -/

def ttcStat (s : State) : Word :=
  let n (per : Bool) : Nat := (s.tts.toList.map fun t => ctxCount t per true).sum
  pack [(n true, 16), (n false, 0)]

def ttcShcell (s : State) : Word := pack [(ttShared s % 2048, 0)]

def ttStat (s : State) (p : PortId) : Word :=
  let t := s.tt p
  let per := ctxKind t true
  let np := ctxKind t false
  pack [(b2n t.stopped, 31), (b2n (per != 0), 30), (b2n (np != 0), 29), (b2n (standing s p), 28), (min 15 per, 20), (min 31 np, 15),
    (ringCells s p, 0)]

def ttCnt (s : State) (p : PortId) : Word := pack [((s.tt p).busErr, 16), ((s.tt p).npNak, 0)]

end Sys2Proof.Machine
end

