-- ==== Sys2Proof/Machine/HubOps.lean ====
section
/-!
DEFINITION. Machine/HubOps.lean: teams, hub ports, their status, descriptors and moves (chapter 03).
-/
namespace Sys2Proof.Machine

/-! ### Team state -/

/-- STATE of a team changes: a TEAM_STATE record is posted (05 Table 5.5, 08 Table 8.4). -/
def setTeamSt (u : TeamId) (st : UsbState) (s : State) : State :=
  if (s.team u).st = st then s else postHubFree clsTeamState (srcTeam u) (modTeam u (fun t => { t with st := st }) s)

/-- TEAM_CTL fields. -/
def teamEn (s : State) (u : TeamId) : Bool := bitOf (s.team u).ctl 0
def pwrSw (s : State) (u : TeamId) : Bool := bitOf (s.team u).ctl 5

/-- Logical power of a hub port of team u (03 R72). -/
def hubPower (s : State) (u : TeamId) (n : Nat) : Bool := (s.team u).power.toList.getD (n - 1) false

/-- Add change bits to hub port n of team u. -/
def addChange (u : TeamId) (n : Nat) (bits : BitVec 16) (s : State) : State :=
  modTeam u (fun t => { t with change := t.change.setIfInBounds (n - 1) (t.change.toList.getD (n - 1) 0 ||| bits) }) s

/-- Clear change bits of hub port n of team u. -/
def clrChange (u : TeamId) (n : Nat) (bits : BitVec 16) (s : State) : State :=
  modTeam u (fun t => { t with change := t.change.setIfInBounds (n - 1) (t.change.toList.getD (n - 1) 0 &&& ~~~bits) }) s

/-- Change bits of Table 3.9. -/
def cConnection : BitVec 16 := 1
def cEnable : BitVec 16 := 2
def cSuspend : BitVec 16 := 4
def cOverCurrent : BitVec 16 := 8
def cReset : BitVec 16 := 16
def cL1 : BitVec 16 := 32

/-- Hub port of physical port p (03 R71). -/
def hubPortOf (p : PortId) : Nat := p.val + 1

/-- A change bit on the team that reports port p; during a move it waits for the target team (03 R113; log 131). -/
def portChange (p : PortId) (bits : BitVec 16) (s : State) : State :=
  match servedBy s p with
  | some u => addChange u (hubPortOf p) bits s
  | none => if (s.port p).hub.mstate = 0 then s else modHub p (fun h => { h with moveChange := h.moveChange ||| bits }) s

/-! ### A physical port on its team -/

/-- The port stops being served at once (03 R107); selective suspend, L1 and reset signalling end with it. -/
def stopServing (p : PortId) (s : State) : State :=
  let s := modHub p (fun h => { h with
    enable := false, suspend := false, lingers := false, resuming := false, devResume := false, k := false, reset := false
    l1 := false, l1Resuming := false, babbling := false }) s
  retireTt p s

/-- CONNECTION's conditions (03 Table 3.9): logical power, attached as source, VBUS in its window, device pull-up; and
the tile is not cut off (10 R345). -/
def connected (s : State) (p : PortId) : Bool :=
  match servedBy s p with
  | some u => hubPower s u (hubPortOf p) && (s.port p).tc.st == .attached && (s.port p).pw.pgood && (s.port p).hub.dev.isSome && !(s.port p).hub.cut
  | none => false

/-- The group feed carries its ports: FEED_STATE on, good or warning (06 R194, 07 Table 7.7). -/
def feedUp (s : State) (g : TileId) : Bool :=
  match (s.grp g).st with
  | .on | .good | .warning => true
  | _ => false

/-- The group feed is good: Gg_PG_N has been asserted since it came on (07 R231, Table 7.7). -/
def feedGood (s : State) (g : TileId) : Bool :=
  match (s.grp g).st with
  | .good | .warning => true
  | _ => false

/-- OVER_CURRENT (03 Table 3.9, 07 R234, R252, R253): from a trip until VBUS is good again, a cooldown or latch-off, a
pass-FET fault that holds the port off, or a group feed that is not good. -/
def protHolds (s : State) (p : PortId) : Bool :=
  let w := (s.port p).pw
  w.tripped || w.pstate == .cooldown || w.pstate == .latched || w.pfetL || w.fetShort || !feedGood s (tileOf p)

/-- CONNECTION follows its conditions: the change is stamped and recorded, and a loss ends service (03 R107, Table 3.9). -/
def syncConnection (p : PortId) (s : State) : State :=
  let now := connected s p
  if now = (s.port p).hub.conn then s
  else
    let s := portChange p cConnection (modHub p (fun h => { h with conn := now }) s)
    let s := postHubFree clsUsbConnect (srcPort p) s
    if now then modHub p (fun h => { h with lowSpeed := h.dev == some .low, highSpeed := false }) s
    else modHub p (fun h => { h with lowSpeed := false, highSpeed := false }) (stopServing p s)

/-- OVER_CURRENT follows its conditions; its rise ends service (03 R107). -/
def syncOverCurrent (p : PortId) (s : State) : State :=
  let now := protHolds s p
  if now = (s.port p).hub.oc then s
  else
    let s := portChange p cOverCurrent (modHub p (fun h => { h with oc := now }) s)
    onlyIf (now && (s.port p).hub.enable) (stopServing p) s

/-- Status that follows from other state. -/
def syncHub (p : PortId) (s : State) : State := syncConnection p (syncOverCurrent p s)

/-- wPortStatus of physical port p on the team that reports it (03 Table 3.9). -/
def portStatus (s : State) (u : TeamId) (p : PortId) : BitVec 16 :=
  let h := (s.port p).hub
  BitVec.ofNat 16 (b2n h.conn + 2 * b2n h.enable + 4 * b2n h.suspend + 8 * b2n h.oc + 16 * b2n h.reset + 32 * b2n h.l1 +
    0x100 * b2n (hubPower s u (hubPortOf p)) + 0x200 * b2n h.lowSpeed + 0x400 * b2n h.highSpeed + 0x800 * b2n h.test.isSome)

/-- The station function shows as connected on hub port 65 (03 R82, R95). -/
def stationConn (s : State) (u : TeamId) : Bool := hubPower s u 65

/-- wPortStatus of hub port 65 (03 R82, R91). -/
def stationStatus (s : State) (u : TeamId) : BitVec 16 :=
  let x := (s.team u).station
  let c := stationConn s u
  BitVec.ofNat 16 (b2n c + 2 * b2n (c && x.enabled) + 4 * b2n (c && x.suspended) + 32 * b2n (c && x.l1) + 0x100 * b2n (hubPower s u 65) +
    0x400 * b2n (c && x.enabled && (s.team u).speed == some .high))

/-- wPortStatus of hub port n of team u (03 R72, R84). -/
def wPortStatus (s : State) (u : TeamId) (n : Nat) : BitVec 16 :=
  if n = 65 then stationStatus s u
  else match ownedPort s u n with
    | some p => portStatus s u p
    | none => BitVec.ofNat 16 (0x100 * b2n (hubPower s u n))

/-- wPortChange of hub port n of team u (03 R72, R84). -/
def wPortChange (s : State) (u : TeamId) (n : Nat) : BitVec 16 := (s.team u).change.toList.getD (n - 1) 0

/-- The station function enters the Default state (03 R104). -/
def stationDefault (x : Station) : Station :=
  { x with st := .default, addr := 0, rwake := false, l1 := false, suspended := false, enabled := false }

/-- In rescue mode team 0's station function is in DFU mode (11 R383). -/
def rescueDfu (s : State) (u : TeamId) : Bool := s.boot.rescue && u == 0

/-- Its mode after a reset: DFU mode, or run time with the DFU state back at appIDLE (03 R104, 11 R374). -/
def stationMode (dfu : Bool) (x : Station) : Station :=
  { x with dfuMode := dfu, dfu := if dfu then .dfuIdle else .appIdle, dfuFresh := false }

/-- Logical power of hub port n changes: connection status follows (03 R72, R84, R86). -/
def setHubPower (u : TeamId) (n : Nat) (on : Bool) (s : State) : State :=
  let was := stationConn s u
  let s := modTeam u (fun t => { t with power := t.power.setIfInBounds (n - 1) on }) s
  let s := match ownedPort s u n with
    | some p => syncHub p s
    | none => s
  let s := if n = 65 then
      let s := onlyIf (was != stationConn s u) (addChange u 65 cConnection) s
      onlyIf (!on) (modTeam u fun t => { t with station := stationDefault t.station }) s
    else s
  onlyIf (!on) (clrChange u n 0xFFFF#16) s

/-- Ports that a team reports. -/
def portsOfTeam (s : State) (u : TeamId) : List PortId := (fins 64).filter fun p => servedBy s p == some u

/-- The effects of a bus reset on a team's ports, contexts and USB state (03 R104, R87, R83; log 131). -/
def busResetEffects (u : TeamId) (s : State) : State :=
  let ps := portsOfTeam s u
  let s := forEach ps (fun p s => modHub p (fun h => { h with test := none, rpOff := false }) (stopServing p s)) s
  let s := forEach ((fins 64).filter fun p => (s.port p).hub.mstate == 2 && (s.port p).hub.owner == u.val)
    (fun p => modHub p fun h => { h with moveChange := 0 }) s
  let s := modTeam u (fun t => { t with
    power := Vector.replicate 65 false, multiTt := false, rwakeEn := false, addr := 0, drivingK := false, counting := false
    wakePorts := [], stationWoke := false, l1Wake := false, station := stationMode (rescueDfu s u) (stationDefault t.station) }) s
  let s := forEach ps syncHub s
  modTeam u (fun t => { t with change := Vector.replicate 65 0 }) s

/-- The team removes its pull-up and enters the detached state (03 R75, R108). -/
def detachTeam (u : TeamId) (s : State) : State :=
  let s := busResetEffects u s
  setTeamSt u .detached (modTeam u (fun t => { t with pullUp := false, speed := none, under := .detached }) s)

/-- TEAM_CTL takes a value: the samples at the enable, the detach at the disable (03 R74, R77, R108). -/
def setTeamCtl (u : TeamId) (v : Word) (s : State) : State :=
  let was := teamEn s u
  let v := v &&& 0xF1#32
  let s := modTeam u (fun t => { t with ctl := v }) s
  if bitOf v 0 && !was then
    modTeam u (fun t => { t with
      fsOnly := bitOf v 7, lpmEn := bitOf v 6, rdEn := bitOf v 4 }) s
  else if was && !bitOf v 0 then detachTeam u s
  else s

/-- TEAM_STAT.STATE codes (03 Table 3.2). -/
def usbCode : UsbState → Nat
  | .detached => 0
  | .attached => 1
  | .default => 2
  | .address => 3
  | .configured => 4
  | .suspended => 5
  | .l1 => 6

/-- TEAM_STAT.SPEED codes. -/
def speedCode : Option Speed → Nat
  | none => 0
  | some .low => 0
  | some .full => 1
  | some .high => 2

/-- TEAM_STAT (03 Table 3.2). -/
def teamStat (t : Team) : Word :=
  pack [(speedCode t.speed, 14), (b2n t.vbusOk, 13), (b2n t.multiTt, 12), (usbCode t.st, 9), (b2n t.rwakeEn, 8), (t.addr, 0)]

/-- The team owns the port: from t1 of a move on, the target (03 R110, Table 3.17). -/
def owns (s : State) (u : TeamId) (p : PortId) : Bool := (s.port p).hub.owner == u.val && (s.port p).hub.mstate != 1

/-- TEAM_PORTS_LO (hi = 0) and TEAM_PORTS_HI (hi = 1) (03 Table 3.17). -/
def teamPorts (s : State) (u : TeamId) (hi : Nat) : Word :=
  BitVec.ofNat 32 (((fins 64).map fun p => if p.val / 32 = hi ∧ owns s u p then 2 ^ (p.val % 32) else 0).sum)

/-- PORT_HUBSTAT (03 Table 3.10). -/
def portHubstat (s : State) (p : PortId) : Word :=
  match servedBy s p with
  | some u => pack [((wPortChange s u (hubPortOf p)).toNat, 16), ((portStatus s u p).toNat, 0)]
  | none => 0

/-- PORT_TEAM (03 Table 3.20). -/
def portTeamReg (s : State) (p : PortId) : Word :=
  let h := (s.port p).hub
  pack [(h.mstate, 18), (b2n h.refused, 17), (h.owner, 0)]

/-- MSTATE changes: a PORT_MOVE record is posted (08 Table 8.4). -/
def setMstate (p : PortId) (m : Nat) (s : State) : State :=
  postHubFree clsPortMove (srcPort p) (modHub p (fun h => { h with mstate := m }) s)

/-- A guarded write of PORT_TEAM has been accepted (03 R109 to R112, Table 3.21 t0); the loss of CONNECTION is recorded (08 Table 8.4).
DEDUCED (log 127): C_CONNECTION means that CONNECTION changed (Table 3.9), so t0 sets it only where CONNECTION was 1. -/
def writePortTeam (p : PortId) (v : Word) (s : State) : State :=
  let tgt := fld v 2 0
  if !bitOf v 8 then s
  else if (s.port p).hub.mstate ≠ 0 ∨ 4 < tgt then modHub p (fun h => { h with refused := true }) s
  else
    let s := onlyIf (s.port p).hub.conn (fun s => postHubFree clsUsbConnect (srcPort p) (portChange p cConnection s)) s
    let s := modHub p (fun h => { h with refused := false, conn := false, moveChange := 0, lowSpeed := false, highSpeed := false }) (stopServing p s)
    setMstate p 1 (modHub p (fun h => { h with oldOwner := h.owner, owner := tgt }) s)

/-- Configured by the boot ROM: the owner without a move (03 Table 3.20 note, 10 R354). -/
def bootPortTeam (p : PortId) (v : Word) (s : State) : State := modHub p (fun h => { h with owner := min 4 (fld v 2 0) }) s

/-- TEAM_QMASK takes a value: queues another team selects stay 0 (03 R92). -/
def setQmask (u : TeamId) (v : BitVec 16) (s : State) : State :=
  let others := ((fins 4).filter (· ≠ u)).foldl (fun (m : BitVec 16) w => m ||| (s.team w).qmask) 0
  modTeam u (fun t => { t with qmask := v &&& ~~~others }) s

/-- The team whose endpoint 0x81 drains queue q (03 R92). -/
def qOwner (s : State) (q : QueueId) : Option TeamId := (fins 4).find? fun u => (s.team u).qmask.getLsbD q.val

/-! ### Remote wake (03 R98, R99) -/

/-- A suspended team propagates K upstream and to every enabled port that is not selectively suspended (03 R98). -/
def spreadK (u : TeamId) (s : State) : State :=
  forEach (portsOfTeam s u) (fun p => modHub p fun h => { h with k := h.enable && !h.suspend })
    (modTeam u (fun t => { t with drivingK := true }) s)

/-- K of a port on a suspended team whose host enabled remote wake; the port waits for the host's resume (03 R98, R99). -/
def startWake (u : TeamId) (p : PortId) (s : State) : State :=
  if (s.team u).st = .suspended ∧ (s.team u).rwakeEn then
    spreadK u (modTeam u (fun t => { t with wakePorts := t.wakePorts.filter (· != p) ++ [p] }) s)
  else s

/-- The station function holds a waiting record and may wake its host (03 R98). -/
def stationCalls (s : State) (u : TeamId) : Bool :=
  (s.team u).station.st == .configured && (s.team u).station.rwake &&
    (!(s.team u).evBuf.isEmpty || (fins 16).any fun q => qOwner s q == some u && !listEmpty s q)

/-- The station function signals remote wake: on a suspended team, on a team in L1 (R101), or on hub port 65 of a team that is
awake (R98, R103). -/
def stationWake (u : TeamId) (s : State) : State :=
  if ¬ stationCalls s u then s
  else
    match (s.team u).st with
    | .suspended => if (s.team u).stationWoke then s else spreadK u (modTeam u (fun t => { t with stationWoke := true }) s)
    | .detached => s
    | .attached => s
    | st =>
      let x := (s.team u).station
      let s := if x.l1 then addChange u 65 cL1 (modTeam u (fun t => { t with station := { t.station with l1 := false } }) s) else s
      let s :=
        if x.suspended then addChange u 65 cSuspend (modTeam u (fun t => { t with station := { t.station with suspended := false } }) s) else s
      if st = .l1 ∧ (s.team u).l1Wake then modTeam u (fun t => { t with drivingK := true }) s else s

/-- Lanes of a link that carry nothing: those that failed with the spare in use, also the one that the spare replaces (13 R443). -/
def lostLanes (l : Link) : List Lane :=
  l.second.toList ++ l.failed.filter fun x => l.spare.isSome && (l.spare != some x || decide (1 < l.failed.count x))

/-- A second failure on the link of port p's tile took the lane that its device on team u uses: a device at high speed, or any
device while the team runs at full speed (13 R443). -/
def laneLost (s : State) (p : PortId) (u : TeamId) (high : Bool) : Bool :=
  (lostLanes (s.tile (tileOf p)).link).any fun l => decide (l.val < 8) && l.val % 4 == u.val && (high || (s.team u).speed != some .high)

/-- A lane of tile t is being replaced by the spare: frames and packets on it are lost (01 R15). -/
def laneSwitching (s : State) (t : TileId) (lane : Lane) : Bool := (s.tile t).link.switching && (s.tile t).link.spare == some lane

/-- Downstream and upstream lanes of team u, and the control channel (01 R13, R14). -/
def laneDown (u : TeamId) : Lane := ⟨u.val, by omega⟩
def laneUp (u : TeamId) : Lane := ⟨4 + u.val, by omega⟩
def laneControl : Lane := 8

/-- The team leaves suspend or L1 for the state it was in; the count waits for the first SOF (04 R123). -/
def resumeTeam (u : TeamId) (s : State) : State :=
  let s := forEach (portsOfTeam s u) (fun p => modHub p fun h => { h with k := false }) s
  let s := modTeam u (fun t => { t with drivingK := false, l1Wake := false, counting := false }) s
  setTeamSt u (s.team u).under s

/-- A resume of a selectively suspended port is complete: SUSPEND 0, C_SUSPEND set (03 R97). -/
def resumeDone (p : PortId) (s : State) : State :=
  if (s.port p).hub.suspend then
    portChange p cSuspend (modHub p (fun h => { h with suspend := false, lingers := false, resuming := false, devResume := false }) s)
  else s

/-! ### Descriptors (03 R78, R79, R91) -/

def le16 (n : Nat) : List Byte := toBytes 2 n

/-- A string descriptor: UTF-16, little-endian. -/
def stringDesc (cs : List Char) : List Byte := lowByte (2 + 2 * cs.length) :: 3 :: (cs.map fun c => le16 c.toNat).flatten

/-- The digit of a team. -/
def teamDigit (u : TeamId) : Char := Char.ofNat (48 + u.val)

/-- String 3: the unit serial, a dash, the team digit. -/
def serialChars (s : State) (u : TeamId) : List Char := s.boot.serial.map (fun b => Char.ofNat b.toNat) ++ ['-', teamDigit u]

/-- String descriptor i of the hub or the station function; none where the index has no string. -/
def stringOf (s : State) (u : TeamId) (d : TeamDevice) (i : Nat) : Option (List Byte) :=
  match i with
  | 0 => some [4, 3, 0x09, 0x04]
  | 1 => some (stringDesc "Horbex".toList)
  | 2 =>
    match d with
    | .hub => some (stringDesc ("Narreaz NZ-64T team ".toList ++ [teamDigit u]))
    | .station => some (stringDesc ("Narreaz NZ-64T station function ".toList ++ [teamDigit u]))
  | 3 => some (stringDesc (serialChars s u))
  | _ => none

/-- Device descriptor (03 Tables 3.3 and 3.13). -/
def deviceDesc (s : State) (u : TeamId) (d : TeamDevice) (high : Bool) : List Byte :=
  let t := s.team u
  match d with
  | .hub =>
    [0x12, 0x01] ++ le16 (if t.lpmEn then 0x0210 else 0x0200) ++ [0x09, 0x00, if high then 0x02 else 0x00, 0x40] ++ le16 0x31C7 ++
      le16 (0x6400 + u.val) ++ le16 0x0B01 ++ [1, 2, 3, 1]
  | .station =>
    [0x12, 0x01] ++ le16 0x0200 ++ [0x00, 0x00, 0x00, 0x40] ++ le16 0x31C7 ++
      le16 ((if t.station.dfuMode then 0x6420 else 0x6410) + u.val) ++ le16 0x0B01 ++ [1, 2, 3, 1]

/-- Device qualifier with the values of the other speed. -/
def qualifierDesc (s : State) (u : TeamId) (d : TeamDevice) (high : Bool) : List Byte :=
  let dev := deviceDesc s u d (!high)
  [0x0A, 0x06] ++ (dev.drop 2).take 6 ++ [1, 0]

def endpointDesc (addr attr : Byte) (size : Nat) (interval : Byte) : List Byte := [7, 5, addr, attr] ++ le16 size ++ [interval]

def interfaceDesc (num alt eps cls sub proto : Byte) : List Byte := [9, 4, num, alt, eps, cls, sub, proto, 0]

/-- Configuration descriptor, or other-speed configuration (type 7) (03 Tables 3.4 and 3.14). -/
def configDesc (d : TeamDevice) (high : Bool) (ty : Byte) : List Byte :=
  match d with
  | .hub =>
    let ep := endpointDesc 0x81 3 9 (if high then 0x0C else 0xFF)
    let body := if high then interfaceDesc 0 0 1 9 0 1 ++ ep ++ interfaceDesc 0 1 1 9 0 2 ++ ep else interfaceDesc 0 0 1 9 0 0 ++ ep
    [9, ty] ++ le16 (9 + body.length) ++ [1, 1, 0, 0xE0, 0] ++ body
  | .station =>
    let body := interfaceDesc 0 0 2 0xFF 0 0 ++ endpointDesc 0x81 2 (if high then 0x200 else 0x40) 0 ++
      endpointDesc 0x82 3 0x20 (if high then 4 else 1) ++ interfaceDesc 1 0 0 0xFE 1 1 ++
      [9, 0x21, 0x0D] ++ le16 1000 ++ le16 4096 ++ le16 0x0110
    [9, ty] ++ le16 (9 + body.length) ++ [2, 1, 0, 0xE0, 0] ++ body

/-- BOS descriptor (03 Table 3.6). -/
def bosDesc : List Byte := [5, 0x0F] ++ le16 12 ++ [1, 7, 0x10, 2] ++ toBytes 4 0x0000421E

/-- Hub class descriptor (03 Table 3.5). -/
def hubDesc : List Byte :=
  [0x19, 0x29, 0x41] ++ le16 0x000D ++ [0x32, 0x00] ++ List.replicate 8 0 ++ [0x02] ++ List.replicate 9 0xFF

/-- The descriptor a GetDescriptor asks for; none is answered STALL. -/
def descriptor (s : State) (u : TeamId) (d : TeamDevice) (k : DescKind) : Option (List Byte) :=
  let high := (s.team u).speed == some .high
  match k with
  | .device => some (deviceDesc s u d high)
  | .configuration => some (configDesc d high 2)
  | .string i => stringOf s u d i
  | .qualifier => some (qualifierDesc s u d high)
  | .otherSpeed => some (configDesc d (!high) 7)
  | .bos =>
    match d with
    | .hub => if (s.team u).lpmEn then some bosDesc else none
    | .station => none

/-- Answer a control read, truncated to wLength. -/
def answerBytes (u : TeamId) (len : Nat) (bs : Option (List Byte)) (s : State) : State :=
  match bs with
  | some b => answer u (.control (b.take len)) s
  | none => answer u .stall s

/-- A request that the team accepts. -/
def accept (u : TeamId) (s : State) : State := answer u (.control []) s

/-- The host of team u can reach it with a request; otherwise nothing happens and nothing answers. -/
def onHost (u : TeamId) (f : State → State) (s : State) : State :=
  if awake s u then f s else answer u .none s

/-- The host of team u can reach its station function (03 R82, R91). -/
def onStation (u : TeamId) (f : State → State) (s : State) : State :=
  if awake s u && stationConn s u && (s.team u).station.enabled && !(s.team u).station.suspended && !(s.team u).station.l1 then f s
  else answer u .none s

/-- A hub class request (R80): in the safe state only team hardware answers (13 R429); without its firmware, and during a
warm restart, it is NAKed (13 R433, 11 R377). `hw`: team hardware answers it. -/
def classReq (u : TeamId) (hw : Bool) (f : State → State) (s : State) : State :=
  onHost u (fun s =>
    if s.flt.safe then (if hw then f s else answer u .stall s)
    else if supUp s && !s.flt.inWr then f s
    else answer u .nak s) s

/-- A hub class request with a port in wIndex: 1 to 65, else STALL (R80). -/
def portReq (u : TeamId) (n : Nat) (hw : Bool) (f : State → State) (s : State) : State :=
  classReq u hw (fun s => if 1 ≤ n ∧ n ≤ 65 then f s else answer u .stall s) s

/-- A request to the station function, which the safe state answers with STALL (13 R429). -/
def stationReq (u : TeamId) (f : State → State) (s : State) : State :=
  onStation u (fun s => if s.flt.safe then answer u .stall s else f s) s

/-- Data of the hub's or the station function's own endpoint; its toggle is USB's and open here (log 2). -/
def sendIn (u : TeamId) (bytes : List Byte) (s : State) : State :=
  let (b, s) := drawBool s
  answer u (.data b bytes) s

/-! ### Boot-time and reset values of a team (10 R343) -/

/-- A team in the state of chip reset; Uu_VBUS at the ball is as it is. -/
def teamReset (t : Team) : Team := { vbusOk := t.vbusOk }

/-- A team in DEEP: the rim holds the pull-up and Rd (12 R394). -/
def teamAfterDeep (t : Team) : Team := { vbusOk := t.vbusOk, pullUp := t.pullUp, rdEn := t.rdEn }

end Sys2Proof.Machine
end

