-- ==== Sys2Proof/Machine/BudgetOps.lean ====
section
/-!
DEFINITION. Machine/BudgetOps.lean: the power budget arbiter and its words (06 R184, R194 to R204). Powers are in 0.1 W,
currents in 10 mA, voltages in 50 mV.
-/
namespace Sys2Proof.Machine

/-! ### Port configuration in effect (06 Tables 6.12 and 6.14); the rescue program offers neither PD nor VCONN (11 R383) -/

def classB (s : State) (p : PortId) : Bool := bitOf (s.port p).pd.eff 12
def pdEn (s : State) (p : PortId) : Bool := bitOf (s.port p).pd.cfg 31 && !s.boot.rescue
def stEn (s : State) (p : PortId) : Bool := bitOf (s.port p).pd.cfg 30 && !s.boot.rescue
def vswapAcc (s : State) (p : PortId) : Bool := bitOf (s.port p).pd.eff 29
def cableDisc (s : State) (p : PortId) : Bool := bitOf (s.port p).pd.eff 28
def tcEn (s : State) (p : PortId) : Bool := bitOf (s.port p).tc.cfg 15
def vconnEn (s : State) (p : PortId) : Bool := bitOf (s.port p).tc.eff 14 && !s.boot.rescue
def baseEn (s : State) (p : PortId) : Bool := bitOf (s.port p).tc.eff 13

/-- IMAX_5V: values above 300 act as 300. -/
def imax5 (s : State) (p : PortId) : Nat := min 300 (fld (s.port p).pd.eff 9 0)

/-- RP_ADV: 0b11 acts as 0b10. -/
def rpAdv (s : State) (p : PortId) : Rp :=
  match fld (s.port p).tc.eff 9 8 with
  | 0 => .dflt
  | 1 => .a15
  | _ => .a30

/-- The Rp current in 10 mA (07 R237). -/
def rpCurrent : Rp → Nat
  | .none => 0
  | .dflt => 50
  | .a15 => 150
  | .a30 => 300

/-- Code of RP_ADV and RP_NOW (06 Table 6.12). -/
def rpCode : Rp → Nat
  | .a15 => 1
  | .a30 => 2
  | _ => 0

/-- The base for an Rp: 5 V times its current (06 R195). -/
def baseFor (r : Rp) : Nat := rpCurrent r / 2

/-- GRP_CFG.RAIL as a voltage in 50 mV; 0 is off (07 Table 7.8). -/
def railVolt (s : State) (g : TileId) : Nat :=
  match fld (s.grp g).cfgNow 13 12 with
  | 0 => 0
  | 1 => 180
  | 2 => 300
  | _ => 400

/-- A 5 A cable (06 R210): CABLE_ID with VBUS Current Handling 0b10. -/
def cable5A (s : State) (p : PortId) : Bool := (s.port p).pd.cableId && fld (s.port p).pd.cable 6 5 == 2

/-- Icable in 10 mA (06 R184). -/
def icable (s : State) (p : PortId) : Nat := if cable5A s p then 500 else 300

/-- The high rail serves the port's want: class B, rail up, no latched fault on its path (06 R184, 07 R252). -/
def railUsable (s : State) (p : PortId) : Bool := classB s p && (s.grp (tileOf p)).railUp && !(s.port p).pw.pfetH

/-- The class maximum (06 R184). -/
def classMax (s : State) (p : PortId) : Nat := if classB s p then 1000 else 150

/-- The want W of a port (06 R184). -/
def wantOf (s : State) (p : PortId) : Nat :=
  let five := imax5 s p / 2
  let rail := if railUsable s p then railVolt s (tileOf p) * icable s p / 200 else 0
  min (min (5 * fld (s.port p).pd.eff 23 16) (classMax s p)) (max five rail)

/-! ### Allocations and limits (06 R194, R195) -/

def allocOf (s : State) (p : PortId) : Nat := s.bud.port[p].alloc

/-- Sum of a group's allocations (06 Table 6.23). -/
def groupUsed (s : State) (g : TileId) : Nat := ((portsOf g).map (allocOf s)).sum

/-- Sum of all allocations (06 Table 6.20). -/
def totalUsed (s : State) : Nat := ((fins 64).map (allocOf s)).sum

/-- The group's effective limit (06 R194). -/
def groupLimit (s : State) (g : TileId) : Nat :=
  let w := s.bud.grp[g]
  let limit := fld w 15 0
  match (s.grp g).st with
  | .on | .good => limit
  | .warning => limit * min 100 (fld w 23 16) / 100
  | _ => 0

def globalLimit (s : State) : Nat := fld s.bud.global 15 0

/-- Room for an increase at the group and global levels. -/
def roomFor (s : State) (p : PortId) : Nat :=
  min (groupLimit s (tileOf p) - groupUsed s (tileOf p)) (globalLimit s - totalUsed s)

def modBp (p : PortId) (f : BudPort → BudPort) (s : State) : State := modBud (fun b => { b with port := b.port.set p (f b.port[p]) }) s

/-- The arbiter sets a port's allocation, which HOLD then reads (06 R226). -/
def setAlloc (p : PortId) (n : Nat) (s : State) : State := modBp p (fun b => { b with alloc := n, hold := BitVec.ofNat 16 n }) s

/-- BUDGET record kinds (06 Table 6.11). -/
def budgetRecord (kind : Nat) (p : PortId) (power : Nat) (s : State) : State :=
  supPost clsBudget srcBudget (pack [(kind, 27), (p.val, 21), (power % 65536, 0)]) s

/-! ### Words and their mailboxes (06 Table 6.5, 02 Table 2.15) -/

/-- MBX_T2St and MBX_S2Tt in the order of Table 2.15. -/
def boxUp (t : TileId) : Fin 24 := ⟨16 + t.val, by omega⟩
def boxDown (t : TileId) : Fin 24 := ⟨8 + t.val, by omega⟩

def opBase : Nat := 1
def opHold : Nat := 2
def opCommit : Nat := 3
def opRelease : Nat := 4
def opGrant : Nat := 8
def opShort : Nat := 9
def opOffer : Nat := 10
def opReclaim : Nat := 11

/-- A budget word (06 Table 6.5). -/
def budWord (p : PortId) (w : BudWord) : Word := pack [(w.op, 28), ((laneOf p).val, 24), (w.tag.toNat, 16), (w.power.toNat, 0)]

/-- Store a word in a mailbox: FULL is set, and the word's TIMEOUT mark starts anew (02 R64, R67). DESIGN CHOICE (log 123): a
SND_RESET that software has not cleared stays set, as W1C bits do. -/
def storeBox (b : Fin 24) (v : Word) (thread : Option (Fin 8)) (s : State) : State :=
  modBox b (fun m => { m with data := v, full := true, timedOut := false, thread := thread, budget := false }) s

/-- Take the word of a mailbox: FULL clears (02 R64). -/
def takeBox (b : Fin 24) (s : State) : State := modBox b (fun m => { m with full := false, thread := none }) s

/-- The weaver of port p stalls while a word of its own waits, and runs on once none does (01 R20). -/
def followStall (p : PortId) (s : State) : State :=
  modThr p (fun c =>
    if wordPends s p && c.st == .running then { c with st := .stallSend }
    else if !wordPends s p && c.st == .stallSend && c.stall == .none then { c with st := .running }
    else c) s

/-- The oldest waiting word of a running weaver of tile t enters an empty MBX_T2St (01 R20). -/
def pumpUp (t : TileId) (s : State) : State :=
  if s.mbx.box[boxUp t].full then s
  else
    match s.bud.up.find? fun x => tileOf x.1 == t && weaverLives s x.1 with
    | some x =>
      followStall x.1
        (modBox (boxUp t) (fun m => { m with budget := true })
          (storeBox (boxUp t) (budWord x.1 x.2) (some (laneOf x.1)) (modBud (fun b => { b with up := b.up.erase x }) s)))
    | none => s

/-- The oldest waiting answer to tile t enters an empty MBX_S2Tt (06 R502). -/
def pumpDown (t : TileId) (s : State) : State :=
  if s.mbx.box[boxDown t].full then s
  else
    match s.bud.down.find? fun x => tileOf x.1 == t with
    | some x => storeBox (boxDown t) (budWord x.1 x.2) none (modBud (fun b => { b with down := b.down.erase x }) s)
    | none => s

/-- The weaver of port p sends a budget word (06 R201); its tag is the program's own (log 2). -/
def sendUp (p : PortId) (op power : Nat) (s : State) : State :=
  let (n, s) := drawNat s
  followStall p
    (pumpUp (tileOf p) (modBud (fun b => { b with up := b.up ++ [(p, { op := op, tag := lowByte n, power := BitVec.ofNat 16 power })] }) s))

/-- The arbiter sends a budget word to the weaver of port p. -/
def sendDown (p : PortId) (op : Nat) (tag : Byte) (power : Nat) (s : State) : State :=
  pumpDown (tileOf p) (modBud (fun b => { b with down := b.down ++ [(p, { op := op, tag := tag, power := BitVec.ofNat 16 power })] }) s)

/-- A word has reached the arbiter: its mailbox is read. -/
def arriveUp (p : PortId) (w : BudWord) (s : State) : State :=
  let b := boxUp (tileOf p)
  if s.mbx.box[b].full ∧ s.mbx.box[b].data = budWord p w then pumpUp (tileOf p) (takeBox b s) else s

/-- A word has reached the weaver: its mailbox is read. -/
def arriveDown (p : PortId) (w : BudWord) (s : State) : State :=
  let b := boxDown (tileOf p)
  if s.mbx.box[b].full ∧ s.mbx.box[b].data = budWord p w then pumpDown (tileOf p) (takeBox b s) else s

/-! ### Decisions (06 R194 to R199) -/

/-- OVERSUB reads 1 while the Default USB bases exceed a limit (06 Table 6.20). -/
def oversub (s : State) : Bool :=
  s.bud.oversub && (decide (globalLimit s < totalUsed s) || (fins 8).any fun g => decide (groupLimit s g < groupUsed s g))

/-- Raise a port's allocation towards a target as far as R194 allows; short of it, the port is starved. -/
def raiseTo (p : PortId) (target : Nat) (s : State) : State :=
  let a := allocOf s p
  let goal := min target (max a (wantOf s p))
  let n := a + min (goal - a) (roomFor s p)
  modBp p (fun b => { b with want := target, starved := decide (n < target) }) (setAlloc p n s)

/-- Insert a port in the order of a rank. -/
def insertBy (rank : PortId → Nat) (p : PortId) : List PortId → List PortId
  | [] => [p]
  | q :: qs => if rank p ≤ rank q then p :: q :: qs else q :: insertBy rank p qs

/-- Ports in ascending order of a rank. -/
def sortBy (rank : PortId → Nat) (ps : List PortId) : List PortId := ps.foldr (insertBy rank) []

/-- Ports in the order of arbitration: ascending PRIO, then ascending number (06 R197). -/
def prioOrder (s : State) (ps : List PortId) : List PortId := sortBy (fun p => s.bud.port[p].prio.toNat * 64 + p.val) ps

/-- REFRESH in `now` ticks: 10 ms units of 8 ns (06 Table 6.18). -/
def refreshTicks (s : State) : Nat := fld s.bud.ctl 15 8 * 1250000

/-- Offer freed room to one starved port (06 R197). -/
def offerPort (p : PortId) (s : State) : State :=
  let b := s.bud.port[p]
  let fresh : Bool := match b.offered with | some t => decide (t + refreshTicks s ≤ s.now) | none => true
  let n := b.alloc + min (min b.want (wantOf s p) - b.alloc) (roomFor s p)
  if b.starved ∧ fresh ∧ b.alloc < n then
    let s := modBp p (fun b => { b with offered := some s.now, starved := decide (n < b.want) }) (setAlloc p n s)
    budgetRecord 5 p n (sendDown p opOffer 0 n s)
  else s

/-- The freed room goes to starved ports while the arbiter runs (06 R197). -/
def offerAll (s : State) : State := if supUp s then forEach (prioOrder s (fins 64)) offerPort s else s

/-- Reclaim an excess from one port, not below its base (06 R198). -/
def reclaimPort (excess : State → Nat) (p : PortId) (s : State) : State :=
  let b := s.bud.port[p]
  let n := max (min b.base b.alloc) (b.alloc - excess s)
  if n < b.alloc then
    budgetRecord 3 p n (sendDown p opReclaim 0 n (modBp p (fun b => { b with starved := decide (n < b.want) }) (setAlloc p n s)))
  else s

/-- An effective limit has fallen below the sum it governs (06 R198). -/
def reclaimAll (s : State) : State :=
  if supUp s then
    let s := forEach (fins 8) (fun g s => forEach (prioOrder s (portsOf g)).reverse (reclaimPort fun s => groupUsed s g - groupLimit s g) s) s
    forEach (prioOrder s (fins 64)).reverse (reclaimPort fun s => totalUsed s - globalLimit s) s
  else s

/-- Limits or holds have changed: reclaim, then offer. -/
def settle (s : State) : State :=
  let s := offerAll (reclaimAll s)
  modBud (fun b => { b with oversub := oversub s }) s

/-- A port's allocation falls to its base (06 R196, R212, 07 R253). -/
def fallToBase (p : PortId) (s : State) : State :=
  let b := s.bud.port[p]
  settle (modBp p (fun x => { x with want := x.base, starved := false, waiting := false }) (setAlloc p (min b.alloc b.base) s))

/-- A port's allocation falls to 0 (06 R196). -/
def fallToZero (p : PortId) (s : State) : State :=
  settle (modBp p (fun x => { x with base := 0, want := 0, starved := false, waiting := false }) (setAlloc p 0 s))

/-- A group feed has gone down: every hold of the group falls to 0 (06 R199). -/
def groupDown (g : TileId) (s : State) : State :=
  settle (forEach (portsOf g) (fun p s =>
    modBp p (fun x => { x with base := 0, want := 0, starved := false }) (setAlloc p 0 s)) s)

/-- The arbiter's decision on a word of port p, and its answer (06 R194 to R196). -/
def decideWord (p : PortId) (w : BudWord) (s : State) : State :=
  let power := w.power.toNat
  let a := allocOf s p
  if w.op = opBase then
    if power ≤ a ∨ power - a ≤ min (roomFor s p) (wantOf s p - a) then
      let s := modBp p (fun b => { b with base := power, want := max b.want power }) (setAlloc p (max a power) s)
      sendDown p opGrant w.tag (max a power) s
    else if power ≤ baseFor .dflt then
      let s := modBp p (fun b => { b with base := power, want := max b.want power }) (setAlloc p (max a power) s)
      let s := budgetRecord 4 p power (modBud (fun b => { b with oversub := true }) s)
      sendDown p opGrant w.tag (max a power) s
    else sendDown p opShort w.tag a (budgetRecord 0 p a (setAlloc p a s))
  else if w.op = opHold ∨ (w.op = opCommit ∧ a < power) then
    let s := raiseTo p power s
    let n := allocOf s p
    if power ≤ n then sendDown p opGrant w.tag n s else sendDown p opShort w.tag n (budgetRecord 0 p n s)
  else if w.op = opCommit then sendDown p opGrant w.tag a (setAlloc p a s)
  else
    let b := s.bud.port[p]
    let n := min a (max b.base power)
    settle (modBp p (fun x => { x with want := n, starved := false }) (setAlloc p n s))

/-! ### Registers (06 Tables 6.20 to 6.24) -/

def budStat (s : State) : Word :=
  pack [(b2n (oversub s), 31), (b2n ((fins 64).any fun p => s.bud.port[p].starved), 30), (min 0xFFFF (totalUsed s), 0)]

def budGrpUsed (s : State) (g : TileId) : Word :=
  pack [(b2n ((s.grp g).st == .warning), 31), (b2n (!feedUp s g), 30), (min 0xFFFF (groupUsed s g), 0)]

def budPortReg (s : State) (p : PortId) : Word :=
  let b := s.bud.port[p]
  pack [(b.prio.toNat, 24), (b2n b.starved, 23), (b2n b.waiting, 22), (b.hold.toNat, 0)]

end Sys2Proof.Machine
end

