-- ==== Sys2Proof/Machine/PowerOps.lean ====
section
/-!
DEFINITION. Machine/PowerOps.lean: group feeds, contract keepers, ramps and protection (chapter 07). Voltages are in
50 mV, currents in 10 mA, as the measurement registers give them.
-/
namespace Sys2Proof.Machine

/-! ### Settings and windows -/

def kPath (v : Word) : Path :=
  match fld v 31 30 with
  | 1 => .five
  | 2 => .rail
  | _ => .none
def kVolt (v : Word) : Nat := fld v 29 20
def kIbase (v : Word) : Nat := fld v 9 0
def pathCode : Path → Nat
  | .none => 0
  | .five => 1
  | .rail => 2

/-- A keeper setting (07 Table 7.16). -/
def setting (p : Path) (volt ibase : Nat) : Word := pack [(pathCode p, 30), (volt, 20), (ibase, 0)]

/-- VBUS is inside the window of a contract voltage (07 Table 7.4). -/
def inWindow (volt vbus : Nat) : Bool :=
  if volt = 100 then decide (95 ≤ vbus ∧ vbus ≤ 110) else decide (volt * 95 ≤ vbus * 100 ∧ vbus * 100 ≤ volt * 105)

/-- OV_PCT in percent (07 Table 7.15). -/
def ovPct (prot : Word) : Nat := 110 + 5 * fld prot 1 0

/-- Over-voltage threshold of a voltage (07 Table 7.4). -/
def ovThreshold (prot : Word) (volt : Nat) : Nat := if volt ≤ 100 then 120 else volt * ovPct prot / 100

/-- Port shunt in 0.5 mΩ; 0 acts as 1 (07 Table 7.14). -/
def shuntOf (pwr : Word) : Nat := max 1 (fld pwr 23 18)

/-- Fast-trip current in mA: SC within 95 % of the sense range (07 Table 7.15). -/
def scMa (pwr prot : Word) : Nat := min (fld prot 31 24 * 100) (190000 / shuntOf pwr)

/-- INRUSH in 10 mA; 0 acts as 1 (07 Table 7.14). -/
def inrushOf (pwr : Word) : Nat := 10 * max 1 (fld pwr 15 8)

/-- NOLOAD in 10 mA; 0 acts as 1 (07 Table 7.15). -/
def noloadOf (prot : Word) : Nat := max 1 (fld prot 7 4)

/-- REV in 10 mA; 0 acts as 1 (07 Table 7.15). -/
def revOf (prot : Word) : Nat := 10 * max 1 (fld prot 11 8)

/-- Point k of a curve: PCT and TIME (07 Table 7.22). -/
def curvePct (w : Word) : Nat := fld w 30 21
def curveTime (w : Word) : Nat := fld w 19 0

/-- The used points rise in PCT and fall in TIME (07 R249). -/
def risesFalls : List Word → Bool
  | a :: b :: r => decide (curvePct a < curvePct b) && decide (curveTime b < curveTime a) && risesFalls (b :: r)
  | _ => true

/-- The curve is valid (07 R249). -/
def curveValid (v : Vector Word 8) : Bool := curvePct v[0] != 0 && risesFalls (v.toList.filter fun w => curvePct w != 0)

/-! ### Records (07 Table 7.7) -/

def postPgood (p : PortId) (good : Bool) (reason : Nat) (s : State) : State :=
  postPort p clsPgood (pack [(b2n good, 29), (reason, 26), (min 1023 (s.port p).pw.vbus, 16)]) s

def postTrip (p : PortId) (cause : Nat) (path : Path) (point stage current : Nat) (s : State) : State :=
  postPort p clsProtTrip (pack [(cause, 26), (pathCode path, 24), (point, 19), (stage, 16), (min 0xFFFF current, 0)]) s

def postContract (p : PortId) (objpos : Nat) (v : Word) (opCur : Nat) (mismatch : Bool) (s : State) : State :=
  postPort p clsContract (pack [(objpos % 8, 27), (b2n (kPath v == .rail), 26), (kVolt v, 16), (min 1023 opCur, 6), (b2n mismatch, 5)]) s

def feedCode : FeedState → Nat
  | .off => 0
  | .qualifying => 1
  | .ramping => 2
  | .on => 3
  | .good => 4
  | .warning => 5
  | .cooldown => 6
  | .disabled => 7

/-! ### Ports: paths off, trips, keeper -/

/-- An explicit contract has ended: a CONTRACT record with position 0, and PD falls back (06 Table 6.11, 07 R253). -/
def endContract (p : PortId) (s : State) : State :=
  let s := onlyIf ((s.port p).pd.objpos != 0) (postContract p 0 0 0 false) s
  modPd p (fun d => { d with objpos := 0, opCur := 0, volt := 0, mismatch := false, req := none, transMon := false }) s

/-- Both paths of a port switch off and discharge starts; PGOOD falls at once (07 R242, R255). -/
def pathsOff (p : PortId) (s : State) : State :=
  let w := (s.port p).pw
  let was := w.pathNow != .none || w.vbus != 0
  let s := modPw p (fun w => { w with
    pathNow := .none, armed := false, ftRun := false, curveRun := Vector.replicate 8 false, probed := false
    discharge := w.discharge || was, ovHigh := 0, held := false, granted := false, pgood := false }) s
  let s := onlyIf w.pgood (postPgood p false 2) s
  syncHub p s

/-- State after the paths are off, no cooldown or latch-off apart (07 Table 7.17). -/
def restState (w : PortPwr) : PState :=
  match w.pstate with
  | .cooldown => .cooldown
  | .latched => .latched
  | _ => if w.fwOff then .fwOff else .off

/-- The keeper goes to none: both paths off, discharge, the contract ends (07 R239, R253). -/
def keeperNone (p : PortId) (v : Word) (s : State) : State :=
  let s := endContract p s
  let s := modPw p (fun w => { w with keeper := v, inForce := v, held := false, pstate := restState w }) s
  pathsOff p s

/-- A port trip (07 R253, R254): causes 0 to 6 start a cooldown or latch off, 7 to 9 latch a pass-FET fault, 15 is rail
lost. -/
def tripPort (p : PortId) (cause point current : Nat) (path : Path) (s : State) : State :=
  let w := (s.port p).pw
  let retries := satInc w.retries 15
  let max_ := fld w.effProt 15 12
  let latch := cause ≤ 6 && max_ != 0 && decide (max_ ≤ retries)
  let stage := min 4 w.retries
  let code := if cause = 15 then 5 else if cause ≤ 6 then (if latch then 7 else stage) else 7
  let s := modPw p (fun w => { w with flags := orBit w.flags cause, tripped := true }) s
  let s := if cause ≤ 6 then
      modPw p (fun w => { w with
        retries := retries, stage := stage, coolStart := s.now, pstate := if latch then .latched else .cooldown }) s
    else modPw p (fun w => { w with pstate := .off }) s
  let s := latchEv p (BitVec.ofNat 32 (2 ^ 10)) (postTrip p cause path point code current s)
  let s := endContract p s
  let s := modPw p (fun w => { w with keeper := 0, inForce := 0 }) s
  fallToBase p (pathsOff p s)

/-- A latched pass-FET fault on a path (07 R251, R252); it resets the learned gate current (R246). -/
def latchPfet (p : PortId) (path : Path) (short : Bool) (s : State) : State :=
  modPw p (fun w => { w with
    pfetL := w.pfetL || path != .rail, pfetH := w.pfetH || path == .rail, fetShort := w.fetShort || short
    gateSamples := [], gateLearn := 0 }) s

/-- The feed is down for a keeper write (07 Table 7.3 code 9, 06 R194). -/
def feedDownFor (s : State) (p : PortId) : Bool := !feedUp s (tileOf p)

/-- Table 7.3: the first rule that a setting breaks, 0 where it breaks none. PATH = none breaks none (log 16). -/
def keeperRefusal (s : State) (p : PortId) (v : Word) : Nat :=
  let w := (s.port p).pw
  let raw := fld v 31 30
  let volt := kVolt v
  let ib := kIbase v
  let b := classB s p
  let five := raw == 2 && cable5A s p
  if raw = 0 then 0
  else if raw = 3 ∨ (raw = 2 ∧ !b) then 1
  else if raw = 2 ∧ !(s.grp (tileOf p)).railUp then 2
  else if volt ≠ (if raw = 1 then 100 else railVolt s (tileOf p)) then 3
  else if (if five then 500 else 300) < ib then 4
  else if (if b then 200000 else 30000) < volt * ib then 5
  else if 2 * scMa w.effPwr w.effProt ≤ 25 * ib then 6
  else if (raw = 1 ∧ w.pfetL) ∨ (raw = 2 ∧ w.pfetH) then 7
  else if b ∧ !curveValid w.effCurve then 8
  else if feedDownFor s p then 9
  else 0

/-- The checks made again when a held write starts (07 R240). -/
def heldRefusal (s : State) (p : PortId) (v : Word) : Nat :=
  let w := (s.port p).pw
  if kPath v = .rail ∧ !(s.grp (tileOf p)).railUp then 2
  else if (kPath v = .five ∧ w.pfetL) ∨ (kPath v = .rail ∧ w.pfetH) then 7
  else if feedDownFor s p then 9
  else 0

/-- A refused write: the keeper is unchanged (07 R238), and KEEPER latches (09 Table 9.8). -/
def refuseKeeper (p : PortId) (code : Nat) (s : State) : State :=
  latchEv p (BitVec.ofNat 32 (2 ^ 11)) (modPw p (fun w => { w with refuse := code, flags := orBit w.flags 16 }) s)

/-- A setting starts (07 R239): a relay slot from none, a transition between paths, or at once on the same path. -/
def startSetting (p : PortId) (v : Word) (s : State) : State :=
  let w := (s.port p).pw
  let ov := ovThreshold w.effProt (kVolt v)
  if w.pathNow = .none then
    modPw p (fun w => { w with
      inForce := v, held := false
      pstate := match w.pstate with
        | .cooldown => .cooldown
        | .latched => .latched
        | .fwOff => .fwOff
        | _ => if w.fwOff then .fwOff else .waiting }) s
  else if kPath v = w.pathNow then modPw p (fun w => { w with inForce := v, held := false, pstate := .on, ovHigh := 0 }) s
  else
    modPw p (fun w => { w with
      ovHigh := max ov (max w.ovHigh (ovThreshold w.effProt (kVolt w.inForce)))
      inForce := v, held := false, pstate := .transition
      pathNow := if kPath v == .rail then .rail else w.pathNow
      discharge := kPath v == .five }) s

/-- PORT_PWR_CFG, PORT_PROT_CFG and PORT_CURVEk take effect (07 R258); a change of RSHUNT resets LEARN_N (R246). -/
def latchPwrCfg (p : PortId) (s : State) : State :=
  modPw p (fun w => { w with
    effPwr := w.pwrCfg, effProt := w.protCfg, effCurve := w.curve
    gateSamples := if fld w.pwrCfg 23 18 = fld w.effPwr 23 18 then w.gateSamples else []
    gateLearn := if fld w.pwrCfg 23 18 = fld w.effPwr 23 18 then w.gateLearn else 0 }) s

/-- A contract behind a keeper write: object position, operating current, mismatch. -/
structure ContractInfo where
  objpos : Nat
  opCur : Nat
  mismatch : Bool
deriving DecidableEq, Repr

/-- Take up a contract, or end one, at an accepted keeper write (06 Table 6.11, 08 Table 8.4; log 175); a write that is held behind a contract's
transition leaves the monitor of 06 R214 armed (07 R240). -/
def setContract (p : PortId) (v : Word) (c : Option ContractInfo) (s : State) : State :=
  match c with
  | some c =>
    postContract p c.objpos v c.opCur c.mismatch
      (modPd p (fun d => { d with objpos := c.objpos, opCur := c.opCur, volt := kVolt v, mismatch := c.mismatch }) s)
  | none =>
    if (s.port p).pd.objpos = 0 then s
    else
      let armed := (s.port p).pd.transMon && match (s.port p).pw.pstate with | .ramping | .transition => true | _ => false
      modPd p (fun d => { d with transMon := armed }) (endContract p s)

/-- A write reaches the keeper (07 R237 to R240). -/
def writeKeeper (p : PortId) (raw : Word) (c : Option ContractInfo) (s : State) : State :=
  let v := raw &&& 0xFFF003FF#32
  let s := latchPwrCfg p s
  let code := keeperRefusal s p v
  if code ≠ 0 then refuseKeeper p code s
  else if fld v 31 30 = 0 then latchEv p (BitVec.ofNat 32 (2 ^ 11)) (keeperNone p v s)
  else
    let s := latchEv p (BitVec.ofNat 32 (2 ^ 11)) (modPw p (fun w => { w with keeper := v }) (setContract p v c s))
    match (s.port p).pw.pstate with
    | .ramping | .transition =>
      modPw p (fun w => { w with
        held := true
        ovHigh := max (ovThreshold w.effProt (kVolt v)) (max w.ovHigh (ovThreshold w.effProt (kVolt w.inForce))) }) s
    | _ => startSetting p v s

/-- The ramp or transition has ended: a held write starts, checked again (07 R240). -/
def startHeld (p : PortId) (s : State) : State :=
  let w := (s.port p).pw
  if w.held then
    let code := heldRefusal s p w.keeper
    if code = 0 then startSetting p w.keeper s
    else refuseKeeper p code (modPw p (fun w => { w with keeper := w.inForce, held := false, ovHigh := 0 }) s)
  else modPw p (fun w => { w with ovHigh := 0 }) s

/-- A transition runs, or a ramp behind which a write is held (07 R240). -/
def settling (w : PortPwr) : Bool := w.pstate == .transition || (w.pstate == .ramping && w.held)

/-- The transition, or the ramp behind which a write is held, has ended: the path of its setting is on, discharge is off, and a
held write starts (07 R239, R240). Downward the 5 V path is then made and the high-rail path broken, also at tSrcSettle
(log 134). -/
def endTransition (p : PortId) (s : State) : State :=
  startHeld p (modPw p (fun w => { w with pstate := .on, pathNow := kPath w.inForce, discharge := false }) s)

/-- The over-voltage threshold that stands now (07 R239). -/
def ovNow (w : PortPwr) : Nat := if w.ovHigh ≠ 0 then w.ovHigh else ovThreshold w.effProt (kVolt w.inForce)

/-! ### Relay start (07 R243) -/

/-- A latched pass-FET fault that keeps the port off: any fault on the 5 V path, or one on the path named (07 R252). -/
def pfetHolds (w : PortPwr) : Bool := w.pfetL || (kPath w.inForce == .rail && w.pfetH)

/-- Eligible for a VBUS slot (07 R243, R252). -/
def eligible (s : State) (p : PortId) : Bool :=
  let w := (s.port p).pw
  w.pstate == .waiting && kPath w.inForce != .none && w.pathNow == .none && (s.grp (tileOf p)).pg && !w.fwOff && !pfetHolds w

/-- SPACING in `now` ticks: 0.1 ms units of 8 ns, below 5 acts as 5 (07 Table 7.13). -/
def relayTicks (s : State) : Nat := max 5 (fld s.bud.relay 7 0) * 12500

/-- SPACING has passed since the last grant (07 R243). -/
def relayDue (s : State) : Bool :=
  match s.bud.relayAt with
  | some t => decide (t + relayTicks s ≤ s.now)
  | none => true

/-- RELAY_RANK, then port number (07 R243). -/
def relayRank (s : State) (p : PortId) : Nat := fld (s.port p).pw.effPwr 31 24 * 64 + p.val

/-- The port that the next slot goes to. -/
def nextRelay (s : State) : Option PortId := (sortBy (relayRank s) ((fins 64).filter (eligible s))).head?

/-- Probe slew: 5 V/ms in 10 mV/ms (07 R245). -/
def probeSlew : Nat := 500

/-- The slew that the gate driver holds now: the probe's, then the planned one (07 R245, R246). -/
def slewNow (w : PortPwr) : Nat := if w.probed then w.slew else probeSlew

/-- A slot: the ramp from vSafe0V starts (07 R245, R246). -/
def startRamp (p : PortId) (s : State) : State :=
  let s := latchPwrCfg p s
  modPw p (fun w => { w with
    pstate := .ramping, pathNow := kPath w.inForce, granted := true, probed := false, armed := false, discharge := false
    rampBase := 0, rampChecks := 0
    gateNow := if w.gateSamples.length < 4 then fld w.effPwr 7 0 else w.gateLearn }) s

/-- Nothing flows and nothing rises: no check of R247 trips the path. -/
def noLoad (w : PortPwr) (vbus current : Nat) : Bool := decide (vbus < 5) && decide (current < noloadOf w.effProt)

/-! ### Group feeds -/

def grpUv (w : Word) : Nat := fld w 29 20
def grpWarn (w : Word) : Nat := fld w 19 10
def grpOv (w : Word) : Nat := fld w 9 0

/-- THR_BAD (07 Table 7.11). -/
def thrBad (g : Group) : Bool :=
  !(decide (grpUv g.thrNow < grpWarn g.thrNow) && decide (grpWarn g.thrNow < grpOv g.thrNow) &&
    decide (fld g.limNow 7 0 ≤ fld g.limNow 15 8) && decide (fld g.limNow 15 8 < fld g.limNow 23 16))

/-- FEED_EN. -/
def feedEn (g : Group) : Bool := bitOf g.cfgNow 15

/-- SHORT_OFF holds the feed off (07 R252). -/
def shortHeld (s : State) (g : TileId) : Bool := bitOf (s.grp g).cfgNow 14 && (portsOf g).any fun p => (s.port p).pw.fetShort

/-- Level of Gg_VSEL (07 R235). -/
inductive Vsel where
  | low
  | highZ
  | high
deriving DecidableEq, Repr

/-- What Gg_VSEL drives for RAIL: low for 9 V, high impedance for 15 V, high for 20 V, low with RAIL off (07 R235). -/
def vselOf (s : State) (g : TileId) : Vsel :=
  match fld (s.grp g).cfgNow 13 12 with
  | 2 => .highZ
  | 3 => .high
  | _ => .low

/-- The feed may leave FEED_STATE 7 (07 R229, R503, R252). -/
def feedAllowed (s : State) (g : TileId) : Bool := feedEn (s.grp g) && (s.grp g).released && !shortHeld s g

/-- FEED_STATE changes: a record is posted (07 Table 7.7). -/
def setFeed (g : TileId) (st : FeedState) (s : State) : State :=
  if (s.grp g).st = st then s
  else
    let s := modGrp g (fun x => { x with st := st }) s
    postTile g clsFeedState (srcGroup g) (pack [(feedCode st, 27), (min 1023 (s.grp g).feedV, 16), (min 4095 (s.grp g).feedI, 0)]) s

/-- Gg_PG_N takes a level, with a PGOOD record of the group and the reason of Table 7.7. -/
def putFeedPg (g : TileId) (on : Bool) (reason : Nat) (s : State) : State :=
  let s := modGrp g (fun x => { x with pg := on }) s
  postTile g clsPgood (srcGroup g) (pack [(b2n on, 29), (reason, 26), (min 1023 (s.grp g).feedV, 16)]) s

/-- Gg_PG_N changes. -/
def setFeedPg (g : TileId) (on : Bool) (reason : Nat) (s : State) : State :=
  if (s.grp g).pg = on then s else putFeedPg g on reason s

/-- The feed gate is driven: ramping or on. -/
def gateDriven (s : State) (g : TileId) : Bool := feedUp s g || (s.grp g).st == .ramping

/-- A feed has gone down (07 R234): its ports go off and fall to no contract, its holds fall (06 R199). -/
def feedDownPorts (g : TileId) (s : State) : State :=
  let s := modGrp g (fun x => { x with railUp := false, limiting := false }) s
  let s := forEach (portsOf g) (fun p s => keeperNone p 0 s) s
  groupDown g s

/-- DEEP, up to the end of its wake. -/
def inDeep (s : State) : Bool :=
  match s.crp.st with
  | .deep => true
  | .waking | .wakeFailed => s.crp.target == .deep
  | _ => false

/-- A switch-off of R230 with a cooldown: flag bit of GRP_STAT, PROT_TRIP cause (07 R230, R233). -/
def feedTrip (g : TileId) (flag cause current : Nat) (s : State) : State :=
  let x := s.grp g
  let stage := min 4 x.trips
  let s := modGrp g (fun x => { x with
    flags := x.flags ||| BitVec.ofNat 8 (2 ^ flag), trips := x.trips + 1, stage := stage, deepTrip := inDeep s }) s
  let s := postTile g clsProtTrip (srcGroup g) (pack [(cause, 26), (stage, 16), (min 0xFFFF current, 0)]) s
  let s := setFeed g .cooldown (putFeedPg g false 5 s)
  feedDownPorts g s

/-- A switch-off without cooldown: FEED_EN = 0 or SHORT_OFF (07 R230, R252). A feed whose gate was driven goes down with a PGOOD
record (07 R234). -/
def feedDisable (g : TileId) (s : State) : State :=
  feedDownPorts g (setFeed g .disabled (if gateDriven s g || (s.grp g).pg then putFeedPg g false 5 s else s))

/-- The feed starts again from step 2 of R229 where it may. -/
def feedRelease (g : TileId) (s : State) : State :=
  if feedAllowed s g ∧ (s.grp g).st = .disabled then setFeed g .off s else s

/-- FEED_STATE in which the gate is on. -/
def feedOnNow (s : State) (g : TileId) : Bool := feedUp s g

/-- GRP_CFG takes a value (07 R230, R233, R235); the RAIL in force is the rim slice's until boot step 6 (R503). -/
def writeGrpCfg (g : TileId) (raw : Word) (s : State) : State :=
  let x := s.grp g
  let v := raw &&& 0x0000FFFF#32
  let busy := fld v 13 12 ≠ fld x.cfgNow 13 12 ∧ (portsOf g).any fun p => kPath (s.port p).pw.keeper == .rail
  let v := if busy then setFld v 13 12 (fld x.cfgNow 13 12) else v
  let s := onlyIf (decide busy) (modGrp g fun x => { x with flags := x.flags ||| 0x80#8 }) s
  let railMoved := fld v 13 12 ≠ fld x.cfgNow 13 12
  let s := modGrp g (fun x => { x with cfg := v, railUp := x.railUp && !decide railMoved }) s
  if feedEn x ∧ !bitOf v 15 then (if (s.grp g).released then feedDisable g s else s)
  else if !feedEn x ∧ bitOf v 15 then feedRelease g (modGrp g (fun x => { x with trips := 0, stage := 0 }) s)
  else s

/-- GRP_STAT (07 Table 7.11). -/
def grpStat (s : State) (g : TileId) : Word :=
  let x := s.grp g
  pack [(feedCode x.st, 29), (b2n x.pg, 28), (b2n (x.st == .warning), 27), (b2n x.railUp, 26), (b2n x.limiting, 25), (b2n (thrBad x), 24),
    (x.stage, 21), (x.flags.toNat / 4 % 64, 2)]

/-- GRP_MEAS (07 Table 7.12). -/
def grpMeas (s : State) (g : TileId) : Word :=
  let x := s.grp g
  pack [(min 1023 x.feedV, 22), (min 1023 x.railV, 12), (min 4095 x.feedI, 0)]

/-! ### Registers of a port (07 Tables 7.16 to 7.21) -/

def pstateCode : PState → Nat
  | .off => 0
  | .waiting => 1
  | .ramping => 2
  | .on => 3
  | .transition => 4
  | .cooldown => 5
  | .latched => 6
  | .fwOff => 7

/-- Cooldown remaining in 10 ms; one `now` is 8 ns (07 R254). -/
def coolLeft (s : State) (w : PortPwr) : Nat :=
  if w.pstate = .cooldown then 100 * 2 ^ w.stage - (s.now - w.coolStart) / 1250000 else 0

def portPwrStat (s : State) (p : PortId) : Word :=
  let w := (s.port p).pw
  pack [(pathCode w.pathNow, 30), (pstateCode w.pstate, 27), (b2n w.pgood, 26), (b2n w.armed, 25), (w.stage, 22), (w.retries, 18),
    (b2n w.pfetL, 17), (b2n w.pfetH, 16), (w.refuse, 12), (coolLeft s w, 0)]

def portPwrMeas (s : State) (p : PortId) : Word :=
  let w := (s.port p).pw
  pack [(min 1023 w.vbus, 22), (unsignedOf 16 (clampInt (-32768) 32767 w.cur), 0)]

def portSs (s : State) (p : PortId) : Word :=
  let w := (s.port p).pw
  pack [(min 1023 w.cload, 22), (w.gateLearn % 256, 14), (min 4 w.gateSamples.length, 11), (w.slew % 2048, 0)]

/-- PORT_PWR_CMD takes a value: CLR_LATCH ends a cooldown or latch-off (07 R254). -/
def clearLatch (p : PortId) (s : State) : State :=
  let s := modPw p (fun w => { w with
    stage := 0, retries := 0
    pstate := match w.pstate with
      | .cooldown | .latched => if w.fwOff then .fwOff else if kPath w.inForce == .none then .off else .waiting
      | x => x }) s
  syncHub p s

/-- CLR_PFET (07 R246, R252): the faults clear; a feed that SHORT_OFF held starts again; the port leaves Disabled. -/
def clearPfet (p : PortId) (s : State) : State :=
  let was := (s.port p).pw.fetShort
  let s := modPw p (fun w => { w with pfetL := false, pfetH := false, fetShort := false, gateSamples := [], gateLearn := 0 }) s
  let s := onlyIf (was && tcEn s p) (modTc p fun t => { t with st := .unattached, rp := rpAdv s p }) s
  syncHub p (feedRelease (tileOf p) s)

/-- FW_OFF = 1: both paths off, keeper to none (07 R243). -/
def fwOffOn (p : PortId) (s : State) : State :=
  let s := modPw p (fun w => { w with fwOff := true }) s
  let s := keeperNone p 0 s
  modPw p (fun w => { w with pstate := match w.pstate with | .cooldown => .cooldown | .latched => .latched | _ => .fwOff }) s

/-- FW_OFF = 0: the port is released to R243 with its stored setting. -/
def fwOffClear (p : PortId) (s : State) : State :=
  modPw p (fun w => { w with
    fwOff := false
    pstate := match w.pstate with
      | .fwOff => if kPath w.inForce == .none then .off else .waiting
      | x => x }) s

end Sys2Proof.Machine
end

