-- ==== Sys2Proof/Machine/Events.lean ====
section
/-!
DEFINITION. Machine/Events.lean: event bits of the weavers and of the supervisor that follow from changes of state
(09 Tables 9.8 and 9.9), and PSTAT (09 R327).
-/
namespace Sys2Proof.Machine

/-- Latch event bits of the supervisor. -/
def latchSup (bits : Word) (s : State) : State := modCpu .sup (fun c => { c with epend := c.epend ||| bits }) s

/-- LPOWER: the owning team's logical power, 1 when unowned (09 R327). -/
def lpower (s : State) (p : PortId) : Bool :=
  match servedBy s p with
  | some u => hubPower s u (hubPortOf p)
  | none => true

def ccCode : Cc → Nat
  | .vOpen => 0
  | .vRa => 1
  | .vRd => 2
  | .high => 3

/-- The word that PSTAT returns (09 R327). -/
def pstat (s : State) (p : PortId) : Word :=
  let t := (s.port p).tc
  let w := (s.port p).pw
  let g := s.grp (tileOf p)
  pack [(ccCode t.cc1, 30), (ccCode t.cc2, 28), (b2n w.pgood, 27), (b2n t.vconnOn, 26), (b2n t.vconnOc, 25), (b2n g.pg, 24),
    (b2n g.railUp, 23), (b2n (servedBy s p).isSome, 22), (b2n (lpower s p), 21), (pstateCode w.pstate, 18), (pathCode w.pathNow, 16),
    (min 1023 w.vbus, 0)]

/-- PWR_CHG, GRP_CHG and HUB_CHG of port p for a change from one state to another (09 Table 9.8). -/
def portBits (p : PortId) (s₀ s : State) : Word :=
  let a := (s₀.port p).pw
  let b := (s.port p).pw
  let g := s₀.grp (tileOf p)
  let h := s.grp (tileOf p)
  let pwr := a.pgood != b.pgood || a.pathNow != b.pathNow || a.pstate != b.pstate
  let grp := g.pg != h.pg || g.railUp != h.railUp
  let hub := (servedBy s₀ p).isSome != (servedBy s p).isSome || lpower s₀ p != lpower s p
  pack [(b2n pwr, 10), (b2n grp, 12), (b2n hub, 13)]

/-- The changes latch; across a reset of the weaver none does (10 R343). -/
def notePort (s₀ : State) (p : PortId) (s : State) : State :=
  if (cpuOf s₀ (.weaver p)).births = (cpuOf s (.weaver p)).births then latchEv p (portBits p s₀ s) s else s

/-- TEAM_CHG and BUSY_CLR (09 Table 9.9); across a reset of the supervisor neither latches (10 R343). -/
def noteSup (s₀ s : State) : State :=
  if s₀.sup.births ≠ s.sup.births then s else
  let team := (fins 4).any fun u => teamStat (s₀.team u) != teamStat (s.team u)
  let busy := s₀.acc.busy.toList.any (·.isSome) && s.acc.busy.toList.all (·.isNone)
  latchSup (pack [(b2n team, 9), (b2n busy, 10)]) s

/-- A change that concerns one port. -/
def portEv (p : PortId) (f : State → State) (s : State) : State := notePort s p (f s)

/-- A change that concerns the ports of one group. -/
def groupEv (g : TileId) (f : State → State) (s : State) : State := forEach (portsOf g) (notePort s) (f s)

/-- A change that may concern every port and the supervisor. -/
def allEv (f : State → State) (s : State) : State := noteSup s (forEach (fins 64) (notePort s) (f s))

end Sys2Proof.Machine
end

