-- ==== Sys2Proof/Machine/TypecOps.lean ====
section
/-!
DEFINITION. Machine/TypecOps.lean: Type-C source behaviour, CC baseline, VCONN, SBU switches, attach and detach
(06 R171 to R178, R205 to R208, R219, R220).
-/
namespace Sys2Proof.Machine

/-! ### CC pins (06 R172, R173) -/

/-- The orientation of a pattern that attaches: vRd on one pin, vOPEN or vRa on the other. -/
def attachPin (t : PortTc) : Pin :=
  if t.cc1 = .vRd ∧ (t.cc2 = .vOpen ∨ t.cc2 = .vRa) then .cc1
  else if t.cc2 = .vRd ∧ (t.cc1 = .vOpen ∨ t.cc1 = .vRa) then .cc2
  else .none

/-- vRd on both pins, or vRa on both. -/
def unsupportedPins (t : PortTc) : Bool := (t.cc1 == .vRd && t.cc2 == .vRd) || (t.cc1 == .vRa && t.cc2 == .vRa)

/-- What the attached pin reads. -/
def attachedCc (t : PortTc) : Cc :=
  match t.orient with
  | .cc1 => t.cc1
  | .cc2 => t.cc2
  | .none => .vOpen

/-- What the other pin reads in an attach pattern. -/
def otherCc (t : PortTc) (o : Pin) : Cc := if o = .cc1 then t.cc2 else t.cc1

/-- The pin that VCONN goes to: the one that CCSEL does not select (09 R326); bit 26 of a VCONN record. -/
def vconnPinCode (t : PortTc) : Nat := if t.ccsel = .cc1 then 1 else 0

def pinCode : Pin → Nat
  | .none => 0
  | .cc1 => 1
  | .cc2 => 2

/-- PORT_TC_STAT.STATE codes (06 Table 6.13). -/
def tcCode : TcState → Nat
  | .unattached => 0
  | .attachWait => 1
  | .attached => 2
  | .disabled => 3
  | .errorRecovery => 4
  | .unsupported => 5

/-- PORT_TC_STAT (06 Table 6.13). -/
def portTcStat (s : State) (p : PortId) : Word :=
  let t := (s.port p).tc
  pack [(tcCode t.st, 28), (pinCode t.orient, 26), (b2n t.ra, 25), (b2n t.vconnOn, 24), (b2n t.vconnPartner, 23), (b2n t.vconnOc, 22),
    (rpCode t.rp, 20), (b2n t.baseLearn, 19), (unsignedOf 10 t.baseline, 0)]

/-! ### Timers of the policy (06 Table 6.2) -/

def tHas (s : State) (p : PortId) (t : PdTimer) : Bool := (s.port p).pd.timers.contains t
def tOff (p : PortId) (t : PdTimer) (s : State) : State := modPd p (fun d => { d with timers := d.timers.filter (· != t) }) s
def tOn (p : PortId) (t : PdTimer) (s : State) : State :=
  modPd p (fun d => { d with timers := d.timers.filter (· != t) ++ [t] }) s

/-! ### Rp (06 R171, R175, R191) -/

/-- Logical power off with PWR_SW = 1 withdraws Rp (06 R176, 03 R86); a bus reset or a team disable does not (03 R73, R87). -/
def withdrawn (s : State) (p : PortId) : Bool := (s.port p).hub.rpOff

/-- Rp of an unattached port. -/
def idleRp (s : State) (p : PortId) : Rp := if withdrawn s p then .none else rpAdv s p

/-- Rp of an attached port before an explicit contract: RP_ADV, or the lower level whose base was granted (06 R191, R195). -/
def attachRp (s : State) (p : PortId) : Rp :=
  let b := s.bud.port[p].base
  if b = 0 ∨ baseFor (rpAdv s p) ≤ b then rpAdv s p else if baseFor .a15 ≤ b then .a15 else .dflt

def setRp (p : PortId) (r : Rp) (s : State) : State := modTc p (fun t => { t with rp := r }) s

/-- PORT_TC_CFG and PORT_PD_CFG take effect (06 R225). -/
def latchTcCfg (p : PortId) (s : State) : State :=
  modPd p (fun d => { d with eff := d.cfg }) (modTc p (fun t => { t with eff := t.cfg }) s)

/-! ### CC baseline (06 R177) -/

/-- Learning starts at the factory trim; with BASE_EN = 0 no sample ends it. -/
def startBaseline (p : PortId) (s : State) : State :=
  modTc p (fun t => { t with
    baseLearn := true, baseFrozen := false, samples := []
    baseline := clampInt (-250) 250 (Config.factoryBaseline p) }) s

/-- One sample in mV. -/
def baselineSample (p : PortId) (mv : Int) (s : State) : State :=
  if !baseEn s p ∨ (s.port p).tc.baseFrozen then s
  else
    modTc p (fun t =>
      if t.baseLearn then
        let xs := t.samples ++ [mv]
        if xs.length < 8 then { t with samples := xs }
        else { t with samples := [], baseLearn := false, baseline := clampInt (-250) 250 (xs.sum / 8) }
      else { t with baseline := clampInt (-250) 250 (t.baseline + (mv - t.baseline) / 8) }) s

/-! ### VCONN and SBU (06 R205 to R208, R219, R220) -/

/-- A VCONN record (06 Table 6.11). -/
def postVconn (p : PortId) (cause : Nat) (s : State) : State :=
  weaverPost p clsVconn (pack [(cause, 27), (vconnPinCode (s.port p).tc, 26)]) s

/-- The port switches its VCONN. -/
def setVconn (p : PortId) (on : Bool) (cause : Nat) (s : State) : State :=
  postVconn p cause (modTc p (fun t => { t with vconnOn := on, vconnPartner := t.vconnPartner && !on }) s)

/-- An attached port whose VCONN switch is held open shows it in VCONN_OC (14 R466; log 172). -/
def holdVconn (p : PortId) (s : State) : State :=
  let t := (s.port p).tc
  if t.ccHold ∧ t.st = .attached ∧ ¬ t.vconnOc then
    latchEv p (BitVec.ofNat 32 (2 ^ 17)) (modTc p (fun t => { t with vconnOc := true }) s)
  else s

/-- The port sources VCONN to an Ra (06 R205). -/
def vconnWanted (s : State) (p : PortId) : Bool :=
  let t := (s.port p).tc
  t.ra && vconnEn s p && !t.vconnOc && !t.ccHold

/-- SOP' discovery applies: VCONN on and CABLE_DISC = 1 (06 R209). -/
def discWanted (s : State) (p : PortId) : Bool := (s.port p).tc.ra && (s.port p).tc.vconnOn && cableDisc s p

/-- The SBU switch as it stands: open outside the station-time mode and while it is held open (14 R463, R466). -/
def sbuNow (s : State) (p : PortId) : Sbu := if (s.port p).pd.alt && !(s.port p).tc.sbuHold then (s.port p).tc.sbu else .isOpen

def openSbu (p : PortId) (s : State) : State := modTc p (fun t => { t with sbu := .isOpen }) s

/-- The partner's SBU1 and SBU2, by orientation (06 R219). -/
def closeSbu (p : PortId) (s : State) : State :=
  modTc p (fun t => { t with sbu := if t.orient = .cc2 then .crossed else .straight }) s

/-! ### Alternate mode records (06 Table 6.11) -/

def stSvid : Nat := 0x31C7

def postAlt (p : PortId) (kind svid : Nat) (s : State) : State := weaverPost p clsAltMode (pack [(kind, 27), (svid, 0)]) s

/-- An ALT_MODE record with the stamp of the answer that decides the change, or of now where none does (08 Table 8.4). -/
def postAltAt (p : PortId) (st : Option Stamp) (kind svid : Nat) (s : State) : State :=
  match st with
  | some st => weaverPostAt p st clsAltMode (pack [(kind, 27), (svid, 0)]) s
  | none => postAlt p kind svid s

/-! ### Detach (06 R175, R176, R214) -/

/-- A record that waits to be posted. -/
def Late.isPost : Late → Bool
  | .post _ _ _ => true
  | _ => false

/-- No partner: the policy's own state at an unattached port. -/
def pdIdle (d : PortPd) : PortPd :=
  { d with
    pe := .noPd, rev := 0, objpos := 0, alt := false, waits := 0, cableId := false, cable := 0, opCur := 0, volt := 0
    mismatch := false, caps := [], capsSent := 0, hrCount := 0, req := none, seq := .none, after := .none, own := [], ownRun := false
    late := d.late.filter Late.isPost, sinkNg := false, timers := [], discCount := 0, discDone := false, stDone := false, stRefused := false, modeVdo := 0
    transMon := false, swapToPort := false, outq := [], hold := 0, capsDue := false, bistMode := false }

/-- The transmitter is idle, and the MessageID counters start afresh (06 R180; log 21). -/
def phyIdle (x : PdPhy) : PdPhy := { x with tx := none, idSop := 0, idSop1 := 0, rxId := none, rxId1 := none, bist := false }

/-- Receive and transmit options of the PHY as the shipped program sets them (06 R180, 09 R323): SOP' reception while it asks a
cable, three retries under Revision 2.0. -/
def phyOpts (p : PortId) (sop1 rev2 : Bool) (s : State) : State := modPhy p (fun x => { x with optSop1 := sop1, optRev2 := rev2 }) s

/-- The state and Rp that a port without a partner takes up. -/
def restTc (p : PortId) (s : State) : State :=
  let off := !tcEn s p || (s.port p).pw.fetShort
  modTc p (fun t => { t with st := if off then .disabled else .unattached, rp := if off then .none else idleRp s p }) s

/-- A detach (06 R175): VBUS and VCONN off, SBU open, hold 0, a DETACH record. A detach by logical power off leaves a cooldown as it is:
the host cannot shorten it (03 R88). -/
def detach (p : PortId) (cause : Nat) (trans : Bool) (vbus : Nat) (s : State) : State :=
  let s := weaverPost p clsDetach (pack [(cause, 28), (b2n trans, 27), (min 1023 vbus, 16)]) s
  let s := if (s.port p).pd.alt then postAlt p 1 stSvid s else s
  let s := keeperNone p 0 s
  let s := if (s.port p).tc.vconnOn then setVconn p false 1 s else s
  let s := modTc p (fun t => { t with
    orient := .none, ra := false, vconnPartner := false, vconnOc := false, ocDue := false, baseLearn := false, baseFrozen := false
    ccDebounce := false, pdDebounce := false, ccsel := .none, sbu := .isOpen, sbuRun := false, sbuPulse := false, sbuStop := false }) s
  let s := phyOpts p false false (modPhy p phyIdle (modPd p pdIdle s))
  let s := onlyIf (cause != 1) (clearLatch p) (modPw p (fun w => { w with tripped := false }) s)
  syncHub p (sendUp p opRelease 0 (fallToZero p (restTc p s)))

/-- The port detaches without its weaver: the keeper takes both paths off, VCONN goes off and the SBU switches open, a DETACH record,
the allocation falls to 0, a cooldown ends but for logical power off (03 R86, R88, 06 R175, R214, 07 R239, R254, 13 R439; log 152). -/
def hwDetach (p : PortId) (cause : Nat) (trans : Bool) (vbus : Nat) (s : State) : State :=
  let s := keeperNone p 0 (modPw p (fun w => { w with vbus := vbus, tripped := false }) s)
  let s := postPort p clsDetach (pack [(cause, 28), (b2n trans, 27), (min 1023 vbus, 16)]) s
  let s := modPhy p phyIdle (modPd p pdIdle (modTc p (fun t => { t with
    orient := .none, ra := false, vconnOn := false, vconnPartner := false, vconnOc := false, ocDue := false, baseLearn := false
    baseFrozen := false, ccDebounce := false, pdDebounce := false, ccsel := .none, sbu := .isOpen, sbuRun := false, sbuPulse := false
    sbuStop := false }) s))
  let s := onlyIf (cause != 1) (clearLatch p) (phyOpts p false false s)
  syncHub p (fallToZero p (restTc p s))

/-- ErrorRecovery (06 R176): neither Rp nor VBUS nor VCONN for 30 ms. -/
def enterRecovery (p : PortId) (s : State) : State :=
  let s := if (s.port p).tc.st = .attached then detach p 3 false (s.port p).pw.vbus s else keeperNone p 0 s
  tOn p .errorRecovery (modTc p (fun t => { t with st := .errorRecovery, rp := .none, vconnOn := false, ccDebounce := false, pdDebounce := false }) s)

/-- Logical power off with PWR_SW = 1, or on again (06 R176, 03 R86); without the weaver the port detaches all the same. -/
def followPower (p : PortId) (s : State) : State :=
  if withdrawn s p then
    let s :=
      if (s.port p).tc.st ≠ .attached then onlyIf ((s.port p).pw.keeper != 0) (keeperNone p 0) s
      else if weaverActs s p then detach p 1 false (s.port p).pw.vbus s
      else hwDetach p 1 false (s.port p).pw.vbus s
    modTc p (fun t => { t with
      rp := .none, ccDebounce := false
      st := match t.st with | .attachWait | .unsupported => .unattached | x => x }) s
  else
    modTc p (fun t => { t with rp := if t.st = .unattached ∧ t.rp = .none then rpAdv s p else t.rp }) s

/-- TC_EN takes effect at once (06 R225); a weaver that cannot act honours it when it can (catchUp, startPolicy). -/
def setTcEn (p : PortId) (s : State) : State :=
  if ¬ weaverActs s p then s
  else if ¬ tcEn s p then
    let s := if (s.port p).tc.st = .attached then detach p 3 false (s.port p).pw.vbus s else s
    modTc p (fun t => { t with st := .disabled, rp := .none, ccDebounce := false }) s
  else if (s.port p).tc.st = .disabled then restTc p (latchTcCfg p s)
  else s

/-- FET short: Type-C Disabled, no Rp (07 R252). -/
def disableTc (p : PortId) (s : State) : State :=
  let s :=
    if (s.port p).tc.st ≠ .attached then s
    else if weaverActs s p then detach p 2 false (s.port p).pw.vbus s
    else hwDetach p 2 false (s.port p).pw.vbus s
  modTc p (fun t => { t with st := .disabled, rp := .none, ccDebounce := false, pdDebounce := false }) s

end Sys2Proof.Machine
end

