-- ==== Sys2Proof/Machine/PdOps.lean ====
section
/-!
DEFINITION. Machine/PdOps.lean: Power Delivery (06 R179 to R221, 09 R323 to R325). The PHY works in hardware; the policy
acts while the port's weaver runs its program. Layouts that the spec names but does not lay out are those of USB Power
Delivery 3.1 (log 22).
-/
namespace Sys2Proof.Machine

/-! ### Messages on the wire -/

def mType (h : BitVec 16) : Nat := h.toNat % 32
def mObjs (h : BitVec 16) : Nat := h.toNat / 4096 % 8
def mId (h : BitVec 16) : Nat := h.toNat / 512 % 8
def mRev (h : BitVec 16) : Nat := h.toNat / 64 % 4
def mExt (h : BitVec 16) : Bool := h.getLsbD 15

/-- Header of a message of the port: source, DFP on SOP; the PHY adds the MessageID (09 R324). -/
def mHeader (s : State) (p : PortId) (f : Frame) (ty n : Nat) (ext : Bool) : BitVec 16 :=
  BitVec.ofNat 16 (ty + (if f = .sop then 0x120 else 0) + (if (s.port p).pd.rev = 1 then 1 else 2) * 64 + n * 4096 + b2n ext * 32768)

/-- Control and data message types. -/
def cAccept : Nat := 3
def cReject : Nat := 4
def cPsRdy : Nat := 6
def cVconnSwap : Nat := 11
def cWait : Nat := 12
def cSoftReset : Nat := 13
def cNotSupported : Nat := 16
def dSourceCaps : Nat := 1
def dSourceInfo : Nat := 11
def dRevision : Nat := 12
def dVdm : Nat := 15

def ctlMsg (s : State) (p : PortId) (ty : Nat) : PdMsg := { header := mHeader s p .sop ty 0 false }
def dataMsg (s : State) (p : PortId) (f : Frame) (ty : Nat) (objs : List Word) : PdMsg :=
  { frame := f, header := mHeader s p f ty objs.length false, objs := objs }

/-- An extended message of one chunk (06 R182). -/
def extMsg (s : State) (p : PortId) (ty : Nat) (bytes : List Byte) : PdMsg :=
  { header := mHeader s p .sop ty ((2 + bytes.length + 3) / 4) true, bytes := le16 (0x8000 + bytes.length) ++ bytes }

/-- Length in bytes: 2 + 4 × the Number of Data Objects (09 R324). -/
def mLength (m : PdMsg) : Nat := 2 + 4 * mObjs m.header

/-- The bytes of a message, header first. -/
def mBytes (m : PdMsg) : List Byte :=
  (le16 m.header.toNat ++ (m.objs.map fun (w : Word) => toBytes 4 w.toNat).flatten ++ m.bytes ++ List.replicate 32 0).take 32

/-! ### PHY (01 R19, 06 R180, 09 R323 to R325) -/

def frameCode : Frame → Nat
  | .sop => 0
  | .sop1 => 1
  | .hardReset => 7

/-- A PD_RX or PD_TX record of the shipped program (06 R182, Table 6.11), posted once its weaver can act. -/
def postPd (p : PortId) (cls : Nat) (st : Stamp) (f : Frame) (failed : Bool) (h : BitVec 16) (s : State) : State :=
  let w := pack [(frameCode f, 27), (b2n failed, 26), (h.toNat, 0)]
  orLater p (.post cls st w) (weaverPostAt p st cls w) s

/-- The PHY listens: a BMC pin is selected; SOP' only where it is enabled (09 R323, R326). -/
def phyHears (s : State) (p : PortId) (f : Frame) : Bool :=
  clocksRun s && (s.port p).tc.ccsel != .none && (f != .sop1 || (s.port p).phy.optSop1)

/-- MessageID of the last message received on a frame. -/
def lastRx (x : PdPhy) (f : Frame) : Option Nat := if f = .sop1 then x.rxId1 else x.rxId

def setLastRx (p : PortId) (f : Frame) (n : Option Nat) (s : State) : State :=
  modPhy p (fun x => if f = .sop1 then { x with rxId1 := n } else { x with rxId := n }) s

/-- A message that passed CRC goes into the next free slot, or is acknowledged and dropped (09 R325). -/
def fillSlot (p : PortId) (m : PdMsg) (s : State) : State :=
  let (st, s) := takeStamp (some (tileOf p)) s
  if (s.port p).phy.slots.length < 3 then
    postPd p clsPdRx st m.frame false m.header (modPhy p (fun x => { x with slots := x.slots ++ [{ msg := m, stamp := st }] }) s)
  else latchEv p (BitVec.ofNat 32 (2 ^ 8)) (modPhy p (fun x => { x with rxOvf := satInc x.rxOvf 255 }) s)

/-- The message repeats the MessageID of the one before it (06 R180). -/
def isRepeat (s : State) (p : PortId) (m : PdMsg) : Bool :=
  lastRx (s.port p).phy m.frame == some (mId m.header) && !(mType m.header == cSoftReset && mObjs m.header == 0)

/-- The message is new and finds three slots held: it is acknowledged and dropped (09 R325). -/
def isOverflow (s : State) (p : PortId) (m : PdMsg) : Bool := !isRepeat s p m && decide (3 ≤ (s.port p).phy.slots.length)

/-- A message arrives and passes CRC: GoodCRC is sent in hardware, a repeated MessageID is discarded (01 R19, 06 R180). -/
def phyReceive (p : PortId) (m : PdMsg) (s : State) : State :=
  let s' := modPhy p (fun x => { x with goodcrc := some (m.frame, mId m.header) }) s
  if isRepeat s p m then s' else fillSlot p m (setLastRx p m.frame (some (mId m.header)) s')

/-- While the tile's clock is gated, the CC monitor latches a preamble on the attached pin, for the weaver to see PD_RXOVF at the wake; no
GoodCRC is sent (12 R393). -/
def hearAsleep (p : PortId) (s : State) : State :=
  if coreUp s && !clocksRun s && (s.port p).tc.ccsel != .none then latchEv p (BitVec.ofNat 32 (2 ^ 8)) (modPhy p (fun x => { x with heard := true }) s)
  else s

/-- Put a message before the transmitter (09 R324). -/
def putTx (p : PortId) (m : PdMsg) (s : State) : State :=
  match (s.port p).phy.tx with
  | none => modPhy p (fun x => { x with tx := some { msg := m } }) s
  | some _ => modPd p (fun d => { d with outq := d.outq ++ [m] }) s

/-- The next waiting message, once the transmitter is free. -/
def nextTx (p : PortId) (s : State) : State :=
  match (s.port p).phy.tx, (s.port p).pd.outq with
  | none, m :: r => modPhy p (fun x => { x with tx := some { msg := m } }) (modPd p (fun d => { d with outq := r }) s)
  | _, _ => s

/-- The MessageID counter of a frame. -/
def txId (x : PdPhy) (f : Frame) : Nat := if f = .sop1 then x.idSop1 else x.idSop

def stepTxId (p : PortId) (f : Frame) (s : State) : State :=
  modPhy p (fun x => if f = .sop1 then { x with idSop1 := (x.idSop1 + 1) % 8 } else { x with idSop := (x.idSop + 1) % 8 }) s

/-- nRetryCount (06 Table 6.2, 09 R323). -/
def retryLimit (s : State) (p : PortId) : Nat := if (s.port p).phy.optRev2 then 3 else 2

/-- Counters of the PHY and of pending sends after Hard Reset signalling, sent or received (log 21). -/
def phyHardReset (p : PortId) (s : State) : State :=
  modPd p (fun d => { d with outq := [] }) (modPhy p (fun x => { phyIdle x with bist := false }) s)

/-! ### Sequences (06 R191, R213) -/

/-- The port has PD with its partner: not before the first HOLD, nor in Hard Reset, nor with PD disabled. -/
def pdLive (s : State) (p : PortId) : Bool :=
  (s.port p).tc.st == .attached &&
    (match (s.port p).pd.pe with
    | .negotiating | .ready | .transition => true
    | _ => false)

/-- A Revision 3.x explicit contract: the serve rule applies (06 R191). -/
def serveRule (s : State) (p : PortId) : Bool := (s.port p).pd.rev == 2 && (s.port p).pd.objpos != 0

/-- POLICY = WAIT (06 R202). -/
def policyWait (s : State) : Bool := bitOf s.bud.ctl 0

/-- The hold that the capabilities are built from: the last hold known, within the want (06 R184, R185). -/
def holdNow (s : State) (p : PortId) : Nat := min (s.port p).pd.hold (wantOf s p)

/-- Table 6.3: the PDOs built from a power. -/
def pdosOf (s : State) (p : PortId) (power : Nat) : List Pdo :=
  let v := railVolt s (tileOf p)
  let i := if railUsable s p ∧ v ≠ 0 then min (icable s p) (power * 200 / v) else 0
  { volt := 100, cur := min (imax5 s p) (2 * power) } :: (if 50 ≤ i then [{ volt := v, cur := i }] else [])

/-- A Fixed Supply PDO; the first carries the flags of R186. -/
def pdoWord (first : Bool) (x : Pdo) : Word :=
  pack [(b2n first, 27), (b2n first, 26), (x.volt, 10), (x.cur, 0)]

def pdoWords : List Pdo → List Word
  | [] => []
  | x :: r => pdoWord true x :: r.map (pdoWord false)

/-- A structured VDM header, version 2.0. -/
def vdmHeader (svid objpos ty cmd : Nat) : Word := pack [(svid, 16), (1, 15), (1, 13), (objpos, 8), (ty, 6), (cmd, 0)]

/-- TIM_STAT.STATE code of the servo (08 Table 8.2). -/
def servoCode : Servo → Nat
  | .unset => 0
  | .free => 1
  | .acquire => 2
  | .track => 3
  | .holdover => 4
  | .freq => 5

/-- The VDO of ST_STATUS (06 Table 6.9). -/
def stStatusVdo (s : State) : Word :=
  pack [(1, 30), (b2n (s.tim.st == .holdover), 6), (servoCode s.tim.st, 3), (b2n s.tim.valid, 2)]

/-- The message that starts a sequence of the port's own, capabilities apart. -/
def ownMsg (s : State) (p : PortId) (q : Seq) : PdMsg :=
  match q with
  | .softReset => ctlMsg s p cSoftReset
  | .vconnSwap => ctlMsg s p cVconnSwap
  | .cableId => dataMsg s p .sop1 dVdm [vdmHeader 0xFF00 0 0 1]
  | .stIdentity => dataMsg s p .sop dVdm [vdmHeader 0xFF00 0 0 1]
  | .stSvids => dataMsg s p .sop dVdm [vdmHeader 0xFF00 0 0 2]
  | .stModes => dataMsg s p .sop dVdm [vdmHeader stSvid 0 0 3]
  | .stEnter => dataMsg s p .sop dVdm [vdmHeader stSvid 1 0 4]
  | .stExit => dataMsg s p .sop dVdm [vdmHeader stSvid 1 0 5]
  | .stConfig => dataMsg s p .sop dVdm [vdmHeader stSvid 1 0 16, (s.port p).pd.modeVdo &&& 3#32]
  | .stStatus => dataMsg s p .sop dVdm [vdmHeader stSvid 1 0 17, stStatusVdo s]
  | .none | .request | .capsHold | .capsReduced => ctlMsg s p cNotSupported

/-- The steps of R215. -/
def stStep : Seq → Bool
  | .stIdentity | .stSvids | .stModes | .stEnter | .stConfig => true
  | _ => false

/-- A VDM that awaits its answer while a sequence of the sink runs. -/
def isVdm : Seq → Bool
  | .stStatus | .stExit | .cableId => true
  | q => stStep q

/-- The VDM that awaits an answer. -/
def vdmSeq (d : PortPd) : Seq := if isVdm d.seq then d.seq else if isVdm d.after then d.after else .none

/-- The port's Soft_Reset awaits its Accept. -/
def awaitsAccept (d : PortPd) : Bool := d.seq == .softReset || d.after == .softReset

/-- Another sequence runs; a VDM or a Soft_Reset goes on awaiting its answer (06 R192, R213, R215). -/
def takeOver (q : Seq) (d : PortPd) : PortPd := { d with after := if isVdm d.seq || d.seq == .softReset then d.seq else d.after, seq := q }

/-- Count in BUD_CNT: WAITS in [31:16], REDUCED in [15:0] (06 Table 6.21). -/
def countWaits (s : State) : State := modBud (fun b => { b with cntWaits := satInc b.cntWaits 0xFFFF }) s
def countReduced (s : State) : State := modBud (fun b => { b with cntReduced := satInc b.cntReduced 0xFFFF }) s

/-- The weaver asks the arbiter, and remembers what for. -/
def ask (p : PortId) (op power : Nat) (s : State) : State :=
  sendUp p op power (modPd p (fun d => { d with asked := d.asked ++ [op] }) s)

def askHold (p : PortId) (s : State) : State := ask p opHold (wantOf s p) s

/-- The base for the Rp presented (06 R195). -/
def askBase (p : PortId) (s : State) : State := ask p opBase (baseFor (s.port p).tc.rp) s

/-- VCONN follows VCONN_EN and the pins while VBUS is good (06 R205, R225). -/
def vconnFollow (p : PortId) (s : State) : State :=
  if vconnWanted s p ∧ ¬ (s.port p).tc.vconnOn ∧ ¬ (s.port p).tc.vconnPartner then
    let s := setVconn p true 0 s
    if cableDisc s p ∧ ¬ (s.port p).pd.discDone then tOn p .vconnStable s else s
  else s

/-- Source_Capabilities bring a written configuration into effect (06 R225): without an explicit contract Rp is the new RP_ADV, whose base
is asked (R195); VCONN goes on or off; a higher want is asked, and what exceeds a lower one is released (R184). -/
def takeCfg (p : PortId) (s₀ : State) : State :=
  let s := latchTcCfg p s₀
  let s := if rpAdv s p ≠ rpAdv s₀ p ∧ ¬ serveRule s p then askBase p (setRp p (rpAdv s p) s) else s
  let s := if (s.port p).tc.vconnOn ∧ ¬ vconnEn s p then setVconn p false 1 s else onlyIf (s.port p).pw.pgood (vconnFollow p) s
  let w := wantOf s p
  if w = wantOf s₀ p then s
  else if (s.port p).pd.hold < w then askHold p s
  else if w < (s.port p).pd.hold then sendUp p opRelease w (modPd p (fun d => { d with hold := w }) s)
  else s

/-- Source_Capabilities (06 R185, R187, R202 to R204): by policy, or from the hold. -/
def sendCaps (p : PortId) (q : Seq) (s : State) : State :=
  let s := takeCfg p s
  let w := wantOf s p
  let basis := if policyWait s ∧ q = .request then w else holdNow s p
  let caps := pdosOf s p basis
  let s := onlyIf (decide (basis < w)) countReduced s
  let s := onlyIf (decide (basis < w)) (budgetRecord 2 p basis) s
  let s := tOff p .waitCap (tOff p .sourceCapability s)
  let s := modPd p (fun d => { takeOver .request d with
    capsDue := false, caps := caps, pe := if d.pe = .ready then .ready else .negotiating }) s
  putTx p (dataMsg s p .sop dSourceCaps (pdoWords caps)) s

/-- A sequence of the port's own starts with its first message. -/
def launch (p : PortId) (q : Seq) (s : State) : State :=
  match q with
  | .none => s
  | .request | .capsHold | .capsReduced => sendCaps p q s
  | .cableId =>
    let s := modPd p (fun d => { d with seq := q, discCount := d.discCount + 1 }) s
    tOn p .discoverIdentity (putTx p (ownMsg s p q) (phyOpts p true (s.port p).phy.optRev2 s))
  | .softReset =>
    let s := modPd p (fun d => { d with seq := q, softResets := satInc d.softResets 255 }) s
    putTx p (ownMsg s p q) s
  | .stExit =>
    putTx p (ownMsg s p q) (openSbu p (modPd p (fun d => { d with seq := q }) s))
  | _ => putTx p (ownMsg s p q) (modPd p (fun d => { d with seq := q }) s)

/-- A sequence runs: one that awaits an answer, a contract's transition, or a VCONN_Swap to the port before its PS_RDY is acknowledged
(06 R181). -/
def inSequence (s : State) (p : PortId) : Bool :=
  let d := (s.port p).pd
  d.seq != .none || d.pe == .transition || d.swapToPort

/-- SinkTxNG, and tSinkTx runs (06 R191 t1). -/
def beginNg (p : PortId) (s : State) : State := tOn p .sinkTx (setRp p .a15 (modPd p (fun d => { d with sinkNg := true }) s))

/-- The oldest waiting sequence of the port's own starts. -/
def launchOwn (p : PortId) (s : State) : State :=
  match (s.port p).pd.own with
  | [] => s
  | q :: r => launch p q (modPd p (fun d => { d with own := r, ownRun := true }) s)

/-- The weaver decides to start a sequence (06 R191 t0): under the serve rule it waits for tSinkTx; else it starts as soon
as no other sequence runs. -/
def startOwn (p : PortId) (q : Seq) (s : State) : State :=
  if serveRule s p then
    let s := modPd p (fun d => { d with own := if d.own.contains q then d.own else d.own ++ [q] }) s
    if (s.port p).pd.sinkNg then s else beginNg p s
  else if ¬ inSequence s p then launch p q s
  else modPd p (fun d => { d with own := if d.own.contains q then d.own else d.own ++ [q] }) s

/-- A sequence has ended (06 R191 t3, t4, R192); a VDM that it found awaiting its answer goes on awaiting it. -/
def endSeq (p : PortId) (s : State) : State :=
  let d := (s.port p).pd
  if d.after ≠ .none then modPd p (fun d => { d with seq := d.after, after := .none }) s
  else
  let s := modPd p (fun d => { d with seq := .none, ownRun := false }) s
  if ¬ serveRule s p then launchOwn p (modPd p (fun d => { d with sinkNg := false }) s)
  else if d.sinkNg ∧ ¬ d.ownRun ∧ d.own ≠ [] then (if tHas s p .sinkTx then s else launchOwn p s)
  else
    let s := setRp p .a30 (modPd p (fun d => { d with sinkNg := false }) s)
    if d.own = [] then s else beginNg p s

/-- A sequence still runs, of the port or started by the sink: a Request without its answer, a multi-chunk message without its
Not_Supported (06 R191, R192). -/
def seqRuns (s : State) (p : PortId) : Bool := inSequence s p || (s.port p).pd.req.isSome || tHas s p .chunk

/-- The port's own sequence starts at the later of tSinkTx and the end of any sequence of the sink (06 R191 t2). -/
def resumeOwn (p : PortId) (s : State) : State :=
  if (s.port p).pd.sinkNg ∧ ¬ (s.port p).pd.ownRun ∧ ¬ tHas s p .sinkTx ∧ ¬ seqRuns s p then launchOwn p s else s

/-- A step of the station-time discovery that gets no answer ends it for this attach (06 R215). -/
def stCut (p : PortId) (s : State) : State := if stStep (vdmSeq (s.port p).pd) then postAlt p 3 stSvid s else s

/-- A Soft_Reset ends the sequence in progress. The port's own that wait are not abandoned (06 R192), and an Exit Mode without its answer
is sent again: a Soft_Reset does not end the station-time mode, and the port still leaves it (R220). -/
def abortSeq (p : PortId) (s : State) : State :=
  modPd p (fun d => { d with
    req := none, seq := .none, after := .none, ownRun := false, swapToPort := false, outq := []
    own := if vdmSeq d = .stExit ∧ ¬ d.own.contains .stExit then .stExit :: d.own else d.own
    timers := d.timers.filter fun t => t == .noResponse || t == .discoverIdentity || t == .vconnStable || (t == .sinkTx && d.sinkNg)
    pe := if d.pe = .transition then (if d.objpos = 0 then .negotiating else .ready) else d.pe }) s

/-- The port sends Soft_Reset (06 R213, R325): inside a sequence at once, else under the serve rule. -/
def softReset (p : PortId) (s : State) : State :=
  let inside := inSequence s p
  let s := abortSeq p (stCut p s)
  if inside then launch p .softReset s else startOwn p .softReset s

/-! ### Hard Reset (06 R208, R212, R213) -/

/-- The Hard Reset sequence starts, sent or received. -/
def hardResetSeq (p : PortId) (sent : Bool) (s : State) : State :=
  let s := if (s.port p).pd.alt then postAlt p 1 stSvid s else s
  let s := openSbu p (phyHardReset p s)
  let s := modPd p (fun d => { d with
    pe := .hardReset, alt := false, seq := .none, own := [], ownRun := false, sinkNg := false, req := none, waits := 0, caps := []
    after := .none, capsDue := false, transMon := false, swapToPort := false, rev := 0, bistMode := false
    hrCount := if sent then d.hrCount + 1 else 0, hardResets := satInc d.hardResets 255
    timers := if sent then [.psHardReset, .noResponse] else [.psHardReset] }) s
  let s := setRp p (attachRp s p) (phyOpts p (s.port p).phy.optSop1 false s)
  let s := if sent then putTx p { frame := .hardReset } s else s
  sendUp p opRelease s.bud.port[p].base (fallToBase p s)

/-- The port sends Hard Reset; it keeps its PD off where PD_EN is 0. -/
def sendHardReset (p : PortId) (s : State) : State := if (s.port p).tc.st = .attached then hardResetSeq p true s else s

/-- PD is disabled on the port (06 Table 6.6). -/
def disablePd (p : PortId) (s : State) : State :=
  modPd p (fun d => { d with
    timers := d.timers.filter fun t => t == .psHardReset || t == .srcRecover || t == .vconnPin
    pe := .pdDisabled, seq := .none, after := .none, own := [], ownRun := false, req := none, outq := [] }) s

/-! ### Budget words of the weaver (06 R174, R184, R189, R195) -/

/-- vSafe5V is asked of the keeper, with IBASE equal to the Rp current presented (07 R237). -/
def vbusOn (p : PortId) (s : State) : State :=
  latchEv p (BitVec.ofNat 32 (2 ^ 11)) (writeKeeper p (setting .five 100 (rpCurrent (s.port p).tc.rp)) none s)

/-- An attached port whose cooldown or latch-off has ended: its weaver writes the 5 V setting again (07 R254), once it can act. -/
def vbusAgain (p : PortId) (s : State) : State :=
  if (s.port p).tc.st = .attached then orLater p .vbusAgain (vbusOn p) s else s

/-- The arbiter's room holds the base of port p (06 R195). -/
def baseFits (s : State) (p : PortId) : Bool :=
  let n := baseFor (s.port p).tc.rp
  decide (n ≤ allocOf s p) || decide (n - allocOf s p ≤ min (roomFor s p) (wantOf s p - allocOf s p))

/-- The arbiter sets aside the base of port p; the Default USB base is never refused (06 R195). -/
def reserveBase (p : PortId) (s : State) : State :=
  let n := baseFor (s.port p).tc.rp
  let s := if baseFits s p then s else budgetRecord 4 p n (modBud (fun b => { b with oversub := true }) s)
  modBp p (fun b => { b with base := n, want := max b.want n }) (setAlloc p (max (allocOf s p) n) s)

/-- An attached port asks for its base after its feed has returned (07 R234). Where the arbiter grants the base, it is set aside and
the port asks for VBUS in the same cycle, so that it is eligible when Gg_PG_N asserts (R244; log 135). -/
def askAgain (p : PortId) (s : State) : State :=
  if (s.port p).tc.st = .attached ∧ (s.port p).pw.keeper = 0 ∧ (s.port p).pd.pe ≠ .hardReset then
    askBase p (if supUp s ∧ (baseFits s p ∨ baseFor (s.port p).tc.rp ≤ baseFor .dflt) then vbusOn p (reserveBase p s) else s)
  else s
/-- CLR_LATCH: a cooldown or latch-off ends, and the port is eligible with its 5 V setting again (07 R254). -/
def endLatch (p : PortId) (s : State) : State :=
  let held := (s.port p).pw.pstate == .cooldown || (s.port p).pw.pstate == .latched
  let s := clearLatch p s
  if held then vbusAgain p s else s

/-- SOP' discovery still stands before the first Source_Capabilities (06 R209). -/
def discFirst (s : State) (p : PortId) : Bool :=
  let d := (s.port p).pd
  discWanted s p && !d.discDone && (decide (d.discCount < 2) || d.timers.contains .discoverIdentity)

/-- The first Source_Capabilities, once the hold is known and discovery allows it. -/
def firstCaps (p : PortId) (s : State) : State :=
  if (s.port p).pd.capsDue ∧ ¬ discFirst s p then sendCaps p .request s else s

/-- The hold changed: the first capabilities, or new ones (06 R187). -/
def holdKnown (p : PortId) (s : State) : State :=
  if ¬ pdLive s p then s
  else if (s.port p).pd.caps = [] then firstCaps p (modPd p (fun d => { d with capsDue := true }) s)
  else startOwn p .request s

/-- The want is asked, or what exceeds it released (06 R184, R187). -/
def askWant (p : PortId) (s : State) : State :=
  if ¬ pdLive s p then s
  else
    let w := wantOf s p
    if (s.port p).pd.hold < w then askHold p s
    else if w < (s.port p).pd.hold then
      holdKnown p (sendUp p opRelease w (modPd p (fun d => { d with hold := w }) s))
    else s

/-- The port's want may have changed (06 R184, R210, 07 R235). -/
def rewant (p : PortId) (s : State) : State := if pdLive s p then orLater p .want (askWant p) s else s

/-- VBUS is good (06 R174, R205, R212, 07 R253): VCONN, then PD. -/
def vbusGood (p : PortId) (s : State) : State :=
  if ¬ weaverActs s p ∨ (s.port p).tc.st ≠ .attached then s
  else
    let s := vconnFollow p (holdVconn p s)
    if (s.port p).pd.pe = .pdDisabled then s
    else if ¬ pdEn s p then modPd p (fun d => { d with pe := .pdDisabled }) s
    else if (s.port p).pd.pe = .noPd ∨ (s.port p).pd.pe = .hardReset then
      askHold p (modPd p (fun d => { d with pe := .negotiating }) s)
    else s

/-- The policy's PD state is as before VBUS was good; what an attach keeps stays, and so does a send that the PHY makes (09 R332). -/
def pdRestart (p : PortId) (s : State) : State :=
  if (s.port p).pd.pe = .pdDisabled ∨ (s.port p).pd.pe = .noPd then s
  else
    let s := if (s.port p).pd.alt then postAlt p 1 stSvid s else s
    let s := setRp p (attachRp s p) (phyOpts p (s.port p).phy.optSop1 false s)
    openSbu p (modPd p (fun d =>
      { pdIdle d with
        cableId := d.cableId, cable := d.cable, discDone := d.discDone, discCount := d.discCount, stDone := d.stDone, stRefused := d.stRefused }) s)

/-- PD ends with a trip or a feed that goes down; it starts again when VBUS is good (07 R234, R253). -/
def pdLost (p : PortId) (s : State) : State :=
  if (s.port p).pd.pe = .pdDisabled ∨ (s.port p).pd.pe = .noPd then s
  else modPhy p (fun x => { x with tx := none }) (pdRestart p s)

/-- VBUS is lost: the policy sees it now, or once its weaver can act (log 133). -/
def vbusLost (p : PortId) (s : State) : State := if (s.port p).tc.st = .attached then orLater p .vbusLost (pdLost p) s else s

/-- A feed has gone down: PD ends on its ports with their VBUS (07 R234). -/
def feedLost (g : TileId) (s : State) : State := forEach (portsOf g) vbusLost s

/-! ### Requests (06 R188 to R190, R202 to R204) -/

def rdoPos (r : Word) : Nat := fld r 31 28
def rdoMismatch (r : Word) : Bool := bitOf r 26
def rdoCur (r : Word) : Nat := fld r 19 10
def rdoMax (r : Word) : Nat := fld r 9 0

/-- The Request named by an RDO, where it is valid (06 R188). -/
def validReq (d : PortPd) (r : Word) : Option Req :=
  if 1 ≤ rdoPos r then
    match d.caps[rdoPos r - 1]? with
    | some x =>
      if rdoCur r ≤ x.cur ∧ (rdoMax r ≤ x.cur ∨ rdoMismatch r) then
        some { objpos := rdoPos r, volt := x.volt, cur := rdoCur r, mismatch := rdoMismatch r }
      else none
    | none => none
  else none

/-- Requested power in 0.1 W, rounded up: 50 mV × 10 mA is 0.5 mW (06 R189; log 23). -/
def reqPower (r : Req) : Nat := (r.volt * r.cur + 199) / 200

/-- Reject, Wait and Accept. -/
def sendReject (p : PortId) (s : State) : State := putTx p (ctlMsg s p cReject) s

/-- WAIT_MAX: 0 acts as 1, above 7 as 7 (06 Table 6.18). -/
def waitMax (s : State) : Nat := clampNat 1 7 (fld s.bud.ctl 7 4)

/-- The Request is answered with Wait. -/
def answerWait (p : PortId) (s : State) : State :=
  match (s.port p).pd.req with
  | some r =>
    if r.answered then s
    else
      let s := tOff p .commit8ms (modPd p (fun d => { d with req := some { r with answered := true }, waits := satInc d.waits 7 }) s)
      let s := modBp p (fun b => { b with waiting := true }) (countWaits s)
      putTx p (ctlMsg s p cWait) (budgetRecord 1 p (reqPower r) s)
  | none => s

/-- The Request is answered with Accept. -/
def answerAccept (p : PortId) (s : State) : State :=
  match (s.port p).pd.req with
  | some r =>
    if r.answered then s
    else
      let s := tOff p .commit8ms (modPd p (fun d => { d with pe := .transition, waits := 0 }) s)
      putTx p (ctlMsg s p cAccept) (modBp p (fun b => { b with waiting := false }) s)
  | none => s

/-- The contract's voltage is reached, and no write waits behind a ramp or a transition: PS_RDY (06 R190, 07 R240). -/
def contractMade (p : PortId) (s : State) : State :=
  let w := (s.port p).pw
  if weaverActs s p ∧ tHas s p .srcSettle ∧ ¬ w.held ∧ w.pstate = .on ∧ kVolt w.inForce = (s.port p).pd.volt then
    putTx p (ctlMsg s p cPsRdy) (tOff p .srcSettle s)
  else s

/-- tSrcTransition is over: the keeper write (06 R190, R214). -/
def takeContract (p : PortId) (s : State) : State :=
  match (s.port p).pd.req with
  | none => s
  | some r =>
    let before := (s.port p).pw
    let path : Path := if r.volt = 100 then .five else .rail
    let v := setting path r.volt r.cur
    let s := modPd p (fun d => { d with transMon := true, req := none }) s
    let s := writeKeeper p v (some { objpos := r.objpos, opCur := r.cur, mismatch := r.mismatch }) s
    let s := tOn p .srcSettle (latchEv p (BitVec.ofNat 32 (2 ^ 11)) s)
    if (s.port p).pw.keeper ≠ v ∨ (s.port p).pd.objpos ≠ r.objpos then sendHardReset p s
    else if before.pathNow = path ∧ before.pstate ≠ .ramping ∧ before.pstate ≠ .transition then contractMade p s
    else s

/-! ### Station-time mode (06 R215 to R221) -/

/-- Discovery starts after the first explicit contract with a Revision 3.x sink. -/
def startSt (p : PortId) (s : State) : State :=
  if stEn s p ∧ (s.port p).pd.rev = 2 ∧ ¬ (s.port p).pd.stDone ∧ ¬ (s.port p).pd.alt then
    startOwn p .stIdentity (modPd p (fun d => { d with stDone := true }) s)
  else s

/-- ST_EN = 0 or a NAK of ST_CONFIG: the SBU switches open before Exit Mode (06 R220). -/
def exitMode (p : PortId) (s : State) : State :=
  if (s.port p).pd.alt ∧ (s.port p).pd.seq ≠ .stExit then startOwn p .stExit (openSbu p s) else s

/-- SOP' discovery goes on after the explicit contract (06 R209). -/
def moreDiscovery (p : PortId) (s : State) : State :=
  let d := (s.port p).pd
  if discWanted s p ∧ ¬ d.discDone ∧ d.discCount < 20 ∧ ¬ d.timers.contains .discoverIdentity then startOwn p .cableId s else s

/-- ST_STATUS goes to a partner in the mode that accepts it (06 Table 6.9). -/
def sendStStatus (p : PortId) (s : State) : State :=
  if (s.port p).pd.alt ∧ stEn s p ∧ bitOf (s.port p).pd.modeVdo 7 then orLater p .stStatus (startOwn p .stStatus) s else s

/-- Every port in the mode sends ST_STATUS at a change of the servo (08 R270). -/
def stStatusAll (s : State) : State := forEach (fins 64) sendStStatus s

/-! ### After a send (06 R180, R190, R213) -/

/-- PS_RDY of a contract is acknowledged: the contract stands, SinkTxOK, then what the first contract brings. -/
def contractReady (p : PortId) (s : State) : State :=
  let s := tOff p .srcSettle (modPd p (fun d => { d with pe := .ready, transMon := false }) s)
  let s := endSeq p s
  let s := if serveRule s p ∧ ¬ (s.port p).pd.sinkNg then setRp p .a30 s else s
  moreDiscovery p (startSt p s)

/-- After Wait (06 R203, R204). -/
def afterWait (p : PortId) (s : State) : State :=
  if waitMax s ≤ (s.port p).pd.waits then
    startOwn p .capsReduced (endSeq p (modPd p (fun d => { d with waits := 0 }) s))
  else if (s.port p).pd.objpos = 0 then tOn p .waitCap (endSeq p s)
  else endSeq p s

/-- The partner acknowledged a message of the port. -/
def onSent (p : PortId) (m : PdMsg) (s : State) : State :=
  let d := (s.port p).pd
  let ty := mType m.header
  let answered := match d.req with | some r => r.answered | none => false
  if m.frame ≠ .sop ∨ mExt m.header then s
  else if mObjs m.header = 0 then
    if ty = cAccept then
      (if d.pe = .transition then tOn p .srcTransition s else if d.seq = .vconnSwap then tOn p .vconnSource s else s)
    else if ty = cPsRdy then
      (if d.pe = .transition then contractReady p s
      else if d.swapToPort then endSeq p (modPd p (fun d => { d with swapToPort := false }) s) else s)
    else if ty = cWait then (if answered then afterWait p (modPd p (fun d => { d with req := none }) s) else s)
    else if ty = cReject then
      (if answered then
        let s := endSeq p (modPd p (fun d => { d with req := none }) s)
        if d.objpos = 0 then tOn p .sourceCapability s else s
      else s)
    else if ty = cSoftReset ∨ ty = cVconnSwap then
      tOn p .senderResponse (modPd p (fun d => if ty = cVconnSwap then takeOver .vconnSwap d else d) s)
    else s
  else if ty = dSourceCaps then
    let s := tOff p .noResponse (modPd p (fun d => { d with capsSent := 0, hrCount := 0 }) s)
    if awaitsAccept d then s else tOn p .senderResponse s
  else if ty = dVdm ∧ fld (m.objs.headD 0) 7 6 = 0 then tOn p .vdm s
  else s

/-- The partner acknowledged nothing (06 Table 6.6). -/
def onFailed (p : PortId) (m : PdMsg) (s : State) : State :=
  let ty := mType m.header
  if m.frame ≠ .sop then s
  else if ty = dSourceCaps ∧ mObjs m.header ≠ 0 ∧ ¬ mExt m.header then
    let s := modPd p (fun d => { d with capsSent := d.capsSent + 1, seq := d.after, after := .none }) s
    if 50 ≤ (s.port p).pd.capsSent then disablePd p s else tOn p .sourceCapability s
  else if ty = cSoftReset ∧ mObjs m.header = 0 then sendHardReset p s
  else softReset p s

/-! ### Receiving messages (06 R181) -/

/-- A slot that holds the message. -/
def inSlot (m : PdMsg) (x : Slot) : Bool := x.msg.frame == m.frame && x.msg.header == m.header

/-- The policy takes a message from its slot. -/
def takeMsg (p : PortId) (m : PdMsg) (s : State) : State :=
  modPhy p (fun x => { x with
    slots := x.slots.eraseIdx (x.slots.findIdx (inSlot m)), takenAt := (x.slots.find? (inSlot m)).map (·.stamp) }) s

/-- A message dropped for want of a slot makes the weaver send Soft_Reset (09 R325). -/
def overflowed (p : PortId) (s : State) : State :=
  if pdLive s p then orLater p .rxOvf (fun s => if pdLive s p then softReset p s else s) s else s

/-- A sample of the CC baseline that a message brings whose command does not give it (06 R177; log 153). -/
def openSample (p : PortId) (s : State) : State := baselineSample p (Config.preambleLow s.free) { s with free := s.free + 1 }

/-- The message as its slot holds it: bytes that its header counts and its command does not give are open (09 R323; log 168). -/
def heardMsg (m : PdMsg) (s : State) : PdMsg × State :=
  if m.bytes.isEmpty then
    let n := mObjs m.header - m.objs.length
    ({ m with objs := m.objs ++ (List.range n).map fun i => Config.freeWord (s.free + i) }, { s with free := s.free + n })
  else (m, s)

/-- A message that no slot holds arrives now (log 24). -/
def hearMsg (p : PortId) (m : PdMsg) (s : State) : State :=
  let (m, s) := heardMsg m (openSample p s)
  phyReceive p m s

/-- A message reaches the policy from its slot, or arrives now where no slot holds it (log 24); a repeated or dropped one does not. The
policy acts on it where the port has PD (06 R181); an answer clears the count of Hard
Resets without answer (R213). In BIST Test Data mode messages are acknowledged only (log 22). -/
def onMsg (p : PortId) (m : PdMsg) (f : State → State) (s₀ : State) : State :=
  let arrives := !(s₀.port p).phy.slots.any (inSlot m)
  if ¬ clocksRun s₀ then (if arrives then hearAsleep p s₀ else s₀)
  else
  let s := if arrives then hearMsg p m s₀ else s₀
  if arrives ∧ isRepeat s₀ p m then s
  else if arrives ∧ isOverflow s₀ p m then overflowed p s
  else if ¬ weaverActs s p then s
  else
  let s := takeMsg p m s
  if pdLive s p ∧ ¬ (s.port p).pd.bistMode then
    let s := tOff p .noResponse (modPd p (fun d => { d with
      hrCount := 0
      rev := if m.frame = .sop ∧ d.rev = 0 then (if mRev m.header = 1 then 1 else 2) else d.rev }) s)
    f (phyOpts p (s.port p).phy.optSop1 ((s.port p).pd.rev == 1) s)
  else s

/-- A control message of the partner. -/
def rxCtl (h : BitVec 16) : PdMsg := { header := h }
def rxData (f : Frame) (h : BitVec 16) (objs : List Word) : PdMsg := { frame := f, header := h, objs := objs }

/-- Not_Supported in Ready, Soft_Reset inside a sequence that does not expect the message (06 R181). -/
def unsupported (p : PortId) (s : State) : State :=
  if inSequence s p then softReset p s else putTx p (ctlMsg s p cNotSupported) s

/-- The messages that Table 6.1 itself answers with Not_Supported: Get_Sink_Cap, Data_Reset, FR_Swap, Get_PPS_Status,
Get_Country_Codes, Get_Sink_Cap_Extended; Battery_Status, Get_Country_Info, Enter_USB, EPR_Request, EPR_Mode (log 22). -/
def tableUnsupported (h : BitVec 16) : Bool :=
  !mExt h && (if mObjs h = 0 then [8, 14, 19, 20, 21, 22].contains (mType h) else [5, 7, 8, 9, 10].contains (mType h))

/-- PID of a team, 0x6400 for an unowned port (06 Tables 6.4 and 6.10). -/
def portPid (s : State) (p : PortId) : Nat :=
  match servedBy s p with
  | some u => 0x6400 + u.val
  | none => 0x6400

/-- Class maximum in W. -/
def classWatts (s : State) (p : PortId) : Nat := if classB s p then 100 else 15

/-- Source_Capabilities_Extended data block (06 Table 6.4). -/
def scedb (s : State) (p : PortId) : List Byte :=
  le16 0x31C7 ++ le16 (portPid s p) ++ toBytes 4 0 ++ [lowByte (s.tile (tileOf p)).major, 0xB1] ++ List.replicate 11 0 ++
    [0x01, 0x00, lowByte (classWatts s p), 0x00]

/-- Status data block (06 Table 6.4). -/
def statusBlock (d : PortPd) (temp : Nat) : List Byte :=
  [lowByte temp, 0x02, 0x00, lowByte (2 * b2n d.ocp + 8 * b2n d.ovp), if 115 ≤ temp then 4 else 2, 0, 0]

/-- Source_Info data object (06 Table 6.4). -/
def sourceInfo (s : State) (p : PortId) : Word :=
  pack [(classWatts s p, 16), (holdNow s p / 10, 8), (holdNow s p / 10, 0)]

/-- Discover Identity response (06 Table 6.10). -/
def identityVdos (s : State) (p : PortId) : List Word :=
  [pack [(1, 31), (1, 23), (2, 21), (0x31C7, 0)], 0, pack [(portPid s p, 16), (0x0B01, 0)], pack [(2, 29), (1, 24), (p.val % 32, 0)]]

/-! ### VCONN_Swap (06 R206, R207) -/

/-- Cable discovery has ended. -/
def discEnded (s : State) (p : PortId) : Bool := (s.port p).pd.discDone || !discWanted s p

/-- The port becomes the VCONN source: on and PS_RDY where its pin reads below 0.8 V, else Hard Reset. -/
def vconnToPort (p : PortId) (pinHigh : Bool) (s : State) : State :=
  if pinHigh ∨ (s.port p).tc.vconnOc ∨ (s.port p).tc.ccHold then sendHardReset p s
  else
    let s := setVconn p true 3 (modPd p (fun d => { d with swapToPort := true }) s)
    putTx p (ctlMsg s p cPsRdy) s

/-- The partner takes over the VCONN source role: the port switches off. -/
def vconnToPartner (p : PortId) (s : State) : State :=
  modTc p (fun t => { t with vconnPartner := true }) (setVconn p false 2 s)

/-! ### Registers of a port (06 Tables 6.15 to 6.17) -/

def peCode : PeState → Nat
  | .noPd => 0
  | .negotiating => 1
  | .ready => 2
  | .transition => 3
  | .hardReset => 4
  | .pdDisabled => 5

def portPdStat (s : State) (p : PortId) : Word :=
  let d := (s.port p).pd
  pack [(peCode d.pe, 29), (d.rev % 4, 27), (d.objpos % 8, 24), (b2n d.alt, 23), (d.waits % 8, 20), (b2n d.cableId, 19),
    (min 511 d.opCur, 10), (min 1023 d.volt, 0)]

def portPdCnt (s : State) (p : PortId) : Word :=
  let d := (s.port p).pd
  pack [(d.hardResets, 24), (d.softResets, 16), (d.txFail, 8), (d.rxCrc, 0)]

/-! ### Start and restart of the policy (06 R211, 09 R332) -/

/-- PD_EN goes from 0 to 1 on an attached port: PD starts at once, by Soft_Reset under a contract that stood (06 R225). -/
def enablePd (p : PortId) (s : State) : State :=
  if (s.port p).tc.st ≠ .attached ∨ (s.port p).pd.pe ≠ .pdDisabled ∨ ¬ pdEn s p then s
  else if (s.port p).pd.objpos ≠ 0 then startOwn p .softReset (modPd p (fun d => { d with pe := .ready }) s)
  else
    let s := modPd p (fun d => { d with pe := .noPd }) s
    if (s.port p).pw.pgood then vbusGood p s else s

/-- ST_EN has changed: under an explicit contract discovery starts at once, or the port leaves the mode (06 R215, R220, R225). -/
def followSt (p : PortId) (s : State) : State :=
  if ¬ stEn s p then exitMode p s else if pdLive s p ∧ (s.port p).pd.objpos ≠ 0 then startSt p s else s

/-- The policy acts on an event. -/
def lateAct (p : PortId) (x : Late) (s : State) : State :=
  match x with
  | .post cls st payload => weaverPostAt p st cls payload s
  | .hardReset => if (s.port p).tc.st = .attached ∧ (pdEn s p ∨ (s.port p).pd.objpos ≠ 0) then hardResetSeq p false s else s
  | .sendReset => sendHardReset p s
  | .vbusLost => pdLost p s
  | .want => askWant p s
  | .sent m => if pdLive s p then onSent p m s else s
  | .failed m => if pdLive s p then onFailed p m s else s
  | .rxOvf => if pdLive s p then softReset p s else s
  | .feedBack => askAgain p s
  | .vbusAgain => if (s.port p).tc.st = .attached then vbusOn p s else s
  | .stStatus => if (s.port p).pd.alt ∧ stEn s p then startOwn p .stStatus s else s
  | .pdEn => enablePd p s
  | .stEn => followSt p s

/-- An event: the policy acts on it now, or once its weaver can (log 133). -/
def onLate (p : PortId) (x : Late) (s : State) : State := orLater p x (lateAct p x) s

/-- What was due while the weaver could not act, in the order of the events. -/
def runLate (p : PortId) (s : State) : State := forEach (s.port p).pd.late (onLate p) (modPd p (fun d => { d with late := [] }) s)

/-- What the pins read now, for a weaver that did not see them change (06 R172, R173, R175). -/
def followPins (t : PortTc) : PortTc :=
  match t.st with
  | .attachWait => if attachPin t = .none ∨ ¬ t.ccDebounce then { t with st := .unattached, ccDebounce := false } else t
  | .unsupported => if t.cc1 = .vOpen ∧ t.cc2 = .vOpen then { t with st := .unattached } else t
  | .attached => { t with pdDebounce := attachedCc t == .vOpen }
  | _ => t

/-- The Hard Reset sequence of the port runs up to VBUS on again (06 R212). -/
def resetRuns (s : State) (p : PortId) : Bool :=
  (s.port p).pd.pe == .hardReset && (tHas s p .psHardReset || tHas s p .srcRecover || tHas s p .vconnPin)

/-- A weaver that could not act sees what came about meanwhile: power off or TC_EN = 0 detaches, the events that were due follow in their
order, then the pins, a VCONN switch that tripped, and VBUS that is good (01 R20, 06 R172 to R176, R205, R225). -/
def catchUp (p : PortId) (s : State) : State :=
  if ¬ weaverActs s p then s
  else if withdrawn s p then runLate p (followPower p s)
  else if ¬ tcEn s p ∨ (s.port p).tc.st = .disabled then runLate p (onlyIf (!(s.port p).pw.fetShort) (setTcEn p) s)
  else
    let s := modTc p followPins (runLate p s)
    let s :=
      if (s.port p).tc.ocDue then firstCaps p (postVconn p 4 (modTc p (fun t => { t with ocDue := false }) s)) else s
    if (s.port p).tc.st ≠ .attached then s
    else
      let s := if (s.port p).pw.keeper ≠ 0 ∧ (s.port p).pw.pgood ∧ ¬ resetRuns s p then vbusGood p s else s
      contractMade p s

/-- Weavers whose word has left the mailbox go on, and see what came about meanwhile (01 R20). -/
def unstall (s₀ s : State) : State := forEach (fins 64) (fun p s => if sendStalled s₀ p then catchUp p s else s) s

/-- The Exit Mode that the port still owes its partner: a restart does not end the station-time mode (06 R220). -/
def owesExit (s : State) (p : PortId) : Bool :=
  let d := (s.port p).pd
  d.alt && (!stEn s p || vdmSeq d == .stExit || d.own.contains .stExit)

/-- The policy's own sequences are gone with a restart; a step of R215 among them ends discovery for this attach. -/
def dropOwn (p : PortId) (s : State) : State :=
  let d := (s.port p).pd
  let cut := stStep (vdmSeq d) || d.own.any stStep
  let exit := owesExit s p
  let s := onlyIf cut (postAlt p 3 stSvid) s
  modPd p (fun d => { d with
    seq := .none, after := .none, sinkNg := false, own := if exit then [.stExit] else []
    timers := d.timers.filter (· != .sinkTx) }) s

/-- A weaver starts its program: it reads its keeper and its hold. With a setting in the keeper it resumes PD by
Soft_Reset, also where a Hard Reset had not yet taken VBUS; else it starts from the port's pins (06 R211). -/
def startPolicy (p : PortId) (s : State) : State :=
  let s := modPd p (fun d => { d with asked := [], hold := s.bud.port[p].hold.toNat, late := d.late.filter Late.isPost }) s
  let s := runLate p s
  if withdrawn s p then followPower p s
  else if ¬ tcEn s p then setTcEn p s
  else if (s.port p).tc.st = .attached then
    let s := abortSeq p (dropOwn p s)
    let s :=
      if (s.port p).pw.keeper = 0 then
        let s := pdRestart p s
        if (s.port p).pw.pstate ≠ .cooldown ∧ (s.port p).pw.pstate ≠ .latched then askBase p s else s
      else if (s.port p).pd.pe = .hardReset then
        startOwn p .softReset (modPd p (fun d => { d with pe := if d.objpos = 0 then .negotiating else .ready }) s)
      else if (s.port p).pd.pe = .pdDisabled then enablePd p s
      else if pdLive s p then startOwn p .softReset s
      else s
    catchUp p s
  else if (s.port p).tc.st = .errorRecovery then s
  else restTc p (latchTcCfg p s)

/-- The wake from SLEEP: the weaver sees what its CC monitor latched, a preamble (09 R325) and the pins (12 R393). -/
def wakePort (p : PortId) (s : State) : State :=
  if ¬ weaverLives s p then s
  else catchUp p (if (s.port p).phy.heard then overflowed p (modPhy p (fun x => { x with heard := false }) s) else s)

end Sys2Proof.Machine
end

