-- ==== Sys2Proof/Machine/TimeOps.lean ====
section
/-!
DEFINITION. Machine/TimeOps.lean: the time counter, its references and its servo (chapter 08). Phases are in quarter ns,
frequency words in 0.1 ppb.
-/
namespace Sys2Proof.Machine

/-- Quarter ns in a second. -/
def qPerSec : Int := 4000000000

/-! ### Configuration (08 Tables 8.12 to 8.15) -/

def ppsEn (t : Tim) (i : PpsInput) : Bool := match i with | .a => bitOf t.refCfg 31 | .b => bitOf t.refCfg 30
def irigEn (t : Tim) : Bool := bitOf t.refCfg 29
def ref10mEn (t : Tim) : Bool := bitOf t.refCfg 28
/-- PPS_WIN in quarter ns; 0 acts as 1. -/
def ppsWin (t : Tim) : Int := 400 * (max 1 (fld t.refCfg 15 8) : Nat)
/-- PPS_DIFF in quarter ns. -/
def ppsDiffLimit (t : Tim) : Int := 40 * (fld t.refCfg 7 0 : Nat)
def acqTau (t : Tim) : Int := (2 ^ clampNat 1 6 (fld t.servoCfg 31 28) : Nat)
def trkTau (t : Tim) : Int := (2 ^ clampNat 4 10 (fld t.servoCfg 27 24) : Nat)
def lockThr (t : Tim) : Int := 4 * (max 1 (fld t.servoCfg 23 16) : Nat)
def stepThr (t : Tim) : Int := 4000 * (max 1 (fld t.servoCfg 15 8) : Nat)
def freezeN (t : Tim) : Nat := max 1 (fld t.servoCfg 7 4)
def qualN (t : Tim) : Nat := max 1 (fld t.servoCfg 3 0)
def avgSecs (t : Tim) : Nat := 2 ^ min 12 (fld t.holdCfg 15 8)
def taiUtc (t : Tim) : Nat := fld t.leap 7 0
/-- SEC_SRC: seconds from IRIG-B (R266). -/
def secSrc (t : Tim) : Bool := irigEn t && t.irigOk

/-- A frequency word, clamped to ±200 ppm (R260, R278). -/
def freqWord (x : Int) : Word := BitVec.ofInt 32 (clampInt (-2000000) 2000000 x)
def freqInt (w : Word) : Int := w.toInt

def refCode : Ref → Nat
  | .none => 0
  | .ppsA => 1
  | .ppsB => 2
  | .irig => 3
  | .ref10m => 4

/-- Phase error of a reference at its last edge. -/
def refErr (t : Tim) : Ref → Int
  | .ppsA => t.a.err
  | .ppsB => t.b.err
  | .irig => t.irigErr
  | _ => 0

/-! ### Records and flags (R287, Tables 8.7 and 8.11) -/

/-- A 16-bit signed field, saturating. -/
def sat16 (x : Int) : Nat := unsignedOf 16 (clampInt (-32768) 32767 x)

/-- Payload of a TIME_STATE record (Table 8.7). -/
def timePayload (kind : Nat) (old : Servo) (r : Ref) (value : Int) (s : State) : Word :=
  pack [(servoCode s.tim.st, 27), (servoCode old, 24), (kind, 20), (refCode r, 17), (b2n s.tim.valid, 16), (sat16 value, 0)]

/-- A TIME_STATE record. -/
def timeRecord (kind : Nat) (old : Servo) (r : Ref) (value : Int) (s : State) : State :=
  postHub clsTimeState srcTime (timePayload kind old r value s) s

/-- A record about a reference between second boundaries: its stamp is the next boundary, where it is posted (Table 8.4). -/
def refRecordDue (kind : Nat) (r : Ref) (s : State) : State :=
  modTim (fun t => { t with due := t.due ++ [timePayload kind s.tim.st r (refErr s.tim r / 4) s] }) s

/-- The records that waited for this second boundary. -/
def postDue (s : State) : State :=
  s.tim.due.foldl (fun s w => postHub clsTimeState srcTime w s) (modTim (fun t => { t with due := [] }) s)

/-- A record of the present state about a reference. -/
def refRecord (kind : Nat) (r : Ref) (s : State) : State := timeRecord kind s.tim.st r (refErr s.tim r / 4) s

/-- A bit of TIM_EVT and its error line (13 Table 13.1 bit 4). -/
def timEvt (bit : Nat) (s : State) : State :=
  let s := modTim (fun t => { t with evt := orBit t.evt bit }) s
  raise fTim s.tim.evt s

/-- STATE changes: a record, and ST_STATUS from every port in the mode (R270). -/
def setServo (st : Servo) (s : State) : State :=
  let old := s.tim.st
  if old = st then s
  else
    let s := modTim (fun t => { t with st := st }) s
    stStatusAll (timeRecord 0 old s.tim.ref (refErr s.tim s.tim.ref / 4) s)

/-! ### The counter: steps and sets (R259, R275 to R277) -/

/-- The counter's reading in quarter ns. -/
def reading (t : Tim) : Int := (t.sec.toNat : Int) * qPerSec + 4 * (t.ns : Int)

/-- Pulses start again at the first second boundary at least 0.5 s after a change (R277). -/
def quietFrom (t : Tim) : Nat := if t.ns ≤ 500000000 then t.sec.toNat + 1 else t.sec.toNat + 2

/-- A step or set is on its way to the tile's replica, which reads `lag` ns more until it has it (R276). -/
def replicaWaits (lag : Int) (t : TileId) (s : State) : State :=
  let (n, s) := drawNat s
  modTile t (fun x => { x with
    changedAt := some s.now, applyIn := n % 251, lag := lag + (if replicaLags s x then x.lag else 0) }) s

/-- Load the counter; captures of earlier edges move with it, tile replicas follow within 2 µs (R276), and no pulse of a running
IRIG-B frame starts any more (R277). -/
def loadCounter (sec : BitVec 32) (ns : Nat) (s : State) : State :=
  let before := reading s.tim
  let s := modTim (fun t => { t with sec := sec, ns := ns }) s
  let d := reading s.tim - before
  let move (x : Pps) : Pps := { x with lastEdge := x.lastEdge.map (· + d) }
  let s := modTim (fun t => { t with a := move t.a, b := move t.b, lastAt := t.lastAt.map (· + d), quietTo := quietFrom t }) s
  let s := forEach (fins 64) (fun p s => modTc p (fun c => { c with sbuStop := c.sbuStop || c.sbuRun }) s) s
  forEach (fins 8) (replicaWaits (-d / 4))
    (forEach (fins 4) (fun u s => modTeam u (fun t => { t with corr := { t.corr with prev := none } }) s) s)

/-- The counter is in the last TIME cycle of its second: a step that waits falls in the cycle of a set made now (R275; log 138). -/
def stepCycle (t : Tim) : Bool := decide (nsPerSec ≤ t.ns + 8)

/-- A firmware set (R275): VALID 1, a SET record; in UNSET the servo goes to FREE with that record only (R270). A servo step of the
same TIME cycle is discarded. -/
def setCounter (sec : BitVec 32) (ns : Nat) (s : State) : State :=
  let old := s.tim.st
  let before := reading s.tim
  let same := stepCycle s.tim
  let s := loadCounter sec ns s
  let s := modTim (fun t => { t with valid := true, pending := none, step := if same then none else t.step, st := if old = .unset then .free else old }) s
  let s := timeRecord 4 old s.tim.ref ((reading s.tim - before) / 4000) s
  if old = .unset then stStatusAll s else s

/-- A set is refused (R275). -/
def refuseSet (s : State) : State := timEvt 7 s

/-- A phase reference is in use. -/
def refInUse (t : Tim) : Bool := t.ref == .ppsA || t.ref == .ppsB || t.ref == .irig

/-- TIM_SET_CTL.CMD takes a value (R275). -/
def setCommand (cmd : Nat) (s : State) : State :=
  let t := s.tim
  if cmd = 1 then
    if secSrc t ∨ 1000000000 ≤ fld t.setNs 29 0 ∨ refInUse t then refuseSet s
    else setCounter t.setSec (fld t.setNs 29 0 / 8 * 8) s
  else if cmd = 2 then (if secSrc t then refuseSet s else modTim (fun t => { t with pending := some t.setSec }) s)
  else s

/-- TIM_FREQ is written (R278). -/
def writeFreq (v : Word) (s : State) : State :=
  if s.tim.st = .unset ∨ s.tim.st = .free then modTim (fun t => { t with freq := freqWord v.toInt, start := freqWord v.toInt }) s
  else refuseSet s

/-! ### References (R262 to R265) -/

def anyPhaseRef (t : Tim) : Bool := t.a.ok || t.b.ok || t.irigOk

/-- R263: the reference to be used. -/
def chooseRef (t : Tim) : Ref :=
  let primB := bitOf t.refCfg 27
  if primB ∧ t.b.ok then .ppsB
  else if t.a.ok then .ppsA
  else if t.b.ok then .ppsB
  else if t.irigOk then .irig
  else .none

def ppsOf (t : Tim) (i : PpsInput) : Pps := match i with | .a => t.a | .b => t.b
def modPps (i : PpsInput) (f : Pps → Pps) (s : State) : State :=
  modTim (fun t => match i with | .a => { t with a := f t.a } | .b => { t with b := f t.b }) s
def ppsRef : PpsInput → Ref
  | .a => .ppsA
  | .b => .ppsB

/-- A 1PPS input is lost. -/
def losePps (i : PpsInput) (s : State) : State :=
  let was := (ppsOf s.tim i).ok
  let s := modPps i (fun x => { x with ok := false, run := 0, lastEdge := none }) s
  let s := modTim (fun t => { t with ppsDiff := 0x80000000#32, disagreeN := 0 }) s
  if was then refRecordDue 1 (ppsRef i) (timEvt (match i with | .a => 0 | .b => 1) s) else s

def loseIrig (s : State) : State :=
  let was := s.tim.irigOk
  let s := modTim (fun t => { t with irigOk := false, irigRun := 0, irigLast := none, irigDiffN := 0 }) s
  if was then refRecordDue 1 .irig (timEvt 2 s) else s

/-- Mean of TIM_FREQ over the last 2^AVG s of TRACK (R274). -/
def holdMean (t : Tim) : Word := freqWord (t.trackWords.sum / (t.trackWords.length : Nat))

/-- REF10M is lost; a holdover that it aided returns to the mean word (R274, Table 8.2). -/
def loseRef10m (s : State) : State :=
  let was := s.tim.refOk
  let s := modTim (fun t => { t with
    refOk := false, refRun := 0, freqAid := false, freq := if t.st = .holdover ∧ t.freqAid then holdMean t else t.freq }) s
  if was then refRecordDue 1 .ref10m (timEvt 4 s) else s

/-- TIM_REF_CFG takes a value: a reference that it disables is lost (R262). -/
def writeRefCfg (v : Word) (s : State) : State :=
  let s := modTim (fun t => { t with refCfg := v &&& 0xFF07FFFF#32 }) s
  let s := if ppsEn s.tim .a then s else losePps .a s
  let s := if ppsEn s.tim .b then s else losePps .b s
  let s := if irigEn s.tim then s else loseIrig s
  if ref10mEn s.tim then s else loseRef10m s

/-! ### The loop (R271 to R273) -/

/-- The phase correction at a sample: −2e/τ, at most ±10 ppm; e in quarter ns. -/
def propTerm (tau e : Int) : Int := clampInt (-100000) 100000 (-(5 * e) / tau)

/-- The loop's integral value: the base word and −Σe/τ². -/
def integralValue (t : Tim) (tau : Int) : Int := t.base - (5 * t.sumE) / (2 * tau * tau)

/-- Entry to ACQUIRE. -/
def enterAcquire (s : State) : State :=
  let s := modTim (fun t => { t with
    samplesN := 0, lockN := 0, sumE := 0, base := freqInt t.freq, lastAt := none, lastProp := 0, errSum := 0, errN := 0
    learned := false, firstDue := true, fromUnset := t.st == .unset, outliers := [], freqAid := false }) s
  setServo .acquire s

/-- The first sample after entry: a step, or slewing (R272). -/
def firstSample (e at_ : Int) (s : State) : State :=
  let s := modTim (fun t => { t with firstDue := false }) s
  if s.tim.fromUnset ∨ stepThr s.tim < e ∨ e < -stepThr s.tim then
    modTim (fun t => { t with step := some (t.step.getD 0 - e), lastAt := some at_, lastProp := 0 }) s
  else s

/-- The end of the freeze: TIM_FREQ moves by the mean frequency error measured (R273). -/
def endFreeze (s : State) : State :=
  let m : Int := if s.tim.errN = 0 then signedOf 21 (Config.freeNat s.free) else s.tim.errSum / s.tim.errN
  modTim (fun t => { t with base := t.base - m, learned := true, freq := freqWord (t.base - m) }) { s with free := s.free + 1 }

/-- Whole seconds from one edge to another, by the counter's readings at them. -/
def edgeSecs (l at_ : Int) : Nat := ((at_ - l + qPerSec / 2) / qPerSec).toNat

/-- What the phase gained from the last sample's edge to this one, the loop's own correction apart: in 0.1 ppb × s, with the seconds
between (R273). An edge that was missed lies in a longer interval. -/
def freqErr (t : Tim) (at_ : Int) : Int × Nat :=
  match t.lastAt with
  | some l =>
    let n := edgeSecs l at_
    if n = 0 then (0, 0) else ((5 * (at_ - l - n * qPerSec)) / 2 - n * t.lastProp, n)
  | none => (0, 0)

/-- A sample of the loop, the first of an entry apart; `at_` is the counter's reading at its edge. -/
def loopSample (e at_ : Int) (s : State) : State :=
  let t := s.tim
  let tau := if t.st = .acquire then acqTau t else trkTau t
  let prop := propTerm tau e
  if t.samplesN < freezeN t then
    let (m, n) := freqErr t at_
    let s := modTim (fun t => { t with
      samplesN := t.samplesN + 1, freq := freqWord (t.base + prop), lastAt := some at_, lastProp := prop
      errSum := t.errSum + m, errN := t.errN + n }) s
    if t.samplesN + 1 = freezeN t then endFreeze s else s
  else
    let s := modTim (fun t => { t with
      samplesN := t.samplesN + 1, sumE := t.sumE + e
      lockN := if -lockThr t < e ∧ e < lockThr t then t.lockN + 1 else 0 }) s
    modTim (fun t => { t with freq := freqWord (integralValue t tau + prop) }) s

/-- Four consecutive outliers that agree with each other within PPS_WIN (R265). -/
def consistentOutliers (t : Tim) : Bool :=
  t.outliers.length == 4 && t.outliers.all fun x => t.outliers.all fun y => decide (x - y ≤ ppsWin t)

/-- An accepted edge of the reference in use. -/
def refSample (e at_ : Int) (s : State) : State :=
  match s.tim.st with
  | .acquire => if s.tim.firstDue ∧ (s.tim.fromUnset ∨ stepThr s.tim < e ∨ e < -stepThr s.tim) then firstSample e at_ s
    else loopSample e at_ (modTim (fun t => { t with firstDue := false }) s)
  | .track =>
    if e < -ppsWin s.tim ∨ ppsWin s.tim < e then modTim (fun t => { t with outliers := (t.outliers ++ [e]).reverse.take 4 |>.reverse }) s
    else loopSample e at_ (modTim (fun t => { t with outliers := [] }) s)
  | _ => s

/-- An accepted edge of the reference in use is a sample; where it carries out an AT_EDGE set, the counter reads SET_SEC:0 at it
(R271, R275, R281). -/
def refEdge (e at_ : Int) (s : State) : State :=
  match s.tim.pending with
  | some sec => refSample 0 ((sec.toNat : Int) * qPerSec) (modTim (fun t => { t with phase := 0 }) (setCounter sec 0 s))
  | none => refSample e at_ s

/-- A − B at a second in which both inputs are qualified (R264). -/
def measureDiff (s : State) : State :=
  let t := s.tim
  match t.a.lastEdge, t.b.lastEdge with
  | some x, some y =>
    if ¬ (t.a.ok ∧ t.b.ok) ∨ 2000000000 ≤ x - y ∨ x - y ≤ -2000000000 then s
    else
      let wide := ppsDiffLimit t < x - y ∨ x - y < -ppsDiffLimit t
      let s := modTim (fun t => { t with
        ppsDiff := BitVec.ofInt 32 (x - y), disagreeN := if wide then satInc t.disagreeN 5 else 0 }) s
      if s.tim.disagreeN = 4 then refRecordDue 6 s.tim.ref (timEvt 6 s) else s
  | _, _ => s

/-! ### IRIG-B (R266 to R268) -/

/-- FMT. -/
def irigFmt (t : Tim) : Nat := fld t.refCfg 18 16

/-- POSIX seconds of a frame's Pr (R266). -/
def frameUtc (t : Tim) (f : IrigTime) : Nat :=
  let y := 2000 + (if fmtYear (irigFmt t) then f.year else fld t.leap 15 8)
  (daysTo y + f.day - 1) * 86400 + f.sod

/-- The year advances with the day of year in formats without a year. -/
def rollYear (t : Tim) (f : IrigTime) : Tim :=
  if ¬ fmtYear (irigFmt t) ∧ 365 ≤ t.irigDay ∧ f.day = 1 then { t with leap := setFld t.leap 15 8 (fld t.leap 15 8 + 1) } else t

/-- A bad frame (R262, R267). -/
def badFrame (s : State) : State :=
  let s := refRecordDue 8 .irig (timEvt 3 (modTim (fun t => { t with irigBad := t.irigBad + 1, irigRun := if t.irigOk then t.irigRun else 0, irigDiffN := 0 }) s))
  if 2 ≤ s.tim.irigBad then loseIrig s else s

/-- The leap flags of the control functions (R268). -/
def cfLeap (t : Tim) (f : IrigTime) : Tim :=
  if bitOf t.refCfg 24 ∧ fmtControl (irigFmt t) then { t with leap := setFld t.leap 31 30 (if f.leapPending then (if f.leapDelete then 2 else 1) else 0) } else t

/-- From the leading edge of Pr to the end of the frame's last element, in quarter ns. -/
def frameLength (f : IrigFrame) : Int := 4 * (990000000 + 1000 * (f.widths.getLastD 8000 : Nat))

/-- The second of the counter's reading at a frame's Pr, whose phase error is signed (R265, R266; log 167): the frame has ended since. -/
def prSecond (t : Tim) (f : IrigFrame) : Int := (reading t - frameLength f - f.phase + qPerSec / 2) / qPerSec

/-- A good frame: qualification, the seconds check against the second `pr` of the counter at its Pr, the on-time edge. -/
def goodFrame (f : IrigTime) (pr phase : Int) (s : State) : State :=
  let s := modTim (fun t => cfLeap (rollYear t f) f) s
  let utc := frameUtc s.tim f
  let s := modTim (fun t => { t with
    irigBad := 0, irigRun := t.irigRun + 1, irigLast := some f, irigDay := f.day, irigErr := phase, phase := phase }) s
  let s := if ¬ s.tim.irigOk ∧ qualN s.tim ≤ s.tim.irigRun then refRecordDue 2 .irig (modTim (fun t => { t with irigOk := true }) s) else s
  let d : Int := ((utc + taiUtc s.tim : Nat) : Int) - pr
  let s := modTim (fun t => { t with irigDiffN := if d = 0 then 0 else t.irigDiffN + 1 }) s
  let s :=
    if ¬ secSrc s.tim then s
    else if d = 0 then modTim (fun t => { t with valid := true }) s
    else if 3 ≤ s.tim.irigDiffN then
      modTim (fun t => { t with step := some (t.step.getD 0 + d * qPerSec), stepSets := true, irigDiffN := 0 }) s
    else s
  if s.tim.ref = .irig then refEdge phase (pr * qPerSec + phase) s else s

/-! ### Second boundary (R266, R268, R270, R274, R285, R286) -/

/-- The pending step (R266, R272, R275). -/
def applyStep (s : State) : State :=
  match s.tim.step with
  | none => s
  | some d =>
    let x := reading s.tim + d
    let s := loadCounter (BitVec.ofInt 32 (x / qPerSec)) ((x % qPerSec).toNat / 4 / 8 * 8) s
    let s := modTim (fun t => { t with step := none, valid := t.valid || t.stepSets, stepSets := false }) s
    timeRecord 3 s.tim.st s.tim.ref (d / 4000) (timEvt 5 s)

/-- TAI_UTC takes a new value at a leap second (R268). -/
def takeLeap (n : Nat) (s : State) : State :=
  refRecord 7 s.tim.ref (timEvt 8 (modTim (fun t => { t with leap := setFld (setFld t.leap 31 30 0) 7 0 n, leap60 := false }) s))

/-- While CF_EN = 0, the supervisor's program schedules the leap second of tomorrow's entry in its time-mode tables (11 R366). -/
def fwLeap (s : State) : State :=
  let day := (s.tim.sec.toNat - taiUtc s.tim) / 86400 + 1
  if ¬ supLives s ∨ s.tim.sec.toNat < taiUtc s.tim ∨ bitOf s.tim.refCfg 24 then s
  else
    match s.boot.timeTable.find? fun e => e.1 / 86400 == day && e.2 != taiUtc s.tim with
    | some e => modTim (fun t => { t with leap := setFld t.leap 31 30 (if taiUtc t < e.2 then 1 else 2) }) s
    | none => s

/-- A scheduled leap second, at the change of UTC date (R268): at the end of an inserted second 60, or in place of a deleted
second 59 (log 115). -/
def applyLeap (s : State) : State :=
  let utc : Int := (s.tim.sec.toNat : Int) - (taiUtc s.tim : Nat)
  let pend := fld s.tim.leap 31 30
  if s.tim.leap60 then (if pend = 1 then takeLeap (taiUtc s.tim + 1) s else modTim (fun t => { t with leap60 := false }) s)
  else if pend = 1 ∧ utc % 86400 = 0 then modTim (fun t => { t with leap60 := true }) s
  else if pend = 2 ∧ (utc + 1) % 86400 = 0 then takeLeap (taiUtc s.tim - 1) s
  else if pend = 0 then fwLeap s
  else s

/-- The reference in use follows R263. -/
def switchRef (s : State) : State :=
  let r := chooseRef s.tim
  let old := s.tim.ref
  if r = old then s
  else
    let s := modTim (fun t => { t with ref := r, outliers := [] }) s
    if old ≠ .none ∧ r ≠ .none then refRecord 5 r s else s

/-- FREE with VALID = 1, UNSET without; UNSET takes the start word (Table 8.2). -/
def toFree (s : State) : State :=
  if s.tim.valid then setServo .free s else setServo .unset (modTim (fun t => { t with freq := t.start }) s)

def toFreqOrFree (s : State) : State :=
  if s.tim.refOk then setServo .freq (modTim (fun t => { t with freq := freqWord (10 * t.refPpb) }) s) else toFree s

/-- HOLD_MAX expires: FREQ where REF10M is qualified, else FREE (Table 8.3). -/
def endHoldover (s : State) : State := if s.tim.refOk then toFreqOrFree s else setServo .free s

/-- Entry to HOLDOVER (R274). -/
def enterHoldover (s : State) : State :=
  let s := modTim (fun t => { t with trackWords := if t.trackWords = [] then [freqInt t.freq] else t.trackWords }) s
  setServo .holdover (modTim (fun t => { t with
    holdSecs := 0, freq := if t.refOk then freqWord (10 * t.refPpb) else holdMean t, freqAid := t.refOk }) s)

/-- Table 8.3, HOLD_MAX apart. -/
def servoRules (s : State) : State :=
  let t := s.tim
  match t.st with
  | .unset | .free | .freq =>
    if anyPhaseRef t then enterAcquire s
    else if t.st = .freq then (if t.refOk then s else toFree s)
    else if t.refOk then setServo .freq (modTim (fun t => { t with freq := freqWord (10 * t.refPpb) }) s)
    else s
  | .acquire =>
    if ¬ anyPhaseRef t then toFreqOrFree s
    else if 16 ≤ t.lockN then setServo .track (modTim (fun t => { t with trackWords := [], outliers := [] }) s)
    else s
  | .track =>
    if ¬ anyPhaseRef t then enterHoldover s
    else if consistentOutliers t then enterAcquire s
    else modTim (fun t => { t with trackWords := (freqInt t.freq :: t.trackWords).take (avgSecs t) }) s
  | .holdover =>
    if anyPhaseRef t then enterAcquire s
    else modTim (fun t => { t with holdSecs := t.holdSecs + 1 }) s

/-- OFFSET in TIME cycles (Table 8.21). -/
def ppsOffset (t : Tim) : Int := signedOf 10 (fld t.ppsoutCfg 9 0)

/-- The TIME cycle of a second in which PPS_OUT's pulse starts: the boundary shifted by OFFSET (R285). -/
def ppsCycle (t : Tim) : Nat := (ppsOffset t % 125000000).toNat

/-- TIME_SEC of the boundary that a pulse started now belongs to. -/
def ppsSecond (t : Tim) : Nat := if ppsOffset t < 0 then t.sec.toNat + 1 else t.sec.toNat

/-- The pulse of PPS_OUT starts where MODE lets it, WIDTH ms long (R277, R285). -/
def startPps (s : State) : State :=
  let t := s.tim
  let on : Bool := match fld t.ppsoutCfg 31 30 with
    | 1 => t.running
    | 2 => t.valid
    | 3 => t.st == .track
    | _ => false
  if on ∧ t.quietTo ≤ ppsSecond t then modTim (fun t => { t with ppsOut := true, ppsWidth := clampNat 1 999 (fld t.ppsoutCfg 19 10) }) s
  else s

/-- Level of the PPS_OUT pin at polarity POL (R285). -/
def ppsPin (t : Tim) : Bool := t.ppsOut != bitOf t.ppsoutCfg 29

/-- The SBU signals of a port at a second boundary (R286, R219): each runs where ST_CONFIG selected it (06 R217); a pulse or element
that runs is not cut short (R277). -/
def startSbu (p : PortId) (s : State) : State :=
  let c := (s.port p).tc
  if sbuNow s p ≠ .isOpen then
    if s.tim.valid && decide (s.tim.quietTo ≤ s.tim.sec.toNat) && !replicaBad (tileOf p) s then
      let irig := bitOf (s.port p).pd.modeVdo 1
      let pps := bitOf (s.port p).pd.modeVdo 0
      let frame := irigB004 (sendTime (s.tim.sec.toNat - taiUtc s.tim) s.tim.leap60)
      modTc p (fun c => { c with
        sbuRun := irig, sbuElement := 0, sbuFrame := if irig then frame else [], sbuStop := false
        sbuPulse := c.sbuPulse || pps, sbuLeft := if pps then 10 else c.sbuLeft }) s
    else modTc p (fun c => { c with sbuRun := c.sbuRun && c.sbuStop }) s
  else if c.sbuRun then modTc p (fun c => { c with sbuRun := false, sbuPulse := false, sbuLeft := 0 }) s
  else s

/-- Level of SBU2 within an element: high for the element's high time, `ms` after its start (R286, Table 8.6). -/
def sbu2Level (c : PortTc) (ms : Nat) : Bool :=
  c.sbuRun && (match c.sbuFrame[c.sbuElement]? with | some x => decide (ms < symHighMs x) | none => false)

/-- What happens at the counter's second boundary, once TIME_SEC has advanced. -/
def boundaryEffects (s : State) : State :=
  let s := postDue (applyStep s)
  let s := applyLeap s
  let s := servoRules (switchRef s)
  let s := if ppsCycle s.tim = 0 then startPps s else s
  let s := forEach (fins 64) startSbu s
  forEach (fins 64) (fun p s => latchEv p (BitVec.ofNat 32 (2 ^ 18)) s) (latchSup (BitVec.ofNat 32 (2 ^ 8)) s)

/-- The second boundary: TIME_NS returns to 0 and TIME_SEC advances (R259). -/
def secondTurn (s : State) : State :=
  if s.tim.running then boundaryEffects (modTim (fun t => { t with sec := t.sec + 1, ns := 0 }) s) else s

/-! ### Registers (Tables 8.10, 8.17, 8.23) -/

/-- HOLD_ERR in µs (R274). -/
def holdErr (t : Tim) : Nat := if t.st = .holdover then min 0xFFFF (fld t.holdCfg 7 0 * t.holdSecs / 1000) else 0

def timStat (t : Tim) : Word :=
  pack [(servoCode t.st, 29), (b2n t.valid, 28), (refCode t.ref, 25), (b2n t.a.ok, 24), (b2n t.b.ok, 23), (b2n t.irigOk, 22),
    (b2n t.refOk, 21), (b2n (secSrc t), 20), (b2n t.learned, 19), (b2n t.freqAid, 18), (holdErr t, 0)]

def timPhase (t : Tim) : Word := BitVec.ofInt 32 (clampInt (-2147483648) 2147483647 t.phase)

def timCorrIdx (s : State) (u : TeamId) : Word :=
  pack [((s.team u).corr.seq.toNat, 16), ((s.team u).corr.newest.val, 0)]

def timCorrWord (s : State) (u : TeamId) (e : Fin 8) (w : Fin 4) : Word :=
  let x := (s.team u).corr.entries[e]
  match w with
  | 0 => x.w0
  | 1 => x.w1
  | 2 => x.w2
  | 3 => x.w3

end Sys2Proof.Machine
end

