-- ==== Sys2Proof/Machine/CpuOps.lean ====
section
/-!
DEFINITION. Machine/CpuOps.lean: the PSI cores (09 R288 to R332): registers, local memory, events, timers, run and
restart of threads; and the mailboxes and semaphores of 02 R61 to R70.
-/
namespace Sys2Proof.Machine

/-! ### Registers (09 R292 to R295) -/

/-- g0 reads as 0 (R292). -/
def getReg (c : Cpu) (r : Reg) : Word := if r = 0 then 0 else c.regs[r]

/-- A write to g0 is discarded (R292). -/
def setReg (r : Reg) (v : Word) (c : Cpu) : Cpu := if r = 0 then c else { c with regs := c.regs.set r v }

/-- STATUS (09 Table 9.2). -/
def statusWord (c : Cpu) : Word := pack [(b2n c.ie, 9), (b2n c.ex, 8), (b2n c.n, 3), (b2n c.z, 2), (b2n c.c, 1), (b2n c.v, 0)]

/-- STATUS takes a value; IE is always 0 on a weaver (09 Table 9.2). -/
def setStatus (k : Core) (w : Word) (c : Cpu) : Cpu :=
  { c with ie := k == .sup && bitOf w 9, ex := bitOf w 8, n := bitOf w 3, z := bitOf w 2, c := bitOf w 1, v := bitOf w 0 }

/-- The tile of a core's stamps: the supervisor stamps by the time counter. -/
def coreTile : Core → Option TileId
  | .weaver p => some (tileOf p)
  | .sup => none

/-- SELF (09 Table 9.2). -/
def selfWord : Core → Word
  | .weaver p => pack [((tileOf p).val, 3), ((laneOf p).val, 0)]
  | .sup => 0x100#32

/-- Base of the vectors: TILE_EVEC on a weaver (09 Table 9.2). -/
def evecOf (s : State) : Core → Word
  | .weaver p => (s.tile (tileOf p)).evec
  | .sup => s.sup.evec

/-- CYCLE: one `now` is 8 ns, a fifth of a thread cycle and four SUP cycles (09 R288, R290). -/
def cycleWord (s : State) (k : Core) : Word :=
  match k with
  | .weaver _ => BitVec.ofNat 32 ((s.now - (cpuOf s k).cycle) / 5)
  | .sup => BitVec.ofNat 32 (4 * (s.now - s.sup.cycle))

/-! ### Local memory (09 Table 9.3, R298) -/

/-- Kinds of local access. -/
inductive LocalKind where
  | fetch
  | load
  | store
deriving DecidableEq, Repr

/-- What a local address names: a byte of memory with the word its ECC covers, or a byte of the boot ROM. -/
inductive LocalPlace where
  | ram (key : Nat) (m : EccMem) (word : Nat)
  | rom (off : Nat)
deriving DecidableEq, Repr

/-- Table 9.3: the place of a permitted access. -/
def localPlace (k : Core) (kind : LocalKind) (a : Nat) : Option LocalPlace :=
  match k with
  | .weaver p =>
    let t := tileOf p
    if a < 0x8000 then
      if kind = .store then none else some (.ram (addrTile t a) (.tileProg t) (a / 4))
    else if 0x10000 ≤ a ∧ a < 0x10800 ∧ kind ≠ .fetch then
      let off := 0x800 * (laneOf p).val + (a - 0x10000)
      some (.ram (addrTile t (0x10000 + off)) (.tileData t) (off / 4))
    else none
  | .sup =>
    if a < 0x60000 then some (.ram (0x400000 + a) .codeTcm (a / 4))
    else if 0x100000 ≤ a ∧ a < 0x120000 ∧ kind ≠ .fetch then
      some (.ram (0x460000 + (a - 0x100000)) .dataTcm ((a - 0x100000) / 4))
    else if 0xF00000 ≤ a ∧ a < 0xF20000 ∧ kind ≠ .store then some (.rom (a - 0xF00000))
    else none

def placeByte (s : State) : LocalPlace → Byte
  | .ram key _ _ => memGet s.mem key
  | .rom off => Config.bootRom off

/-- The uncorrectable error of a word: its line of Table 13.1. -/
def ecc2Line (m : EccMem) (word : Nat) : Fin 64 × Word :=
  match m with
  | .codeTcm => (fSupEcc2, BitVec.ofNat 32 word)
  | .dataTcm => (fSupEcc2, BitVec.ofNat 32 (0x18000 + word))
  | .tileProg t => (fTmem2 t, BitVec.ofNat 32 (word % 2 ^ 14))
  | .tileData t => (fTmem2 t, BitVec.ofNat 32 (0x8000 + word % 2 ^ 14))
  | _ => (fRetBank, 0)

/-- A word of local memory is fetched or loaded: corrected and reported, or uncorrectable and reported (01 R12). -/
def eccLocal (x : LocalPlace) (s : State) : Bool × State :=
  match x with
  | .rom _ => (false, s)
  | .ram _ m w =>
    if eccAt s m w = some true then (true, raise (ecc2Line m w).1 (ecc2Line m w).2 s) else (false, eccFix m w s)

/-! ### Mailboxes (02 R64 to R70, 09 R320 to R322) -/

/-- Boxes in the order of Table 2.15. -/
def boxH2S (n : Fin 4) : Fin 24 := ⟨n.val, by omega⟩
def boxS2H (n : Fin 4) : Fin 24 := ⟨4 + n.val, by omega⟩

/-- The mailbox status register (02 Table 2.18). -/
def mbxStat (m : Mailbox) : Word :=
  pack [(b2n m.sndReset, 4), (b2n m.rcvReset, 3), (b2n m.overrun, 2), (b2n m.timeout, 1), (b2n m.full, 0)]

/-- A W1C write of the status register. -/
def clearBox (v : Word) (m : Mailbox) : Mailbox :=
  { m with
    sndReset := m.sndReset && !bitOf v 4, rcvReset := m.rcvReset && !bitOf v 3
    overrun := m.overrun && !bitOf v 2, timeout := m.timeout && !bitOf v 1 }

/-- A set status bit reports on MBX (13 Table 13.1): bits [12:8] the status bits, [4:0] the mailbox. -/
def reportBox (b : Fin 24) (s : State) : State :=
  raise fMbx (pack [(fld (mbxStat s.mbx.box[b]) 4 0, 8), (b.val, 0)]) s

/-- The thread that a word of MBX_S2Tt belongs to (09 R321). -/
def steerTo (cfg : Word) (v : Word) : Nat :=
  if bitOf cfg 8 then (v.toNat / 2 ^ (min 29 (fld cfg 4 0))) % 8 else 0

/-- A word steered to the weaver of port p waits in MBX_S2Tt. -/
def mailWaits (s : State) (p : PortId) : Bool :=
  let m := s.mbx.box[boxDown (tileOf p)]
  m.full && steerTo (s.tile (tileOf p)).mbxCfg m.data == (laneOf p).val

/-- The receiver is reset: an unread word is lost (02 R68); MBX_LOST in the thread that sent it (09 R321). -/
def receiverReset (b : Fin 24) (s : State) : State :=
  let m := s.mbx.box[b]
  if ¬ m.full then s
  else
    let s := reportBox b (modBox b (fun m => { m with full := false, rcvReset := true, thread := none }) s)
    match m.thread with
    | some i =>
      if h : 16 ≤ b.val then latchEv (portOf ⟨b.val - 16, by omega⟩ i) (pack [(1, 16)]) s else s
    | none => s

/-- The sender is reset while an unread word waits (02 R68). -/
def senderReset (b : Fin 24) (s : State) : State :=
  if s.mbx.box[b].full then reportBox b (modBox b (fun m => { m with sndReset := true }) s) else s

/-- A budget word read back (06 Table 6.5). -/
def unbudWord (v : Word) : BudWord := { op := fld v 31 28, tag := lowByte (fld v 23 16), power := v.setWidth 16 }

/-- A word of MBX_T2St is discarded, and FULL clears (02 R68): the policy that sent a budget word sends it again, once its weaver and the
supervisor run (06 R200). -/
def resendUp (t : TileId) (s : State) : State :=
  let m := s.mbx.box[boxUp t]
  match m.full && m.budget, m.thread with
  | true, some i =>
    let p := portOf t i
    followStall p (modBud (fun b => { b with up := (p, unbudWord m.data) :: b.up }) (receiverReset (boxUp t) s))
  | _, _ => receiverReset (boxUp t) s

/-- A reset of the supervisor as a mailbox party (02 Table 2.17); a grant that waits for its mailbox is not lost (06 R200). -/
def supMailReset (s : State) : State :=
  let s := forEach (fins 4) (fun n s => senderReset (boxS2H n) (receiverReset (boxH2S n) s)) s
  forEach (fins 8) (fun t s => senderReset (boxDown t) (resendUp t s)) s

/-- A reset of tile t's sequencer as a mailbox party (02 Table 2.17). -/
def tileMailReset (t : TileId) (s : State) : State := pumpDown t (senderReset (boxUp t) (receiverReset (boxDown t) s))

/-! ### Semaphores (02 R61 to R63) -/

def ownerCode : Option Holder → Nat
  | none => 0
  | some .sup => 1
  | some .spi => 2
  | some .ws => 3

def modSem (n : Fin 16) (f : Sem → Sem) (s : State) : State := modAcc (fun a => { a with sems := a.sems.set n (f a.sems[n]) }) s

/-- A read by a master: it acquires a free semaphore, which clears BROKEN; the register as that master reads it. -/
def semRead (h : Holder) (n : Fin 16) (s : State) : Word × State :=
  let s := if s.acc.sems[n].owner.isNone then modSem n (fun _ => { owner := some h, broken := false }) s else s
  let x := s.acc.sems[n]
  (pack [(b2n x.broken, 8), (ownerCode x.owner, 4), (b2n (x.owner == some h), 0)], s)

/-- A write by a master: the holder's write of 0 to bit 0 releases. -/
def semWrite (h : Holder) (n : Fin 16) (v : Word) (s : State) : State :=
  if s.acc.sems[n].owner = some h ∧ ¬ bitOf v 0 then modSem n (fun x => { x with owner := none }) s else s

/-- A forced release (R63). -/
def semForce (n : Fin 16) (s : State) : State :=
  if s.acc.sems[n].owner.isSome then modSem n (fun _ => { owner := none, broken := true }) s else s

/-- The supervisor's semaphores are released and marked BROKEN (R63). -/
def supSemReset (s : State) : State :=
  forEach (fins 16) (fun n s => if s.acc.sems[n].owner = some .sup then modSem n (fun _ => { owner := none, broken := true }) s else s) s

/-! ### Events (09 R311, Tables 9.8 and 9.9) -/

/-- Latched bits of EPEND. -/
def latchedBits (k : Core) : Word :=
  match k with
  | .weaver _ => 0x000F3FEF#32
  | .sup => 0x00000F0F#32

/-- A fault-collector interrupt reaction is pending: a status bit whose source has INT (13 R416). -/
def fltInt (s : State) : Bool := (fins 64).any fun n => s.flt.stat.getLsbD n.val && bitOf s.flt.src[n] 0

/-- TIMEOUT, RCV_RESET or SND_RESET for the supervisor's side of a mailbox (09 Table 9.9). -/
def supMbxStat (s : State) : Bool :=
  let sends := (fins 4).map boxS2H ++ (fins 8).map boxDown
  let takes := (fins 4).map boxH2S ++ (fins 8).map boxUp
  (sends.any fun b => s.mbx.box[b].timeout || s.mbx.box[b].rcvReset) || takes.any fun b => s.mbx.box[b].sndReset

/-- Level bits of EPEND. -/
def levelBits (s : State) (k : Core) : Word :=
  match k with
  | .weaver p =>
    pack [(b2n (!(s.port p).phy.slots.isEmpty), 4), (b2n (mailWaits s p), 14), (b2n (!s.mbx.box[boxUp (tileOf p)].full), 15)]
  | .sup =>
    pack [(b2n ((fins 4).any fun n => s.mbx.box[boxH2S n].full), 4), (b2n ((fins 8).any fun t => s.mbx.box[boxUp t].full), 5),
      (b2n (supMbxStat s), 6), (b2n (fltInt s), 7)]

/-- EPEND. -/
def ependOf (s : State) (k : Core) : Word := ((cpuOf s k).epend &&& latchedBits k) ||| levelBits s k

/-- The pending events of a mask are returned in rd, their latched bits clear, and the core goes on (R311). -/
def endWait (k : Core) (rd : Reg) (mask : Word) (s : State) : State :=
  let w := ependOf s k &&& mask
  modCpu k (fun c => setReg rd w { c with epend := c.epend &&& ~~~w, st := .running, pc := c.pc + 4 }) s

/-- The supervisor's WAIT for a power state returns: WAKE is set and is returned whatever the mask (R314). -/
def endSupWait (s : State) : State :=
  let s := latchSup 0x800#32 s
  if s.sup.st = .wait then endWait .sup s.sup.waitRd (s.sup.waitMask ||| 0x800#32) s else s

/-! ### Timers (09 R315 to R317) -/

/-- `now` ticks of 8 ns in one timer tick of 1 µs. -/
def tickNow : Nat := 125

def modTimer (k : Core) (n : Fin 4) (f : Timer → Timer) (s : State) : State :=
  modCpu k (fun c => { c with timers := c.timers.set n (f c.timers[n]) }) s

/-- A timer expires: TMRn is set and the stamp of the tick is latched. -/
def timerDone (k : Core) (n : Fin 4) (s : State) : State :=
  let was := bitOf (cpuOf s k).epend n.val
  let (st, s) := takeStamp (coreTile k) s
  modCpu k (fun c => { c with epend := orBit c.epend n.val })
    (modTimer k n (fun t => { t with running := false, stamp := some st, undo := some (s.now, (cpuOf s k).pc, was, t.stamp) }) s)

/-- A start or a stop in the cycle of an expiry wins: the expiry has set no TMRn and latched no stamp (R316). The cycle is an earlier one
once the core has gone on to another instruction (log 177). -/
def timerWins (k : Core) (n : Fin 4) (s : State) : State :=
  match (cpuOf s k).timers[n].undo with
  | some (at_, pc, was, old) =>
    if at_ = s.now ∧ pc = (cpuOf s k).pc then
      modCpu k (fun c => { c with epend := if was then c.epend else c.epend &&& ~~~orBit 0 n.val })
        (modTimer k n (fun t => { t with stamp := old, undo := none }) s)
    else s
  | none => s

/-- A start; a count of 0 expires at once. -/
def timerStart (k : Core) (n : Fin 4) (count : Nat) (s : State) : State :=
  let s := timerWins k n s
  if count = 0 then timerDone k n s else modTimer k n (fun t => { t with running := true, count := count, start := s.now }) s

/-- A stop. -/
def timerStop (k : Core) (n : Fin 4) (s : State) : State := modTimer k n (fun t => { t with running := false }) (timerWins k n s)

/-- Ticks remaining. -/
def timerLeft (s : State) (t : Timer) : Nat := if t.running then t.count - (s.now - t.start) / tickNow else 0

/-- A stamp as a pair (R317); no stamp is 0 with TQ = 1. -/
def stampPair (x : Option Stamp) : Word × Word :=
  match x with
  | some t => (BitVec.ofNat 32 t.sec, pack [(b2n t.tq, 31), (t.ns, 0)])
  | none => (0, 0x80000000#32)

/-- The stamp that a pair holds (R318). -/
def pairStamp (lo hi : Word) : Stamp := { sec := lo.toNat, ns := fld hi 29 0, tq := bitOf hi 31 }

/-! ### Run, halt and restart of threads (09 R332, 13 R437, R438) -/

/-- TILE_THRn_STAT.STATE (09 Table 9.22). -/
def runCode (c : Cpu) : Nat :=
  match c.st with
  | .halted => 0
  | .running => 1
  | .ewait => 2
  | .wait => 3
  | .stallSend => 4
  | .stallRld => 5
  | .dead => 6
  | .stallFence => 1

def thrStat (c : Cpu) : Word := pack [(runCode c, 29), (b2n c.ex, 28), (c.ecause.toNat, 16), (c.restarts, 0)]

/-- The tile is quiescent (09 R313). A tile whose domain is still in reset reads the reset value 0 (09 Table 9.18; log 112). -/
def quiescent (s : State) (t : TileId) : Bool :=
  (s.tile t).ready && ((s.tile t).thr.toList.all fun c => c.st == .halted || c.st == .dead || c.st == .wait) &&
    ((portsOf t).all fun p => (s.port p).phy.tx.isNone && (s.port p).phy.slots.isEmpty) && !s.mbx.box[boxUp t].full

def tileStat (s : State) (t : TileId) : Word :=
  let bits (f : Cpu → Bool) : Nat := ((fins 8).map fun i => if f (s.tile t).thr[i] then 2 ^ i.val else 0).sum
  pack [(b2n (quiescent s t), 16), (bits (fun c => c.st == .halted || c.st == .dead), 8), (bits (fun c => c.st == .wait), 0)]

/-- RUN of a tile. -/
def tileRun (s : State) (t : TileId) : Nat := ((fins 8).map fun i => if (s.tile t).thr[i].run then 2 ^ i.val else 0).sum

/-- Program address of a thread's entry (09 R297). -/
def entryOf (p : PortId) : Word := BitVec.ofNat 32 (4 * (laneOf p).val)

/-- What the shipped program still had to say to the arbiter is gone with the stalled instruction. -/
def dropWords (p : PortId) (s : State) : State := modBud (fun b => { b with up := b.up.filter fun x => x.1 != p }) s

/-- A restart of a thread (R332): it runs again only if RUN is 1; the shipped program starts over (06 R211). -/
def restartThread (p : PortId) (s : State) : State :=
  let s := modThr p (fun c =>
    { st := if c.run then .running else .halted, run := c.run, pc := entryOf p, cycle := c.cycle, wdogAt := s.now, ranAt := s.now
      epc := c.epc, ecause := c.ecause, eaddr := c.eaddr, estat := c.estat, restarts := satInc c.restarts 0xFFFF, hwRestarts := c.hwRestarts
      fresh := !c.run, births := c.births }) s
  let s := modTile (tileOf p) (fun t => { t with restarts := satInc t.restarts 0xFFFF }) (dropWords p s)
  if weaverLives s p then startPolicy p s else s

/-- RUN goes from 0 to 1: a thread that has not run since its reset starts at its entry (R297, 10 R345); one that was halted goes on at
its PC, and the words that it was sending are sent again (R332). -/
def runThread (p : PortId) (s : State) : State :=
  let fresh := (cpuOf s (.weaver p)).fresh
  let s := modThr p (fun c => { c with
    run := true, st := .running, stall := .none, wdogAt := s.now, ranAt := s.now, fresh := false, pc := if fresh then entryOf p else c.pc }) s
  if fresh then startPolicy p s else catchUp p (pumpUp (tileOf p) (followStall p s))

/-- RUN of a thread takes a value: 1 to 0 halts it and abandons a stall with its PC kept; 0 to 1 runs it (R332). -/
def setRun (p : PortId) (run : Bool) (s : State) : State :=
  let c := cpuOf s (.weaver p)
  if c.run = run then s
  else if run then runThread p s
  else modThr p (fun c => { c with run := false, st := if c.st = .dead then .dead else .halted, stall := .none }) s

/-- RESTART and RUN of one thread. A thread that both restarts and halts executes nothing in between: it is left at its entry. -/
def threadCtl (p : PortId) (restart run : Bool) (s : State) : State :=
  setRun p run (onlyIf restart (fun s => restartThread p (onlyIf (!run) (setRun p false) s)) s)

/-- TILE_CTL takes a value: RESTART, then RUN; both are discarded in the safe state (09 R332, 13 R429). -/
def writeTileCtl (t : TileId) (v : Word) (s : State) : State :=
  if s.flt.safe then s
  else
    forEach (fins 8) (fun i s => threadCtl (portOf t i) (bitOf v (8 + i.val)) (bitOf v i.val) s) s

/-- The 8 ns ticks of a second and of a millisecond. -/
def secNow : Nat := 125000000
def msNow : Nat := 125000

/-- WVR_MAX and WVR_WIN (13 Table 13.17). -/
def wvrMax (s : State) : Nat := max 1 (fld s.flt.wdog 15 12)
def wvrWin (s : State) : Nat := secNow * max 1 (fld s.flt.wdog 7 0)

/-- The hardware restarts a thread, or leaves it halted after WVR_MAX restarts within WVR_WIN (13 R437, R438). -/
def hwRestart (p : PortId) (s : State) : State :=
  let c := cpuOf s (.weaver p)
  let recent := c.hwRestarts.filter fun n => decide (s.now < n + wvrWin s)
  if wvrMax s ≤ recent.length then
    raiseLine true (fWeaver (tileOf p)) (pack [((laneOf p).val, 16), (3, 0)])
      (dropWords p (modThr p (fun c => { c with run := false, st := .halted, stall := .none, hwRestarts := recent }) s))
  else restartThread p (modThr p (fun c => { c with hwRestarts := recent ++ [s.now] }) s)

end Sys2Proof.Machine
end

