-- ==== Sys2Proof/Machine/PowerStateOps.lean ====
section
/-!
DEFINITION. Machine/PowerStateOps.lean: power states (chapter 12): entry conditions, commit, abort, the saved image, wake.
-/
namespace Sys2Proof.Machine

/-! ### Retention RAM (12 R405, R406) -/

/-- Device key of retention word w. -/
def retKey (w : Nat) : Nat := retBase + 4 * w

def retWord (s : State) (w : Nat) : Word := memWord s.mem (retKey w)

/-- Write a retention word. -/
def setRetWord (w : Nat) (v : Word) (s : State) : State := eccStore .retention w { s with mem := memPutWord s.mem (retKey w) v }

/-- Write words from word w on. -/
def setRetWords : Nat → List Word → State → State
  | _, [], s => s
  | w, v :: vs, s => setRetWords (w + 1) vs (setRetWord w v s)

/-- CRC-32 of retention bank b over the corrected data (12 R394). -/
def bankCrc (s : State) (b : Nat) : Word := crc32 (memGetBytes s.mem (retKey (1024 * b)) 4096)

/-- A word of bank b has an uncorrectable error. -/
def bankEcc (s : State) (b : Nat) : Bool := s.ecc.any fun e => e.mem == .retention && e.word / 1024 == b && e.fatal

/-! ### POWER_STATE records (12 R411) -/

/-- CRP_MODE code of a state. -/
def psCode : PsState → Nat
  | .run => 0
  | .idle => 1
  | .sleep => 2
  | .deep => 3
  | .off => 4
  | .entering => 5
  | .waking => 6
  | .wakeFailed => 7

def psPayload (kind state code index : Nat) (wfail : Bool) (res : Nat) : Word :=
  pack [(kind, 27), (state % 8, 24), (code, 20), (index, 14), (b2n wfail, 13), (min 8191 res, 0)]

/-- SRC and INDEX of Table 12.4. -/
def wakeCode : WakeSrc → Nat × Nat
  | .wakeSerial => (1, 0)
  | .ufp u _ => (2, u.val)
  | .downstream p => (3, p.val)
  | .supEvent b => (4, b.val)
  | .record c => (5, c % 64)

/-- CRP_PS_STAT (12 Table 12.10). -/
def psStat (c : Crp) : Word := pack [(psCode c.st, 29), (b2n c.wakeFail, 28), (b2n c.failOsc, 27)]

/-! ### Entry conditions (12 R391, Table 12.2) -/

/-- Index of the first that fails. -/
def firstBad {n : Nat} (ok : Fin n → Bool) : Option Nat := ((fins n).find? fun i => !ok i).map (·.val)

/-- An update session is open (11 R371). -/
def sessionOpen (s : State) : Bool := s.boot.src != .none

/-- A team that must be suspended: enabled, Uu_VBUS valid. -/
def mustSuspend (s : State) (u : TeamId) : Bool := teamEn s u && (s.team u).vbusOk

/-- The rows of Table 12.2 that apply to the requested state, in order: REFUSER and the index of the first failure. -/
def entryRows (s : State) (mode : Nat) (mask : Word) : List (Nat × Option Nat) :=
  let deep := mode == 3
  let low := mode == 2 || deep
  let row (on : Bool) (code : Nat) (bad : Option Nat) : Nat × Option Nat := (code, if on then bad else none)
  let flag (bad : Bool) : Option Nat := if bad then some 0 else none
  [row true 1 (flag (s.flt.safe || s.boot.rescue || !(2 ≤ mode && mode ≤ 4))),
    row true 11 (flag (ependOf s .sup &&& mask != 0)),
    row low 2 (firstBad fun u : TeamId => !mustSuspend s u || ((s.team u).st == .suspended && !(s.team u).drivingK)),
    row deep 2 (firstBad fun u : TeamId => !mustSuspend s u || (!(s.team u).rwakeEn && !(s.team u).station.rwake)),
    row low 3 (firstBad fun t : TileId => quiescent s t),
    row low 4 (firstBad fun p : PortId =>
      let x := s.port p
      x.pw.pstate != .waiting && x.pw.pstate != .ramping && x.pw.pstate != .transition && x.pd.pe != .transition &&
        x.pd.pe != .hardReset && x.hub.mstate == 0),
    row deep 4 (firstBad fun p : PortId => (s.port p).pw.pathNow != .rail),
    row low 5 (match firstBad fun n : Fin 4 => !s.mbx.box[boxH2S n].full with
      | some _ => some 0
      | none => firstBad fun t : TileId => !s.mbx.box[boxUp t].full),
    row low 6 (if rebuilding s then some 0 else firstBad fun q : QueueId => !(s.queue q).scanning),
    row deep 6 (firstBad fun q : QueueId => !queueEn s q || ((s.queue q).records == 0 && (s.queue q).latch.isEmpty)),
    row true 7 (flag (s.acc.busy.toList.any (·.isSome))),
    row true 8 (flag (sessionOpen s)),
    row deep 8 (flag s.boot.trial)]

/-- REFUSER and INDEX of the first failing row. -/
def refuserOf (s : State) (mode : Nat) (mask : Word) : Option (Nat × Nat) :=
  (entryRows s mode mask).findSome? fun r => r.2.map fun i => (r.1, i)

/-- ENTRY_REFUSED counts, REFUSER and INDEX stand (12 R391, R395). -/
def countRefusal (code index : Nat) (s : State) : State :=
  modCrp (fun c => { c with refused := satInc c.refused 0xFFFF, refuser := code, refIndex := index % 64 }) s

/-- The entry is refused: nothing else changes, and WAIT returns with WAKE pending (12 R391). -/
def refuseEntry (mode code index : Nat) (s : State) : State :=
  endSupWait (postHub clsPowerState srcPs (psPayload 2 mode code index false 0) (countRefusal code index s))

/-! ### The saved image (12 Table 12.5) -/

/-- USB state of a team in one word (log 25). -/
def usbImage (t : Team) : Word :=
  pack [(t.addr, 0), (b2n (t.under == .configured || t.st == .configured), 7), (b2n t.multiTt, 8), (b2n t.rwakeEn, 9), (t.station.addr, 10),
    (b2n (t.station.st == .configured), 17), (b2n t.station.rwake, 18), (b2n t.pullUp, 19), (b2n t.fsOnly, 20), (b2n t.lpmEn, 21),
    (b2n t.rdEn, 22), (speedCode t.speed, 23), (b2n t.station.enabled, 25), (b2n (t.under == .address || t.under == .configured), 26),
    (b2n (t.station.st == .address || t.station.st == .configured), 27), (b2n t.station.suspended, 28)]

/-- wPortStatus and wPortChange of a hub port. -/
def portImage (s : State) (u : TeamId) (n : Nat) : Word := BitVec.ofNat 32 ((wPortStatus s u n).toNat + 65536 * (wPortChange s u n).toNat)

def teamImage (s : State) (u : TeamId) : List Word :=
  let t := s.team u
  [t.ctl, t.qmask.setWidth 32, t.timing, usbImage t] ++ (List.range 65).map fun i => portImage s u (i + 1)

/-- Ports lo to lo + 31 of a map over the ports. -/
def mapWord (f : PortId → Bool) (lo : Nat) : Word :=
  BitVec.ofNat 32 (((fins 64).map fun p => if lo ≤ p.val ∧ p.val < lo + 32 ∧ f p then 2 ^ (p.val - lo) else 0).sum)

/-- Bit p of a map over the ports, in two words. -/
def portMap (f : PortId → Bool) : List Word := [mapWord f 0, mapWord f 32]

/-- First word of bank 15. -/
def imageBase : Nat := 15 * 1024

/-- Steps 2 and 3 of R394: every context is freed, and the image is written to bank 15. -/
def saveImage (entry : Record) (s : State) : State :=
  let s := forEach (fins 64) freeTt s
  let head := (fins 64).map (portTeamReg s) ++ (fins 64).map (budPortReg s) ++ [s.bud.ctl, s.bud.global, s.bud.relay] ++ s.bud.grp.toList ++
    [s.tim.freq, s.tim.leap, s.acc.lock, BitVec.ofNat 32 s.boot.slot, s.boot.verRun] ++ recordWords entry 0 ++
    portMap (fun p => (s.port p).tc.vconnOn) ++ portMap (fun p => (s.port p).tc.ccsel == .cc1 && (s.port p).tc.vconnOn) ++ List.replicate 4 0
  let s := setRetWords imageBase (List.replicate 1024 0) s
  let s := setRetWords imageBase head s
  forEach (fins 4) (fun u s => setRetWords (imageBase + 256 + 128 * u.val) (teamImage s u) s) s

/-! ### FAULT_N (13 R418) -/

/-- A status bit is set whose source has a reaction bit. -/
def anyReaction (f : Flt) (bit : Nat) : Bool := (fins 64).any fun n => f.stat.getLsbD n.val && bitOf f.src[n] bit

/-- FAULT_N is low; after a wake that failed it goes high at the w7 of a RETRY that succeeds (12 R410). -/
def faultLow (s : State) : Bool :=
  s.pwr.phase == .gaveUp || s.crp.st == .wakeFailed || s.pwr.wakeFailed ||
    (match s.pwr.faultHeld with
    | some b => b
    | none => !s.pwr.bootDone || s.boot.rescue || s.flt.safe || anyReaction s.flt 4)

/-! ### Commit and abort (12 R392 to R396) -/

/-- Every port with a Revision 3.x explicit contract presents SinkTxNG, or SinkTxOK again (06 R193). -/
def sinkTx (ok : Bool) (s : State) : State :=
  forEach (fins 64) (fun p s => if serveRule s p ∧ ¬ (s.port p).pd.sinkNg then setRp p (if ok then .a30 else .a15) s else s) s

/-- A group feed switches off as for FEED_EN = 0, in whatever state it is (12 R396, 07 R230). -/
def feedOff (g : TileId) (s : State) : State := onlyIf ((s.grp g).st != .disabled) (feedDisable g) s

/-- The commit p1: the entry record, WAKE_N low, FAULT_N held at its level from now on for DEEP and OFF (R397), and for DEEP the steps up
to the image, for OFF the switch-offs. -/
def commitEntry (mode : Nat) (s : State) : State :=
  let target : PsState := if mode = 2 then .sleep else if mode = 3 then .deep else .off
  let (st, s) := takeStamp none s
  let r : Record := { cls := clsPowerState, src := srcPs, stamp := st, payload := (psPayload 0 mode 0 0 false 0).setWidth 30 }
  let low := faultLow s
  let s := onlyIf (target != .sleep) (modPwr fun x => { x with faultHeld := some low }) s
  let s := modCrp (fun c => { c with
    st := .entering, target := target, abortable := target == .deep, wakeN := true, wake := none, wakeMore := [], replay := false
    wakeFail := false, residentAt := none }) s
  match target with
  | .sleep => route r (sinkTx false s)
  | .deep => saveImage r (sinkTx false s)
  | _ =>
    let s := forEach (fins 64) (fun p s => modTc p (fun t => { t with rp := .none }) (keeperNone p 0 s)) (route r s)
    let s := forEach (fins 8) feedOff s
    forEach (fins 4) (fun u s => if (s.team u).pullUp then detachTeam u s else s) s

/-- The supervisor's WAIT requests entry to a power state (12 R391); what the entry switches off the cores see as events (09 R311). -/
def requestEntry (mode : Nat) (mask : Word) (s : State) : State :=
  match refuserOf s mode mask with
  | some (code, index) => refuseEntry mode code index s
  | none => allEv (commitEntry mode) s

/-- DEEP entry is aborted (12 R395). -/
def abortEntry (code : Nat) (s : State) : State :=
  let s := countRefusal code 0 s
  let s := modCrp (fun c => { c with st := .run, target := .run, abortable := false, wakeN := false, wake := none, wakeMore := [], replay := false }) (sinkTx true s)
  let s := modPwr (fun x => { x with faultHeld := none }) s
  endSupWait (postHub clsPowerState srcPs (psPayload 3 3 code 0 false 0) s)

/-- DEEP entry may be aborted now. -/
def mayAbort (s : State) : Bool := s.crp.st == .entering && s.crp.abortable

/-! ### Wake (12 R398 to R404) -/

/-- CRP_WAKE_CFG.UFP_WAKE of a UFP. -/
def ufpWake (s : State) (u : TeamId) : Bool := bitOf s.crp.wakeCfg u.val

/-- The source can end the state (12 Table 12.4). -/
def wakeEnds (s : State) (target : PsState) : WakeSrc → Bool
  | .wakeSerial => true
  | .ufp u change => ufpWake s u && (target != .off || change)
  | .downstream p =>
    target == .sleep && (s.port p).hub.enable &&
      (match servedBy s p with | some u => (s.team u).st == .suspended && (s.team u).rwakeEn | none => false)
  | .supEvent b => target == .sleep && bitOf s.sup.waitMask b.val && (b.val < 4 || b.val == 7 || b.val == 8)
  | .record c => target == .sleep && s.posts.any fun x => x.1 == .hub && x.2.cls == c

/-- Rank of a source in R398. -/
def wakeRank : WakeSrc → Nat
  | .wakeSerial => 0
  | .ufp u _ => 1 + u.val
  | .downstream _ => 5
  | _ => 6

/-- A source is latched; of two at one `now`, the first in the order of R398 is recorded. -/
def latchWake (w : WakeSrc) (s : State) : State :=
  match s.crp.wake with
  | none => modCrp (fun c => { c with wake := some w, wakeAt := s.now }) s
  | some x =>
    if s.now = s.crp.wakeAt ∧ wakeRank w < wakeRank x then modCrp (fun c => { c with wake := some w, wakeMore := c.wakeMore ++ [x] }) s
    else modCrp (fun c => { c with wakeMore := c.wakeMore ++ [w] }) s

/-- What the source itself does once it is acted on (12 R398, R400). -/
def actWake (w : WakeSrc) (s : State) : State :=
  match w with
  | .downstream p => match servedBy s p with | some u => startWake u p s | none => s
  | _ => s

/-- Resident time in ms of 8 ns ticks (12 Table 12.15). -/
def resMs (s : State) : Nat := match s.crp.residentAt with | some n => (s.now - n) / msNow | none => 0

/-- CORE_EN goes high for a wake (12 R401). -/
def raiseCore (s : State) : State :=
  modPwr (fun x => { x with phase := .waitPwrOk, coreEn := true, second := false })
    (modCrp (fun c => { c with st := .waking, resTime := BitVec.ofNat 32 (min 0xFFFFFFFF (resMs s)) }) s)

/-- CRP_WAKE_LAST of the wake that completes (12 Table 12.11). -/
def wakeWord (c : Crp) : Word :=
  let (src, index) := match c.wake with | some w => wakeCode w | none => (0, 0)
  pack [(psCode c.target, 13), (b2n c.replay, 12), (src, 6), (index, 0)]

/-- The wake is complete: WAKE_LAST, WAKE_N, CRP_MODE and the record of kind wake (12 R400, R401). -/
def completeWake (wfail : Bool) (s : State) : State :=
  let c := s.crp
  let (src, index) := match c.wake with | some w => wakeCode w | none => (0, 0)
  let left := psCode c.target
  let s := modCrp (fun c => { c with
    wakeLast := wakeWord c, st := .run, target := .run, mode := 0, wakeN := false, wakeFail := false, wake := none, wakeMore := [], replay := false }) s
  let s := sinkTx true s
  postHub clsPowerState srcPs (psPayload 1 left (8 * b2n c.replay + src) index wfail (c.resTime.toNat / 1000)) s

/-! ### Restoring the image (12 R401, R406, R407) -/

/-- Word w of the saved image. -/
def imageWord (s : State) (w : Nat) : Word := retWord s (imageBase + w)

def stOfImage (w : Word) : UsbState := if bitOf w 7 then .configured else if bitOf w 26 then .address else .default

/-- A port's hub-side state from its wPortStatus. -/
def hubFromImage (w : Word) (h : HubPort) : HubPort :=
  { h with
    conn := bitOf w 0, enable := bitOf w 1, suspend := bitOf w 2, oc := bitOf w 3, l1 := bitOf w 5, lowSpeed := bitOf w 9, highSpeed := bitOf w 10 }

/-- Team u from the image: attached teams come back suspended on the rim's pull-up, but one whose host has gone detaches. -/
def restoreTeam (u : TeamId) (s : State) : State :=
  let b := 256 + 128 * u.val
  let w := imageWord s (b + 3)
  let word (n : Nat) : Word := imageWord s (b + 3 + n)
  let s := modTeam u (fun t => { t with
    ctl := imageWord s b, qmask := (imageWord s (b + 1)).setWidth 16, timing := imageWord s (b + 2)
    pullUp := bitOf w 19, fsOnly := bitOf w 20, lpmEn := bitOf w 21, rdEn := bitOf w 22
    speed := (match fld w 24 23 with | 1 => some .full | 2 => some .high | _ => none)
    addr := fld w 6 0, multiTt := bitOf w 8, rwakeEn := bitOf w 9
    st := if bitOf w 19 then .suspended else .detached, under := stOfImage w
    power := Vector.ofFn fun i => bitOf (word (i.val + 1)) 8
    change := Vector.ofFn fun i => BitVec.ofNat 16 (fld (word (i.val + 1)) 31 16)
    station := { t.station with
      addr := fld w 16 10, rwake := bitOf w 18, enabled := bitOf w 25, suspended := bitOf w 28
      st := if bitOf w 17 then .configured else if bitOf w 27 then .address else .default } }) s
  let s := forEach (fins 64) (fun p s =>
    if (s.port p).hub.owner = u.val then modHub p (hubFromImage (word (hubPortOf p))) s else s) s
  if bitOf w 19 ∧ ¬ (s.team u).vbusOk then detachTeam u s else s

/-- Image words 0 to 151 (12 Table 12.5). -/
def restoreImage (s : State) : State :=
  let s := forEach (fins 64) (fun p s => bootPortTeam p (imageWord s p.val) s) s
  let s := forEach (fins 64) (fun p s =>
    let w := imageWord s (64 + p.val)
    modBp p (fun b => { b with
      prio := BitVec.ofNat 8 (fld w 31 24), starved := bitOf w 23, waiting := bitOf w 22, hold := w.setWidth 16
      alloc := fld w 15 0, base := min (fld w 15 0) (baseFor (s.port p).tc.rp), want := fld w 15 0 }) s) s
  let s := modBud (fun b => { b with
    ctl := imageWord s 128, global := imageWord s 129, relay := imageWord s 130
    grp := Vector.ofFn fun i => imageWord s (131 + i.val) }) s
  let s := modTim (fun t => { t with start := imageWord s 139, freq := imageWord s 139, leap := imageWord s 140 }) s
  let s := modAcc (fun a => { a with lock := imageWord s 141 }) s
  let s := modBoot (fun b => { b with slot := fld (imageWord s 142) 1 0, verRun := imageWord s 143 }) s
  forEach (fins 4) restoreTeam s

/-- The retention check at w4 reads every word, with correction (01 R12): each failing bank sets its bit, raises the error line and posts a record (12 R406). -/
def checkBanks (s : State) : State :=
  let s := fixWords .retention (fun _ => true) s
  let bad := (List.range 16).filter fun b => bankCrc s b != s.crp.crcs.getD b 0 || bankEcc s b
  let s := modCrp (fun c => { c with badBanks := bad, imageOk := !bad.contains 15 }) s
  forEach bad (fun b s =>
    let s := modCrp (fun c => { c with retErr := orBit c.retErr b }) s
    postHub clsPowerState srcPs (psPayload 4 0 0 b false 0) (raise fRetBank (s.crp.retErr &&& 0xFFFF#32) s)) s

/-- The record that words 144 to 147 of the image hold. -/
def imageRecord (s : State) : Record :=
  let w0 := imageWord s 144
  { cls := fld w0 29 24, src := fld w0 22 16
    stamp := { sec := fld (imageWord s 145) 29 0, ns := fld (imageWord s 146) 29 0, tq := bitOf w0 23 }
    payload := (imageWord s 147).setWidth 30 }

/-- A bit of a port map of the image. -/
def imageBit (s : State) (base : Nat) (p : PortId) : Bool := bitOf (imageWord s (base + p.val / 32)) (p.val % 32)

/-- After w7: the entry record, and one VCONN record for each port that sourced VCONN (12 R394, R411). -/
def postImage (s : State) : State :=
  if ¬ s.crp.imageOk then s
  else
    let s := pushRecord .hub (imageRecord s) s
    forEach ((fins 64).filter (imageBit s 148)) (fun p s =>
      postPortAt p s.crp.vconnStamp clsVconn (pack [(1, 27), (b2n (imageBit s 150 p), 26)]) s) s

end Sys2Proof.Machine
end

