-- ==== Sys2Proof/Machine/SlotOps.lean ====
section
/-!
DEFINITION. Machine/SlotOps.lean: fields in flash, and the slot record: which release boots (11 R367, R368, R375).
-/
namespace Sys2Proof.Machine

/-! ### Flash fields (11 Tables 11.1 to 11.6) -/

/-- Flash address of slot 1 (A) or 2 (B). -/
def slotBase (slot : Nat) : Nat := if slot = 2 then 0x500000 else 0x100000

def flashNat (s : State) (off n : Nat) : Nat := ofBytes (flashBytes s off n)

/-- The bytes are all b. -/
def allBytes (b : Byte) (bs : List Byte) : Bool := bs.all (· == b)

/-- n bytes of a byte string from offset o. -/
def cut (m : List Byte) (o n : Nat) : List Byte := (m.drop o).take n

/-! ### The slot record (11 R367, R368) -/

/-- Flash address of entry i of sector r. -/
def entryAddr (r i : Nat) : Nat := 0x1000 * r + 32 * i

def entryMagic (s : State) (r i : Nat) : Bool := flashNat s (entryAddr r i) 4 == 0x52535A4E

/-- Entry i of sector r where it is valid. -/
def entryAt (s : State) (r i : Nat) : Option SlotRecord :=
  if ¬ entryMagic s r i then none
  else
    let b := flashBytes s (entryAddr r i) 32
    if ofBytes (cut b 0x1C 4) = (crc32 (cut b 0 0x1C)).toNat then
      some
        { seq := ofBytes (cut b 4 4), active := ofBytes (cut b 8 1), trial := ofBytes (cut b 9 1) == 1, tries := ofBytes (cut b 0xA 1)
          prev := ofBytes (cut b 0xB 1), minRollback := ofBytes (cut b 0xC 4), keyMin := ofBytes (cut b 0x10 1)
          version := BitVec.ofNat 32 (ofBytes (cut b 0x14 4)) }
    else none

/-- Every valid entry with its sector and index. -/
def entriesOf (s : State) : List (Nat × Nat × SlotRecord) :=
  (List.range 2).flatMap fun r => (List.range 128).filterMap fun i => (entryAt s r i).map fun x => (r, i, x)

/-- The valid entry with the highest SEQ. -/
def currentEntry (s : State) : Option (Nat × Nat × SlotRecord) :=
  (entriesOf s).foldl (fun (best : Option (Nat × Nat × SlotRecord)) e =>
    match best with
    | some b => if b.2.2.seq < e.2.2.seq then some e else best
    | none => some e) none

/-- The bytes of an entry. -/
def entryBytes (x : SlotRecord) : List Byte :=
  let b := toBytes 4 0x52535A4E ++ toBytes 4 x.seq ++ toBytes 1 x.active ++ toBytes 1 (b2n x.trial) ++ toBytes 1 x.tries ++ toBytes 1 x.prev ++
    toBytes 4 x.minRollback ++ toBytes 1 x.keyMin ++ toBytes 3 0 ++ toBytes 4 x.version.toNat ++ toBytes 4 0
  b ++ toBytes 4 (crc32 b).toNat

def erased (s : State) (r i : Nat) : Bool := allBytes 0xFF (flashBytes s (entryAddr r i) 32)

/-- Where the next entry goes: the next erased entry of the current sector, or entry 0 of the other, erased, sector. -/
def entryPlace (s : State) : Option (Nat × Nat) :=
  let (r, i) := match currentEntry s with | some (r, i, _) => (r, i + 1) | none => (0, 0)
  match (List.range 128).find? fun k => decide (i ≤ k) && erased s r k with
  | some k => some (r, k)
  | none => if (List.range 128).all fun k => erased s (1 - r) k then some (1 - r, 0) else none

/-- The entry as it is written next: SEQ one higher than the current one's. -/
def nextEntry (x : SlotRecord) (s : State) : SlotRecord :=
  { x with seq := match currentEntry s with | some (_, _, c) => c.seq + 1 | none => 1 }

/-- A write that is interrupted or fails leaves some of the entry's bytes before CHECK, how many is open, and no valid entry (R368; log 169). -/
def tornEntry (x : SlotRecord) (s : State) : State :=
  match entryPlace s with
  | none => s
  | some (r, i) =>
    let (n, s) := drawNat s
    flashWrite (entryAddr r i) ((entryBytes (nextEntry x s)).take (n % 28)) s

/-- Write an entry, and whether it stands: not where there is no erased entry, nor where the write fails (R368, R370). -/
def writeEntry (x : SlotRecord) (ok : Bool) (s : State) : Bool × State :=
  if ¬ ok then (false, tornEntry x s)
  else
    match entryPlace s with
    | none => (false, s)
    | some (r, i) =>
      let x := nextEntry x s
      (true, modBoot (fun b => { b with slotRec := x }) (flashWrite (entryAddr r i) (entryBytes x) s))

/-- The slot record, from flash where an entry is valid (R363, R375). -/
def currentRecord (s : State) : SlotRecord := match currentEntry s with | some (_, _, x) => x | none => s.boot.slotRec

/-! ### Sessions (11 R371, R375) -/

def otherSlot (slot : Nat) : Nat := if slot = 2 then 1 else 2

/-- The slot a session writes. -/
def sessionSlot (s : State) : Nat := otherSlot s.boot.slot

/-- VERSION of a slot's manifest. -/
def slotVersion (s : State) (slot : Nat) : Word := BitVec.ofNat 32 (flashNat s (slotBase slot + 0x00C) 4)

/-- The commit entry of a session (R375). -/
def activationEntry (s : State) : SlotRecord :=
  let slot := sessionSlot s
  { currentRecord s with active := slot, trial := true, tries := 1, prev := s.boot.slot, version := slotVersion s slot }

/-- A reset or a power failure while the commit entry is written (11 Table 11.10). -/
def tearCommit (s : State) : State := if s.boot.upd = .activating then tornEntry (activationEntry s) s else s

end Sys2Proof.Machine
end

