-- ==== Sys2Proof/Machine/ResetOps.lean ====
section
/-!
DEFINITION. Machine/ResetOps.lean: resets and their scope (10 R338 to R348) and the power-up conditions of the rim.
-/
namespace Sys2Proof.Machine

/-! ### What a reset leaves (10 Table 10.3, 12 Table 12.1) -/

/-- A port switch across a chip reset: the keeper goes to none and discharges; learned gate currents survive. -/
def pwrAfterChip (w : PortPwr) : PortPwr :=
  { gateLearn := w.gateLearn, gateSamples := w.gateSamples, gateNow := w.gateNow, vbus := w.vbus, cur := w.cur
    discharge := w.discharge || w.pathNow != .none }

/-- What the pins of a connector show, and the holds that they cause (14 R466). -/
def pinsOf (t : PortTc) : PortTc := { cc1 := t.cc1, cc2 := t.cc2, ccHold := t.ccHold, sbuHold := t.sbuHold }

/-- A port across a chip reset: what the board holds (the device, the CC pins) and the slice's learned values. -/
def portAfterChip (x : Port) : Port :=
  { hub := { dev := x.hub.dev }, tc := pinsOf x.tc, pw := pwrAfterChip x.pw }

/-- A port in DEEP: the rim slice keeps the keeper, the protection, Rp and the CC selection; the registers of the tile domain
are lost, and what the policy knew of the contract stays with the keeper (log 26). -/
def portAfterDeep (x : Port) : Port :=
  { hub := { dev := x.hub.dev }
    tc := { pinsOf x.tc with
      st := x.tc.st, orient := x.tc.orient, ra := x.tc.ra, rp := x.tc.rp, ccsel := x.tc.ccsel, eff := x.tc.eff }
    pd := { rev := x.pd.rev, pe := x.pd.pe, objpos := x.pd.objpos, opCur := x.pd.opCur, volt := x.pd.volt, mismatch := x.pd.mismatch
            caps := x.pd.caps, eff := x.pd.eff }
    pw := { x.pw with pwrCfg := 0x00500A28#32, protCfg := 0x500A0551#32, curve := ({} : PortPwr).curve, fwOff := x.pw.fwOff } }

/-- A feed across a chip reset or DEEP: one that is on keeps running under the values of its rim slice, one that is off stays
off until step 6 (07 R503). The rim slice keeps a cooldown and the feed's comparators (07 R256, 10 Table 10.3). -/
def grpAfterReset (deep : Bool) (x : Group) : Group :=
  let on : Bool := match x.st with | .ramping | .on | .good | .warning => true | _ => false
  { st := if on || deep || x.st == .cooldown then x.st else .disabled, uvLow := x.uvLow, ovOver := x.ovOver, warnLow := x.warnLow, pg := x.pg && on, railUp := x.railUp && on, limiting := x.limiting && on
    stage := x.stage, trips := x.trips, flags := x.flags, feedV := x.feedV, railV := x.railV, feedI := x.feedI
    released := deep, rim := if on || deep then some (x.cfgNow, x.thrNow, x.limNow) else none }

/-- The RIM window of CRP survives; CRP_MODE, in the CORE domain, does not. -/
def crpAfterReset (c : Crp) : Crp :=
  { c with
    mode := 0, st := .run, target := .run, abortable := false, wakeFail := false, crcs := [], wake := none, wakeMore := [], replay := false
    residentAt := none, wakeN := false, imageOk := false, badBanks := [] }

/-- The tiles at their reset values; CYCLE counts from here (09 Table 9.2). -/
def coldTiles (s : State) : Vector Tile 8 :=
  s.tiles.map fun x => { link := { failed := x.link.failed }, thr := x.thr.map fun c => { cycle := s.now, wdogAt := s.now, births := c.births + 1 } }

/-- The hub die and the tiles at their reset values: a chip reset, or the loss of their supplies in DEEP and OFF. The memory
keeps flash, and retention RAM where `ret`. -/
def resetDie (deep ret : Bool) (s : State) : State :=
  { teams := s.teams.map (if deep then teamAfterDeep else teamReset)
    ports := s.ports.map (if deep then portAfterDeep else portAfterChip)
    grps := s.grps.map (grpAfterReset deep)
    flt := fltReset
    crp := s.crp, pwr := s.pwr
    mem := memClear s.mem (fun a => decide (a < (if ret then retBase else flashBase)))
    ecc := s.ecc.filter fun e => ret && e.mem == .retention
    now := s.now, free := s.free, pending := s.pending, tiles := coldTiles s
    sup := { cycle := s.now, wdogAt := s.now, births := s.sup.births + 1 } }

/-! ### Chip reset (10 R343, R344, R346, R347) -/

/-- Bits of CRP_RST_CAUSE (10 Table 10.4). -/
def rstVrim : Nat := 0
def rstPin : Nat := 1
def rstPwrOk : Nat := 2
def rstCmd : Nat := 3
def rstFlt : Nat := 4
def rstPwrTimeout : Nat := 5
def rstOscTimeout : Nat := 6

def recordCause (bit : Nat) (s : State) : State := modCrp (fun c => { c with rstCause := orBit c.rstCause bit }) s

/-- COUNT of CRP_RST_CAUSE. -/
def countReset (s : State) : State :=
  modCrp (fun c => { c with rstCause := setFld c.rstCause 15 8 (satInc (fld c.rstCause 15 8) 0xFF) }) s

/-- A chip reset is in progress, or power-up before t4, at which a trigger is only recorded (R347). -/
def beforeT4 (s : State) : Bool :=
  match s.pwr.phase with
  | .rimReset | .waitPwrOk | .waitOsc | .waitCore | .offWait | .resetHeld => s.crp.st != .waking || s.crp.target != .deep
  | _ => false

/-- A chip reset that goes on at the given phase. -/
def doChipReset (phase : PwrPhase) (coreEn : Bool) (s : State) : State :=
  let s := countReset (resetDie false true (tearCommit s))
  modPwr (fun x => { x with 
    phase := phase, coreEn := coreEn, second := false, bootDone := false, tapHeld := true, fromDeep := false, fromOff := false, wakeFailed := false
    faultHeld := none })
    (modCrp crpAfterReset s)

/-- Where a chip reset goes on: from t2 with CORE_EN high, else from t1 (R338, R344). -/
def resetPhase (s : State) : PwrPhase := if s.pwr.coreEn then .waitOsc else .waitPwrOk

/-- A chip reset trigger other than RESET_N or PWR_OK loss. -/
def chipReset (bit : Nat) (s : State) : State :=
  let s := recordCause bit s
  if beforeT4 s then s else doChipReset (resetPhase s) true s

/-- A VRIM power-on: everything is reset; flash and what the board holds stay (R343). -/
def vrimReset (s : State) : State :=
  let s := tearCommit s
  { mem := memClear s.mem fun a => decide (a < flashBase)
    teams := s.teams.map teamReset
    ports := s.ports.map fun x => { hub := { dev := x.hub.dev }, tc := pinsOf x.tc }
    grps := s.grps.map fun x => { feedV := x.feedV }
    now := s.now, free := s.free, pending := s.pending, tiles := coldTiles s
    sup := { cycle := s.now, wdogAt := s.now, births := s.sup.births + 1 } }

/-- The loss of every supply but VRIM's logic at entry to OFF: the rim slices and retention RAM go too (12 Table 12.1). -/
def resetOff (s : State) : State :=
  let v := vrimReset s
  { resetDie false false s with ports := v.ports, grps := v.grps }

/-! ### Tile reset (10 R345) -/

/-- The ports of a tile leave the repeat path: as disabled ports, with CONNECTION 0. -/
def cutPorts (t : TileId) (s : State) : State :=
  forEach (portsOf t) (fun p s => syncHub p (stopServing p (modHub p (fun h => { h with cut := true }) s))) s

/-- A weaver in a tile reset: RUN = 0, registers at reset. -/
def coldThread (s : State) (c : Cpu) : Cpu := { cycle := s.now, wdogAt := s.now, hwRestarts := c.hwRestarts, births := c.births + 1 }

/-- The ports of a tile report again (R345 step 6). -/
def joinPorts (t : TileId) (s : State) : State :=
  forEach (portsOf t) (fun p s => syncHub p (modHub p (fun h => { h with cut := false }) s)) s

/-- The link in a tile reset: it is trained again, but one whose training failed stays isolated until a chip reset (13 R443). -/
def linkAfterReset (l : Link) : Link := if l.isolated ∧ ¬ l.trained then l else { failed := l.failed }

/-- A tile reset at r0; tile memory and the rim slices stay. -/
def tileReset (t : TileId) (s : State) : State :=
  let s := cutPorts t s
  let s := modTile t (fun x => { on := x.on, link := linkAfterReset x.link, thr := x.thr.map (coldThread s) }) s
  let s := forEach (portsOf t) (fun p s =>
    dropWords p (abortSeq p (modPort p (fun x => { x with phy := {}, hub := { x.hub with phy := {}, phyCfg := ({} : HubPort).phyCfg } }) s))) s
  let s := { s with posts := s.posts.filter fun x => x.1 != .tile t && x.1 != .tilePost t }
  tileMailReset t s

/-- The lane that a passed training finds failed, if any: the one reported while it ran, else at most one of those that had failed before
the reset, which may each have healed (13 R442; log 150). -/
def trainedLane (t : TileId) (s : State) : Option Lane × State :=
  let l := (s.tile t).link
  if l.spare.isSome ∨ l.failed = [] then (l.spare, s)
  else
    let (n, s) := drawNat s
    (l.failed[n % (l.failed.length + 1)]?, s)

/-- Training at a tile reset or chip reset passes: the tile is ready, and the spare replaces the lane that failed (R340, R345, 13 R442). What
its replica reads before its first sync frame is open (10 Table 10.10; log 2). -/
def tileReadyNow (t : TileId) (s : State) : State :=
  let (x, s) := trainedLane t s
  let (n, s) := drawNat s
  joinPorts t (modTile t (fun y => { y with ready := true, replicaErr := signedOf 64 n, link := { trained := true, spare := x, failed := x.toList } }) s)

/-- Isolated: the tile's ports as in R345, its blocks unmapped, its BUSY flag clear (13 R443). -/
def isolateTile (t : TileId) (s : State) : State :=
  let s := modTile t (fun x => { x with link := { x.link with isolated := true } }) (cutPorts t s)
  modAcc (fun a => { a with busy := a.busy.set t.val none (by omega) }) s

end Sys2Proof.Machine
end

