-- ==== Sys2Proof/Machine/FaultOps.lean ====
section
/-!
DEFINITION. Machine/FaultOps.lean: the fault collector (chapter 13): status and scorecard, reactions, warm restart, safe
state, crash dump; and the exceptions of the PSI cores (09 R329, R330).
-/
namespace Sys2Proof.Machine

/-! ### Registers of the dump (13 Table 13.8) -/

def holderOf : Master → Option Holder
  | .sup => some .sup
  | .spi => some .spi
  | .ws => some .ws
  | .weaver _ => none

/-- CRL_STAT (05 Table 5.7). -/
def crlStat (s : State) : Word :=
  pack [(s.crl.freeCount, 16), (b2n (s.queues.toList.any (·.scanning)), 1), (b2n (rebuilding s), 0)]

/-- BOOT_STAT (10 Table 10.7). -/
def bootStat (s : State) : Word :=
  let b := s.boot
  let up := ((fins 8).map fun t => if (s.tile t).ready then 2 ^ t.val else 0).sum
  pack [(b2n b.cfgDefaulted, 31), (b2n b.rescue, 30), (b.slot % 4, 28), (b.cfgFault % 8, 24), (b.cfgRec % 2048, 13), (up, 5), (b.step % 16, 0)]

/-- FLT_LINKt_STAT (13 Table 13.19). -/
def linkStat (s : State) (t : TileId) : Word :=
  let l := (s.tile t).link
  let lane (x : Option Lane) : Nat := match x with | some n => n.val | none => 0
  pack [(b2n l.spare.isSome, 31), (lane l.spare, 27), (b2n l.second.isSome, 26), (lane l.second, 22), (b2n l.isolated, 21), (l.resends, 0)]

/-- FLT_SAFE and FLT_SUP_STAT (13 Tables 13.13 and 13.14). -/
def fltSafe (f : Flt) : Word := pack [(b2n f.safe, 31), (f.safeCause % 8, 28), (b2n f.scPar, 0)]
def fltSupStat (f : Flt) : Word :=
  pack [(b2n f.warm, 31), (b2n f.inWr, 30), (b2n f.reloaded, 29), (f.wrCause % 32, 24), (f.wrCount, 0)]

/-- FLT_LOST and FLT_SC_IDX (13 Tables 13.11 and 13.12). -/
def fltLost (f : Flt) : Word := pack [(b2n f.lostFlag, 31), (f.lostCount, 0)]
def fltScIdx (f : Flt) : Word := pack [(f.total, 16), (b2n f.any, 4), (f.newest.val, 0)]

/-- FLT_STAT_HI and FLT_STAT_LO. -/
def fltStat (f : Flt) (hi : Bool) : Word := (f.stat >>> (if hi then 32 else 0)).setWidth 32

/-- Words of a scorecard entry (13 Table 13.2); one that fails its parity reads VALID = 0 (R425). -/
def entryWords (e : Option Intake) : List Word :=
  match e with
  | some x =>
    [pack [(b2n (!x.badPar), 31), (x.src.val, 24), (x.sev, 22), (x.count, 0)], BitVec.ofNat 32 x.stamp.sec,
      pack [(b2n x.stamp.tq, 31), (x.stamp.ns, 0)], x.detail]
  | none => [0, 0, 0, 0]

/-- An entry is read: SC_PAR is set where it fails its parity (R425). -/
def readEntry (e : Fin 16) (s : State) : State :=
  if (match s.flt.entries[e] with | some x => x.badPar | none => false) then modFlt (fun f => { f with scPar := true }) s else s

/-! ### The crash dump (13 R446 to R448) -/

/-- Retention word of dump word 0. -/
def dumpBase : Nat := 12288

/-- Words 80 to 103: core A. -/
def coreWords (s : State) : List Word :=
  let c := s.sup
  [c.pc, statusWord c, c.epc, c.ecause.setWidth 32, c.eaddr, c.estat, ependOf s .sup, c.ien] ++ c.regs.toList

/-- n free words (log 2). -/
def drawWords : Nat → State → List Word × State
  | 0, s => ([], s)
  | n + 1, s =>
    let (w, s) := drawWord s
    let (ws, s) := drawWords n s
    (w :: ws, s)

/-- Dump words 0 to n − 1 as they stand. -/
def dumpWords (s : State) (n : Nat) : List Word := (List.range n).map fun w => retWord s (dumpBase + w)

/-- CHECK over words 0 to 255 + SW_LEN. -/
def dumpCheck (s : State) : Word := crc32 (memGetBytes s.mem (retKey dumpBase) (4 * (256 + fld (retWord s (dumpBase + 1)) 31 16)))

/-- A valid uncopied dump is present. -/
def dumpKept (s : State) : Bool :=
  retWord s dumpBase == 0x44555A4E#32 && retWord s (dumpBase + 3070) == dumpCheck s && retWord s (dumpBase + 3071) == 0

/-- A retention word that the check of the dump reads (R446): MAGIC to the end of the software part, CHECK and COPY_SEQ. -/
def inDump (s : State) (w : Nat) : Bool :=
  decide (dumpBase ≤ w ∧ w < dumpBase + 256 + fld (retWord s (dumpBase + 1)) 31 16) || w == dumpBase + 3070 || w == dumpBase + 3071

/-- The dump is read: single-bit errors in its words are corrected and reported (01 R12). -/
def readDump (s : State) : State := fixWords .retention (inDump s) s

/-- Word 3 of the dump: DROPPED rises, saturating. -/
def bumpDropped (w : Word) : Word := setFld w 23 16 (satInc (fld w 23 16) 0xFF)

/-- The hardware part of a dump (R448), core B's words apart. -/
def hwWords (kind cause swCode : Nat) (coreB : List Word) (s : State) : List Word :=
  let f := s.flt
  let ws : List Word :=
    [0x44555A4E#32, 0x00000001#32, BitVec.ofNat 32 s.crp.dumpSeq, pack [(cause % 256, 8), (kind, 0)],
      s.tim.sec, pack [(b2n (stampTq none s), 31), (s.tim.ns, 0)], 0x00641B01#32, s.boot.verRun,
      fltStat f true, fltStat f false, fltLost f, s.crp.rstCause, fltScIdx f, (if kind = 4 then BitVec.ofNat 32 (swCode % 65536) else 0), 0, 0]
    ++ (f.entries.toList.map entryWords).flatten ++ coreWords s ++ coreB
    ++ [s.acc.errCap, s.ttc.err, s.crl.err, crlStat s, timStat s.tim, psStat s.crp, bootStat s, budStat s]
    ++ (fins 8).map (linkStat s) ++ (fins 4).map (fun u => teamStat (s.team u)) ++ [fltSafe f, fltSupStat f] ++ List.replicate 106 0
  ws.take 256

/-- Words 104 to 127: core B runs in lockstep with core A; where the cores have diverged, open. -/
def coreBWords (diverged : Bool) (s : State) : List Word × State := if diverged then drawWords 24 s else (coreWords s, s)

/-- The collector writes the hardware part of a dump, or keeps a valid uncopied one (R447). Cores that have diverged leave
core B's words open. -/
def hwDump (kind cause swCode : Nat) (diverged : Bool) (s : State) : State :=
  let s := readDump s
  if dumpKept s then
    let s := setRetWord (dumpBase + 3) (bumpDropped (retWord s (dumpBase + 3))) s
    setRetWord (dumpBase + 3070) (dumpCheck s) s
  else
    let s := forEach (fins 16) readEntry (modCrp (fun c => { c with dumpSeq := c.dumpSeq + 1 }) s)
    let (coreB, s) := coreBWords diverged s
    let s := setRetWords dumpBase (hwWords kind cause swCode coreB s) s
    let s := setRetWord (dumpBase + 3070) (dumpCheck s) s
    setRetWord (dumpBase + 3071) 0 s

/-- Seconds left of the confirm window (11 Table 11.15). -/
def windowLeft (s : State) : Nat := if s.boot.windowOn then s.boot.window - (s.now - s.boot.windowAt) / secNow else s.boot.window

/-- The confirm window stops or freezes (11 R380, 13 R429). -/
def stopWindow (s : State) : State := modBoot (fun b => { b with window := windowLeft s, windowOn := false }) s

/-! ### Supervisor resets (13 R429, R432, R433) -/

/-- The supervisor is reset as a party: mailboxes, semaphores, held records (02 R63, R68, 05 R162). -/
def supPartyReset (s : State) : State :=
  let s := supSemReset (supMailReset s)
  forEach (fins 16) (fun q s => if (s.queue q).holder = some .sup then endHold q s else s) s

/-- Both cores frozen and reset: timers, EPEND, STATUS, IEN, registers; CYCLE counts from here. An activation restart that still waited is
over. -/
def coldSup (s : State) : State := { modBoot (fun b => { b with act := none }) s with sup := { cycle := s.now, wdogAt := s.now, restarts := s.sup.restarts, births := s.sup.births + 1 } }

/-- Entry to the safe state, where the cores may have diverged; a later cause changes nothing (R428, R429). -/
def enterSafe (cause : Nat) (diverged : Bool) (s : State) : State :=
  if s.flt.safe then s
  else
    let s := modFlt (fun f => { f with safe := true, safeCause := cause }) s
    let s := coldSup (supPartyReset (hwDump 2 cause 0 diverged s))
    let s := forEach (fins 64) (fun p s => setRun p false s) s
    stopWindow s

/-- WR_MAX and WR_WIN (13 Table 13.10). -/
def wrMax (s : State) : Nat := max 1 (fld s.flt.ctl 23 20)
def wrWin (s : State) : Nat := secNow * max 1 (fld s.flt.ctl 19 12)

/-- Source code of a commanded restart (R428). -/
def wrCommanded : Nat := 0x1F

/-- A warm restart from m0 to m3 (R428, R432 to R436): `reload` when a code TCM word is uncorrectable. The dump of m2 shows it; a boot in
progress is over, and the boot ROM's warm path runs in its place (log 171). -/
def warmRestart (cause : Nat) (reload : Bool) (s : State) : State :=
  if s.flt.safe then s
  else if s.flt.inWr then (if cause = wrCommanded then s else enterSafe 2 (cause == 8) s)
  else
    let recent := s.flt.wrTimes.filter fun n => decide (s.now < n + wrWin s)
    let times := if cause = wrCommanded then recent else recent ++ [s.now]
    let s := modFlt (fun f => { f with wrTimes := times }) s
    if cause ≠ wrCommanded ∧ wrMax s < times.length then enterSafe 3 (cause == 8) s
    else
      let s := modFlt (fun f => { f with
        inWr := true, m5 := false, warm := false, reload := reload, reloaded := false, wrCause := cause, wrCount := satInc f.wrCount 0xFFFF
        nmi := false }) s
      let s := modBoot (fun b => { b with plan := none }) (hwDump 1 cause 0 (cause == 8) s)
      coldSup (supPartyReset s)

/-! ### Block resets (13 Table 13.1) -/

/-- Tile and kind of a tile source: 0 LINK, 1 WEAVER, 2 TMEM1, 3 TMEM2, 4 REPLICA. -/
def tileSource (n : Fin 64) : Option (TileId × Nat) :=
  if h : 24 ≤ n.val then some (⟨(n.val - 24) / 5, by omega⟩, (n.val - 24) % 5) else none

/-- The thread that a WEAVER report names. -/
def weaverOf (t : TileId) (detail : Word) : PortId := portOf t (Fin.ofNat 8 (fld detail 18 16))

/-- The block reset of a source. For sources 8 to 10, and for a thread that the hardware restarts, the fixed reaction to the same
report is that reset. -/
def blockReset (n : Fin 64) (detail : Word) (s : State) : State :=
  match tileSource n with
  | some (t, 0) => tileReset t s
  | some (t, 1) => if fld detail 7 0 = 3 then restartThread (weaverOf t detail) s else s
  | some (t, 3) => tileReset t s
  | some _ => s
  | none =>
    match n.val with
    | 2 => resetTt (Fin.ofNat 64 (fld detail 21 16)) s
    | 3 => if fld detail 2 1 ≠ 0 then flushQueue (Fin.ofNat 16 (fld detail 19 16)) s else s
    | 12 => warmRestart 12 (decide (detail.toNat < 0x18000)) s
    | _ => s

/-! ### The scorecard (13 R419 to R422) -/

/-- Severity of a source. -/
def sevOf (s : State) (n : Fin 64) : Nat := fld s.flt.src[n] 7 6

/-- COAL_WIN in ticks of `now`. -/
def coalWin (s : State) : Nat := 12500 * max 1 (fld s.flt.ctl 31 24)

/-- The report coalesces into an entry: same source, within COAL_WIN of its last report. -/
def coalesces (s : State) (n : Fin 64) (x : Intake) : Bool := x.src == n && decide (s.now ≤ x.lastAt + coalWin s)

def countIn (s : State) (x : Intake) : Intake := { x with count := satInc x.count 0xFFFF, lastAt := s.now }

/-- The engine takes the oldest intake report when it is idle. -/
def engineTake (s : State) : State :=
  match s.flt.recording, s.flt.intake with
  | none, x :: r => modFlt (fun f => { f with recording := some x, intake := r }) s
  | _, _ => s

/-- No intake slot is free: the report is lost (R422). -/
def loseReport (n : Fin 64) (st : Stamp) (s : State) : State :=
  let first := s.flt.lostCount == 0
  let s := modFlt (fun f => { f with lostCount := satInc f.lostCount 0xFFFF, lostFlag := true }) s
  if first then
    pushRecord .hub { cls := clsFaultLost, src := srcFault, stamp := st, payload := (pack [(n.val, 24), (1, 0)]).setWidth 30 } s
  else s

/-- A report enters the scorecard's intake (R420). -/
def intakeReport (n : Fin 64) (detail : Word) (st : Stamp) (s : State) : State :=
  let f := s.flt
  let newest : Option Intake := match f.recording with | some x => some x | none => f.entries[f.newest]
  match newest with
  | some x =>
    if coalesces s n x then
      match f.recording with
      | some _ => modFlt (fun f => { f with recording := some (countIn s x) }) s
      | none => modFlt (fun f => { f with entries := f.entries.set f.newest (some (countIn s x)) }) s
    else waiting f s
  | none => waiting f s
where
  /-- Steps 2 to 4. -/
  waiting (f : Flt) (s : State) : State :=
    if f.intake.any fun x => x.src == n then
      modFlt (fun f => { f with intake := f.intake.map fun x => if x.src = n then countIn s x else x }) s
    else if f.intake.length < 4 then
      engineTake (modFlt (fun f => { f with
        intake := f.intake ++ [{ src := n, sev := sevOf s n, count := 1, stamp := st, detail := detail, lastAt := s.now }] }) s)
    else loseReport n st s

/-- A recording ends: the entry, the index and the record change together; the engine picks the next (R420, R421). -/
def recordEntry (s : State) : State :=
  match s.flt.recording with
  | none => s
  | some x =>
    let i : Fin 16 := if s.flt.any then s.flt.newest + 1 else 0
    let s := modFlt (fun f => { f with
      recording := none, newest := i, any := true, total := satInc f.total 0xFFFF, entries := f.entries.set i (some x) }) s
    engineTake (pushRecord .hub
      { cls := clsFault, src := srcFault, stamp := x.stamp, payload := (pack [(x.src.val, 24), (x.sev, 22), (x.count, 0)]).setWidth 30 } s)

/-! ### Latching a report and its reactions (13 R412 to R417) -/

/-- Fixed reactions, on every report (R417). -/
def fixedReaction (n : Fin 64) (detail : Word) (s : State) : State :=
  match tileSource n with
  | some (t, 1) => if fld detail 7 0 = 1 ∨ fld detail 7 0 = 2 then hwRestart (weaverOf t detail) s else s
  | some _ => s
  | none =>
    match n.val with
    | 8 => warmRestart 8 false s
    | 9 => warmRestart 9 false s
    | 10 => warmRestart 10 false s
    | 12 => if s.flt.inWr then enterSafe 2 false s else s
    | 21 => enterSafe 1 false s
    | _ => s

/-- The configured one-shot reactions, when the status bit rises (R416). -/
def oneShots (n : Fin 64) (detail : Word) (cfg : Word) (s : State) : State :=
  let s := onlyIf (bitOf cfg 1) (modFlt fun f => { f with nmi := true }) s
  let s := onlyIf (bitOf cfg 2) (blockReset n detail) s
  if bitOf cfg 3 then chipReset rstFlt (hwDump 3 n.val 0 false s) else s

/-- The collector latches a report. `handled` when the raising step has taken the fixed reaction; a report of the creel that names no queue
has no block reset (Table 13.1 bit 3). -/
def latchReport (n : Fin 64) (detail : Word) (handled : Bool) (s : State) : State :=
  let rise := !s.flt.stat.getLsbD n.val
  let cfg := s.flt.src[n]
  let (st, s) := takeStamp none s
  let s := modFlt (fun f => { f with stat := f.stat ||| BitVec.ofNat 64 (2 ^ n.val) }) s
  let s := intakeReport n detail st s
  let s := onlyIf (mayAbort s && decide (2 ≤ sevOf s n)) (abortEntry 10) s
  let s := onlyIf (!handled) (fixedReaction n detail) s
  onlyIf rise (oneShots n detail (if handled ∧ n = fCrl then cfg &&& ~~~4#32 else cfg)) s

/-! ### The collector's two copies (13 R427) -/

/-- Index of the first register whose copies differ. -/
def copyMismatch (f : Flt) : Option Nat :=
  match (fins 64).find? fun n => f.srcC[n] != ~~~f.src[n] with
  | some n => some n.val
  | none =>
    if f.ctlC ≠ ~~~f.ctl then some 0x40 else if f.wdogC ≠ ~~~f.wdog then some 0x41 else if f.injC ≠ ~~~f.inj then some 0x42 else none

/-- The copies are compared; a mismatch is reported, and the safe state is entered. -/
def collectorCheck (s : State) : State :=
  match copyMismatch s.flt with
  | some i => latchReport fCollector (BitVec.ofNat 32 i) false s
  | none => s

/-- The second copy of a register changes under an upset; an index of no register names none. -/
def spoilCopy (i : Nat) (s : State) : State :=
  modFlt (fun f =>
    if h : i < 64 then { f with srcC := f.srcC.set i f.src[i] }
    else if i = 0x40 then { f with ctlC := f.ctl }
    else if i = 0x41 then { f with wdogC := f.wdog }
    else if i = 0x42 then { f with injC := f.inj }
    else f) s

/-! ### Outputs (13 R418) -/

/-- Boot step 1 is done: IRQ_N is ready, which rests high before it (10 Table 10.13). -/
def irqReady (s : State) : Bool := match s.pwr.phase with | .boot | .run => true | _ => false

/-- IRQ_N is low: an INT reaction, or a mailbox of the management host (02 Table 2.18, 13 R416). -/
def irqLow (s : State) : Bool :=
  irqReady s && (anyReaction s.flt 0 ||
    (fins 8).any fun i =>
      let m := s.mbx.box[(⟨i.val, by omega⟩ : Fin 24)]
      m.timeout || m.rcvReset || m.sndReset)

/-! ### Exceptions (09 R329, R330) -/

/-- A weaver's double exception halts it and is reported; the supervisor's makes a warm restart. -/
def doubleException (k : Core) (cause : Nat) (s : State) : State :=
  match k with
  | .weaver p =>
    raise (fWeaver (tileOf p)) (pack [((laneOf p).val, 16), (2, 0)])
      (modThr p (fun c => { c with st := .dead, stall := .none, ecause := BitVec.ofNat 8 cause }) s)
  | .sup => latchReport fSupDexc (BitVec.ofNat 32 cause) false s

/-- Taking an exception: EPC, ECAUSE, EADDR and ESTAT are saved, EX is set, IE cleared, and the core goes to EVEC + 16 × cause.
`next` for a cause whose EPC is the next instruction and the core's pc is still at the one that raised it (TRAP). -/
def takeException (k : Core) (cause : Nat) (eaddr : Word) (next : Bool) (s : State) : State :=
  let c := cpuOf s k
  if c.ex then doubleException k cause s
  else
    let evec := evecOf s k
    modCpu k (fun c => { c with
      estat := statusWord c, epc := if next then c.pc + 4 else c.pc, ecause := BitVec.ofNat 8 cause, eaddr := eaddr
      ex := true, ie := false, st := .running, stall := .none, pc := evec + BitVec.ofNat 32 (16 * cause) }) s

/-- Causes of Table 9.15. -/
def excIllegal : Nat := 1
def excBus : Nat := 2
def excMem : Nat := 3
def excTrap : Nat := 0x10
def excInterrupt : Nat := 0x20
def excNmi : Nat := 0x21

def illegal (k : Core) (s : State) : State := takeException k excIllegal 0 false s
def busError' (k : Core) (a : Word) (s : State) : State := takeException k excBus a false s
def memError (k : Core) (a : Word) (s : State) : State := takeException k excMem a false s

/-- Return from an exception (R329): STATUS from ESTAT, pc from EPC. -/
def returnException (k : Core) (s : State) : State :=
  if (cpuOf s k).ex then modCpu k (fun c => { setStatus k c.estat c with pc := c.epc }) s else illegal k s

end Sys2Proof.Machine
end

