-- ==== Sys2Proof/Machine/UpdateOps.lean ====
section
/-!
DEFINITION. Machine/UpdateOps.lean: releases in flash, their verification, the slot record and update sessions (chapter 11).
-/
namespace Sys2Proof.Machine

/-! ### Flash fields (11 Tables 11.1 to 11.6) -/

/-- A part entry of a manifest (11 Table 11.3). -/
structure Part where
  ty : Nat
  tile : Nat
  off : Nat
  len : Nat
  digest : List Byte
  clean : Bool
deriving DecidableEq, Repr

/-- Part entry i of a manifest sector. -/
def partOf (m : List Byte) (i : Nat) : Part :=
  let e := cut m (0x40 + 64 * i) 64
  { ty := ofBytes (cut e 0 1), tile := ofBytes (cut e 1 1), off := ofBytes (cut e 4 4), len := ofBytes (cut e 8 4), digest := cut e 0x10 32
    clean := allBytes 0 (cut e 2 2) && allBytes 0 (cut e 0x30 16) }

def partsOf (m : List Byte) : List Part := (List.range 11).map (partOf m)

/-- The manifest sector of a slot. -/
def manifest (s : State) (slot : Nat) : List Byte := flashBytes s (slotBase slot) 4096

/-- MAGIC of a slot's manifest is right. -/
def slotMagic (s : State) (slot : Nat) : Bool := flashNat s (slotBase slot) 4 == 0x464D5A4E

/-- The first part of a type, for tiles the part of that tile. -/
def findPart (ps : List Part) (ty tile : Nat) : Option Part := ps.find? fun x => x.ty == ty && (ty != 2 || x.tile == tile)

/-! ### Verification (11 R363, Tables 11.4 and 11.8) -/

def errNone : Nat := 0
def errWrite : Nat := 1
def errErase : Nat := 2
def errFormat : Nat := 3
def errTarget : Nat := 4
def errKey : Nat := 5
def errSignature : Nat := 6
def errRollback : Nat := 7
def errDigest : Nat := 8
def errAddress : Nat := 9
def errNotdone : Nat := 10
def errState : Nat := 11
def errBusy : Nat := 12
def errPathOff : Nat := 13
def errTimeout : Nat := 14

/-- Two parts do not overlap. -/
def apart (x y : Part) : Bool := decide (x.off + x.len ≤ y.off ∨ y.off + y.len ≤ x.off)

def allApart : List Part → Bool
  | [] => true
  | x :: r => r.all (apart x) && allApart r

/-- Row 1. -/
def row1 (m : List Byte) : Bool :=
  let ps := partsOf m
  let count (ty tile : Nat) : Nat := (ps.filter fun x => x.ty == ty && x.tile == tile).length
  ofBytes (cut m 0 4) == 0x464D5A4E && ofBytes (cut m 4 2) == 1 && ofBytes (cut m 6 2) == 11 &&
    (count 1 0 == 1 && count 3 0 == 1 && count 4 0 == 1 && (List.range 8).all fun t => count 2 t == 1) &&
    (ps.all fun x => x.clean && x.off % 0x1000 == 0 && decide (0x1000 ≤ x.off) && decide (x.off + x.len ≤ 0x400000) &&
      (x.ty != 3 || x.len == 0x4000) && (x.ty != 4 || decide (x.len ≤ 65536))) &&
    allApart ps && allBytes 0 (cut m 0x16 2) && allBytes 0 (cut m 0x1C 36) && allBytes 0 (cut m 0x300 320) && allBytes 0 (cut m 0x480 2944)

/-- Row 2. -/
def row2 (m : List Byte) : Bool := ofBytes (cut m 8 2) == 0x0064 && ofBytes (cut m 0xA 1) == 0x0B

/-- Row 7: the supervisor header (11 Table 11.5). -/
def supHeaderOk (h : List Byte) (len : Nat) : Bool :=
  let entry := ofBytes (cut h 8 4)
  let code := ofBytes (cut h 0xC 4)
  let data := ofBytes (cut h 0x10 4)
  let vec := ofBytes (cut h 0x14 4)
  ofBytes (cut h 0 4) == 0x56535A4E && ofBytes (cut h 4 4) == 1 && entry % 4 == 0 && decide (entry < code) && code % 4 == 0 &&
    decide (code ≤ 0x60000) && data % 4 == 0 && decide (data ≤ 0x20000) && vec % 1024 == 0 && decide (vec < code) &&
    allBytes 0 (cut h 0x18 40) && decide (64 + code + data ≤ len)

/-- Row 7: a tile header (11 Table 11.6). -/
def tileHeaderOk (h : List Byte) (len : Nat) : Bool :=
  let prog := ofBytes (cut h 8 4)
  let data := ofBytes (cut h 0xC 4)
  ofBytes (cut h 0 4) == 0x4C545A4E && ofBytes (cut h 4 4) == 1 && prog % 4 == 0 && decide (0x20 ≤ prog) && decide (prog ≤ 0x8000) &&
    data % 4 == 0 && decide (data ≤ 0x800) && allBytes 0 (cut h 0x19 39) && decide (64 + prog + 8 * data ≤ len)

def partBytes (s : State) (slot : Nat) (x : Part) : List Byte := flashBytes s (slotBase slot + x.off) x.len

def digestOk (s : State) (slot : Nat) (x : Part) : Bool := sha256 (partBytes s slot x) == x.digest

def headerOk (s : State) (slot : Nat) (x : Part) : Bool :=
  let h := flashBytes s (slotBase slot + x.off) 64
  if x.ty = 1 then supHeaderOk h x.len else if x.ty = 2 then tileHeaderOk h x.len else true

/-- The first failing check of Table 11.4: its error and the part index. -/
def verifySlot (s : State) (slot keyMin minRollback : Nat) : Option (Nat × Nat) :=
  if ¬ slotMagic s slot then some (errFormat, 0)
  else
    let m := manifest s slot
    let key := ofBytes (cut m 0xB 1)
    if ¬ row1 m then some (errFormat, 0)
    else if ¬ row2 m then some (errTarget, 0)
    else if 3 < key ∨ key < keyMin then some (errKey, 0)
    else if ¬ signatureOk key (cut m 0x440 32) (cut m 0x460 32) (sha256 (cut m 0 0x440)) then some (errSignature, 0)
    else if ofBytes (cut m 0x10 4) < minRollback then some (errRollback, 0)
    else
      match (List.range 11).find? fun i => !digestOk s slot (partOf m i) with
      | some i => some (errDigest, i)
      | none => if (partsOf m).all (headerOk s slot) then none else some (errFormat, 0)

/-- Erase n bytes of flash: a sector, a block, or the sectors of a copy slot (11 R361). -/
def eraseFlash (addr n : Nat) (s : State) : State :=
  qspiSend (eraseCmds addr n) { s with mem := memClear s.mem fun a => decide (flashBase + addr ≤ a ∧ a < flashBase + addr + n) }

/-- Where 16 or fewer erased entries are left in the current sector, the supervisor's program erases the other (R368). -/
def tidySectors (s : State) : State :=
  match currentEntry s with
  | some (r, _, _) => if ((List.range 128).filter (erased s r)).length ≤ 16 then eraseFlash (0x1000 * (1 - r)) 0x1000 s else s
  | none => s

/-! ### Dump copies in flash (13 R449) -/

/-- Flash address of copy slot k. -/
def copySlot (k : Nat) : Nat := 0x900000 + 0x4000 * k

/-- COPY_SEQ of a copy slot that is valid. -/
def copySeq (s : State) (k : Nat) : Option Nat :=
  let n := flashNat s (copySlot k + 4 * 3071) 4
  if n = 0 ∨ n = 0xFFFFFFFF then none
  else if flashNat s (copySlot k + 4 * 3070) 4 = (crc32 (flashBytes s (copySlot k) (4 * (256 + flashNat s (copySlot k + 6) 2)))).toNat then some n
  else none

/-- The slot of the next copy, and its COPY_SEQ. -/
def nextCopy (s : State) : Nat × Nat :=
  let best := (List.range 64).foldl (fun (b : Option (Nat × Nat)) k =>
    match copySeq s k, b with
    | some n, some (j, m) => if m < n then some (k, n) else some (j, m)
    | some n, none => some (k, n)
    | none, b => b) none
  match best with
  | some (k, n) => ((k + 1) % 64, n + 1)
  | none => (0, 1)

/-- The supervisor's program copies a valid uncopied dump to flash, unless a bank of it has failed. -/
def copyDump (s : State) : State :=
  let s := readDump s
  if ¬ dumpKept s ∨ fld s.crp.retErr 14 12 ≠ 0 then s
  else
    let (k, n) := nextCopy s
    let a := copySlot k
    let s := flashWrite a (memGetBytes s.mem (retKey dumpBase) (4 * 3071) ++ toBytes 4 n) (eraseFlash a 0x4000 s)
    setRetWord (dumpBase + 3071) (BitVec.ofNat 32 n) s

/-! ### UPDATE records (11 R385) -/

/-- BOOT_UPD_STAT.SRC (11 Table 11.14). -/
def pathCodeU : UpdPath → Nat
  | .none => 0
  | .spi => 1
  | .ws => 2
  | .dfu u => 4 + u.val

def updRecord (kind slot err : Nat) (src : UpdPath) (version : Word) (s : State) : State :=
  postHub 0x12 srcBoot (pack [(kind, 26), (slot % 4, 24), (err, 20), (pathCodeU src, 17), (version.toNat % 65536, 0)]) s

/-! ### Sessions (11 R371 to R373) -/

/-- BOOT_POLICY allows the path. -/
def pathAllowed (s : State) : UpdPath → Bool
  | .none => false
  | .spi => bitOf s.boot.policy 0
  | .ws => bitOf s.boot.policy 1
  | .dfu u => bitOf s.boot.policy (4 + u.val)

/-- A refused command: ERR shows why, nothing else changes (log 28). -/
def updRefuse (err : Nat) (s : State) : State := modBoot (fun b => { b with err := err }) s

/-- The session is over. -/
def updClose (st : UpdState) (err : Nat) (s : State) : State :=
  modBoot (fun b => { b with src := .none, upd := st, busy := false, err := err, unit := none }) s

/-- The session ends without activation. -/
def updEnd (st : UpdState) (err : Nat) (s : State) : State :=
  updClose st err (updRecord 1 (sessionSlot s) err s.boot.src (slotVersion s (sessionSlot s)) s)

/-- BEGIN (R371). -/
def updBegin (path : UpdPath) (length : Nat) (s : State) : State :=
  if s.boot.trial then updRefuse errState s
  else if sessionOpen s then updRefuse errBusy s
  else if ¬ pathAllowed s path then updRefuse errPathOff s
  else if ¬ supUp s ∨ 0x400000 < length then updRefuse errState s
  else
    let s := modBoot (fun b => { b with src := path, upd := .isOpen, busy := false, err := 0, partIdx := 0, units := 0, length := length, unit := none }) s
    updRecord 0 (sessionSlot s) 0 path 0 s

/-- A command of the path that opened the session, none running. -/
def updMay (path : UpdPath) (s : State) : Bool := sessionOpen s && s.boot.src == path && !s.boot.busy && supUp s

/-- WRITE of one 4 KiB unit (R372). -/
def updWrite (path : UpdPath) (off : Nat) (data : List Byte) (s : State) : State :=
  if ¬ updMay path s then updRefuse errState s
  else if off ≠ 4096 * s.boot.units ∨ s.boot.length ≤ off then updRefuse errAddress s
  else if off = 0 ∧ ¬ row1 data then updEnd .failed errFormat s
  else if off = 0 ∧ ¬ row2 data then updEnd .failed errTarget s
  else modBoot (fun b => { b with upd := .writing, busy := true, unit := some (off, data) }) s

/-- The flash has taken the unit, or not. -/
def updWritten (programOk eraseOk : Bool) (s : State) : State :=
  match s.boot.unit with
  | none => s
  | some (off, data) =>
    let first := off % 65536 == 0
    if first && !eraseOk then updEnd .failed errErase s
    else
      let base := slotBase (sessionSlot s) + off
      let s := onlyIf first (eraseFlash base 65536) s
      if ¬ programOk then updEnd .failed errWrite s
      else modBoot (fun b => { b with upd := .isOpen, busy := false, unit := none, units := b.units + 1 }) (flashWrite base data s)

/-- VERIFY (R373). -/
def updVerify (path : UpdPath) (s : State) : State :=
  if ¬ updMay path s then updRefuse errState s
  else if s.boot.units * 4096 < s.boot.length ∨ s.boot.units = 0 then updRefuse errNotdone s
  else modBoot (fun b => { b with upd := .verifying, busy := true }) s

/-- The verification has run. -/
def updVerified (s : State) : State :=
  if s.boot.upd ≠ .verifying then s
  else
    let slot := sessionSlot s
    let s := qspiRead (slotBase slot) s
    match verifySlot s slot (currentRecord s).keyMin (currentRecord s).minRollback with
    | none => updRecord 2 slot 0 s.boot.src (slotVersion s slot) (modBoot (fun b => { b with upd := .verified, busy := false }) s)
    | some (err, i) =>
      let s := updRecord 3 slot err s.boot.src (slotVersion s slot) s
      updEnd .failed err (modBoot (fun b => { b with partIdx := i }) s)

/-- ACTIVATE (R373, R375). -/
def updActivate (path : UpdPath) (reset : Bool) (s : State) : State :=
  if ¬ updMay path s ∨ s.boot.upd ≠ .verified then updRefuse errState s
  else modBoot (fun b => { b with upd := .activating, busy := true, actReset := reset }) s

/-- ABORT. -/
def updAbort (path : UpdPath) (s : State) : State :=
  if s.boot.src ≠ path ∨ ¬ sessionOpen s ∨ s.boot.upd = .activating then updRefuse errState s else updEnd .idle 0 s

/-- A bus reset ends the session of its DFU path (R372). -/
def updBusReset (u : TeamId) (s : State) : State := if s.boot.src = .dfu u ∧ s.boot.upd ≠ .activating then updEnd .idle 0 s else s

/-- The path of a bus master; the supervisor opens none. -/
def pathOf : Master → UpdPath
  | .spi => .spi
  | .ws => .ws
  | _ => .none

/-- The 4 KiB of BOOT_UPD_BUF. -/
def updBuf (s : State) : List Byte := memGetBytes s.mem 0x7000 4096

/-- A write of BOOT_UPD_CMD takes effect (11 Table 11.12). -/
def updCommand (m : Master) (v : Word) (s : State) : State :=
  let path := pathOf m
  match fld v 3 0 with
  | 1 => if path = .none then updRefuse errState s else updBegin path s.boot.arg.toNat s
  | 2 => updWrite path s.boot.arg.toNat (updBuf s) s
  | 3 => updVerify path s
  | 4 => updActivate path (bitOf s.boot.arg 0) s
  | 5 => updAbort path s
  | _ => updRefuse errState s

/-! ### Confirmation (11 R380, R381) -/

/-- The entry of a confirmed release. -/
def confirmedEntry (s : State) : SlotRecord :=
  let m := manifest s s.boot.slot
  let r := currentRecord s
  { r with trial := false, tries := 0, minRollback := max r.minRollback (ofBytes (cut m 0x10 4)), keyMin := max r.keyMin (ofBytes (cut m 0xB 1)) }

/-- The supervisor's program writes the entry of an accepted CONFIRM, once it runs (R381). -/
def writeConfirmed (s : State) : State :=
  if ¬ s.boot.confirmDue ∨ ¬ supUp s then s
  else
    let (ok, s) := writeEntry (confirmedEntry s) true (modBoot (fun b => { b with confirmDue := false }) s)
    if ok then tidySectors (updRecord 7 s.boot.slot 0 .none s.boot.verRun (modBoot (fun b => { b with trial := false, window := 0 }) s)) else s

/-- A CONFIRM while the window runs: the window stops, and firmware writes the confirmed entry. -/
def confirmRelease (s : State) : State := writeConfirmed (modBoot (fun b => { b with confirmDue := true }) (stopWindow s))

/-- The conditions under which the shipped firmware confirms (R380): every weaver has run 10 s without a restart, no major or critical
fault is in the scorecard since the handover, every enabled team with Uu_VBUS valid is configured. -/
def confirmConditions (s : State) : Bool :=
  ((fins 64).all fun p =>
    let c := cpuOf s (.weaver p)
    c.run && c.st != .dead && decide (c.ranAt + 10 * secNow ≤ s.now)) &&
    (s.flt.entries.toList.all fun x => match x with | some x => x.badPar || decide (x.sev < 2 ∨ x.lastAt < s.boot.windowAt) | none => true) &&
    ((fins 4).all fun u => !mustSuspend s u || (s.team u).st == .configured)

/-- The shipped firmware writes CONFIRM as its conditions hold (R380; log 118). -/
def firmwareConfirm (s : State) : State := if s.boot.windowOn ∧ supUp s ∧ confirmConditions s then confirmRelease s else s

/-! ### Registers (11 Tables 11.14, 11.15, 11.17) -/

def updCode : UpdState → Nat
  | .idle => 0
  | .isOpen => 1
  | .writing => 2
  | .verifying => 3
  | .verified => 4
  | .activating => 5
  | .failed => 6

def updStat (b : Boot) : Word :=
  pack [(updCode b.upd, 28), (b2n b.busy, 27), (pathCodeU b.src, 24), (b.err, 20), (b.partIdx, 16), (b.units % 2048, 0)]

def bootTrial (s : State) : Word :=
  let b := s.boot
  pack [(if b.rescue then 2 else b2n b.trial, 30), (b.slotRec.tries % 4, 28), (if b.trial then min 65535 (windowLeft s) else 0, 0)]

def verOther (s : State) : Word :=
  let o := otherSlot s.boot.slot
  if slotMagic s o then slotVersion s o else 0

end Sys2Proof.Machine
end

