-- ==== Sys2Proof/Machine/Registers.lean ====
section
/-!
DEFINITION. Machine/Registers.lean: what a read of each register returns and does, and what an accepted write does, once the
access checks of Machine/Access.lean have passed (chapter 16 and the register cards of each chapter).
-/
namespace Sys2Proof.Machine

/-! ### Words of registers -/

/-- ACC_BUSY (02 Table 2.6). -/
def busyWord (a : Acc) : Word := pack ((fins 10).map fun i => (b2n a.busy[i].isSome, i.val))

/-- ACC_ERR_CAP holds a capture until ACC_ERR_STAT[7:1] are clear (02 R55). -/
def capHeld (a : Acc) : Bool := fld a.errStat 7 1 != 0

/-- CRL_Qq_COUNT and CRL_Qq_STAT (05 Tables 5.14, 5.15). -/
def qCount (x : Queue) : Word := pack [(x.nextSeq.toNat, 16), (min 0xFFFF x.records, 0)]

def qStat (x : Queue) : Word :=
  pack [(b2n x.flushed, 31), (b2n x.ptrReset, 30), (b2n x.noSpace, 29), (b2n x.holdTo, 28), (b2n x.gapOpen, 27), (b2n x.reserve.isSome, 26),
    (b2n (!x.latch.isEmpty), 25), (ownerCode x.holder, 22), (min 0x3FFF x.cells, 0)]

/-- BUD_CNT (06 Table 6.21). -/
def budCnt (b : Bud) : Word := pack [(b.cntWaits, 16), (b.cntReduced, 0)]

/-- CRP_PS_REFUSE (12 Table 12.12). -/
def psRefuse (c : Crp) : Word := pack [(c.refused, 16), (c.refuser, 8), (c.refIndex, 0)]

/-- TILE_CNT (09 Table 9.21). -/
def tileCnt (t : Tile) : Word := pack [(t.postLost, 16), (t.restarts, 0)]

/-- The reading of a tile's replica in ns: it keeps the distance from the counter that its last sync frame found (01 R23; log 166), and the
old count until it has applied a step or set (R276). -/
def replicaNs (t : TileId) (s : State) : Nat :=
  let x := s.tile t
  ((counterNs s : Int) + x.replicaErr + (if replicaLags s x then x.lag else 0)).toNat

/-- TIME_SEC or TIME_NS as a master reads it: a weaver reads its tile's replica, every other master the counter (08 R261). -/
def timeRead (m : Master) (sec : Bool) (s : State) : Word × State :=
  match m with
  | .weaver t =>
    let x := replicaNs t s
    (BitVec.ofNat 32 (if sec then x / nsPerSec else x % nsPerSec), s)
  | _ => (if sec then s.tim.sec else BitVec.ofNat 32 s.tim.ns, s)

/-! ### CRL_Qq_DATA (05 R161, R162) -/

/-- A read of a queue's data word by a master; the read that finds a pointer mismatch takes nothing, since the marker is readable
from t0 + 8 ns (R165). -/
def queueRead (m : Master) (q : QueueId) (s : State) : Word × State :=
  match holderOf m with
  | none => (0, s)
  | some h =>
    if (qOwner s q).isSome then (0, s)
    else
      let found := checkFails s q
      let s := queueCheck q s
      let x := s.queue q
      match x.latch with
      | w :: rest =>
        if x.holder ≠ some h then (0, s)
        else if rest.isEmpty then (w, modQueue q (fun x => { x with latch := [], holder := none, records := x.records - 1 }) s)
        else (w, modQueue q (fun x => { x with latch := rest }) s)
      | [] =>
        if found ∨ listEmpty s q then (0, s)
        else
          let marker := bitOf (cellWord s x.head x.rd) 30
          let n := if marker then 1 else 4
          if (nextWords s n x.head x.rd).any fun w => eccAt s .creel w == some true then (0, resetQueue q true s)
          else
            match popWord q s with
            | none => (0, s)
            | some (w, s) =>
              if marker then (w, gapAfterRead q (modQueue q (fun x => { x with records := x.records - 1 }) s))
              else (w, gapAfterRead q (latchWords q 3 (modQueue q (fun x => { x with holder := some h }) s)))

/-- A write of CRL_Qq_CTL with FLUSH (05 R164). -/
def queueFlush (q : QueueId) (s : State) : State := flushQueue q s

/-! ### Retention RAM (12 R405) -/

/-- CRP_RET_PTR advances by one after each access to CRP_RET_DATA. -/
def stepRetPtr (s : State) : State := modCrp (fun c => { c with retPtr := c.retPtr + 1 }) s

/-- A read of CRP_RET_DATA: corrected, or an uncorrectable word as found. -/
def retRead (s : State) : Word × State :=
  let w := s.crp.retPtr.toNat
  let s := eccFix .retention w s
  (retWord s w, stepRetPtr s)

/-- A write of CRP_RET_DATA; to bank 15 it is discarded, and the pointer advances all the same. -/
def retWrite (v : Word) (s : State) : State :=
  let w := s.crp.retPtr.toNat
  stepRetPtr (if imageBase ≤ w then s else setRetWord w v s)

/-! ### Mailboxes through registers (02 R64 to R66) -/

/-- The parties of a mailbox (02 Table 2.15): the master is its sender, its receiver. -/
def isHost (m : Master) : Bool := m == .spi || m == .ws
def sendsTo (m : Master) (b : Fin 24) : Bool := if b.val < 4 then isHost m else if b.val < 16 then m == .sup else false
def takesFrom (m : Master) (b : Fin 24) : Bool := if b.val < 4 then m == .sup else if b.val < 8 then isHost m else if b.val < 16 then false else m == .sup

/-- After a word has left a box, the oldest word that waits for it enters. -/
def pumpBox (b : Fin 24) (s : State) : State :=
  if h : 16 ≤ b.val then unstall s (pumpUp ⟨b.val - 16, by omega⟩ s)
  else if h : 8 ≤ b.val then pumpDown ⟨b.val - 8, by omega⟩ s
  else s

/-- Take the word of a box: 0 where it is empty (R64). -/
def boxTake (b : Fin 24) (s : State) : Word × State :=
  let m := s.mbx.box[b]
  if m.full then (m.data, pumpBox b (takeBox b s)) else (0, s)

/-- A read of the data register. -/
def boxRead (m : Master) (b : Fin 24) (s : State) : Word × State := if takesFrom m b then boxTake b s else (0, s)

/-- A sender's write of the data register; with FULL it is discarded and sets OVERRUN (R65). -/
def boxWrite (b : Fin 24) (v : Word) (s : State) : State :=
  if s.mbx.box[b].full then modBox b (fun x => { x with overrun := true }) s else storeBox b v none s

/-! ### Reads -/

/-- The value that a read of a register returns, and what the read changes. -/
def regRead (m : Master) (r : Rg) (s : State) : Word × State :=
  match r with
  | .sysId => (0x00641B01#32, s)
  | .accErrStat => (s.acc.errStat, s)
  | .accErrCap => (s.acc.errCap, s)
  | .accErrCap2 => (s.acc.errCap2, s)
  | .accLock => (s.acc.lock, s)
  | .accSemForce => (s.acc.semForce, s)
  | .accBusy => (busyWord s.acc, s)
  | .accSem n => match holderOf m with | some h => semRead h n s | none => (0, s)
  | .mbxTimeout => (s.mbx.timeout, s)
  | .mbxData b => boxRead m b s
  | .mbxStat b => (mbxStat s.mbx.box[b], s)
  | .fltStatHi => (fltStat s.flt true, s)
  | .fltStatLo => (fltStat s.flt false, s)
  | .fltCtl => (s.flt.ctl, s)
  | .fltLost => (fltLost s.flt, s)
  | .fltScIdx => (fltScIdx s.flt, s)
  | .fltSafe => (fltSafe s.flt, s)
  | .fltSupStat => (fltSupStat s.flt, s)
  | .fltSupCmd => (0, s)
  | .fltInj => (s.flt.inj, s)
  | .fltWdog => (s.flt.wdog, s)
  | .fltSwrep => (0, s)
  | .fltLink t => (linkStat s t, s)
  | .fltScE e w => ((entryWords s.flt.entries[e]).getD w.val 0, readEntry e s)
  | .fltSrc n => (s.flt.src[n], s)
  | .crpMode => (s.crp.mode, s)
  | .crpWsAddr => (s.crp.wsAddr.setWidth 32, s)
  | .crpRstCause => (s.crp.rstCause, s)
  | .crpRstCmd => (0, s)
  | .crpPsStat => (psStat s.crp, s)
  | .crpWakeLast => (s.crp.wakeLast, s)
  | .crpPsRefuse => (psRefuse s.crp, modCrp (fun c => { c with refused := 0, refuser := 0, refIndex := 0 }) s)
  | .crpRetErr => (s.crp.retErr, s)
  | .crpWakeCfg => (s.crp.wakeCfg, s)
  | .crpResTime => (s.crp.resTime, s)
  | .crpRetPtr => (s.crp.retPtr.setWidth 32, s)
  | .crpRetData => retRead s
  | .crpPsCmd => (0, s)
  | .timeSec => timeRead m true s
  | .timeNs => timeRead m false s
  | .timStat => (timStat s.tim, s)
  | .timEvt => (s.tim.evt, s)
  | .timRefCfg => (s.tim.refCfg, s)
  | .timServoCfg => (s.tim.servoCfg, s)
  | .timHoldCfg => (s.tim.holdCfg, s)
  | .timLeap => (s.tim.leap, s)
  | .timSetSec => (s.tim.setSec, s)
  | .timSetNs => (s.tim.setNs, s)
  | .timSetCtl => (pack [(b2n s.tim.pending.isSome, 31)], s)
  | .timFreq => (s.tim.freq, s)
  | .timPhase => (timPhase s.tim, s)
  | .timPpsDiff => (s.tim.ppsDiff, s)
  | .timPpsoutCfg => (s.tim.ppsoutCfg, s)
  | .timCorrCfg => (s.tim.corrCfg, s)
  | .timCorrIdx u => (timCorrIdx s u, s)
  | .timCorrE u e w => (timCorrWord s u e w, s)
  | .bootStat => (bootStat s, s)
  | .bootPolicy => (s.boot.policy, s)
  | .updCmd => (0, s)
  | .updArg => (s.boot.arg, s)
  | .updStat => (updStat s.boot, s)
  | .bootTrial => (bootTrial s, s)
  | .bootConfirm => (0, s)
  | .verRun => (s.boot.verRun, s)
  | .verOther => (verOther s, s)
  | .ttcCtl => (s.ttc.ctl, s)
  | .ttcStat => (ttcStat s, s)
  | .ttcShcell => (ttcShcell s, s)
  | .ttcErr => (s.ttc.err, s)
  | .ttcNpnakHi => ((s.ttc.npNak >>> 32).setWidth 32, s)
  | .ttcNpnakLo => (s.ttc.npNak.setWidth 32, s)
  | .ttcPdropCnt => (s.ttc.pdrop, modTtc (fun x => { x with pdrop := 0 }) s)
  | .ttCtl p => (pack [(b2n (s.tt p).resetting, 1)], s)
  | .ttStat p => (ttStat s p, s)
  | .ttCnt p => (ttCnt s p, modTt p (fun x => { x with busErr := 0, npNak := 0 }) s)
  | .crlCtl => (s.crl.ctl, s)
  | .crlStat => (crlStat s, s)
  | .crlErr => (s.crl.err, s)
  | .crlNoroute => (s.crl.noroute, modCrl (fun x => { x with noroute := 0 }) s)
  | .crlCroute c => (s.crl.croute[c], s)
  | .crlPq k => (s.crl.pq[k], s)
  | .qCfg q => ((s.queue q).cfg, s)
  | .qData q => queueRead m q s
  | .qCount q => (qCount (s.queue q), s)
  | .qStat q => (qStat (s.queue q), s)
  | .qCtl _ => (0, s)
  | .qDrop q => ((s.queue q).drop, modQueue q (fun x => { x with drop := 0 }) s)
  | .budCtl => (s.bud.ctl, s)
  | .budGlobal => (s.bud.global, s)
  | .budStat => (budStat s, s)
  | .budCnt => (budCnt s.bud, modBud (fun b => { b with cntWaits := 0, cntReduced := 0 }) s)
  | .budRelay => (s.bud.relay, s)
  | .budGrp g => (s.bud.grp[g], s)
  | .budGrpUsed g => (budGrpUsed s g, s)
  | .budPort p => (budPortReg s p, s)
  | .teamCtl u => ((s.team u).ctl, s)
  | .teamStat u => (teamStat (s.team u), s)
  | .teamTiming u => ((s.team u).timing, s)
  | .teamQmask u => ((s.team u).qmask.setWidth 32, s)
  | .teamPortsLo u => (teamPorts s u 0, s)
  | .teamPortsHi u => (teamPorts s u 1, s)
  | .teamPhyCfg u => ((s.team u).phyCfg, s)
  | .teamPhyStat u => (phyStat (s.team u).phy, s)
  | .grpCfg g => ((s.grp g).cfg, s)
  | .grpThr g => ((s.grp g).thr, s)
  | .grpLim g => ((s.grp g).lim, s)
  | .grpStat g => (grpStat s g, s)
  | .grpMeas g => (grpMeas s g, s)
  | .portTeam p => (portTeamReg s p, s)
  | .portHubstat p => (portHubstat s p, s)
  | .portTcCfg p => ((s.port p).tc.cfg, s)
  | .portTcStat p => (portTcStat s p, s)
  | .portPdCfg p => ((s.port p).pd.cfg, s)
  | .portPdStat p => (portPdStat s p, s)
  | .portCable p => ((s.port p).pd.cable, s)
  | .portPdCnt p => (portPdCnt s p, modPd p (fun d => { d with hardResets := 0, softResets := 0, txFail := 0, rxCrc := 0 }) s)
  | .portPwrCfg p => ((s.port p).pw.pwrCfg, s)
  | .portProtCfg p => ((s.port p).pw.protCfg, s)
  | .portKeeper p => ((s.port p).pw.keeper, s)
  | .portPwrStat p => (portPwrStat s p, s)
  | .portProtFlags p => ((s.port p).pw.flags, s)
  | .portPwrMeas p => (portPwrMeas s p, s)
  | .portSs p => (portSs s p, s)
  | .portPwrCmd p => (pack [(b2n (s.port p).pw.fwOff, 0)], s)
  | .portCurve p k => ((s.port p).pw.curve[k], s)
  | .portPhyCfg p => ((s.port p).hub.phyCfg, s)
  | .portPhyStat p => (phyStat (s.port p).hub.phy, s)
  | .tileCtl t => (BitVec.ofNat 32 (tileRun s t), s)
  | .tileStat t => (tileStat s t, s)
  | .tileEvec t => ((s.tile t).evec, s)
  | .tileMbxCfg t => ((s.tile t).mbxCfg, s)
  | .tileCnt t => (tileCnt (s.tile t), modTile t (fun x => { x with postLost := 0, restarts := 0 }) s)
  | .thrStat t n => (thrStat (s.tile t).thr[n], s)
  | .thrPc t n => ((s.tile t).thr[n].pc &&& 0x7FFF#32, s)

/-! ### Write refusals (02 R500) -/

/-- A write to a register that the value or the register's state refuses. -/
def writeRefused (m : Master) (r : Rg) (v : Word) (s : State) : Bool :=
  match r with
  | .fltInj =>
    let mode := fld v 26 24
    let target := fld v 20 16
    6 ≤ mode || (mode ≤ 1 && (16 ≤ target || (5 ≤ target && target ≤ 7))) || (mode == 2 && 16 < target) || (mode == 5 && 7 < target)
  | .crpRetData => imageBase ≤ s.crp.retPtr.toNat
  | .mbxData b => !sendsTo m b
  | .crpRstCmd => s.flt.safe && (m == .sup || m == .spi)
  | _ => false

/-! ### Writes -/

/-- A W1C write. -/
def w1c (reg v : Word) : Word := reg &&& ~~~v

/-- ACC_ERR_STAT [7:1] all clear: the capture is released (02 R55). -/
def clearAccErr (v : Word) (s : State) : State :=
  modAcc (fun a =>
    let a := { a with errStat := w1c a.errStat v }
    if capHeld a then a else { a with errCap := 0, errCap2 := 0 }) s

/-- CRP_RST_CMD takes effect (10 R346, R348, 13 R428, R430); without the CORE domain there is no supervisor and no tile to reset. -/
def resetCommand (v : Word) (s : State) : State :=
  if bitOf v 16 then chipReset rstCmd s
  else if ¬ coreUp s then s
  else
    let s := if bitOf v 8 then (if s.flt.safe then coldSup (supPartyReset s) else warmRestart wrCommanded false s) else s
    forEach (fins 8) (fun t s => if bitOf v t.val then tileReset t s else s) s

/-- FLT_SUP_CMD.DONE: m6 (13 R432, R436). -/
def supDone (s : State) : State :=
  if s.flt.inWr ∧ s.flt.m5 ∧ ¬ s.flt.safe then modFlt (fun f => { f with inWr := false, m5 := false, warm := false }) s else s

/-- FLT_INJ is written: mode 4 spoils the complement of FLT_CTL, which the collector finds at once (13 R426, R427). -/
def writeInj (v : Word) (s : State) : State :=
  let s := modFlt (fun f => { f with inj := v &&& 0x871F0000#32, injC := ~~~(v &&& 0x871F0000#32) }) s
  if bitOf v 31 ∧ fld v 26 24 = 4 then
    collectorCheck (spoilCopy 0x40 (injDone s))
  else s

/-- FLT_SWREP is written (13 Table 13.18, R447). -/
def swReport (v : Word) (s : State) : State :=
  let s := raise fSw (v &&& 0x8000FFFF#32) s
  if bitOf v 31 then hwDump 4 22 (fld v 15 0) false s else s

/-- CRP_PS_CMD.RETRY while STATE is 7: a new pair of attempts (12 R410). -/
def retryWake (s : State) : State :=
  if s.crp.st = .wakeFailed then modPwr (fun x => { x with wakeFailed := true }) (raiseCore s) else s

/-- BOOT_CONFIRM: outside the window it sets LOCK_ERR, which the access layer does (11 R382); here the window runs. -/
def confirmWrite (v : Word) (s : State) : State := if bitOf v 0 ∧ s.boot.windowOn then confirmRelease s else s

/-- BUD_PORTn: PRIO unless locked, and HOLD, which the arbiter replaces at its next decision (06 R226, 02 R53). -/
def writeBudPort (p : PortId) (v : Word) (s : State) : State :=
  modBp p (fun b => { b with hold := v.setWidth 16, prio := if bitOf s.acc.lock 8 then b.prio else BitVec.ofNat 8 (fld v 31 24) }) s

/-- PORT_TC_CFG: TC_EN takes effect at once (06 R225). -/
def writeTcCfg (p : PortId) (v : Word) (s : State) : State :=
  let was := tcEn s p
  let s := modTc p (fun t => { t with cfg := v &&& 0x0000E33F#32 }) s
  if was != tcEn s p then setTcEn p s else s

/-- PORT_PD_CFG: PD_EN and ST_EN take effect at once (06 R225, R220). -/
def writePdCfg (p : PortId) (v : Word) (s : State) : State :=
  let pd := pdEn s p
  let st := stEn s p
  let s := modPd p (fun d => { d with cfg := v &&& 0xF0FF13FF#32 }) s
  let s := if ¬ pdEn s p then disablePd p s else if pd then s else onLate p .pdEn s
  onlyIf (st != stEn s p) (onLate p .stEn) s

/-- PORT_PWR_CMD: the clears, then FW_OFF (07 Table 7.21). -/
def writePwrCmd (p : PortId) (v : Word) (s : State) : State :=
  let s := if bitOf v 2 then clearPfet p s else s
  let s := if bitOf v 1 then endLatch p s else s
  let was := (s.port p).pw.fwOff
  if bitOf v 0 ∧ ¬ was then fwOffOn p s else if was ∧ ¬ bitOf v 0 then fwOffClear p s else s

/-- PORT_KEEPER: in the safe state only PATH = none is accepted (07 R237, 13 R429); the KEEPER event follows (09 Table 9.8). -/
def keeperTake (p : PortId) (v : Word) (s : State) : State := latchEv p 0x800#32 (writeKeeper p v none s)

/-- What a keeper write meets in the safe state. -/
def keeperBarred (s : State) (v : Word) : Bool := s.flt.safe && fld v 31 30 != 0

/-- TEAM_CTL: an enable or a disable; ports whose Rp the disable gives back present it (03 R73, R74, R108). -/
def writeTeamCtl (u : TeamId) (v : Word) (s₀ : State) : State :=
  let s := setTeamCtl u v s₀
  forEach ((fins 64).filter fun p => (s₀.port p).hub.rpOff && !(s.port p).hub.rpOff) followPower s

/-- PORT_TEAM: a move, and what Rp follows it (03 R109, R110). -/
def writeTeamReg (p : PortId) (v : Word) (s₀ : State) : State :=
  let s := writePortTeam p v s₀
  if (s₀.port p).hub.rpOff && !(s.port p).hub.rpOff then followPower p s else s

/-- GRP_CFG: a feed that FEED_EN = 0 switches off takes PD with it (07 R234); class B ports recompute their want (R235). -/
def takeGrpCfg (g : TileId) (v : Word) (s₀ : State) : State :=
  let s := writeGrpCfg g v s₀
  let s := if feedUp s₀ g && !feedUp s g then feedLost g s else s
  forEach (portsOf g) (fun p s => if classB s p then rewant p s else s) s

/-- The effect of an accepted write on its register. -/
def regWrite (m : Master) (r : Rg) (v : Word) (s : State) : State :=
  match r with
  | .accErrStat => clearAccErr v s
  | .accLock => modAcc (fun a => { a with lock := a.lock ||| (v &&& 0x7FF#32) }) s
  | .accSemForce =>
    let s := modAcc (fun a => { a with semForce := v &&& 0xF#32 }) s
    if bitOf v 4 then semForce (Fin.ofNat 16 (fld v 3 0)) s else s
  | .accSem n => match holderOf m with | some h => semWrite h n v s | none => s
  | .mbxTimeout => modMbx (fun x => { x with timeout := v &&& 0x13FF#32 }) s
  | .mbxData b => boxWrite b v s
  | .mbxStat b => modBox b (clearBox v) s
  | .fltStatHi => modFlt (fun f => { f with stat := f.stat &&& ~~~(v.setWidth 64 <<< 32) }) s
  | .fltStatLo => modFlt (fun f => { f with stat := f.stat &&& ~~~(v.setWidth 64) }) s
  | .fltCtl => modFlt (fun f => { f with ctl := v &&& 0xFFFFF0FF#32, ctlC := ~~~(v &&& 0xFFFFF0FF#32) }) s
  | .fltLost => if bitOf v 31 then modFlt (fun f => { f with lostFlag := false, lostCount := 0 }) s else s
  | .fltSafe => if bitOf v 0 then modFlt (fun f => { f with scPar := false }) s else s
  | .fltSupCmd => if bitOf v 0 then supDone s else s
  | .fltInj => writeInj v s
  | .fltWdog => modFlt (fun f => { f with wdog := v &&& 0xFFFFF0FF#32, wdogC := ~~~(v &&& 0xFFFFF0FF#32) }) s
  | .fltSwrep => swReport v s
  | .fltSrc n => modFlt (fun f => { f with src := f.src.set n (v &&& 0xDF#32), srcC := f.srcC.set n (~~~(v &&& 0xDF#32)) }) s
  | .crpMode => modCrp (fun c => { c with mode := v &&& 7#32 }) s
  | .crpWsAddr => modCrp (fun c => { c with wsAddr := v.setWidth 7 }) s
  | .crpRstCause => modCrp (fun c => { c with rstCause := w1c c.rstCause (v &&& 0x7F#32) }) s
  | .crpRstCmd => resetCommand v s
  | .crpRetErr => modCrp (fun c => { c with retErr := w1c c.retErr v }) s
  | .crpWakeCfg => modCrp (fun c => { c with wakeCfg := v &&& 0xF#32 }) s
  | .crpRetPtr => modCrp (fun c => { c with retPtr := v.setWidth 14 }) s
  | .crpRetData => retWrite v s
  | .crpPsCmd => if bitOf v 0 then retryWake s else s
  | .timEvt => modTim (fun t => { t with evt := w1c t.evt v }) s
  | .timRefCfg => writeRefCfg v s
  | .timServoCfg => modTim (fun t => { t with servoCfg := v }) s
  | .timHoldCfg => modTim (fun t => { t with holdCfg := v }) s
  | .timLeap => modTim (fun t => { t with leap := v &&& 0xC000FFFF#32 }) s
  | .timSetSec => modTim (fun t => { t with setSec := v }) s
  | .timSetNs => modTim (fun t => { t with setNs := v &&& 0x3FFFFFFF#32 }) s
  | .timSetCtl => setCommand (fld v 1 0) s
  | .timFreq => writeFreq v s
  | .timPpsoutCfg => modTim (fun t => { t with ppsoutCfg := v &&& 0xE00FFFFF#32 }) s
  | .timCorrCfg => modTim (fun t => { t with corrCfg := v &&& 7#32 }) s
  | .bootPolicy => modBoot (fun b => { b with policy := v &&& 0xF3#32 }) s
  | .updCmd => updCommand m v s
  | .updArg => modBoot (fun b => { b with arg := v }) s
  | .bootConfirm => confirmWrite v s
  | .ttcCtl => modTtc (fun x => { x with ctl := v &&& 0x00FF1F1F#32 }) s
  | .ttcErr => modTtc (fun x => { x with err := w1c x.err v }) s
  | .ttCtl p =>
    -- STOP, then RESET (log 161)
    let s := if bitOf v 0 then stopTt p s else s
    if bitOf v 1 then resetTt p s else s
  | .crlCtl => modCrl (fun x => { x with ctl := v &&& 0x101#32 }) s
  | .crlErr => modCrl (fun x => { x with err := w1c x.err v }) s
  | .crlCroute c => modCrl (fun x => { x with croute := x.croute.set c (v &&& 0x18F#32) }) s
  | .crlPq k => modCrl (fun x => { x with pq := x.pq.set k v }) s
  | .qCfg q => configQueue q v s
  | .qStat q =>
    modQueue q (fun x => { x with
      flushed := x.flushed && !bitOf v 31, ptrReset := x.ptrReset && !bitOf v 30, noSpace := x.noSpace && !bitOf v 29
      holdTo := x.holdTo && !bitOf v 28 }) s
  | .qCtl q => if bitOf v 0 then queueFlush q s else s
  | .budCtl => modBud (fun b => { b with ctl := v &&& 0xFFF1#32 }) s
  | .budGlobal => settle (modBud (fun b => { b with global := v &&& 0xFFFF#32 }) s)
  | .budRelay => modBud (fun b => { b with relay := v &&& 0xFF#32 }) s
  | .budGrp g => settle (modBud (fun b => { b with grp := b.grp.set g (v &&& 0x00FFFFFF#32) }) s)
  | .budPort p => writeBudPort p v s
  | .teamCtl u => writeTeamCtl u v s
  | .teamTiming u => modTeam u (fun t => { t with timing := v &&& 0x3FF#32 }) s
  | .teamQmask u => stationWake u (setQmask u (v.setWidth 16) s)
  | .teamPhyCfg u => modTeam u (fun t => { t with phyCfg := v &&& 0x37F#32, phy := phyCfgWritten v t.phy }) s
  | .grpCfg g => takeGrpCfg g v s
  | .grpThr g => modGrp g (fun x => { x with thr := v &&& 0x3FFFFFFF#32 }) s
  | .grpLim g => modGrp g (fun x => { x with lim := v }) s
  | .grpStat g => modGrp g (fun x => { x with flags := x.flags &&& ~~~(v.setWidth 8 &&& 0xFC#8) }) s
  | .portTeam p => writeTeamReg p v s
  | .portTcCfg p => writeTcCfg p v s
  | .portPdCfg p => writePdCfg p v s
  | .portPwrCfg p => modPw p (fun w => { w with pwrCfg := v &&& 0xFFFCFFFF#32 }) s
  | .portProtCfg p => modPw p (fun w => { w with protCfg := v &&& 0xFFFFFFF3#32 }) s
  | .portKeeper p => keeperTake p v s
  | .portProtFlags p => modPw p (fun w => { w with flags := w1c w.flags v }) s
  | .portPwrCmd p => writePwrCmd p v s
  | .portCurve p k => modPw p (fun w => { w with curve := w.curve.set k (v &&& 0x7FEFFFFF#32) }) s
  | .portPhyCfg p => modHub p (fun h => { h with phyCfg := v &&& 0x37F#32, phy := phyCfgWritten v h.phy }) s
  | .tileCtl t => writeTileCtl t v s
  | .tileEvec t => modTile t (fun x => { x with evec := v &&& 0x7C00#32 }) s
  | .tileMbxCfg t => modTile t (fun x => { x with mbxCfg := v &&& 0x11F#32 }) s
  | .sysId | .accErrCap | .accErrCap2 | .accBusy | .fltScIdx | .fltSupStat | .fltLink _ | .fltScE _ _ | .crpPsStat | .crpWakeLast | .crpPsRefuse
  | .crpResTime | .timeSec | .timeNs | .timStat | .timPhase | .timPpsDiff | .timCorrIdx _ | .timCorrE _ _ _ | .bootStat | .updStat | .bootTrial
  | .verRun | .verOther | .ttcStat | .ttcShcell | .ttcNpnakHi | .ttcNpnakLo | .ttcPdropCnt | .ttStat _ | .ttCnt _ | .crlStat | .crlNoroute
  | .qData _ | .qCount _ | .qDrop _ | .budStat | .budCnt | .budGrpUsed _ | .teamStat _ | .teamPortsLo _ | .teamPortsHi _ | .teamPhyStat _
  | .grpMeas _ | .portHubstat _ | .portTcStat _ | .portPdStat _ | .portCable _ | .portPdCnt _ | .portPwrStat _ | .portPwrMeas _ | .portSs _
  | .portPhyStat _ | .tileStat _ | .tileCnt _ | .thrStat _ _ | .thrPc _ _ => s

end Sys2Proof.Machine
end

