-- ==== Sys2Proof/Machine/Access.lean ====
section
/-!
DEFINITION. Machine/Access.lean: register and window accesses by the masters: permission, alignment, width, lock, guard, busy
(02 R34 to R60), the SPI and wake-serial targets (R38 to R46, R501) and the loss of a management path (R56).
-/
namespace Sys2Proof.Machine

/-! ### Access errors (02 R55) -/

/-- MASTER and TILE_HI of a capture (02 Tables 2.9 and 2.10). -/
def masterCode : Master → Nat × Nat
  | .sup => (1, 0)
  | .spi => (2, 0)
  | .ws => (3, 0)
  | .weaver t => if t.val < 4 then (4 + t.val, 0) else (0, t.val)

/-- A bit of ACC_ERR_STAT sets, with its capture or OVERFLOW, and the error line reports. -/
def accErr (bit : Nat) (m : Master) (write : Bool) (a : Nat) (s : State) : State :=
  let s :=
    if capHeld s.acc then modAcc (fun x => { x with errStat := orBit (orBit x.errStat bit) 0 }) s
    else
      modAcc (fun x => { x with
        errStat := orBit x.errStat bit
        errCap := pack [(bit, 28), (b2n write, 27), ((masterCode m).1, 24), (a % 2 ^ 24, 0)]
        errCap2 := pack [(1, 3), ((masterCode m).2, 0)] }) s
  raise fAcc s.acc.errCap s

def errAccess : Nat := 1
def errLock : Nat := 2
def errGuard : Nat := 3
def errPost : Nat := 4
def errDecode : Nat := 5
def errAlign : Nat := 6
def errFrame : Nat := 7

/-! ### Places -/

/-- What the address names for this master; a block of an isolated tile is unmapped (13 R443). -/
def placeFor (m : Master) (write : Bool) (a : Nat) (s : State) : Place :=
  if ¬ permitted m write a then .none
  else
    match tileOfAddr a with
    | some t => if (s.tile t).link.isolated && m != .weaver t then .none else placeAt a
    | none => placeAt a

/-- A register of the block is locked against this write (02 R53). -/
def isLocked (s : State) (r : Rg) : Bool :=
  match r.lockBit with
  | some b => bitOf s.acc.lock b && !(s.boot.rescue && r == .bootPolicy)
  | none => false

/-- LOCK_ERR on a register whose lock acts per field, or whose state bars the write (02 R53, 11 R382, 13 R429). -/
def barred (s : State) (r : Rg) (v : Word) : Bool :=
  match r with
  | .portKeeper _ => keeperBarred s v
  | .bootConfirm => bitOf v 0 && !s.boot.windowOn
  | _ => false

/-- The locked field PRIO is given a new value; HOLD is written all the same (02 R53). -/
def prioLocked (s : State) (r : Rg) (v : Word) : Bool :=
  match r with
  | .budPort p => bitOf s.acc.lock 8 && fld v 31 24 != fld (budPortReg s p) 31 24
  | _ => false

/-- The register is local to this master's tile (02 R48). -/
def isLocal (m : Master) (a : Nat) : Bool := match m with | .weaver t => tileOfAddr a == some t | _ => false

/-- A posted write of this master to this register. -/
def isPosted (m : Master) (r : Rg) (a : Nat) : Bool := r.posted && !isLocal m a

/-- The BUSY flag that covers the register reads 1, for every master (02 R49, 16 R488); TIM_BUSY covers TIM's P registers only (02 R49, Table 2.5). -/
def busyAt (s : State) (r : Option Rg) (a : Nat) : Bool :=
  match busyOf a with
  | none => false
  | some i => s.acc.busy[i].isSome && (i != 8 || match r with | some r => r.posted | none => false)

/-! ### Windows (16 Table 16.14, 05 R150, 09 R298) -/

/-- Device key, ECC memory and word of a window's address. -/
def windowWord (w : Window) (a : Nat) : Option (EccMem × Nat) :=
  match w with
  | .updBuf => none
  | .tileProg t => some (.tileProg t, (a % 0x20000) / 4)
  | .tileData t => some (.tileData t, (a % 0x20000 - 0x10000) / 4)
  | .tcm => if a < 0x460000 then some (.codeTcm, (a - 0x400000) / 4) else some (.dataTcm, (a - 0x460000) / 4)
  | .creel => some (.creel, (a - 0x800000) / 4)

/-- A word read through a window, after ECC correction. -/
def windowRead (w : Window) (a : Nat) (s : State) : Word × State :=
  match windowWord w a with
  | some (m, k) => let s := eccFix m k s; (memWord s.mem a, s)
  | none => (memWord s.mem a, s)

/-- The window refuses writes (02 R500). -/
def windowRefused (w : Window) (s : State) : Bool :=
  match w with
  | .tileProg t => tileRun s t != 0
  | .creel => !bitOf s.crl.ctl 8
  | _ => false

def windowWrite (w : Window) (a : Nat) (v : Word) (s : State) : State :=
  let s := { s with mem := memPutWord s.mem a v }
  match windowWord w a with
  | some (m, k) => eccStore m k s
  | none => s

/-! ### Guarded pairs (02 R50 to R52) -/

/-- A pair is broken: GUARD_ERR; its complement, when it still comes, is ignored (02 R50, Table 2.11; log 126). -/
def breakPair (h : HeldWord) (s : State) : State :=
  accErr errGuard h.master true h.addr
    (modAcc (fun x => { x with held := x.held.map fun y => if y = h then { y with refused := true } else y }) s)

/-- An access to a block breaks the guarded pair that waits in it, unless it is that pair's complement. -/
def touchBlock (m : Master) (write : Bool) (a : Nat) (s : State) : State :=
  match s.acc.held.find? fun h => !h.refused && blockOf h.addr == blockOf a && !(write && h.master == m && a == h.addr + 4) with
  | some h => breakPair h s
  | none => s

/-- The value word of this master at this address waits no more. -/
def dropHeld (m : Master) (a : Nat) (s : State) : State :=
  modAcc (fun x => { x with held := x.held.filter fun y => !(y.addr == a && y.master == m) }) s

/-! ### Writes -/

/-- A write reaches its register: refused there (R500), or carried out. -/
def applyWrite (m : Master) (r : Rg) (a : Nat) (v : Word) (s : State) : Verdict × State :=
  if writeRefused m r v s then (.value, accErr errDecode m true a s) else (.ok, allEv (regWrite m r v) s)

/-- A posted write completes in its domain, and the BUSY flag clears (02 R48, R500). -/
def postedDone (i : Fin 10) (s₀ : State) : State :=
  match s₀.acc.busy[i] with
  | none => s₀
  | some w =>
    let s := modAcc (fun x => { x with busy := x.busy.set i none }) s₀
    let s :=
      match regAt w.addr with
      | some r =>
        if writeRefused w.master r w.value s then
          accErr errDecode w.master true w.addr (if r = .crpRetData then stepRetPtr s else s)
        else forEach (fins 64) (notePort s) (regWrite w.master r w.value s)
      | none => s
    noteSup s₀ s

/-- A checked write goes to its register, or on its way to its domain (02 R48). A guarded pair can meet a flag that another master set
after the pair's value word: the earlier write then completes first (log 125). -/
def takeWrite (m : Master) (r : Rg) (a : Nat) (v : Word) (s : State) : Verdict × State :=
  if isPosted m r a then
    match busyOf a with
    | some i => (.ok, modAcc (fun x => { x with busy := x.busy.set i (some { addr := a, value := v, master := m }) }) (postedDone i s))
    | none => applyWrite m r a v s
  else
    let l := prioLocked s r v
    let (x, s) := applyWrite m r a v s
    if l then (.locked, accErr errLock m true a s) else (x, s)

/-- Lock and busy checks of a write to a register (02 R49, R53). -/
def checkWrite (m : Master) (r : Rg) (a : Nat) (v : Word) (s : State) : Verdict × State :=
  if isLocked s r ∨ barred s r v then (.locked, accErr errLock m true a s)
  else if busyAt s (some r) a then (.busy, accErr errPost m true a s)
  else (.ok, s)

/-- A write of the complement word: it completes the pair that waits; of a pair already broken or refused it is ignored; with no
value word before it the address is unmapped (02 R50, 16 R486). -/
def complementWrite (m : Master) (r : Rg) (a : Nat) (v : Word) (s : State) : Verdict × State :=
  match s.acc.held.find? fun h => h.addr + 4 == a && h.master == m with
  | none => (.decode, accErr errDecode m true a s)
  | some h =>
    let s := dropHeld m h.addr s
    if h.refused then (.ok, s)
    else if v = ~~~h.value then takeWrite m r h.addr h.value s
    else (.guard, accErr errGuard m true h.addr s)

/-- A write of one aligned word by a master of the internal bus. DESIGN CHOICE (log 119): an access to an unmapped address inside a
block reaches no register of it and does not break a guarded pair that waits there (R52 leaves it open). -/
def wordWrite (m : Master) (a : Nat) (v : Word) (s : State) : Verdict × State :=
  match placeFor m true a s with
  | .none => (.decode, accErr errDecode m true a s)
  | .comp r => complementWrite m r a v (touchBlock m true a s)
  | .win w =>
    let s := touchBlock m true a s
    if busyAt s none a then (.busy, accErr errPost m true a s)
    else if windowRefused w s then (.value, accErr errDecode m true a s)
    else (.ok, windowWrite w a v s)
  | .reg r =>
    let s := touchBlock m true a s
    let (x, s) := checkWrite m r a v s
    if r.guarded then
      (x, modAcc (fun y => { y with held := y.held ++ [{ addr := a, value := v, master := m, refused := x != .ok }] }) (dropHeld m a s))
    else if x = .ok then takeWrite m r a v s
    else (x, s)

/-- The locked pair of an SPI Guarded write or an eight-byte wake-serial write (02 R51). -/
def lockedPair (m : Master) (a : Nat) (v c : Word) (s : State) : Verdict × State :=
  match placeFor m true a s with
  | .reg r =>
    if ¬ r.guarded then (.guard, accErr errGuard m true a s)
    else
      let s := touchBlock m true a s
      let (x, s) := checkWrite m r a v s
      if x ≠ .ok then (x, s)
      else if c ≠ ~~~v then (.guard, accErr errGuard m true a s)
      else takeWrite m r a v s
  | .win _ => (.guard, accErr errGuard m true a s)
  | _ => (.decode, accErr errDecode m true a s)

/-- A plain write from SPI or wake serial: to a guarded register it carries the value word alone (02 R44, R51). -/
def plainWrite (m : Master) (a : Nat) (v : Word) (s : State) : Verdict × State :=
  match placeFor m true a s with
  | .reg r => if r.guarded then (.guard, accErr errGuard m true a (touchBlock m true a s)) else wordWrite m a v s
  | _ => wordWrite m a v s

/-! ### Reads -/

/-- A read of one aligned word; a complement word is unmapped for a read (16 R486). -/
def wordRead (m : Master) (a : Nat) (s : State) : Verdict × Word × State :=
  match placeFor m false a s with
  | .none => (.decode, 0, accErr errDecode m false a s)
  | .comp _ => (.decode, 0, accErr errDecode m false a (touchBlock m false a s))
  | .win w =>
    let (v, s) := windowRead w a (touchBlock m false a s)
    (.ok, v, s)
  | .reg r =>
    let s₁ := touchBlock m false a s
    let (v, s₂) := regRead m r s₁
    (.ok, v, noteSup s₁ s₂)

/-! ### PSI masters (02 R58 to R60) -/

def widthBytes : Width → Nat
  | .byte => 1
  | .half => 2
  | .word => 4
  | .dbl => 8

/-- A store by a PSI master: low word and, for 64 bits, high word. DESIGN CHOICE (log 120): the high half is not made after the low
half was refused as unmapped (R60 leaves it open). A refusal of the high half that raises an exception undoes the low half: an exception
completes no part of its instruction (09 R329). -/
def psiWrite (m : Master) (w : Width) (a : Nat) (lo hi : Word) (s : State) : Verdict × State :=
  if a % widthBytes w ≠ 0 then (.align, s)
  else
    match w with
    | .word => wordWrite m a lo s
    | .dbl =>
      let (x, s₁) := wordWrite m a lo s
      if x = .decode then (x, s₁)
      else
        let (y, s₂) := wordWrite m (a + 4) hi s₁
        if y = .decode then wordWrite m (a + 4) hi s else (y, s₂)
    | _ =>
      match placeFor m true a s with
      | .none => (.decode, accErr errDecode m true a s)
      | .comp _ => (.decode, accErr errDecode m true a (touchBlock m false a s))
      | _ => (.narrow, accErr errAccess m true a (touchBlock m true a s))

/-- Byte lanes of a narrow read. -/
def lanes (w : Width) (a : Nat) (v : Word) : Word :=
  match w with
  | .byte => (v >>> (8 * (a % 4))) &&& 0xFF#32
  | .half => (v >>> (8 * (a % 4))) &&& 0xFFFF#32
  | _ => v

/-- A load by a PSI master: low word and high word. DESIGN CHOICE (log 122): a narrow read captures the address of its word, which
the full read of R59 accesses (R55 leaves it open); the high half is not made after a refused low half (log 120),
and a refused high half undoes the low one (09 R329). -/
def psiRead (m : Master) (w : Width) (a : Nat) (s : State) : Verdict × Word × Word × State :=
  if a % widthBytes w ≠ 0 then (.align, 0, 0, s)
  else
    let (x, v, s₁) := wordRead m (a / 4 * 4) s
    if w = .dbl ∧ x = .ok then
      let (y, u, s₂) := wordRead m (a + 4) s₁
      if y = .ok then (y, v, u, s₂) else (y, v, u, (wordRead m (a + 4) s).2.2)
    else (x, lanes w a v, 0, s₁)

/-! ### Loss of a management path (02 R56) -/

/-- MGMT reports. -/
def pathLost (ws : Bool) (cause : Nat) (s : State) : State :=
  let s := if ws then modWs (fun x => { x with lost := true, badCounts := 0 }) s else modSpi (fun x => { x with lost := true, badFrames := 0 }) s
  raise fMgmt (pack [(b2n ws, 8), (cause, 0)]) s

/-- A transaction of the path ended in a framing failure, or completed. DESIGN CHOICE (log 121): every transaction of right framing
completes normally for R56, also one that is refused, NACKed or answered PENDING. -/
def noteFrame (ws bad : Bool) (s : State) : State :=
  if ws then
    if bad then
      let s := modWs (fun x => { x with badCounts := x.badCounts + 1 }) s
      if 16 ≤ s.ws.badCounts ∧ ¬ s.ws.lost then pathLost true 2 s else s
    else modWs (fun x => { x with badCounts := 0, lost := false }) s
  else if bad then
    let s := modSpi (fun x => { x with badFrames := x.badFrames + 1 }) s
    if 16 ≤ s.spi.badFrames ∧ ¬ s.spi.lost then pathLost false 2 s else s
  else modSpi (fun x => { x with badFrames := 0, lost := false }) s

/-! ### The SPI target (02 R38 to R42) -/

/-- SPI transactions are served (10 Table 10.13, 12 R393). -/
def spiUp (s : State) : Bool := clocksRun s

/-- Table 2.3. -/
def spiCode : Verdict → Byte
  | .ok => 0x00
  | .value => 0x00
  | .busy => 0x02
  | .align => 0x03
  | .decode => 0x04
  | .locked => 0x05
  | .guard => 0x06
  | .narrow => 0x06

def spiPending : Byte := 0x01
def spiBadcmd : Byte := 0x07
def spiFrame : Byte := 0x08

/-- A transaction ends with a status; it shifted out the previous status, then these bytes. -/
def spiEnd (st : Byte) (out : List Byte) (s : State) : State := modSpi (fun x => { x with first := x.status, status := st, out := out }) s

/-- The address is unmapped for a transaction that is judged before its alignment (R40, 16 R486). -/
def unmapped (m : Master) (write : Bool) (a : Nat) (s : State) : Bool :=
  match placeFor m write a s with
  | .none => true
  | .comp _ => a % 4 != 0
  | _ => false

/-- A Write or Guarded write transaction around its access. -/
def spiStore (a : Nat) (f : State → Verdict × State) (s : State) : State :=
  if ¬ spiUp s then s
  else
    let s := noteFrame false false s
    if s.spi.pending.isSome then spiEnd spiPending [] s
    else if unmapped .spi true a s then spiEnd (spiCode .decode) [] (accErr errDecode .spi true a s)
    else if a % 4 ≠ 0 then spiEnd (spiCode .align) [] (accErr errAlign .spi true a s)
    else
      let (x, s) := f s
      modAcc (fun y => { y with answer := x }) (spiEnd (spiCode x) [] s)

/-- A read that completes: status and data stand for Read result. -/
def spiDone (x : Verdict) (v : Word) (s : State) : State :=
  modAcc (fun y => { y with answer := x, data := v })
    (modSpi (fun y => { y with pending := none, lastStatus := spiCode x, lastData := v }) s)

/-- The bytes of an answer: status, then the data. -/
def spiAnswer (st : Byte) (v : Word) (s : State) : State := spiEnd st (st :: msbBytes v) s

/-- A read by a master outside the tile whose frames are lost while the spare replaces the tile's control channel (01 R14, R15). -/
def readLost (m : Master) (a : Nat) (s : State) : Bool :=
  match tileOfAddr a with
  | some t =>
    !isLocal m a && laneSwitching s t laneControl && (match regAt (a / 4 * 4) with | some r => r.slow | none => (windowAt a).isSome)
  | none => false

/-- A register whose read may be PENDING: of the RIM domain, or of a tile domain, certainly while the tile is not ready
(R41, 10 Table 10.13). -/
def readWaits (a : Nat) (s : State) : Bool × State :=
  if readLost .spi a s then (true, s) else
  match regAt a with
  | some r =>
    if ¬ r.slow then (false, s)
    else
      match tileOfAddr a with
      | some t => if (s.tile t).ready then drawBool s else (true, s)
      | none => drawBool s
  | none =>
    match windowAt a, tileOfAddr a with
    | some _, some t => if (s.tile t).ready then drawBool s else (true, s)
    | _, _ => (false, s)

/-- A Read transaction. -/
def spiLoad (a : Nat) (s : State) : State :=
  if ¬ spiUp s then s
  else
    let s := noteFrame false false s
    if s.spi.pending.isSome then
      let (w, s) := drawWord s
      spiAnswer spiPending w s
    else if unmapped .spi false a s then
      let (_, v, s) := wordRead .spi a s
      spiAnswer (spiCode .decode) v (spiDone .decode v s)
    else if a % 4 ≠ 0 then
      let (w, s) := drawWord (accErr errAlign .spi false a s)
      spiAnswer (spiCode .align) w (spiDone .align w s)
    else
      let (waits, s) := readWaits a s
      if waits then
        let (w, s) := drawWord (modSpi (fun x => { x with pending := some (BitVec.ofNat 24 a) }) s)
        spiAnswer spiPending w s
      else
        let (x, v, s) := wordRead .spi a s
        spiAnswer (spiCode x) v (spiDone x v s)

/-- The bit count of Table 2.2. -/
def spiBits (code : Byte) : Option Nat :=
  match code.toNat with
  | 0x02 => some 64
  | 0x0A => some 96
  | 0x0B => some 80
  | 0x0D => some 56
  | 0x05 => some 32
  | _ => none

/-- FRAME_ERR with the capture's address and direction left open where the transaction carried none whole (log 30). -/
def spiFramingError (write : Bool) (st : Byte) (s : State) : State :=
  let (w, s) := drawWord s
  noteFrame false true (spiEnd st [] (accErr errFrame .spi write w.toNat s))

/-! ### The wake-serial target (02 R43 to R46, R501) -/

/-- The target answers: from t1 on for the RIM window (10 Table 10.13). -/
def wsUp (s : State) : Bool := s.pwr.phase != .vrimOff && s.pwr.phase != .rimReset

/-- The domain of the addressed register is powered (R46): the rim, a tile once switched on, the hub die from its reset release on;
SLEEP removes no supply, and an access then is served (12 R400). -/
def domainUp (a : Nat) (s : State) : Bool :=
  if 0x4800 ≤ a ∧ a < 0x5000 then true
  else
    coreUp s &&
      (match tileOfAddr a with
      | some t => if 0x100000 ≤ a ∧ a < 0x140000 ∧ a % 0x1000 < 0x10 then true else (s.tile t).on
      | none => true)

def wsEnd (n : WsNack) (out : List Byte) (s : State) : State := modWs (fun x => { x with nack := n, out := out, answers := true }) s

/-- A transaction refused for its byte count: ACCESS_ERR (R44, R501). DESIGN CHOICE (log 124): the bit is set also while the CORE
domain is not powered, where the refusal of a bad address sets none. -/
def wsCount (n : WsNack) (a : Nat) (s : State) : State := noteFrame true true (wsEnd n [] (accErr errAccess .ws true a s))

/-- NACK of the last data byte (R44). -/
def wsNackOf : Verdict → WsNack
  | .ok => .none
  | .value => .none
  | _ => .lastData

/-- The end of a write transaction that reached its access. -/
def wsStored (r : Verdict × State) : State := modAcc (fun y => { y with answer := r.1 }) (noteFrame true false (wsEnd (wsNackOf r.1) [] r.2))

/-- Data bytes to one address (R44, R501). -/
def wsData (a : Nat) (data : List Byte) (stop : Bool) (s : State) : State :=
  let guarded := match placeAt a with | .reg r => r.guarded | _ => false
  if data.isEmpty then (if stop then wsCount .none a s else noteFrame true false (wsEnd .none [] s))
  else if ¬ domainUp a s then noteFrame true false (wsEnd .firstData [] s)
  else if guarded then
    if data.length = 8 then wsStored (lockedPair .ws a (ofMsb (data.take 4)) (ofMsb (data.drop 4)) s)
    else if data.length = 4 then noteFrame true true (wsEnd .none [] (accErr errGuard .ws true a s))
    else wsCount (if 8 < data.length then .extraData else .none) a s
  else if data.length = 4 then wsStored (plainWrite .ws a (ofMsb data) s)
  else wsCount (if 4 < data.length then .extraData else .none) a s

/-- The address of a transaction: NACK of A[7:0] where it is unmapped or not aligned (R44); an unpowered domain is judged at
the data (R46). -/
def wsAddress (write : Bool) (a : Nat) (s : State) : Option Verdict :=
  let aligned : Option Verdict := if a % 4 ≠ 0 then some .align else none
  match placeFor .ws write a s with
  | .none => some .decode
  | .comp _ => some .decode
  | _ => aligned

def wsBadAddress (write : Bool) (a : Nat) (x : Verdict) (s : State) : State :=
  let s := if coreUp s then accErr (if x = .align then errAlign else errDecode) .ws write a s else s
  modAcc (fun y => { y with answer := x }) (noteFrame true false (wsEnd .addrLow [] s))

/-- A write transaction; three address bytes before a repeated START are those of a read (R43). -/
def wsStore (addrBytes : Nat) (a : Nat) (data : List Byte) (stop : Bool) (s : State) : State :=
  if ¬ wsUp s then modWs (fun x => { x with answers := false }) s
  else if addrBytes = 0 then noteFrame true false (wsEnd .none [] s)
  else if addrBytes < 3 then wsCount .none a s
  else
    match wsAddress (!data.isEmpty || stop) a s with
    | some x => if data.isEmpty ∧ ¬ stop then noteFrame true false (wsEnd .addrLow [] s) else wsBadAddress true a x s
    | none => wsData a data stop s

/-- A read transaction; data that a control-channel switch holds back is not ready in time (R45; log 151); further bytes that the controller clocks read 0xFF. -/
def wsLoad (addrBytes : Nat) (a : Nat) (extra : Nat) (s : State) : State :=
  if ¬ wsUp s then modWs (fun x => { x with answers := false }) s
  else if addrBytes = 0 then noteFrame true false (wsEnd .addressRead [] s)
  else if addrBytes ≠ 3 then wsCount .addressRead a s
  else
    match wsAddress false a s with
    | some x => wsBadAddress false a x s
    | none =>
      if ¬ domainUp a s ∨ readLost .ws a s then noteFrame true false (wsEnd .addressRead [] s)
      else
        let (x, v, s) := wordRead .ws a s
        modAcc (fun y => { y with answer := x, data := v })
          (noteFrame true false (wsEnd .none (msbBytes v ++ List.replicate extra 0xFF#8) s))

/-! ### The accesses of the rows that name a master; a PSI core makes them while its clock runs (12 R392) -/

/-- A master writes one word. -/
def masterWrite (m : Master) (a : Nat) (v : Word) (s : State) : State :=
  match m with
  | .spi => spiStore a (plainWrite .spi a v) s
  | .ws => wsStore 3 a (msbBytes v) true s
  | _ =>
    if ¬ clocksRun s then s
    else
    let (x, s) := psiWrite m .word a v 0 s
    modAcc (fun y => { y with answer := x }) s

/-- The two 32-bit stores of a guarded write by a PSI master, at any word address; a 64-bit store makes the same two (02 R51, R60). -/
def pairWrite (m : Master) (a : Nat) (v c : Word) (s : State) : Verdict × State :=
  let (x, s) := wordWrite m a v s
  if x = .decode then (x, s) else wordWrite m (a + 4) c s

/-- A master makes a guarded write (02 R51). -/
def masterPair (m : Master) (a : Nat) (v c : Word) (s : State) : State :=
  match m with
  | .spi => spiStore a (lockedPair .spi a v c) s
  | .ws => wsStore 3 a (msbBytes v ++ msbBytes c) true s
  | _ =>
    if ¬ clocksRun s then s
    else
    let (x, s) := pairWrite m a v c s
    modAcc (fun y => { y with answer := x }) s

/-- A master reads one word. -/
def masterRead (m : Master) (a : Nat) (s : State) : State :=
  match m with
  | .spi => spiLoad a s
  | .ws => wsLoad 3 a 0 s
  | _ =>
    if ¬ clocksRun s ∨ readLost m a s then s
    else
    let (x, v, _, s) := psiRead m .word a s
    modAcc (fun y => { y with answer := x, data := v }) s

end Sys2Proof.Machine
end

