-- ==== Sys2Proof/Machine/BootOps.lean ====
section
/-!
DEFINITION. Machine/BootOps.lean: what the boot ROM does: slot choice (11 R369, R370), loading (R364, R365), the configuration
block (10 R353 to R356), rescue mode (11 R383), activation (R375 to R379), the DEEP wake path (12 R402, R407) and the
warm path (13 R434).
-/
namespace Sys2Proof.Machine

/-! ### Loading (11 R364, R365, R376) -/

/-- A memory is written whole: its latent errors are gone. -/
def eccFill (m : EccMem) (s : State) : State := eccStore m 0 { s with ecc := s.ecc.filter fun e => e.mem != m }

/-- Device addresses lo to hi − 1 hold the bytes, then zeros. -/
def fillRegion (lo hi : Nat) (bs : List Byte) (s : State) : State :=
  { s with mem := memPutBytes (memClear s.mem fun a => decide (lo ≤ a ∧ a < hi)) lo (bs.take (hi - lo)) }

/-- The part of slot A or B of the given type and tile; slot 0 (none) has no parts. -/
def slotPart (s : State) (slot ty tile : Nat) : Option Part :=
  if slot = 1 ∨ slot = 2 then findPart (partsOf (manifest s slot)) ty tile else none

/-- Load and re-hash the supervisor image of a slot; none when its digest fails. -/
def loadSup (slot : Nat) (s : State) : Option State :=
  match slotPart s slot 1 0 with
  | none => none
  | some x =>
    if ¬ digestOk s slot x then none
    else
      let b := partBytes s slot x
      let code := ofBytes (cut b 0xC 4)
      let data := ofBytes (cut b 0x10 4)
      let s := qspiRead (slotBase slot + x.off) s
      let s := eccFill .codeTcm (fillRegion 0x400000 0x460000 (cut b 64 code) s)
      let s := eccFill .dataTcm (fillRegion 0x460000 0x480000 (cut b (64 + code) data) s)
      some (modBoot (fun y => { y with
        entry := BitVec.ofNat 32 (ofBytes (cut b 8 4)), vectors := BitVec.ofNat 32 (ofBytes (cut b 0x14 4))
        slot := slot, verRun := slotVersion s slot }) s)

/-- Write a tile's program and data sections, TILE_EVEC and TILE_MBX_CFG. -/
def writeTile (t : TileId) (prog : List Byte) (data : Fin 8 → List Byte) (evec mbx : Word) (major : Nat) (s : State) : State :=
  let s := eccFill (.tileProg t) (fillRegion (addrTile t 0) (addrTile t 0x8000) prog s)
  let s := forEach (fins 8) (fun i s => fillRegion (addrTile t (0x10000 + 0x800 * i.val)) (addrTile t (0x10800 + 0x800 * i.val)) (data i) s) s
  modTile t (fun x => { x with evec := evec &&& 0x7C00#32, mbxCfg := mbx &&& 0x11F#32, major := major }) (eccFill (.tileData t) s)

/-- Load the program of tile t from a slot; none when its digest fails. -/
def loadTile (slot : Nat) (t : TileId) (s : State) : Option State :=
  match slotPart s slot 2 t.val with
  | none => none
  | some x =>
    if ¬ digestOk s slot x then none
    else
      let b := partBytes s slot x
      let s := qspiRead (slotBase slot + x.off) s
      let prog := ofBytes (cut b 8 4)
      let data := ofBytes (cut b 0xC 4)
      some (writeTile t (cut b 64 prog) (fun i => cut b (64 + prog + data * i.val) data) (BitVec.ofNat 32 (ofBytes (cut b 0x10 4)))
        (BitVec.ofNat 32 (ofBytes (cut b 0x14 4))) (ofBytes (cut b 0x18 1)) s)

/-- Load the programs of the tiles in turn. -/
def loadTiles (slot : Nat) : List TileId → State → Option State
  | [], s => some s
  | t :: ts, s => (loadTile slot t s).bind (loadTiles slot ts)

def loadRelease (slot : Nat) (s : State) : Option State := (loadSup slot s).bind (loadTiles slot (fins 8))

/-- The boot ROM's built-in tile program (R383). -/
def loadRescueTile (t : TileId) (s : State) : State :=
  writeTile t ((List.range 0x8000).map Config.rescueProgram) (fun _ => []) (s.tile t).evec (s.tile t).mbxCfg 0 s

/-! ### UPDATE records of the boot ROM -/

def bootRecord (kind slot : Nat) (s : State) : State := updRecord kind slot 0 .none (slotVersion s slot) s

/-! ### The slot record at boot (R369, R370) -/

/-- A release verifies under the given limits. -/
def verifies (s : State) (slot : Nat) (r : SlotRecord) : Bool :=
  (slot == 1 || slot == 2) && (verifySlot s slot r.keyMin r.minRollback).isNone

/-- Rules 2 and 3: the slot to boot, before it is verified. The boot after a reset-mode activation is not counted (R379). -/
def countTrial (r : SlotRecord) (writes counted : Bool) (s : State) : Nat × State :=
  if ¬ r.trial then (r.active, s)
  else if 3 ≤ r.tries then
    let (ok, s) := writeEntry { r with active := r.prev, trial := false, tries := 0, version := slotVersion s r.prev } writes s
    (r.prev, bootRecord (if ok then 9 else 11) r.prev s)
  else if ¬ counted then (r.active, s)
  else
    let (ok, s) := writeEntry { r with tries := r.tries + 1 } writes s
    if ok then (r.active, bootRecord 6 r.active s) else (r.prev, bootRecord 11 r.prev s)

/-- MIN_ROLLBACK and KEY_MIN of the first entry, taken from the release (rule 1). -/
def firstEntry (s : State) (slot : Nat) : SlotRecord :=
  let m := manifest s slot
  { active := slot, minRollback := ofBytes (cut m 0x10 4), keyMin := ofBytes (cut m 0xB 1), version := slotVersion s slot }

/-- The slot that boots, none for rescue mode. A trial that does not verify and whose end cannot be written boots PREV all the same, with
a record of kind RECORD_FAIL (R370). -/
def chooseSlot (f : FlashStatus) (counted : Bool) (s : State) : Option Nat × State :=
  if ¬ f.answers then (none, s)
  else
    match currentEntry s with
    | none =>
      match [1, 2].find? fun k => verifies s k {} with
      | none => (none, s)
      | some k =>
        let x := firstEntry s k
        let (ok, s) := writeEntry x f.writes s
        (some k, if ok then s else modBoot (fun b => { b with slotRec := x }) s)
    | some (_, _, r) =>
      let (k, s) := countTrial r f.writes counted (modBoot (fun b => { b with slotRec := r }) s)
      if verifies s k r then (some k, s)
      else if k ≠ 0 ∧ verifies s (otherSlot k) r then
        let o := otherSlot k
        let x := { s.boot.slotRec with active := o, trial := false, tries := 0, version := slotVersion s o }
        let (ok, s) := writeEntry x f.writes s
        (some o, onlyIf (!ok && r.trial && k == r.active) (bootRecord 11 o) s)
      else (none, s)

/-! ### The configuration block (10 R353 to R356) -/

/-- The 16 KiB block of a slot. -/
def cfgBlock (s : State) (slot : Nat) : List Byte :=
  match slotPart s slot 3 0 with
  | some x => partBytes s slot x
  | none => []

/-- A record: address word and value. -/
def cfgRecord (b : List Byte) (i : Nat) : Word × Word :=
  (BitVec.ofNat 32 (ofBytes (cut b (0x40 + 8 * i) 4)), BitVec.ofNat 32 (ofBytes (cut b (0x44 + 8 * i) 4)))

def cfgCount (b : List Byte) : Nat := ofBytes (cut b 6 2)

/-- The blocks a record may address (R354). -/
def cfgMay (a : Nat) : Bool :=
  decide (a < 0x1000) || (decide (0x3000 ≤ a) && decide (a < 0x6000)) || a == 0x6004 || (decide (0x8000 ≤ a) && decide (a < 0xA000)) ||
    (decide (0x10000 ≤ a) && decide (a < 0x32000)) || (decide (0x40000 ≤ a) && decide (a < 0x50000)) ||
    (decide (0x100000 ≤ a) && decide (a < 0x140000))

/-- Registers no record may address. -/
def cfgExcluded : Option Rg → Bool
  | some r =>
    match r with
    | .crpRstCmd | .timSetSec | .timSetNs | .timSetCtl | .qData _ | .qCtl _ | .portKeeper _ | .portPwrCmd _ => true
    | _ => false
  | none => false

/-- A record is refused (R354). -/
def cfgRefused (r : Word × Word) : Bool :=
  let a := fld r.1 23 0
  let g := match regAt a with | some x => x.guarded | none => false
  a % 4 != 0 || !cfgMay a || cfgExcluded (regAt a) || bitOf r.1 31 != g

/-- A serial byte is 0–9 or A–Z. -/
def serialByte (b : Byte) : Bool := (decide (0x30 ≤ b.toNat) && decide (b.toNat ≤ 0x39)) || (decide (0x41 ≤ b.toNat) && decide (b.toNat ≤ 0x5A))

/-- CFG_FAULT and CFG_REC: the first failing test of R355; a COUNT above 2,039 counts as the record that has no place (log 31). -/
def cfgTest (b : List Byte) : Nat × Nat :=
  if ofBytes (cut b 0 4) ≠ 0x46435A4E ∨ ofBytes (cut b 4 2) ≠ 1 then (2, 0)
  else if (crc32 (cut b 0 0x3FFC)).toNat ≠ ofBytes (cut b 0x3FFC 4) then (3, 0)
  else
    match (List.range (min 2039 (cfgCount b))).find? fun i => cfgRefused (cfgRecord b i) with
    | some i => (4, i)
    | none => if 2039 < cfgCount b then (4, 2039) else if (cut b 8 12).all serialByte then (0, 0) else (5, 0)

/-- A write by the boot ROM: it polls BUSY, so that a posted write is complete. -/
def bootWrite (a : Nat) (v : Word) (g : Bool) (s : State) : State :=
  let (_, s) := if g then lockedPair .sup a v (~~~v) s else wordWrite .sup a v s
  forEach (fins 10) postedDone s

/-- Address of a TEAM_CTL. -/
def isTeamCtl (a : Nat) : Bool := (fins 4).any fun u => a == addrTeam u 0

/-- The teams' registers in the saved image of DEEP: the team state that a failing digest leaves as it is (12 R402). -/
def teamImageReg (a : Nat) : Bool :=
  ((fins 4).any fun u => a == addrTeam u 0 || a == addrTeam u 8 || a == addrTeam u 0xC) || ((fins 64).any fun p => a == addrPort p 0)

/-- Registers that the saved image of DEEP holds (12 Table 12.5). -/
def inImage (a : Nat) : Bool :=
  a == 0x1010 || a == 0x501C || a == 0x502C || a == 0x40000 || a == 0x40004 || a == 0x40010 || (decide (0x40100 ≤ a) && decide (a < 0x40140) && a % 8 == 0) ||
    (decide (0x40200 ≤ a) && decide (a < 0x40300)) || teamImageReg a

/-- Apply the writes that `keep` lets through; TEAM_CTL is held for step 8. -/
def applyRecords (keep : Nat → Bool) (l : List (Nat × Word × Bool)) (s : State) : State :=
  forEach (l.filter fun r => keep r.1 && !isTeamCtl r.1) (fun r s => bootWrite r.1 r.2.1 r.2.2 s) s

/-- The accepted records of a block. -/
def recordsOf (b : List Byte) : List (Nat × Word × Bool) :=
  (List.range (cfgCount b)).map fun i =>
    let r := cfgRecord b i
    (fld r.1 23 0, r.2, bitOf r.1 31)

/-- The writes of the factory defaults (R356). -/
def defaultRecords : List (Nat × Word × Bool) :=
  [(addrTeam 0 0, 1#32, false), (addrTeam 0 0xC, 1#32, false), (addrQueue 0 0, 0x80000280#32, false)]

/-- Step 5: the block, or the factory defaults; a flash that does not answer is the first test of R355, also in rescue mode. -/
def planConfig (answers rescue : Bool) (b : List Byte) : CfgPlan :=
  let (fault, index) := if !answers then (1, 0) else if rescue then (6, 0) else cfgTest b
  if fault = 0 then
    { records := recordsOf b, lock := BitVec.ofNat 32 (ofBytes (cut b 0x1C 4) % 2048)
      start := if ofBytes (cut b 0x14 4) % 2 = 1 then some (BitVec.ofNat 32 (ofBytes (cut b 0x18 4))) else none
      fault := 0, index := 0, serial := cut b 8 12 }
  else { records := defaultRecords, lock := 0, start := none, fault := fault, index := index, serial := List.replicate 12 0x30#8 }

/-- A group takes its GRP values and its feed follows R229 (07 R503). -/
def releaseGroup (g : TileId) (s : State) : State :=
  let x := s.grp g
  let same := fld x.cfgNow 13 12 == fld x.cfg 13 12
  let s := modGrp g (fun x => { x with rim := none, released := true, railUp := x.railUp && same }) s
  if (feedUp s g ∨ (s.grp g).st = .ramping) ∧ ¬ feedEn (s.grp g) then feedDisable g s else feedRelease g s

/-- Step 6: the settings other than TEAM_CTL and the lock word; CFG_DEF reports. -/
def applyConfig (keep : Nat → Bool) (c : CfgPlan) (s : State) : State :=
  let s := modBoot (fun b => { b with cfgDefaulted := c.fault != 0, cfgFault := c.fault, cfgRec := c.index, serial := c.serial }) s
  let s := onlyIf (c.fault != 0) (raise fCfgDef (BitVec.ofNat 32 c.fault)) s
  let s := applyRecords keep c.records s
  let s := match c.start with
    | some w => if keep 0x502C then modTim (fun t => { t with start := freqWord w.toInt, freq := freqWord w.toInt }) s else s
    | none => s
  forEach (fins 8) releaseGroup s

/-- Step 7: RUN = 0xFF in every TILE_CTL; the weavers' programs start. -/
def runTiles (s : State) : State := forEach (fins 8) (fun t s => writeTileCtl t 0xFF#32 s) s

/-- The records that no later one to the same address overrides (R354). -/
def lastWrites : List (Nat × Word × Bool) → List (Nat × Word × Bool)
  | [] => []
  | r :: l => if l.any (fun x => x.1 == r.1) then lastWrites l else r :: lastWrites l

/-- Step 8: the held TEAM_CTL values, of each team its last. -/
def applyTeams (keep : Nat → Bool) (c : CfgPlan) (s : State) : State :=
  forEach (lastWrites (c.records.filter fun r => keep r.1 && isTeamCtl r.1)) (fun r s => bootWrite r.1 r.2.1 r.2.2 s) s

/-! ### Handover (10 R349 step 9, 11 R380, 12 R401) -/

/-- CONFIRM_S of a slot: 0 means 60. -/
def confirmSecs (s : State) (slot : Nat) : Nat :=
  let n := ofBytes (cut (manifest s slot) 0x14 2)
  if n = 0 then 60 else n

/-- A core starts at an address. -/
def startSup (pc evec : Word) (s : State) : State :=
  modCpu .sup (fun c => { ({} : Cpu) with
    run := true, st := .running, pc := pc, evec := evec, cycle := c.cycle, wdogAt := s.now, epend := c.epend, restarts := c.restarts
    births := c.births }) s

/-- The confirm window runs from the handover of a boot of the trial release. -/
def startWindow (s : State) : State :=
  let r := s.boot.slotRec
  let on := r.trial && r.active == s.boot.slot
  modBoot (fun b => { b with trial := r.trial, window := if on then confirmSecs s b.slot else 0, windowOn := on, windowAt := s.now }) s

/-- The time-mode tables of a slot (11 R366): an entry is its POSIX seconds, then its offset, 4 bytes each (log 117). -/
def timeTableOf (s : State) (slot : Nat) : List (Nat × Nat) :=
  match slotPart s slot 4 0 with
  | none => []
  | some x =>
    let b := partBytes s slot x
    if ofBytes (cut b 0 4) = 0x54545A4E ∧ ofBytes (cut b 4 2) = 1 then
      (List.range (min 8191 (ofBytes (cut b 6 2)))).map fun i => (ofBytes (cut b (8 + 8 * i) 4), ofBytes (cut b (12 + 8 * i) 4))
    else []

/-- TAI_UTC from the tables: the offset in force; with TIME_SEC not valid which entry is open (11 R366; log 117). -/
def loadTaiUtc (s : State) : State :=
  let l := s.boot.timeTable
  let set (n : Nat) (s : State) : State := modTim (fun t => { t with leap := setFld t.leap 7 0 n }) s
  if l.isEmpty then s
  else if s.tim.valid then
    match (l.filter fun e => decide (e.1 + e.2 ≤ s.tim.sec.toNat)).getLast? with
    | some e => set e.2 s
    | none => s
  else
    let (n, s) := drawNat s
    set (l.getD (n % l.length) (0, 0)).2 s

/-- The arbiter runs again: its waiting words go out, the weavers send again what a reset of it discarded, and a limit that fell
meanwhile is reclaimed (06 R198, R200). -/
def resumeArbiter (s : State) : State := settle <| unstall s (forEach (fins 8) pumpDown (forEach (fins 8) pumpUp s))

/-- What the supervisor's program does as it starts on a release: the tables, the slot record's sectors, and a dump that is not yet
copied, and the entry of a CONFIRM that still waits (11 R366, R368, R381, 13 R449). -/
def firmwareStart (s : State) : State :=
  resumeArbiter <| writeConfirmed <| copyDump <| tidySectors (loadTaiUtc (modBoot (fun b => { b with timeTable := timeTableOf s b.slot }) s))

/-- First address of the boot ROM (09 Table 9.3). -/
def romBase : Word := 0xF00000#32

/-- Step 9: FAULT_N high but in rescue mode, STEP 0xF, the jump to the supervisor image; in rescue mode the boot ROM runs on as the
supervisor. A wake from OFF or DEEP completes. -/
def handover (s : State) : State :=
  let s := modBoot (fun b => { b with step := 0xF, plan := none, chosen := none, cfg := none, afterReset := false }) s
  let failed := s.pwr.wakeFailed
  let s := modPwr (fun x => { x with phase := .run, bootDone := true, faultHeld := none, fromDeep := false, fromOff := false, wakeFailed := false }) s
  let s := if s.boot.rescue then startSup romBase romBase s else firmwareStart (startSup s.boot.entry s.boot.vectors (startWindow s))
  if s.crp.st = .waking then completeWake failed s else s

/-! ### Rescue mode (11 R383) -/

def enterRescue (s : State) : State :=
  let s := modBoot (fun b => { b with rescue := true, slot := 0, verRun := 0, policy := 0x000000F3#32 }) s
  let s := forEach (fins 8) loadRescueTile s
  let s := modTeam 0 (fun t => { t with station := { t.station with dfuMode := true, dfu := .dfuIdle } }) s
  bootRecord 10 0 s

/-! ### Steps 3 to 8 (10 Table 10.6) -/

/-- Step 3 starts the QSPI interface on one lane and reads the slot record (14 R459). -/
def startQspi (s : State) : State :=
  qspiRead (entryAddr 0 0) (modBoot (fun b => { b with qspi := { b.qspi with started := true, quad := false } }) s)

/-- Step 5 reads the configuration block, but in rescue mode. -/
def readCfg (slot : Nat) (s : State) : State :=
  match slotPart s slot 3 0 with
  | some x => qspiRead (slotBase slot + x.off) s
  | none => s

/-- The step after the last completed one, from step 3 to step 8, of whose settings those that `keep` lets through are written. -/
def bootStep (keep : Nat → Bool) (f : FlashStatus) (s : State) : State :=
  let n := s.boot.step
  let s :=
    match n with
    | 2 =>
      let (slot, s) := chooseSlot f (!s.boot.afterReset) (startQspi s)
      modBoot (fun b => { b with chosen := slot, qspi := { b.qspi with quad := true } }) s
    | 3 =>
      match s.boot.chosen.bind fun k => loadRelease k s with
      | some s => s
      | none => enterRescue s
    | 4 =>
      let b := cfgBlock s s.boot.slot
      modBoot (fun x => { x with cfg := some (planConfig (f.answers && (f.block || x.rescue)) x.rescue b) }) (onlyIf (!s.boot.rescue) (readCfg s.boot.slot) s)
    | 5 => match s.boot.cfg with | some c => applyConfig keep c s | none => s
    | 6 => runTiles s
    | 7 =>
      match s.boot.cfg with
      | some c => modAcc (fun a => { a with lock := a.lock ||| c.lock }) (applyTeams keep c s)
      | none => s
    | _ => s
  modBoot (fun b => { b with step := n + 1 }) s

/-- Steps 3 to 8 at one go. -/
def fullBoot (keep : Nat → Bool) (f : FlashStatus) (s : State) : State := forEach (List.range 6) (fun _ s => bootStep keep f s) s

/-- The boot goes on for at most n steps, to the handover or to a step in which later commands still find it. -/
def bootOn (f : FlashStatus) : Nat → State → State
  | 0, s => s
  | n + 1, s =>
    if f.pauses.contains (s.boot.step + 1) then s
    else if 8 ≤ s.boot.step then handover s
    else bootOn f n (bootStep (fun _ => true) f s)

/-- The boot ROM works on a step from 3 to 9. -/
def bootPaused (s : State) : Option FlashStatus := if s.pwr.phase = .boot ∧ ¬ s.pwr.fromDeep ∧ 2 ≤ s.boot.step then s.boot.plan else none

/-- The step in progress ends, and the boot goes on (10 R349). -/
def bootResume (s : State) : State :=
  match bootPaused s with
  | none => s
  | some f => if 8 ≤ s.boot.step then handover s else bootOn f 7 (bootStep (fun _ => true) f s)

/-- Bank 15 failed: each HOLD follows its keeper, or the port's base (12 R407). -/
def holdFromKeeper (p : PortId) (s : State) : State :=
  let k := (s.port p).pw.keeper
  let w := if kPath k = .none then baseFor (rpAdv s p) else (kVolt k * kIbase k + 199) / 200
  modBp p (fun b => { b with hold := BitVec.ofNat 16 w, alloc := w, base := baseFor (rpAdv s p) }) s

/-- Steps 2 to 5 of the DEEP wake path (12 R402); without the image, or when a digest fails, the boot goes on from step 3 with the
team state of the image (log 145); the start word is the retained one wherever the image holds it (08 R273). -/
def deepBoot (f : FlashStatus) (s : State) : State :=
  let keep (a : Nat) : Bool := !(s.crp.imageOk && inImage a)
  let s := modBoot (fun b => { b with qspi := { b.qspi with started := true, quad := true } }) s
  match (if s.crp.imageOk ∧ f.answers then loadRelease s.boot.slot s else none) with
  | none =>
    let lock := s.acc.lock
    let start := s.tim.start
    let s := modAcc (fun a => { a with lock := a.lock ||| lock }) (fullBoot (fun a => !(s.crp.imageOk && teamImageReg a)) f (modAcc (fun a => { a with lock := 0 }) s))
    if s.crp.imageOk then modTim (fun t => { t with start := start, freq := start }) s else forEach (fins 64) holdFromKeeper s
  | some s =>
    let lock := s.acc.lock
    let c := planConfig (f.answers && f.block) false (cfgBlock s s.boot.slot)
    let s := runTiles (applyConfig keep c (readCfg s.boot.slot <| modAcc (fun a => { a with lock := 0 }) s))
    let s := match currentEntry s with
      | some (_, _, r) => modBoot (fun b => { b with slotRec := r }) s
      | none => s
    modBoot (fun b => { b with step := 8 }) (modAcc (fun a => { a with lock := lock }) s)

/-- Every tile is ready: the boot ROM goes on. -/
def bootContinue (s : State) : State :=
  match s.boot.plan with
  | none => s
  | some f =>
    if s.pwr.phase ≠ .boot ∨ s.boot.step ≠ 1 ∨ ¬ (fins 8).all fun t => (s.tile t).ready then s
    else
      let s := modBoot (fun b => { b with step := 2 }) s
      if s.pwr.fromDeep then deepBoot f s else bootOn f 7 s

/-! ### Activation (11 R375 to R379) -/

/-- Tile t is halted, loaded and restarted (R376 step 3, 13 R441). -/
def reloadTile (slot : Nat) (t : TileId) (s : State) : Option State :=
  (loadTile slot t (writeTileCtl t 0 s)).map (writeTileCtl t 0xFFFF#32)

/-- During an activation the clearing of TILE_CTL counts as a reset of the tile's sequencer (02 Table 2.17, R377). -/
def activateTile (slot : Nat) (t : TileId) (s : State) : Option State := reloadTile slot t (tileMailReset t s)

/-- The handover of an activation restart: the new image runs, a trial's window starts (R376, R380). -/
def handoverHitless (s : State) : State :=
  let s := startWindow (modBoot (fun b => { b with act := none }) s)
  let s := modPwr (fun x => { x with bootDone := true }) (firmwareStart (startSup s.boot.entry s.boot.vectors s))
  bootRecord 5 s.boot.slot s

/-- `now` ticks of the wait for a port in transition (R376). -/
def transWait : Nat := 300 * msNow

/-- A port of the tile reads PSTATE 4. -/
def tileMoves (s : State) (t : TileId) : Bool := (portsOf t).any fun p => (s.port p).pw.pstate == .transition

/-- The activation path waits for tile t, since the given time. -/
def waitsFor (s : State) (slot t : Nat) : Option Nat :=
  if h : t < 8 then
    let since := match s.boot.act with | some a => if a.slot = slot ∧ a.tile = t then a.since else s.now | none => s.now
    if tileMoves s ⟨t, h⟩ && decide (s.now < since + transWait) then some since else none
  else none

/-- The image of a slot is loaded; the tiles run its programs from here on. -/
def loadImage (slot : Nat) (s : State) : Option State := (loadSup slot s).map (modBoot fun b => { b with rescue := false })

/-- What is left where neither release can be loaded: the boot ROM's rescue mode (R369 rule 5; log 170). -/
def backToRescue (s : State) : State := startSup romBase romBase (enterRescue (modBoot (fun b => { b with act := none }) s))

/-- A digest has failed: the fallback entry, or a record that it could not be written (R370, R376). -/
def fallBack (writes : Bool) (s : State) : State :=
  let r := s.boot.slotRec
  let (ok, s) := writeEntry { r with active := r.prev, trial := false, tries := 0, version := slotVersion s r.prev } writes s
  bootRecord (if ok then 9 else 11) r.prev s

/-- The tiles from tile t on, each once no port of it is in transition, for at most 300 ms (R376); `n` bounds the work. A digest that
fails falls back to PREV, loaded in the same way. -/
def loadFrom : Nat → Nat → Nat → Bool → State → State
  | 0, _, _, _, s => s
  | n + 1, slot, t, writes, s =>
    if h : t < 8 then
      match waitsFor s slot t with
      | some since => modBoot (fun b => { b with act := some { slot := slot, tile := t, writes := writes, since := since } }) s
      | none =>
        match activateTile slot ⟨t, h⟩ s with
        | some s => loadFrom n slot (t + 1) writes s
        | none =>
          let prev := s.boot.slotRec.prev
          if slot = prev then backToRescue s
          else
            let s := fallBack writes s
            match loadImage prev s with
            | some s => loadFrom n prev 0 writes s
            | none => backToRescue s
    else handoverHitless s

/-- The activation restart into a slot: a supervisor block reset into the activation path; a failing digest falls back to PREV. -/
def activateInto (slot : Nat) (writes : Bool) (s : State) : State :=
  let s := coldSup (supPartyReset s)
  match loadImage slot s with
  | some s => loadFrom 18 slot 0 writes s
  | none =>
    let prev := s.boot.slotRec.prev
    if slot = prev then backToRescue s
    else
      let s := fallBack writes s
      match loadImage prev s with
      | some s => loadFrom 18 prev 0 writes s
      | none => backToRescue s

/-- A waiting activation goes on where no port of its tile is in transition, or 300 ms have passed. -/
def activationGoesOn (s : State) : State :=
  match s.boot.act with
  | some a => loadFrom 18 a.slot a.tile a.writes s
  | none => s

/-- The confirm window has expired (R382). -/
def windowExpired (f : FlashStatus) (s : State) : State :=
  let r := s.boot.slotRec
  let s := stopWindow s
  let (k, s) := countTrial r f.writes true s
  activateInto k f.writes (bootRecord 8 k s)

/-! ### The warm path (13 R434) -/

/-- m4 and m5: code TCM is scrubbed, or the image of the running slot is loaded again; a failing digest is the safe state. -/
def warmPath (uncorrectable digestOk : Bool) (s : State) : State :=
  let fatal := uncorrectable || s.flt.reload || s.ecc.any fun e => e.mem == .codeTcm && e.fatal
  let s := forEach (s.ecc.filter fun e => e.mem == .codeTcm && !e.fatal) (fun e s => eccFix .codeTcm e.word s) s
  let jump (s : State) : State :=
    resumeArbiter <| writeConfirmed <| copyDump (startSup s.boot.entry s.boot.vectors (modFlt (fun f => { f with m5 := true, warm := true, reload := false, reloaded := fatal }) s))
  if ¬ fatal then jump s
  else
    match (if digestOk then loadSup s.boot.slot s else none) with
    | some s => jump s
    | none => enterSafe 5 false s

end Sys2Proof.Machine
end

