-- ==== Sys2Proof/Machine/Boot.lean ====
section
/-!
DEFINITION. Machine/Boot.lean: meanings of chapters 10 to 12's commands that no register access makes: power-up, resets, the
boot ROM, update and DFU, power states and wake.
-/
namespace Sys2Proof.Machine

def setPhase (ph : PwrPhase) (s : State) : State := modPwr (fun x => { x with phase := ph }) s

/-! ### Power-up and resets (10 R338 to R347) -/

/-- R343. -/
def execVrimPor (s : State) : Result := .next (vrimReset s)

/-- t1. -/
def execRimPorRelease (s : State) : Result :=
  if s.pwr.phase = .rimReset then .next (modPwr (fun x => { x with phase := .waitPwrOk, coreEn := true, second := false }) s) else .next s

/-- t2. -/
def execPwrOkAssert (s : State) : Result := if s.pwr.phase = .waitPwrOk then .next (setPhase .waitOsc s) else .next s

/-- PWR_OK is lost with CORE_EN high (R338): one chip reset, CORE_EN low for 10 ms; before t4 the reset in progress goes on as
that one (R347). -/
def powerLost (s : State) : State :=
  let s := recordCause rstPwrOk s
  if beforeT4 s then
    modTim (fun t => { t with running := false, sec := 0, ns := 0 })
      (modPwr (fun x => { x with phase := .offWait, coreEn := false, second := false }) s)
  else doChipReset .offWait false s

def execPwrOkLoss (s : State) : Result :=
  if ¬ s.pwr.coreEn ∨ s.pwr.phase = .waitPwrOk ∨ s.pwr.phase = .rimReset then .next s else .next (allEv powerLost s)

/-- A second failure of a wake from DEEP or OFF (12 R409). -/
def wakeGaveUp (osc : Bool) (s : State) : State :=
  modCrp (fun c => { c with st := .wakeFailed, wakeFail := true, failOsc := osc }) (modPwr (fun x => { x with phase := .asleep, coreEn := false }) s)

/-- An attempt to power up fails: once more after 10 ms with CORE_EN low, then the device gives up (R339, 12 R409). -/
def powerFailed (osc : Bool) (s : State) : State :=
  if ¬ s.pwr.second then modPwr (fun x => { x with phase := .offWait, coreEn := false, second := true }) s
  else if s.crp.st = .waking then wakeGaveUp osc s
  else recordCause (if osc then rstOscTimeout else rstPwrTimeout) (modPwr (fun x => { x with phase := .gaveUp, coreEn := false }) s)

def execPwrTimeout (s : State) : Result := if s.pwr.phase = .waitPwrOk then .next (powerFailed false s) else .next s

def execOscTimeout (s : State) : Result := if s.pwr.phase = .waitOsc then .next (powerFailed true s) else .next s

/-- t3: the time counter runs (08 R504). -/
def execOscReady (s : State) : Result :=
  if s.pwr.phase = .waitOsc then .next (modTim (fun t => { t with running := true }) (setPhase .waitCore s)) else .next s

/-- The 10 ms with CORE_EN low have passed: again from t1. -/
def execCoreEnOffExpire (s : State) : Result :=
  if s.pwr.phase = .offWait then .next (modPwr (fun x => { x with phase := .waitPwrOk, coreEn := true }) s) else .next s

/-- w4: the retention banks are checked, and the image is restored (12 R401, R406), or the rim's pull-ups are
released (R407); after OFF RET_BANK_ERR reads 0xFFFF (R404). -/
def wakeMemory (s : State) : State :=
  if s.pwr.fromDeep then
    let s := checkBanks s
    if s.crp.imageOk then restoreImage s else forEach (fins 4) (fun u s => modTeam u (fun t => { t with pullUp := false, rdEn := false }) s) s
  else if s.pwr.fromOff then modCrp (fun c => { c with retErr := 0xFFFF#32 }) s
  else s

/-- t4 or w4; a RESET_N that is still low starts a new chip reset (R347). -/
def execCoreResetRelease (s : State) : Result :=
  if s.pwr.phase ≠ .waitCore then .next s
  else if s.pwr.resetLow then .next (doChipReset .resetHeld true s)
  else .next (wakeMemory (modPwr (fun x => { x with phase := .coreUp, tapHeld := x.trstLow }) s))

/-- RESET_N has been low for 1 µs (R344, R347, R339, 12 R410). -/
def resetPinLow (s : State) : State :=
  let s := modPwr (fun x => { x with resetLow := true }) (recordCause rstPin s)
  match s.pwr.phase with
  | .gaveUp | .minOff | .asleep => doChipReset .waitPwrOk true s
  | _ => if beforeT4 s then s else doChipReset .resetHeld true s

def execResetPin (s : State) : Result :=
  if s.pwr.phase = .vrimOff ∨ s.pwr.phase = .rimReset ∨ s.pwr.resetLow then .next s else .next (resetPinLow s)

/-- RESET_N rises: on from t2. -/
def execResetPinRelease (s : State) : Result :=
  let s := modPwr (fun x => { x with resetLow := false }) s
  .next (if s.pwr.phase = .resetHeld then setPhase .waitOsc s else s)

/-- 14 R461: TRST_N low holds the TAP in reset and nothing else (Table 10.3), until it rises (trstRises). -/
def execTapReset (s : State) : Result := .next (modPwr (fun x => { x with trstLow := true, tapHeld := true }) s)

/-! ### The boot ROM (10 R349, R350) -/

/-- t5 or w5: step 1; the rest runs once every tile is ready. FAULT_N stays at its held level on a wake from DEEP (12 R402). -/
def execBootStart (testMode : Bool) (flash : FlashStatus) (s : State) : Result :=
  if s.pwr.phase ≠ .coreUp then .next s
  else if testMode ∧ ¬ s.pwr.fromDeep then .fault .factoryTest
  else
    let s := modPwr (fun x => { x with
      phase := .boot, bootDone := x.bootDone && x.fromDeep, faultHeld := if x.fromDeep then x.faultHeld else none }) s
    .next (modBoot (fun b => { b with step := 1, plan := some flash }) s)

/-- A step exceeds its maximum: reported, and the boot goes on as the step ends. -/
def execBootStepTimeout (step : Fin 16) (s : State) : Result :=
  .next <|
    if s.pwr.phase = .boot then
      let s := raise fBoot (BitVec.ofNat 32 step.val) s
      if (bootPaused s).isSome ∧ step.val = s.boot.step + 1 then allEv bootResume s else s
    else s

/-- R342: the tiles are switched on in order. -/
def execTileSwitchOn (t : TileId) (s : State) : Result :=
  if s.pwr.phase = .boot ∧ s.boot.step = 1 ∧ (fins 8).all fun u => decide (t ≤ u) || (s.tile u).on then
    .next (modTile t (fun x => { x with on := true }) s)
  else .next s

/-- A tile is ready, at power-up or after a tile reset (R340, R345); the last one lets the boot go on. -/
def execTileReady (t : TileId) (s : State) : Result :=
  if (s.tile t).on ∧ ¬ (s.tile t).ready ∧ ¬ (s.tile t).link.isolated then .next (allEv (fun s => bootContinue (tileReadyNow t s)) s) else .next s

/-! ### Update sessions (11 R371 to R379) -/

/-- bStatus of an error (Table 11.8). -/
def dfuStatusOf (err : Nat) : Nat :=
  match err with
  | 0 => 0x00
  | 1 => 0x03
  | 2 => 0x04
  | 3 => 0x02
  | 4 => 0x01
  | 5 | 6 | 7 | 8 => 0x07
  | 9 => 0x08
  | 10 => 0x09
  | 11 => 0x0F
  | _ => 0x0E

def modStn (u : TeamId) (f : Station → Station) (s : State) : State := modTeam u (fun t => { t with station := f t.station }) s

/-- The DFU interface is in error (R374). -/
def dfuError (u : TeamId) (status : Nat) (s : State) : State := modStn u (fun x => { x with dfu := .error, dfuStatus := status, pollMs := 0 }) s

/-- A command that the DFU path carries shows the error that ended it. -/
def dfuFollow (s₀ s : State) : State :=
  match s₀.boot.src with
  | .dfu u => if s.boot.src = .none ∧ s.boot.err ≠ 0 then dfuError u (dfuStatusOf s.boot.err) s else s
  | _ => s

/-- The flash has taken a unit, or failed (R372). -/
def execWriteComplete (programOk eraseOk : Bool) (s : State) : Result := .next (dfuFollow s (updWritten programOk eraseOk s))

/-- VERIFY ends; manifestation goes on with ACTIVATE in hitless mode (R373, R374). -/
def execVerifyComplete (s : State) : Result :=
  let s₁ := dfuFollow s (updVerified s)
  match s₁.boot.src with
  | .dfu u => .next (if s₁.boot.upd = .verified ∧ (s₁.team u).station.dfu = .manifest then updActivate (.dfu u) false s₁ else s₁)
  | _ => .next s₁

/-- The commit entry has been programmed, or not (R375, R376, R379). -/
def execActivationCommit (programOk : Bool) (s : State) : Result :=
  if s.boot.upd ≠ .activating then .next s
  else
    let slot := sessionSlot s
    match writeEntry (activationEntry s) programOk s with
    | (false, s₁) => .next (dfuFollow s (updEnd .failed errWrite s₁))
    | (true, s₁) =>
      let reset := s.boot.actReset
      let s₁ := updClose .idle 0 (updRecord 4 slot 0 s.boot.src (slotVersion s slot) s₁)
      let s₁ := match s.boot.src with
        | .dfu u => modStn u (fun x => { x with dfu := .dfuIdle, pollMs := 0 }) s₁
        | _ => s₁
      if reset then .next (modBoot (fun b => { b with afterReset := true }) (doChipReset (resetPhase s₁) true s₁))
      else .next (allEv (activateInto slot true) s₁)

/-- 60 s without a command (R372). -/
def execSessionTimeout (s : State) : Result := if sessionOpen s then .next (updEnd .failed errTimeout s) else .next s

/-- The confirm window expires (R382). -/
def execConfirmWindowExpire (flash : FlashStatus) (s : State) : Result :=
  if s.boot.windowOn then .next (allEv (windowExpired flash) s) else .next s

/-! ### DFU (11 R374, 03 R95) -/

/-- A request to the DFU interface in DFU mode. -/
def dfuReq (u : TeamId) (f : State → State) (s : State) : Result :=
  .next (stationReq u (fun s => if (s.team u).station.dfuMode then f s else answer u .stall s) s)

/-- The request fails with a status: STALL and dfuERROR. -/
def dfuStall (u : TeamId) (status : Nat) (s : State) : State := answer u .stall (dfuError u status s)

/-- After a command of the session: an error, or the state that goes on. -/
def dfuAfter (u : TeamId) (x : DfuState) (poll : Nat) (s : State) : State :=
  if s.boot.err ≠ 0 then dfuStall u (dfuStatusOf s.boot.err) s else accept u (modStn u (fun y => { y with dfu := x, pollMs := poll }) s)

/-- The declared length of a DFU session: a whole slot until manifestation (log 28). -/
def dfuLength : Nat := 0x400000

/-- VERIFY of what was written. -/
def dfuManifestNow (u : TeamId) (s : State) : State :=
  let s := if s.boot.src = .dfu u then modBoot (fun b => { b with err := 0, length := 4096 * b.units }) s else s
  dfuAfter u .manifest 3000 (updVerify (.dfu u) s)

/-- Block n at slot offset 4,096 n, padded with 0xFF; block 0 opens the session. -/
def dfuBlock (u : TeamId) (block : Nat) (data : List Byte) (s : State) : State :=
  let open' : Bool := s.boot.src == .dfu u
  let s := if block = 0 ∧ ¬ open' then updBegin (.dfu u) dfuLength (modBoot (fun b => { b with err := 0 }) s) else s
  if block = 0 ∧ s.boot.err ≠ 0 ∧ ¬ open' then dfuStall u (dfuStatusOf s.boot.err) s
  else
    let off := 4096 * block
    dfuAfter u .dnloadSync (if off % 65536 = 0 then 800 else 20)
      (updWrite (.dfu u) off (data ++ List.replicate (4096 - data.length) 0xFF#8) (modBoot (fun b => { b with err := 0 }) s))

/-- R374. -/
def execDfuDnload (u : TeamId) (block : Nat) (data : List Byte) (s : State) : Result :=
  dfuReq u (fun s =>
    match (s.team u).station.dfu with
    | .dfuIdle =>
      if data.isEmpty ∨ 4096 < data.length then dfuStall u 0x0F s else dfuBlock u block data s
    | .dnloadIdle =>
      if data.isEmpty then dfuManifestNow u s else if 4096 < data.length then dfuStall u 0x0F s else dfuBlock u block data s
    | .error => answer u .stall s
    | _ => dfuStall u 0x0F s) s

/-- R374: a zero-length DFU_DNLOAD. -/
def execDfuManifest (u : TeamId) (s : State) : Result :=
  dfuReq u (fun s =>
    match (s.team u).station.dfu with
    | .dnloadIdle => dfuManifestNow u s
    | .error => answer u .stall s
    | _ => dfuStall u 0x0F s) s

/-- R374. -/
def execDfuUpload (u : TeamId) (s : State) : Result := dfuReq u (answer u .stall) s

/-- DFU 1.1 bState: the states of a transfer that is still busy are dfuDNBUSY and dfuMANIFEST. -/
def dfuCode (x : DfuState) (busy : Bool) : Nat :=
  match x with
  | .appIdle => 0
  | .dfuIdle => 2
  | .dnloadSync => if busy then 4 else 5
  | .dnloadIdle => 5
  | .manifest => 7
  | .error => 10

/-- R374: bStatus, bwPollTimeout, bState, iString; a block that is written leaves dfuDNLOAD-SYNC. The time-out outside a transfer
is open. -/
def execDfuGetstatus (u : TeamId) (s : State) : Result :=
  dfuReq u (fun s =>
    let x := (s.team u).station
    let busy := s.boot.busy && s.boot.src == .dfu u
    let (free, s) := drawNat s
    let poll := if x.dfu = .dnloadSync ∨ x.dfu = .manifest then x.pollMs else free
    let s := if x.dfu = .dnloadSync ∧ ¬ busy then modStn u (fun y => { y with dfu := .dnloadIdle }) s else s
    answer u (.control ([lowByte x.dfuStatus] ++ toBytes 3 poll ++ [lowByte (dfuCode x.dfu busy), 0])) s) s

/-- R374. -/
def execDfuClrstatus (u : TeamId) (s : State) : Result :=
  dfuReq u (fun s =>
    if (s.team u).station.dfu = .error then accept u (modStn u (fun x => { x with dfu := .dfuIdle, dfuStatus := 0 }) s)
    else answer u .stall s) s

/-- R372: the session ends, and the interface is idle. -/
def execDfuAbort (u : TeamId) (s : State) : Result :=
  dfuReq u (fun s =>
    if (s.team u).station.dfu = .error then answer u .stall s
    else
      let s := if s.boot.src = .dfu u ∧ s.boot.upd ≠ .activating then updEnd .idle 0 s else s
      accept u (modStn u (fun x => { x with dfu := .dfuIdle, pollMs := 0 }) s)) s

/-- 03 R95: the station function disconnects and reconnects in DFU mode (Table 11.8, PATH_OFF: STALL). -/
def execDfuDetach (u : TeamId) (s : State) : Result :=
  .next (stationReq u (fun s =>
    if (s.team u).station.dfuMode ∨ ¬ pathAllowed s (.dfu u) ∨ s.boot.rescue then answer u .stall s
    else addChange u 65 cConnection (modStn u (fun x => { stationMode true (stationDefault x) with dfuFresh := true, dfuStatus := 0 }) (accept u s))) s)

/-! ### Power states and wake (12 R392 to R404) -/

/-- p2 of DEEP: the banks' CRCs, VCONN's stamp, and the loss of the domains (R394 steps 4 to 8). -/
def deepResident (s : State) : State :=
  let (st, s) := takeStamp none s
  let s := fixWords .retention (fun _ => true) s
  let crcs := (List.range 16).map (bankCrc s)
  let low := faultLow s
  let s := resetDie true true s
  modCrp (fun c => { c with
    st := .deep, mode := 0, abortable := false, crcs := crcs, vconnStamp := st, residentAt := some s.now })
    (modPwr (fun x => { x with phase := .minOff, coreEn := false, second := false, tapHeld := true, faultHeld := some low, fromDeep := true, fromOff := false }) s)

/-- SLEEP is resident; a latched source starts the wake at once (R399). -/
def sleepResident (s : State) : State :=
  modCrp (fun c => { c with st := if c.wake.isSome then .waking else .sleep, residentAt := some s.now }) s

def execEntryResident (s : State) : Result :=
  if s.crp.st ≠ .entering then .next s
  else
    match s.crp.target with
    | .sleep => .next (sleepResident s)
    | .deep => .next (deepResident s)
    | _ => .next s

/-- p2 of OFF (R396, R404). -/
def offResident (s : State) : State :=
  let low := faultLow s
  let s := resetOff s
  modCrp (fun c => { c with st := .off, mode := 0, residentAt := some s.now })
    (modPwr (fun x => { x with
      phase := .minOff, coreEn := false, second := false, tapHeld := true, bootDone := false, faultHeld := some low, fromDeep := false, fromOff := true }) s)

def execOffDischargeDone (s : State) : Result :=
  if s.crp.st = .entering ∧ s.crp.target = .off then .next (offResident s) else .next s

/-- p2 + 1 ms: a pending wake raises CORE_EN (R399, R401). -/
def execWakeMinOffExpire (s : State) : Result :=
  if s.pwr.phase ≠ .minOff then .next s
  else
    let s := setPhase .asleep s
    .next (if s.crp.wake.isSome then raiseCore s else s)

/-- R398, R399: during entry the source is latched for replay; a resident device wakes; a device that failed to wake ignores it. -/
def execWakeSource (w : WakeSrc) (s : State) : Result :=
  if ¬ wakeEnds s s.crp.target w then .next s
  else
    match s.crp.st with
    | .entering => .next (modCrp (fun c => { c with replay := true }) (latchWake w s))
    | .sleep => .next (modCrp (fun c => { c with st := .waking }) (latchWake w s))
    | .deep | .off =>
      let s := latchWake w s
      .next (if s.pwr.phase = .asleep then raiseCore s else s)
    | .waking => .next (latchWake w s)
    | _ => .next s

/-- R400: the clocks run again; the sources act, the supervisor's WAIT returns, and what waited for the clocks is seen (R393). -/
def execSleepWakeComplete (s : State) : Result :=
  if s.crp.st = .waking ∧ s.crp.target = .sleep then
    let ws := s.crp.wake.toList ++ s.crp.wakeMore
    let s := modCrp (fun c => { c with resTime := BitVec.ofNat 32 (min 0xFFFFFFFF (resMs s)) }) s
    .next (allEv (fun s =>
      let s := endSupWait (forEach ws actWake (completeWake false s))
      resumeArbiter (forEach (fins 64) (fun p s => syncHub p (wakePort p s)) s)) s)
  else .next s

/-- w7 (R401, R403): the supervisor image starts with WAKE pending; the records of entry and of VCONN are posted. -/
def execDeepWakeHandover (s : State) : Result :=
  if s.pwr.phase = .boot ∧ s.pwr.fromDeep ∧ s.boot.step = 8 then
    .next (allEv (fun s => postImage (latchSup 0x800#32 (handover s))) s)
  else .next s

end Sys2Proof.Machine
end

