-- ==== Sys2Proof/Machine/Bus.lean ====
section
/-!
DEFINITION. Machine/Bus.lean: meanings of chapter 02's commands: register accesses, SPI and wake-serial transactions,
semaphores and mailboxes.
-/
namespace Sys2Proof.Machine

/-- R34, R35, R59: a write by a master; narrow and 64-bit writes exist for PSI masters only, the latter with a high word of 0. -/
def execRegisterWrite (m : Master) (a : Addr) (v : Word) (w : Width) (s : State) : Result :=
  match m with
  | .spi => .next (masterWrite .spi a.toNat v s)
  | .ws => .next (masterWrite .ws a.toNat v s)
  | _ =>
    if ¬ clocksRun s then .next s
    else
    let (x, s) := psiWrite m w a.toNat v 0 s
    .next (modAcc (fun y => { y with answer := x }) s)

/-- R39, R42. -/
def execSpiWrite (a : Addr) (v : Word) (s : State) : Result := .next (masterWrite .spi a.toNat v s)

/-- R51. -/
def execSpiGuardedWrite (a : Addr) (v c : Word) (s : State) : Result := .next (masterPair .spi a.toNat v c s)

/-- R41. -/
def execSpiRead (a : Addr) (s : State) : Result := .next (spiLoad a.toNat s)

/-- R41: Read result while a read is pending answers PENDING; else the last status and data again. -/
def execReadResult (s : State) : Result :=
  if ¬ spiUp s then .next s
  else
    let s := noteFrame false false s
    if s.spi.pending.isSome then
      let (w, s) := drawWord s
      .next (spiAnswer spiPending w s)
    else .next (spiAnswer s.spi.lastStatus s.spi.lastData s)

/-- Table 2.2: the previous status and ACC_ERR_STAT [7:0]; the status stays as it is. -/
def execSpiStatus (s : State) : Result :=
  if ¬ spiUp s then .next s
  else
    let s := noteFrame false false s
    .next (spiEnd s.spi.status [s.spi.status, lowByte s.acc.errStat.toNat] s)

/-- R39: an unknown command. -/
def execBadcmd (code : Byte) (s : State) : Result :=
  if ¬ spiUp s ∨ (spiBits code).isSome then .next s
  else
    let (w, s) := drawBool s
    .next (spiFramingError w spiBadcmd s)

/-- R42: a bit count that Table 2.2 does not list for the command. -/
def execFrameErr (code : Byte) (bits : Nat) (s : State) : Result :=
  if ¬ spiUp s then .next s
  else if bits < 8 then
    let (w, s) := drawBool s
    .next (spiFramingError w spiFrame s)
  else
    match spiBits code with
    | some n => if bits = n then .next s else .next (spiFramingError (code.toNat == 0x02 || code.toNat == 0x0A) spiFrame s)
    | none =>
      let (w, s) := drawBool s
      .next (spiFramingError w spiBadcmd s)

/-- R41: the read that was pending completes in the background, over a control channel that stands (01 R15). -/
def execSpiReadComplete (s : State) : Result :=
  match s.spi.pending with
  | none => .next s
  | some a =>
    if readLost .spi a.toNat s then .next s
    else
      let (x, v, s) := wordRead .spi a.toNat s
      .next (spiDone x v s)

/-- R43: the target answers the address that CRP_WS_ADDR holds, and no other. -/
def onWs (dev : BitVec 7) (f : State → State) (s : State) : Result :=
  .next (if dev = s.crp.wsAddr then f s else modWs (fun x => { x with answers := false }) s)

/-- R44, R501. -/
def execWsWrite (addrBytes : Nat) (a : WsAddr) (data : List Byte) (stop : Bool) (s : State) : Result :=
  onWs a.dev (wsStore addrBytes a.reg.toNat data stop) s

/-- R51. -/
def execWsGuardedWrite (a : WsAddr) (v c : Word) (s : State) : Result := onWs a.dev (masterPair .ws a.reg.toNat v c) s

/-- R43, R501. -/
def execWsRead (addrBytes : Nat) (a : WsAddr) (extra : Nat) (s : State) : Result := onWs a.dev (wsLoad addrBytes a.reg.toNat extra) s

/-- R45: the data is not ready within 50 µs; the read is abandoned without side effects. -/
def execWsReadTimeout (a : WsAddr) (s : State) : Result :=
  if a.dev ≠ s.crp.wsAddr then .next (modWs (fun x => { x with answers := false }) s)
  else if ¬ wsUp s then .next s
  else
    match wsAddress false a.reg.toNat s with
    | some x => .next (wsBadAddress false a.reg.toNat x s)
    | none => .next (noteFrame true false (wsEnd .addressRead [] s))

/-- R56: a stuck line for 25 ms. -/
def execMgmtPathLost (wakeSerial : Bool) (s : State) : Result :=
  if (if wakeSerial then s.ws.lost else s.spi.lost) ∨ ¬ clocksRun s then .next s else .next (pathLost wakeSerial 1 s)

/-- R48: a write completes in its domain while that runs, the RIM domain in every state (R46); during a spare-lane switch the write is held
(01 R15, R49). -/
def execPostedWriteComplete (busy : Fin 10) (s : State) : Result :=
  let held : Bool := if h : busy.val < 8 then (s.tile ⟨busy.val, h⟩).link.switching else false
  .next (if held || !(clocksRun s || (busy == 9 && wsUp s)) then s else postedDone busy s)

/-- R50: 64 CORE clocks have passed since the value word. -/
def execGuardWindowExpire (a : Addr) (s : State) : Result :=
  match s.acc.held.find? fun h => h.addr == a.toNat && !h.refused with
  | none => .next s
  | some h => .next (breakPair h s)

/-- R54. -/
def execAccLockWrite (m : Master) (v c : Word) (s : State) : Result := .next (masterPair m 0x1010 v c s)

/-- R61. -/
def execSemAcquire (m : Master) (n : Fin 16) (s : State) : Result := .next (masterRead m (0x1100 + 4 * n.val) s)

/-- R61: the holder writes 0 to bit 0. -/
def execSemRelease (m : Master) (n : Fin 16) (s : State) : Result := .next (masterWrite m (0x1100 + 4 * n.val) 0 s)

/-- R63. -/
def execSemForce (m : Master) (v c : Word) (s : State) : Result := .next (masterPair m 0x1020 v c s)

/-- R64, R65. -/
def execMbxDataWrite (m : Master) (b : Fin 24) (v : Word) (s : State) : Result := .next (masterWrite m (addrMbx b) v s)

/-- R64. -/
def execMbxDataRead (m : Master) (b : Fin 24) (s : State) : Result := .next (masterRead m (addrMbx b) s)

/-- R67: once per word. -/
def execMbxTimeout (b : Fin 24) (s : State) : Result :=
  let m := s.mbx.box[b]
  if m.full ∧ ¬ m.timedOut then .next (reportBox b (modBox b (fun m => { m with timeout := true, timedOut := true }) s)) else .next s

/-- Reads that clear their counter (00 Table 0.6, RC). -/
def execTtcPdropCntRead (m : Master) (s : State) : Result := .next (masterRead m 0x10018 s)
def execTtcTtCntRead (m : Master) (p : PortId) (s : State) : Result := .next (masterRead m (addrTt p 8) s)
def execCrlNorouteCntRead (m : Master) (s : State) : Result := .next (masterRead m 0x2000C s)
def execCrlQDropRead (m : Master) (q : QueueId) (s : State) : Result := .next (masterRead m (addrQueue q 0x14) s)
def execPortPdCntRead (m : Master) (p : PortId) (s : State) : Result := .next (masterRead m (addrPort p 0x114) s)
def execBudCntRead (m : Master) (s : State) : Result := .next (masterRead m 0x4000C s)
def execTileCntRead (m : Master) (t : TileId) (s : State) : Result := .next (masterRead m (addrTile t 0x18010) s)
def execCrpPsRefuseRead (m : Master) (s : State) : Result := .next (masterRead m 0x4828 s)

/-! ### Rows of other chapters that are one access to a register -/

/-- 03 R73, R74: TEAM_CTL. -/
def execTeamEnable (m : Master) (u : TeamId) (v : Word) (s : State) : Result := .next (masterWrite m (addrTeam u 0) v s)
def execTeamDisable (m : Master) (u : TeamId) (v : Word) (s : State) : Result := .next (masterWrite m (addrTeam u 0) v s)

/-- 03 R92: TEAM_QMASK. -/
def execTeamQmaskWrite (m : Master) (u : TeamId) (v : Word) (s : State) : Result := .next (masterWrite m (addrTeam u 0xC) v s)

/-- 03 R109: PORT_TEAM. -/
def execPortMove (m : Master) (p : PortId) (v c : Word) (s : State) : Result := .next (masterPair m (addrPort p 0) v c s)

/-- 04 R142: TTC_TT_CTL.STOP. -/
def execTtStop (m : Master) (p : PortId) (s : State) : Result := .next (masterWrite m (addrTt p 0) 1 s)

/-- 04 R143: TTC_TT_CTL.RESET. -/
def execTtReset (m : Master) (p : PortId) (s : State) : Result := .next (masterWrite m (addrTt p 0) 2 s)

/-- 05 R161: CRL_Qq_DATA. -/
def execQueueRead (m : Master) (q : QueueId) (s : State) : Result := .next (masterRead m (addrQueue q 4) s)

/-- 05 R164: CRL_Qq_CTL.FLUSH. -/
def execQueueFlush (m : Master) (q : QueueId) (s : State) : Result := .next (masterWrite m (addrQueue q 0x10) 1 s)

/-- 05 R170: CRL_Qq_CFG. -/
def execQueueEnable (m : Master) (q : QueueId) (v : Word) (s : State) : Result := .next (masterWrite m (addrQueue q 0) v s)
def execQueueDisable (m : Master) (q : QueueId) (v : Word) (s : State) : Result := .next (masterWrite m (addrQueue q 0) v s)
def execQueueCapChange (m : Master) (q : QueueId) (v : Word) (s : State) : Result := .next (masterWrite m (addrQueue q 0) v s)

/-- 05 R150: a write through the creel debug window. -/
def execDebugWindowWrite (m : Master) (a : Addr) (v : Word) (s : State) : Result := .next (masterWrite m a.toNat v s)

/-- 06 R225: TC_EN, PD_EN and ST_EN, the other fields as they stand. -/
def execTcEnWrite (m : Master) (p : PortId) (en : Bool) (s : State) : Result :=
  .next (masterWrite m (addrPort p 0x100) (setFld (s.port p).tc.cfg 15 15 (b2n en)) s)
def execPdEnWrite (m : Master) (p : PortId) (en : Bool) (s : State) : Result :=
  .next (masterWrite m (addrPort p 0x108) (setFld (s.port p).pd.cfg 31 31 (b2n en)) s)
def execStEnWrite (m : Master) (p : PortId) (en : Bool) (s : State) : Result :=
  .next (masterWrite m (addrPort p 0x108) (setFld (s.port p).pd.cfg 30 30 (b2n en)) s)

/-- 06 R226: BUD_PORTn. -/
def execBudHoldWrite (m : Master) (p : PortId) (v : Word) (s : State) : Result := .next (masterWrite m (0x40200 + 4 * p.val) v s)

/-- 07 R229: GRP_CFG.FEED_EN, the other fields as they stand. -/
def execFeedEnWrite (m : Master) (g : TileId) (en : Bool) (s : State) : Result :=
  .next (masterWrite m (addrGrp g 0) (setFld (s.grp g).cfg 15 15 (b2n en)) s)

/-- 07 R236: GRP_CFG.RAIL. -/
def execRailChange (m : Master) (g : TileId) (rail : Fin 4) (s : State) : Result :=
  .next (masterWrite m (addrGrp g 0) (setFld (s.grp g).cfg 13 12 rail.val) s)

/-- 07 R237: PORT_KEEPER. -/
def execKeeperWrite (m : Master) (p : PortId) (v c : Word) (s : State) : Result := .next (masterPair m (addrPort p 0x208) v c s)

/-- 07 Table 7.21: PORT_PWR_CMD, FW_OFF as it stands. -/
def execClrPfet (m : Master) (p : PortId) (s : State) : Result :=
  .next (masterWrite m (addrPort p 0x220) (pack [(1, 2), (b2n (s.port p).pw.fwOff, 0)]) s)
def execClrLatch (m : Master) (p : PortId) (s : State) : Result :=
  .next (masterWrite m (addrPort p 0x220) (pack [(1, 1), (b2n (s.port p).pw.fwOff, 0)]) s)
def execFwOffSet (m : Master) (p : PortId) (s : State) : Result := .next (masterWrite m (addrPort p 0x220) 1 s)
def execFwOffClear (m : Master) (p : PortId) (s : State) : Result := .next (masterWrite m (addrPort p 0x220) 0 s)

/-- 08 R275: TIM_SET_CTL. -/
def execImmediate (m : Master) (s : State) : Result := .next (masterWrite m 0x5028 1 s)
def execAtEdge (m : Master) (s : State) : Result := .next (masterWrite m 0x5028 2 s)

/-- 08 R278: TIM_FREQ. -/
def execTimFreqWrite (m : Master) (v : Word) (s : State) : Result := .next (masterWrite m 0x502C v s)

/-- 09 R332: TILE_CTL. -/
def execTileRun (m : Master) (t : TileId) (run : Byte) (s : State) : Result :=
  .next (masterWrite m (addrTile t 0x18000) (pack [(run.toNat, 0)]) s)
def execTileRestart (m : Master) (t : TileId) (restart run : Byte) (s : State) : Result :=
  .next (masterWrite m (addrTile t 0x18000) (pack [(restart.toNat, 8), (run.toNat, 0)]) s)

/-- 09 R298: a write through a tile program window. -/
def execProgramWindowWrite (m : Master) (a : Addr) (v : Word) (s : State) : Result := .next (masterWrite m a.toNat v s)

/-- 10 R346, 13 R433, 10 R345: CRP_RST_CMD. -/
def execChip (m : Master) (s : State) : Result := .next (masterPair m 0x4814 0x10000#32 (~~~0x10000#32) s)
def execSup (m : Master) (s : State) : Result := .next (masterPair m 0x4814 0x100#32 (~~~0x100#32) s)
def execTile (m : Master) (t : TileId) (s : State) : Result :=
  let v : Word := BitVec.ofNat 32 (2 ^ t.val)
  .next (masterPair m 0x4814 v (~~~v) s)

/-- 10 R359: PORT_PHY_CFG or TEAM_PHY_CFG. -/
def execPhyCfgWrite (m : Master) (a : Addr) (v : Word) (s : State) : Result := .next (masterWrite m a.toNat v s)

/-- 11 Table 11.12: BOOT_UPD_CMD. -/
def updIssue (m : Master) (code : Nat) (s : State) : State :=
  let v : Word := BitVec.ofNat 32 code
  masterPair m 0x6010 v (~~~v) s
def execBegin (m : Master) (s : State) : Result := .next (updIssue m 1 s)
def execWrite (m : Master) (s : State) : Result := .next (updIssue m 2 s)
def execVerify (m : Master) (s : State) : Result := .next (updIssue m 3 s)
def execActivate (m : Master) (s : State) : Result := .next (updIssue m 4 s)
def execAbort (m : Master) (s : State) : Result := .next (updIssue m 5 s)

/-- 11 R380: BOOT_CONFIRM. -/
def execConfirm (m : Master) (s : State) : Result := .next (masterPair m 0x6024 1 (~~~1#32) s)

/-- 12 R410: CRP_PS_CMD. -/
def execRetry (m : Master) (v c : Word) (s : State) : Result := .next (masterPair m 0x4840 v c s)

/-- 12 R405: CRP_RET_DATA. -/
def execRetDataAccess (m : Master) (write : Bool) (v : Word) (s : State) : Result :=
  .next (if write then masterWrite m 0x483C v s else masterRead m 0x483C s)

/-- 13 R412: FLT_STAT. -/
def execFltStatClear (m : Master) (hi : Bool) (v : Word) (s : State) : Result := .next (masterWrite m (if hi then 0x3000 else 0x3004) v s)

/-- 13 R422: FLT_LOST. -/
def execFltLostClear (m : Master) (s : State) : Result := .next (masterWrite m 0x3010 0x80000000#32 s)

/-- 13 R415: FLT_SRCn. -/
def execFltSrcWrite (m : Master) (n : Fin 64) (v c : Word) (s : State) : Result := .next (masterPair m (0x3200 + 8 * n.val) v c s)

/-- 13 Table 13.18: FLT_SWREP. -/
def execSwFault (m : Master) (v : Word) (s : State) : Result := .next (masterWrite m 0x3038 v s)

/-- 13 R426: FLT_INJ. -/
def execFaultInject (m : Master) (v c : Word) (s : State) : Result := .next (masterPair m 0x3028 v c s)

/-- 13 R432: FLT_SUP_CMD.DONE. -/
def execDone (m : Master) (s : State) : Result := .next (masterWrite m 0x3020 1 s)

end Sys2Proof.Machine
end

