-- ==== Sys2Proof/Machine/Fault.lean ====
section
/-!
DEFINITION. Machine/Fault.lean: meanings of chapter 13's commands that no register access makes, and of the die-to-die links
(01 R14, R15).
-/
namespace Sys2Proof.Machine

/-- The thread whose data memory holds a word that TMEM2_t names: 512 words each (09 R296). -/
def dataThread (t : TileId) (detail : Word) : PortId := portOf t (Fin.ofNat 8 (fld detail 13 9))

/-- The supervisor's program answers TMEM2_t: of a program region by reloading the tile from the running slot, of a thread's data memory
by restarting that thread (R441). -/
def reloadOnFault (src : Fin 64) (detail : Word) (s : State) : State :=
  match tileSource src with
  | some (t, 3) =>
    if ¬ supUp s then s
    else if bitOf detail 15 then (if s.flt.safe then s else restartThread (dataThread t detail) s)
    else if s.boot.rescue then s
    else (reloadTile s.boot.slot t s).getD s
  | _ => s

/-- R412: the collector latches what a source's error line reports: the report that waits on the line, or one from outside the
model's own sources. -/
def execFaultReport (src : Fin 64) (detail : Word) (s : State) : Result :=
  if ¬ clocksRun s then .next s
  else
    match s.flt.lines.find? fun l => l.src == src with
    | some l =>
      .next (allEv (fun s => reloadOnFault src l.detail (latchReport src l.detail l.handled s)) (modFlt (fun f => { f with lines := f.lines.erase l }) s))
    | none => .next (allEv (fun s => reloadOnFault src detail (latchReport src detail false s)) s)

/-- R420: 2 µs after the engine took a report. -/
def execScorecardRecord (s : State) : Result := .next (if clocksRun s then recordEntry s else s)

/-- R427: an upset makes the copies of a register differ; in the same cycle the safe state is entered. -/
def execCollectorMismatch (index : Nat) (s : State) : Result :=
  .next (if clocksRun s then allEv (fun s => collectorCheck (spoilCopy index s)) s else s)

/-- The two cores run: on the image, in a boot, or on the warm path from m3 to m5 (R431, R434). -/
def coresRun (s : State) : Bool := clocksRun s && !s.flt.safe && (s.sup.run || s.pwr.phase == .boot || (s.flt.inWr && !s.flt.m5))

/-- R431: every SUP cycle is compared. Where core A stands in the boot ROM is open (log 6). -/
def execLockstepMismatch (s : State) : Result :=
  if ¬ coresRun s then .next s
  else
    let (pc, s) := if s.sup.run then (s.sup.pc, s) else drawWord s
    .next (allEv (latchReport fLockstep pc false) s)

/-- R440: the watchdog counts in every state but WAIT in IDLE, SLEEP or DEEP, and not between m0 and m5. -/
def execSupWatchdog (s : State) : Result :=
  if clocksRun s ∧ s.sup.run ∧ ¬ (s.sup.st = .wait ∧ s.crp.st ≠ .run) then .next (allEv (latchReport fSupWdog s.sup.pc false) s) else .next s

/-- R434: m4 and m5. -/
def execWarmScrubEnd (uncorrectable digestOk : Bool) (s : State) : Result :=
  if s.flt.inWr ∧ ¬ s.flt.m5 ∧ ¬ s.flt.safe then .next (warmPath uncorrectable digestOk s) else .next s

/-- R428: WR_LIMIT has passed since m5. -/
def execDoneTimeout (s : State) : Result :=
  if s.flt.inWr ∧ s.flt.m5 ∧ ¬ s.flt.safe then .next (allEv (enterSafe 4 false) s) else .next s

/-- R437: the watchdog of a thread that runs or stalls expires. -/
def execWeaverWatchdog (p : PortId) (s : State) : Result :=
  let c := cpuOf s (.weaver p)
  let counts : Bool := match c.st with | .running | .stallSend | .stallRld | .stallFence => true | _ => false
  if clocksRun s ∧ c.run ∧ counts then
    .next (portEv p (fun s => hwRestart p (raiseLine true (fWeaver (tileOf p)) (pack [((laneOf p).val, 16), (1, 0)]) s)) s)
  else .next s

/-- The rim slice detaches a port (R439). -/
def rimDetachPort (p : PortId) (vbus : Nat) (s : State) : State := hwDetach p 0 false vbus s

/-- R439: with the weaver halted, or in the safe state. -/
def execRimDetach (p : PortId) (vbus : Nat) (s : State) : Result :=
  if ¬ weaverLives s p ∧ (s.port p).tc.st = .attached ∧ attachedCc (s.port p).tc = .vOpen then .next (portEv p (rimDetachPort p vbus) s) else .next s

/-! ### Die-to-die links (01 R14, R15, 13 R442, R443) -/

def modLink (t : TileId) (f : Link → Link) (s : State) : State := modTile t (fun x => { x with link := f x.link }) s

/-- LINK_t reports a kind and a lane. -/
def linkReport (t : TileId) (kind : Nat) (lane : Lane) (s : State) : State := raise (fLink t) (pack [(kind, 4), (lane.val, 0)]) s

/-- A second failure: the lane's ports are disabled, or the tile is isolated (R443). LANE2 keeps the first lane that failed so (log 150). -/
def secondFailure (t : TileId) (lane : Lane) (s : State) : State :=
  let s := linkReport t 2 lane (modLink t (fun l => { l with second := l.second.orElse fun _ => some lane, failed := l.failed ++ [lane] }) s)
  if lane.val = 8 then linkReport t 3 lane (isolateTile t s)
  else
    forEach (portsOf t) (fun p s =>
      match servedBy s p with
      | some u => if (s.port p).hub.enable ∧ laneLost s p u (s.port p).hub.highSpeed then portChange p cEnable (stopServing p s) else s
      | none => s) s

/-- A failure engages the spare; with the spare in use it is a second failure, once for each lane (01 R14, R442, R443). -/
def laneFailure (t : TileId) (lane : Lane) (s : State) : State :=
  let l := (s.tile t).link
  if l.spare.isNone then
    linkReport t 1 lane (modLink t (fun l => { l with spare := some lane, switching := true, fails := 0, failed := l.failed.filter (· != lane) ++ [lane] }) s)
  else if (lostLanes l).contains lane then s
  else secondFailure t lane s

def execLinkLaneFault (t : TileId) (lane : Lane) (s : State) : Result := .next (if clocksRun s then allEv (laneFailure t lane) s else s)

def execLinkSecondFailure (t : TileId) (lane : Lane) (s : State) : Result :=
  if clocksRun s ∧ (s.tile t).link.spare.isSome then .next (allEv (laneFailure t lane) s) else .next s

/-- R15: the replacement takes effect. -/
def execSpareLaneSwitchDone (t : TileId) (s : State) : Result := .next (modLink t (fun l => { l with switching := false }) s)

/-- R14: a frame on a control channel that the spare is replacing is lost (R15). A frame whose CRC fails is resent; after three failed resends the channel has failed. An armed injection of mode 5 spoils
it (13 R426). -/
def execControlFrame (t : TileId) (crcOk : Bool) (s : State) : Result :=
  if ¬ clocksRun s ∨ laneSwitching s t laneControl then .next s
  else
  let hit := injArmed s 5 5 t.val
  let s := if hit then injDone s else s
  let l := (s.tile t).link
  if crcOk ∧ ¬ hit then .next (modLink t (fun l => { l with fails := 0 }) s)
  else if l.fails < 3 then .next (modLink t (fun l => { l with fails := l.fails + 1, resends := satInc l.resends 0xFFFF }) s)
  else .next (allEv (laneFailure t 8) (modLink t (fun l => { l with fails := 0 }) s))

/-- R443: the training that follows a tile reset fails; the tile stays isolated. -/
def execLinkTrainingFailed (t : TileId) (s : State) : Result :=
  if (s.tile t).ready ∨ ¬ (s.tile t).on then .next s
  else
    let (n, s) := drawNat s
    .next (allEv (fun s => linkReport t 4 (Fin.ofNat 9 n) (modLink t (fun l => { l with isolated := true, trained := false }) s)) s)

end Sys2Proof.Machine
end

