-- ==== Sys2Proof/Machine/Tt.lean ====
section
/-!
DEFINITION. Machine/Tt.lean: the commands of chapter 04 but for its register writes, and the SOFs of a UFP with their
correlation entries (08 R282).
-/
namespace Sys2Proof.Machine

/-! ### SOFs (R123, 08 R282, 10 R358) -/

/-- One entry in every 2^DIV SOFs; at high speed DIV below 2 acts as 2 (08 R282). -/
def corrEvery (s : State) (u : TeamId) : Nat :=
  let d := fld s.tim.corrCfg 2 0
  2 ^ (if (s.team u).speed = some .high then max 2 d else d)

/-- A correlation entry (08 Table 8.5, R284); the ring's first entry is number 0 in slot 0. -/
def corrEntry (u : TeamId) (st : Stamp) (s : State) : State :=
  let t := s.team u
  let c := t.corr
  let now := st.sec * nsPerSec + st.ns
  let delta := match c.prev with | some p => min 0xFFFFFFFF (now - p) | none => 0
  let seq := if c.any then c.seq + 1 else 0
  let slot : Fin 8 := if c.any then c.newest + 1 else 0
  let lost := decide (8 ≤ c.unsent)
  let e : CorrEntry :=
    { w0 := pack [(b2n st.tq, 31), (u.val, 28), (seq.toNat, 16), (if t.speed = some .high then 2 else 1, 14), (t.frame % 2048, 3), (t.uframe % 8, 0)]
      w1 := BitVec.ofNat 32 st.sec, w2 := pack [(st.ns, 0)], w3 := BitVec.ofNat 32 delta }
  modTeam u (fun t => { t with corr := { c with
    seq := seq, newest := slot, any := true, entries := c.entries.set slot e, sofs := 0, unsent := min 8 (c.unsent + 1)
    ovf := c.ovf || lost, prev := some now } }) s

/-- Every SOF is stamped and counted towards an entry. -/
def corrSof (u : TeamId) (s : State) : State :=
  let (st, s) := takeStamp none s
  let s := modTeam u (fun t => { t with corr := { t.corr with sofs := t.corr.sofs + 1 } }) s
  if corrEvery s u ≤ (s.team u).corr.sofs then corrEntry u st s else s

/-- A port takes part in the repeat path of the team that serves it: enabled, not suspended, in L1, in reset or in test, and its TT not
in the reset that ends its service (03 R89, R107). -/
def onPath (s : State) (u : TeamId) (p : PortId) : Bool :=
  let h := (s.port p).hub
  servedBy s p == some u && h.enable && (!h.suspend || h.lingers) && !h.l1 && !h.reset && h.test.isNone && !(s.tt p).resetting

/-- The repeat path joins team u and port p for packets of a speed: at high speed the high-speed ports; on a team at full speed its
full-speed ports, and its low-speed ports after a PRE packet (03 R89, R90). -/
def repeatReaches (s : State) (u : TeamId) (sp : Speed) (p : PortId) : Bool :=
  let h := (s.port p).hub
  onPath s u p &&
    match (s.team u).speed, sp with
    | some .high, .high => h.highSpeed
    | some .full, .full => !h.lowSpeed
    | some .full, .low => h.lowSpeed
    | _, _ => false

/-- High-speed ports of a team that the downstream lane reaches (03 R89); a packet on a lane that the spare is replacing is lost (01 R15). -/
def laneReaches (s : State) (u : TeamId) (p : PortId) : Bool := repeatReaches s u .high p && !laneSwitching s (tileOf p) (laneDown u)

/-- A packet, a SOF or another, goes down the lanes of team u. -/
def repeatDown (u : TeamId) (sp : Speed) (sof : Bool) (s : State) : State :=
  let ps := (fins 64).filter fun p => repeatReaches s u sp p && !laneSwitching s (tileOf p) (laneDown u)
  onlyIf (sp == .high) (forEach ps (portEop sof)) (modTeam u (fun t => { t with sentDown := ps }) s)

/-- Traffic to the ports that were selectively suspended since the last boundary stops (03 R97). -/
def endLinger (u : TeamId) (s : State) : State :=
  forEach (portsOfTeam s u) (fun p => modHub p fun h => { h with lingers := false }) s

/-- A microframe boundary of team u. -/
def nextUframe (u : TeamId) (s : State) : State := endLinger u (modTeam u (fun t => { t with count := t.count + 1 }) s)

/-- An SOF from the host (R123); one whose frame number is new begins its frame (log 157). -/
def execUfpSof (u : TeamId) (frame : Nat) (s : State) : Result :=
  .next <|
    if ¬ awake s u then s
    else if (s.team u).speed = some .high then
      let s := nextUframe u (modTeam u (fun t => { t with
        counting := true, uframe := if t.frame = frame % 2048 then (t.uframe + 1) % 8 else 0, frame := frame % 2048 }) s)
      corrSof u (repeatDown u .high true s)
    else corrSof u (repeatDown u .full true (endLinger u (modTeam u (fun t => { t with counting := true, frame := frame % 2048, uframe := 0 }) s)))

/-- The boundary of a missing SOF (R123), once a first SOF has come; it makes no entry and is not counted (08 R282). -/
def execMicroframeTimeout (u : TeamId) (s : State) : Result :=
  .next <|
    if awake s u ∧ (s.team u).speed = some .high ∧ (s.team u).counting then
      nextUframe u (modTeam u (fun t => { t with
        uframe := (t.uframe + 1) % 8, frame := if t.uframe = 7 then (t.frame + 1) % 2048 else t.frame }) s)
    else s

/-- At the start of microframe 0 the engine sends an SOF token with the frame number on a full-speed port, and a keep-alive on a
low-speed port (R138). -/
def startFrame (t : TileId) (u : TeamId) (s : State) : State :=
  forEach ((portsOf t).filter fun p => standing s p && servedBy s p == some u && onPath s u p)
    (fun p => modHub p fun h => { h with frameMark := some (s.team u).frame }) s

/-- The marker reaches the tile: work of the microframe it marks may start there (R137); lost with its lane (01 R15). -/
def execMicroframeMarker (t : TileId) (u : TeamId) (s : State) : Result :=
  .next <|
    if laneSwitching s t laneControl then s
    else
      onlyIf ((s.team u).uframe == 0 && awake s u && (s.team u).speed == some .high) (startFrame t u)
        (modTile t (fun x => { x with micro := x.micro.set u (s.team u).count }) s)

/-! ### Start-splits and complete-splits (R114 to R116, R118 to R136) -/

/-- A start-split with the wrong speed or type (R116). -/
def wrongSpeed (p : PortId) (s : State) : State := ttcError 1 p s

def execStartSplitPeriodic (u : TeamId) (port dev ep : Nat) (dirIn : Bool) (ty : XferType) (low : Bool) (part : SplitPart) (data : List Byte) (s : State) : Result :=
  .next <|
    let s := answer u .none s
    match splitPort s u port with
    | none => s
    | some p =>
      if ¬ speedAgrees s p low ty ∨ ty = .control ∨ ty = .bulk then wrongSpeed p s
      else if ¬ ttOpen s p then s
      else
        let data := if dirIn then [] else data
        let x : Txn := { dev := dev, ep := ep, dirIn := dirIn, setup := false, ty := ty }
        let y := (s.team u).count + 1
        match part with
        | .whole => openPeriodic p y x data s
        | .first => openPeriodic p y { x with whole := false } data s
        | .mid => feedOut p dev ep false data s
        | .last => feedOut p dev ep true data s

def execStartSplitNonperiodic (u : TeamId) (port dev ep : Nat) (dirIn setup : Bool) (ty : XferType) (low crcOk : Bool) (data : List Byte) (s : State) : Result :=
  .next <|
    match splitPort s u port with
    | none => answer u .none s
    | some p =>
      if ¬ speedAgrees s p low ty ∨ ty = .iso ∨ ty = .intr then answer u .none (wrongSpeed p s)
      else
        openNonperiodic u p { dev := dev, ep := ep, dirIn := dirIn, setup := setup, ty := ty } (crcOk || dirIn)
          (if dirIn then [] else data) s

/-- The context store has an uncorrectable error in a context's place (R136, 13 R414). -/
def ctxBad (s : State) (slot : Nat) : Bool := (List.range 16).any fun i => eccAt s .context (16 * slot + i) == some true

/-- No context matches (R132, R133). -/
def orphan (u : TeamId) (p : PortId) (ty : XferType) (s : State) : State :=
  answer u (if ty = .iso ∨ ty = .intr then .err else .none) (ttcError 0 p s)

def execCompleteSplit (u : TeamId) (port dev ep : Nat) (dirIn : Bool) (ty : XferType) (s : State) : Result :=
  .next <|
    if ¬ awake s u ∨ (s.team u).speed ≠ some .high then answer u .none s
    else
      match csPort s u port with
      | none => answer u (if ty = .iso ∨ ty = .intr then .err else .none) (modTtc (fun x => { x with err := orBit x.err 0 }) (raise fTtc 1 s))
      | some p =>
        let q (_ : Ctx) (x : Txn) : Bool := sameEp x dev ep dirIn && x.ty == ty
        match findTxn (s.tt p) q with
        | none => orphan u p ty s
        | some (c, _) =>
          let s := if ctxBad s c.slot then eccDrop p c.slot s else ctxFix c.slot s
          match findTxn (s.tt p) q with
          | none => s
          | some (c, x') =>
            let cnt := (s.team u).count
            let sends := match csAnswer s cnt c x' with | .data _ _ | .mdata _ => true | _ => false
            if sends && unitsBad s (csUnits cnt c x') then answer u .corrupt (eccDrop p c.slot s)
            else answer u (csAnswer s cnt c x') (modFirst p q (csBooks cnt c) (onlyIf sends (unitsFix (csUnits cnt c x')) s))

/-! ### The port bus (R124, R125, R129, R137 to R140) -/

/-- A waiting transaction. -/
def isWaiting (_ : Ctx) (x : Txn) : Bool := x.phase == .waiting

/-- The descriptor of the oldest transaction without one goes to the tile; OUT data with an uncorrectable error drops it. On a control
channel that the spare is replacing it is lost (R139). -/
def execTtDescriptor (p : PortId) (s : State) : Result :=
  .next <|
    if ¬ clocksRun s then s
    else
    match findTxn (s.tt p) isWaiting with
    | none => s
    | some (c, x) =>
      if ctxBad s c.slot ∨ (¬ x.dirIn ∧ unitsBad s x.held) then eccDrop p c.slot s
      else modFirst p isWaiting (fun x => { x with phase := .ready, lost := laneSwitching s (tileOf p) laneControl }) (onlyIf (!x.dirIn) (unitsFix x.held) (ctxFix c.slot s))

/-- The engine may run transactions on the port; a team that is suspended or in L1 starts none (03 R96, R97). -/
def busOpen (s : State) (p : PortId) : Bool :=
  let h := (s.port p).hub
  standing s p && (match servedBy s p with | some u => awake s u | none => false) && (!h.suspend || h.lingers) && !h.l1 && !h.reset && !(s.tt p).stopped && !(s.tt p).stopNext && !(s.tt p).resetting && !busBusy s p

/-- The first transaction that the condition names goes onto the port bus; OUT data with an uncorrectable error drops it instead (R136). -/
def startTxn (p : PortId) (q : Ctx → Txn → Bool) (s : State) : State :=
  match findTxn (s.tt p) q with
  | none => s
  | some (c, x) =>
    if ¬ x.dirIn ∧ unitsBad s x.held then eccDrop p c.slot s
    else
      modTt p (fun t => { t with onBus := true })
        (modFirst p q (fun y => { y with phase := .running }) (onlyIf (!x.dirIn) (unitsFix x.held) s))

/-- `fits`: the transaction's worst-case duration ends before the boundary that R129 names. -/
def execPortBusTxnStart (p : PortId) (fits : Bool) (s : State) : Result :=
  .next <|
    if ¬ busOpen s p then s
    else
      let per := periodicReady s p
      let np (c : Ctx) (x : Txn) : Bool := !c.periodic && x.phase == .ready && !x.lost
      if (findTxn (s.tt p) per).isSome then startTxn p per s
      else if fits ∧ (findTxn (s.tt p) np).isSome then startTxn p np s
      else s

def isRunning (_ : Ctx) (x : Txn) : Bool := x.phase == .running

/-- The frame carries data and does not end the transaction. -/
def unfinished (r : BusResult) : Bool := match r with | .moreData _ => true | _ => false

/-- The result frame; one whose context is gone ends the transaction on the port bus all the same. A frame on a control channel that
the spare is replacing is lost (01 R15, R139). -/
def execTtResult (p : PortId) (r : BusResult) (s : State) : Result :=
  .next <|
    if ¬ clocksRun s ∨ laneSwitching s (tileOf p) laneControl then s
    else
    match findTxn (s.tt p) isRunning with
    | none => if (s.tt p).onBus ∧ ¬ unfinished r then afterBus p s else s
    | some (_, x) =>
      let fin (ph : TxnPhase) (s : State) : State := afterBus p (modFirst p isRunning (fun x => { x with phase := ph }) s)
      if ¬ x.whole then fin .failed (pdrop p s)
      else
        match r with
        | .data _ bytes => afterBus p (arrive p x bytes (.complete r) s)
        | .moreData bytes => arrive p x bytes .running s
        | .err => fin (.complete r) (busError p s)
        | _ => fin (.complete r) s

/-- A transaction whose descriptor was lost, and which waits for its result. -/
def isLost (_ : Ctx) (x : Txn) : Bool := x.phase == .ready && x.lost

/-- The transaction whose result is lost: one whose descriptor was lost, else the one on the port bus, else one that the tile holds. -/
def lostTxn (t : Tt) : Option (Ctx × Txn) :=
  (findTxn t isLost).orElse fun _ => (findTxn t isRunning).orElse fun _ =>
    if t.onBus then none else findTxn t fun _ x => x.phase == .ready

/-- 1.5 ms after the descriptor of the oldest transaction in the tile: its context is retired, with every transaction in it that has
no result, and the port bus is free; the transaction on it may have lost its context before (R125, R139). -/
def execTtResultLost (p : PortId) (s : State) : Result :=
  .next <|
    if ¬ clocksRun s then s
    else
    match lostTxn (s.tt p) with
    | none => if (s.tt p).onBus then afterBus p (ttcError 5 p s) else s
    | some (c, x) =>
      let s := ttcError 5 p (modTxns p (fun d x => d.slot == c.slot && !x.ended) (fun x => { x with phase := .retired }) s)
      let s := onlyIf c.periodic (pdropCount (c.txns.filter fun x => !x.ended).length) s
      if x.lost then s else afterBus p s

/-- A periodic transaction of TT p whose window has ended (R124). -/
def isLate (s : State) (p : PortId) (c : Ctx) (x : Txn) : Bool :=
  match servedBy s p with
  | some u => c.periodic && (x.phase == .waiting || x.phase == .ready) && decide (c.y + (if (s.port p).hub.lowSpeed then 2 else 1) < (s.team u).count)
  | none => false

/-- R124, in a stopped TT too (log 160). -/
def execLateDrop (p : PortId) (s : State) : Result :=
  .next <|
    if clocksRun s ∧ (findTxn (s.tt p) (isLate s p)).isSome then
      pdropCount 1 (ttcError 2 p (modFirst p (isLate s p) (fun x => { x with phase := .failed }) s))
    else s

/-- End of microframe Y + 4 (R125): also a context whose transaction is still on the port bus. -/
def execPeriodicContextExpire (p : PortId) (s : State) : Result :=
  .next <|
    match servedBy s p with
    | some u => freeCtxs p (fun c => c.periodic && decide (c.y + 4 < (s.team u).count)) s
    | none => s

/-- NP_HOLD after the first answer, counted while the team is awake (R130). -/
def execNpHoldExpire (p : PortId) (dev ep : Nat) (dirIn : Bool) (s : State) : Result :=
  .next <|
    match servedBy s p with
    | some u =>
      if awake s u then
        freeCtxs p (fun c => !c.periodic && c.txns.any fun x => sameEp x dev ep dirIn && x.ended && x.answeredAt.isSome) s
      else s
    | none => s

/-- The status stage of a request that waited for a TT completes (R141, R143). -/
def execTtResetEnd (p : PortId) (s : State) : Result := .next (if clocksRun s then endResetTt p s else s)

end Sys2Proof.Machine
end

