-- ==== Sys2Proof/Machine/Hub.lean ====
section
/-!
DEFINITION. Machine/Hub.lean: the commands of chapter 03 that come from the hosts, the ports and the devices on them. A
command whose condition does not hold has no effect (log 12).
-/
namespace Sys2Proof.Machine

/-- A team command. -/
def onTeam (ok : State → Bool) (f : State → State) (s : State) : Result := .next (allEv (fun s => if ok s then f s else s) s)

/-- An event of the hub logic, whose clocks must run (12 R392). -/
def onHub (ok : State → Bool) (f : State → State) (s : State) : Result := onTeam (fun s => clocksRun s && ok s) f s

/-- A request of the host. -/
def onReq (f : State → State) (s : State) : Result := .next (allEv f s)

/-- The next correlation entry has no base (08 Table 8.5). -/
def corrFresh (u : TeamId) (s : State) : State := modTeam u (fun t => { t with corr := { t.corr with prev := none, sofs := 0 } }) s

/-! ### The upstream port (R74 to R77, R96 to R101, R104) -/

def execUuVbusValid (u : TeamId) (s : State) : Result := onTeam (fun _ => true) (modTeam u fun t => { t with vbusOk := true }) s

/-- Uu_VBUS has been valid for 10 ms with EN = 1 (R74). -/
def execTeamAttach (u : TeamId) (s : State) : Result :=
  onHub (fun s => teamEn s u && (s.team u).vbusOk && (s.team u).st == .detached)
    (fun s => corrFresh u (setTeamSt u .attached (modTeam u (fun t => { t with pullUp := true, speed := some .full }) s))) s

/-- Ports whose withdrawn Rp is presented again (R73). -/
def rpBack (s₀ s : State) : State := forEach ((fins 64).filter fun p => (s₀.port p).hub.rpOff && !(s.port p).hub.rpOff) followPower s

/-- Uu_VBUS becomes invalid (R75); in DEEP the rim releases its pull-up. -/
def execTeamDetach (u : TeamId) (s : State) : Result :=
  onTeam (fun _ => true) (fun s =>
    let s' := modTeam u (fun t => { t with vbusOk := false }) s
    if ¬ (s.team u).pullUp then s'
    else if coreUp s then rpBack s (detachTeam u s')
    else modTeam u (fun t => { t with pullUp := false }) s') s

/-- A bus reset; the chirp handshake gives high speed unless FS_ONLY was sampled (R74, R104). -/
def execBusReset (u : TeamId) (chirp : Bool) (s : State) : Result :=
  onHub (fun s => (s.team u).pullUp) (fun s₀ =>
    let s := updBusReset u (rpBack s₀ (busResetEffects u s₀))
    let high := chirp && !(s.team u).fsOnly
    let s := modTeam u (fun t => { t with
      speed := some (if high then .high else .full), under := .default
      phy := if high then phyStart t.phyCfg (Config.factoryTeamPe u) (Config.factoryTeamSquelch u) 0 else t.phy }) s
    setTeamSt u .default s) s

def execTeamSuspend (u : TeamId) (s : State) : Result :=
  onHub (fun s => awake s u || (s.team u).st == .attached)
    (fun s => stationWake u (setTeamSt u .suspended (modTeam u (fun t => { t with
      under := t.st, drivingK := false, counting := false, wakePorts := [], stationWoke := false }) s))) s

/-- A change of the station function. -/
def modStation (u : TeamId) (f : Station → Station) (s : State) : State := modTeam u (fun t => { t with station := f t.station }) s

/-- The station function ends its selective suspend. -/
def stationResume (u : TeamId) (s : State) : State :=
  if (s.team u).station.suspended then addChange u 65 cSuspend (modStation u (fun x => { x with suspended := false }) s) else s

/-- The host's resume wins over a remote wake: every port that signalled one, and the station function, ends with SUSPEND 0 and
C_SUSPEND set once (R99). -/
def execHostResume (u : TeamId) (s : State) : Result :=
  onHub (fun s => (s.team u).st == .suspended) (fun s =>
    let ps := (s.team u).wakePorts
    let stn := (s.team u).stationWoke
    let s := corrFresh u (resumeTeam u (modTeam u (fun t => { t with wakePorts := [], stationWoke := false }) s))
    forEach ps resumeDone (onlyIf stn (stationResume u) s)) s

/-- A device that leaves L1 by its own K sets C_L1; the host's exit in progress goes on as the one exit (R103). -/
def leaveL1 (p : PortId) (s : State) : State :=
  if (s.port p).hub.l1 ∧ ¬ (s.port p).hub.l1Resuming then portChange p cL1 (modHub p (fun h => { h with l1 := false }) s) else s

/-- A remote wake of a port on a suspended team, on a team in L1, or on a team that is awake (R98, R101, R103); a resume that the
host has asked for stays the host's (R99). -/
def remoteWake (u : TeamId) (p : PortId) (s : State) : State :=
  match (s.team u).st with
  | .suspended => if (s.team u).rwakeEn then startWake u p (leaveL1 p s) else s
  | .l1 =>
    let s := leaveL1 p s
    if (s.team u).l1Wake then modTeam u (fun t => { t with drivingK := true }) s else s
  | _ =>
    if (s.port p).hub.l1 then leaveL1 p s
    else if (s.port p).hub.suspend ∧ ¬ (s.port p).hub.resuming then modHub p (fun h => { h with resuming := true, devResume := true }) s
    else s

def execRemoteWakeK (p : PortId) (s : State) : Result :=
  onHub (fun s => (s.port p).hub.enable) (fun s => match servedBy s p with | some u => remoteWake u p s | none => s) s

/-- The team stops driving K: a suspended team waits for the host, a team in L1 leaves it (R98, R101). -/
def execRemoteWakeDriveEnd (u : TeamId) (s : State) : Result :=
  onHub (fun s => (s.team u).drivingK) (fun s =>
    if (s.team u).st = .l1 then corrFresh u (resumeTeam u s) else modTeam u (fun t => { t with drivingK := false }) s) s

/-- What keeps a team out of L1 (R100): a resume that a host asked for is no remote wake. -/
def l1Busy (s : State) (u : TeamId) : Bool :=
  let t := s.team u
  let ps := portsOfTeam s u
  (ps.any fun p => let h := (s.port p).hub; h.enable && !h.suspend && !h.l1 && hubPower s u (hubPortOf p)) || !t.station.l1 ||
    (ps.any fun p => !(s.tt p).ctxs.isEmpty) || t.drivingK || ps.any fun p => (s.port p).hub.resuming && (s.port p).hub.devResume

def execLpmToken (u : TeamId) (l1 : Bool) (besl : Fin 16) (remoteWake : Bool) (s : State) : Result :=
  onReq (onHost u (fun s =>
    if ¬ (s.team u).lpmEn ∨ ¬ l1 then answer u .stall s
    else if besl.val < 2 ∨ l1Busy s u then answer u .nyet s
    else stationWake u (setTeamSt u .l1 (modTeam u (fun t => { t with under := t.st, l1Wake := remoteWake, counting := false }) (answer u .ack s))))) s

def execL1Exit (u : TeamId) (s : State) : Result :=
  onHub (fun s => (s.team u).st == .l1) (fun s => corrFresh u (resumeTeam u s)) s

/-! ### Standard requests (R78, R79, R91, R104, R115) -/

/-- A standard request of the hub or the station function. -/
def stdReq (u : TeamId) (d : TeamDevice) (f : State → State) (s : State) : State :=
  match d with
  | .hub => onHost u f s
  | .station => stationReq u f s

def execGetDescriptor (u : TeamId) (d : TeamDevice) (k : DescKind) (len : Nat) (s : State) : Result :=
  onReq (stdReq u d (fun s => answerBytes u len (descriptor s u d k) s)) s

/-- At full speed the configuration holds only alternate setting 0 (R78). -/
def execSetInterface (u : TeamId) (alt : Nat) (s : State) : Result :=
  onReq (onHost u (fun s =>
    if (s.team u).st = .configured ∧ (alt = 0 ∨ (alt = 1 ∧ (s.team u).speed = some .high)) then
      accept u (modTeam u (fun t => { t with multiTt := alt == 1 }) s)
    else answer u .stall s)) s

def execSetAddress (u : TeamId) (d : TeamDevice) (addr : BitVec 7) (s : State) : Result :=
  onReq (stdReq u d (fun s =>
    let st' : UsbState := if addr = 0 then .default else .address
    match d with
    | .hub => setTeamSt u (if (s.team u).st = .configured then .configured else st') (modTeam u (fun t => { t with addr := addr.toNat }) (accept u s))
    | .station =>
      accept u (modTeam u (fun t => { t with station :=
        { t.station with addr := addr.toNat, st := if t.station.st = .configured then .configured else st' } }) s))) s

/-- Configuration 1, or 0 for none; any other value, or the Default state, is answered STALL. -/
def execSetConfiguration (u : TeamId) (d : TeamDevice) (cfg : Nat) (s : State) : Result :=
  onReq (stdReq u d (fun s =>
    let st := match d with | .hub => (s.team u).st | .station => (s.team u).station.st
    let st' : UsbState := if cfg = 0 then .address else .configured
    if st = .default ∨ 1 < cfg then answer u .stall s
    else
      match d with
      | .hub => setTeamSt u st' (modTeam u (fun t => { t with multiTt := false }) (accept u s))
      | .station => accept u (modTeam u (fun t => { t with station := { t.station with st := st' } }) s))) s

def execDeviceRemoteWakeup (u : TeamId) (d : TeamDevice) (on : Bool) (s : State) : Result :=
  onReq (stdReq u d (fun s =>
    match d with
    | .hub => accept u (modTeam u (fun t => { t with rwakeEn := on }) s)
    | .station => accept u (modTeam u (fun t => { t with station := { t.station with rwake := on } }) s))) s

/-! ### Hub class requests (R80 to R86, R97, R102, R103) -/

/-- Selectors C_HUB_LOCAL_POWER (0) and C_HUB_OVER_CURRENT (1). -/
def execClearHubFeature (u : TeamId) (sel : Nat) (s : State) : Result :=
  onReq (classReq u false (fun s => if sel < 2 then accept u s else answer u .stall s)) s

/-- A feature of a port: on hub port 65 the station function's, on an owned port the port's; elsewhere accepted without
effect (R81, R82). -/
def feature (u : TeamId) (n : Nat) (station : State → State) (port : PortId → State → State) (s : State) : State :=
  accept u (if n = 65 then station s else match ownedPort s u n with | some p => port p s | none => s)

def execClearPortEnable (u : TeamId) (port : Nat) (s : State) : Result :=
  onReq (portReq u port false (feature u port (modStation u fun x => { x with enabled := false })
    (fun p s => if (s.port p).hub.enable then stopServing p s else s))) s

def execSetPortSuspend (u : TeamId) (port : Nat) (s : State) : Result :=
  onReq (portReq u port false (feature u port (fun s => stationWake u (modStation u (fun x => { x with suspended := x.enabled }) s))
    (fun p => modHub p (fun h => { h with suspend := h.suspend || h.enable, lingers := h.lingers || (h.enable && !h.suspend) })))) s

def execClearPortSuspend (u : TeamId) (port : Nat) (s : State) : Result :=
  onReq (portReq u port false (feature u port (stationResume u) (fun p => modHub p (fun h => { h with resuming := h.suspend, devResume := false })))) s

def execPortResumeComplete (p : PortId) (s : State) : Result := onHub (fun s => (s.port p).hub.resuming) (resumeDone p) s

/-- Port reset: no effect without a connection; the station function is reset at once (R82, Table 3.8). -/
def execSetPortReset (u : TeamId) (port : Nat) (s : State) : Result :=
  onReq (portReq u port false (feature u port
    (fun s =>
      if stationConn s u then addChange u 65 cReset (modStation u (fun x =>
        { stationMode (rescueDfu s u || (x.dfuMode && x.dfuFresh)) (stationDefault x) with enabled := true }) s) else s)
    (fun p s =>
      if (s.port p).hub.conn then
        modHub p (fun h => { h with reset := true, suspend := false, lingers := false, resuming := false, devResume := false, l1 := false, l1Resuming := false }) s
      else s))) s

/-- The end of port reset signalling: ENABLE, the speed bits and C_RESET (R84, Table 3.11); on a team at full speed every
device attaches at full or low speed (R90). -/
def execPortResetComplete (p : PortId) (sp : Speed) (s : State) : Result :=
  onHub (fun s => (s.port p).hub.reset && (s.port p).hub.conn) (fun s =>
    let high := match servedBy s p with | some u => sp == .high && (s.team u).speed == some .high | none => false
    let lost := match servedBy s p with | some u => laneLost s p u high | none => false
    portChange p cReset (modHub p (fun h => { h with
      reset := false, enable := !lost && !h.oc, lowSpeed := sp == .low, highSpeed := high
      phy := if high then phyStart h.phyCfg (Config.factoryPe p) (Config.factorySquelch p) 575 else h.phy }) s)) s

def execClearPortL1 (u : TeamId) (port : Nat) (s : State) : Result :=
  onReq (portReq u port false (feature u port (modStation u fun x => { x with l1 := false })
    (fun p => modHub p (fun h => { h with l1Resuming := h.l1 })))) s

/-- The K for the BESL resume time ends; C_L1 is not set (R103). -/
def execL1ResumeEnd (p : PortId) (s : State) : Result :=
  onHub (fun s => (s.port p).hub.l1Resuming) (modHub p fun h => { h with l1 := false, l1Resuming := false }) s

def execSetPortPower (u : TeamId) (port : Nat) (s : State) : Result :=
  onReq (portReq u port false (fun s =>
    let p := ownedPort s u port
    let s := setHubPower u port true s
    accept u (match p with | some p => followPower p (modHub p (fun h => { h with rpOff := false }) s) | none => s))) s

/-- With PWR_SW = 1 the status stage is NAKed until VBUS is discharged (R86, R105). -/
def execClearPortPower (u : TeamId) (port : Nat) (s : State) : Result :=
  onReq (portReq u port false (fun s =>
    let p := ownedPort s u port
    let s := setHubPower u port false s
    match p with
    | some p =>
      if pwrSw s u then
        let s := followPower p (modHub p (fun h => { h with rpOff := true }) s)
        if (s.port p).pw.discharge then answer u .nak (modHub p (fun h => { h with powerPending := true }) s) else accept u s
      else accept u s
    | none => accept u s)) s

/-- Every other owned hub port is disabled, suspended or powered off (R83). DESIGN CHOICE (log 129): hub port 65, which is no
physical port, is not counted. -/
def othersIdle (s : State) (u : TeamId) (n : Nat) : Bool :=
  (portsOfTeam s u).all fun p =>
    hubPortOf p == n || !(s.port p).hub.enable || (s.port p).hub.suspend || !hubPower s u (hubPortOf p)

def execSetPortTest (u : TeamId) (port : Nat) (mode : TestMode) (s : State) : Result :=
  onReq (portReq u port false (fun s =>
    if port = 65 ∨ ¬ othersIdle s u port then answer u .stall s
    else feature u port id (fun p => modHub p (fun h => { h with test := some mode })) s)) s

def changeBit : ChangeBit → BitVec 16
  | .connection => cConnection
  | .enable => cEnable
  | .suspend => cSuspend
  | .overCurrent => cOverCurrent
  | .reset => cReset
  | .l1 => cL1

def execClearPortChange (u : TeamId) (port : Nat) (c : ChangeBit) (s : State) : Result :=
  onReq (portReq u port true (fun s => accept u (clrChange u port (changeBit c) s))) s

/-- In single-TT mode wIndex is 1, and the buffer is cleared in whichever TT of the team holds it (Table 3.7, R141). DESIGN CHOICE
(log 128): any other wIndex is then answered STALL. -/
def execClearTtBuffer (u : TeamId) (port : Nat) (dev ep : Nat) (ty : XferType) (_dirIn : Bool) (s : State) : Result :=
  onReq (portReq u port false (fun s =>
    let ps := if (s.team u).multiTt then (ownedPort s u port).toList else portsOfTeam s u
    if ¬ (s.team u).multiTt ∧ port ≠ 1 then answer u .stall s
    else
      let s := forEach ps (fun p s => clearBuffer p dev ep ty s) s
      if ps.any fun p => (s.tt p).statusPending then answer u .nak s else accept u s)) s

def execGetBusState (u : TeamId) (s : State) : Result := onReq (classReq u false (answer u .stall)) s

def execGetHubDescriptor (u : TeamId) (len : Nat) (s : State) : Result := onReq (classReq u true (answerBytes u len (some hubDesc))) s

def execGetHubStatus (u : TeamId) (s : State) : Result := onReq (classReq u true (answerBytes u 4 (some [0, 0, 0, 0]))) s

def execGetPortStatus (u : TeamId) (port : Nat) (s : State) : Result :=
  onReq (portReq u port true (fun s =>
    answerBytes u 4 (some (le16 (wPortStatus s u port).toNat ++ le16 (wPortChange s u port).toNat)) s)) s

def execGetTtState (u : TeamId) (port : Nat) (s : State) : Result :=
  onReq (portReq u port true (fun s =>
    let b : Nat := match ownedPort s u port with
      | some p => b2n (s.tt p).stopped + 2 * b2n (ctxKind (s.tt p) true != 0) + 4 * b2n (ctxKind (s.tt p) false != 0)
      | none => 0
    answerBytes u 4 (some (toBytes 4 b)) s)) s

/-- The status stage of ResetTT completes at t0 + 2 ms (R143). -/
def execResetTt (u : TeamId) (port : Nat) (s : State) : Result :=
  onReq (portReq u port false (fun s =>
    match ownedPort s u port with
    | some p => answer u .nak (modTt p (fun t => { t with statusPending := true }) (resetTt p s))
    | none => accept u s)) s

/-- The status stage is NAKed until the current port-bus transaction, or the reset in progress, has ended (R105, 04 R142, R144). -/
def execStopTt (u : TeamId) (port : Nat) (s : State) : Result :=
  onReq (portReq u port false (fun s =>
    match if port = 65 then none else ownedPort s u port with
    | some p =>
      let s := stopTt p s
      if (s.tt p).stopNext then answer u .nak (modTt p (fun t => { t with statusPending := true }) s) else accept u s
    | none => accept u s)) s

def execSetHubDescriptor (u : TeamId) (s : State) : Result := onReq (classReq u false (answer u .stall)) s

def execSetHubFeature (u : TeamId) (_sel : Nat) (s : State) : Result := onReq (classReq u false (answer u .stall)) s

def execHubRequestUnsupported (u : TeamId) (_bRequest : Byte) (s : State) : Result := onReq (classReq u false (answer u .stall)) s

/-- The L1 status of the LPM ECN for up to three transactions: 0 Success, 1 Not Yet, 2 Not Supported, 3 Timeout/Error (log 18). -/
def l1Status : List LpmAnswer → Nat
  | [] => 3
  | .ack :: _ => 0
  | .nyet :: _ => 1
  | .stall :: _ => 2
  | .none :: r => l1Status r

/-- DESIGN CHOICE (log 130): a low-speed port that is disabled is answered as a disabled one (R102 names both). -/
def execSetAndTestPortL1 (u : TeamId) (port : Nat) (besl : Fin 16) (remoteWake : Bool) (_dev : Nat) (a1 a2 a3 : LpmAnswer) (s : State) : Result :=
  onReq (portReq u port false (fun s =>
    let (code, s) : Nat × State :=
      if port = 65 then (0, stationWake u (modStation u (fun x => { x with l1 := true }) s))
      else
        match ownedPort s u port with
        | some p =>
          let h := (s.port p).hub
          if ¬ h.enable then (3, s)
          else if h.lowSpeed then (2, s)
          else
            let c := l1Status [a1, a2, a3]
            (c, onlyIf (c == 0) (modHub p fun h => { h with l1 := true, l1Besl := besl.val, l1Wake := remoteWake }) s)
        | none => (3, s)
    answerBytes u 1 (some [lowByte code]) s)) s

/-- The bitmap of endpoint 0x81: bit n for any change bit on hub port n (R85). -/
def changeMap (s : State) (u : TeamId) : Nat :=
  ((List.range 65).map fun i => if wPortChange s u (i + 1) = 0 then 0 else 2 ^ (i + 1)).sum

def execStatusChangeIn (u : TeamId) (s : State) : Result :=
  onReq (onHost u (fun s =>
    if (s.team u).st ≠ .configured then answer u .none s
    else if changeMap s u = 0 then answer u .nak s
    else sendIn u (toBytes 9 (changeMap s u)) s)) s

/-! ### Devices on the ports (R84, R89, R107, 01 R17) -/

/-- The hub sees what is on the port; while its clocks are gated it sees it at the wake (12 R392). -/
def seeDevice (p : PortId) (dev : Option Speed) (s : State) : State :=
  let s := modHub p (fun h => { h with dev := dev }) s
  if clocksRun s then syncHub p s else s

def execDeviceConnect (p : PortId) (sp : Speed) (s : State) : Result :=
  onTeam (fun _ => true) (seeDevice p (some sp)) s

def execDeviceDisconnect (p : PortId) (s : State) : Result :=
  onTeam (fun _ => true) (seeDevice p none) s

/-- Babble at the end-of-frame point (R89, 04 R138). -/
def execPortBabble (p : PortId) (s : State) : Result :=
  onHub (fun s => (s.port p).hub.enable) (fun s => portChange p cEnable (stopServing p s)) s

/-- t0 + 2 ms (R107). -/
def execPortContextFree (p : PortId) (s : State) : Result := .next (if clocksRun s && (s.tt p).retiring then freeTt p s else s)

/-- A packet repeated down the lanes of team u, or up from the port that drives the bus (01 R17, R89, R90); each packet sent at
high speed ends with an EOP. A packet on a lane that the spare is replacing is lost (01 R15). -/
def execRepeatPathPacket (u : TeamId) (up : Option PortId) (sp : Speed) (s : State) : Result :=
  .next <|
    if ¬ awake s u then s
    else
      match up with
      | none => repeatDown u sp false s
      | some p =>
        if repeatReaches s u sp p && !laneSwitching s (tileOf p) (laneUp u) then
          onlyIf (sp == .high) (teamEop u) (modTeam u (fun t => { t with sentUp := some p }) s)
        else s

/-! ### The station function (R92 to R95) -/

/-- SYS_ID (00 Table 0.1). -/
def sysId : Word := 0x00641B01#32

/-- A vendor request of type 0xC1: GET_INFO is bRequest 0x01 with wValue 0; any other is answered STALL (R94). -/
def execGetInfo (x : VendorIn) (s : State) : Result :=
  let u := x.team
  onReq (stationReq u (fun s =>
    if (s.team u).station.dfuMode ∨ x.req ≠ 0x01 ∨ x.value ≠ 0 then answer u .stall s
    else
      answerBytes u x.len (some (toBytes 4 sysId.toNat ++ [lowByte u.val, lowByte (speedCode (s.team u).speed)] ++ le16 (s.team u).qmask.toNat ++
        toBytes 4 (teamPorts s u 0).toNat ++ toBytes 4 (teamPorts s u 1).toNat)) s)) s

/-- A vendor request of type 0x41: SET_QUEUES is bRequest 0x02; any other is answered STALL (R94). -/
def execSetQueues (u : TeamId) (x : VendorOut) (s : State) : Result :=
  onReq (stationReq u (fun s =>
    if (s.team u).station.dfuMode ∨ x.req ≠ 0x02 then answer u .stall s
    else
      let s := setQmask u x.value s
      if (s.team u).qmask = x.value then accept u s else answer u .stall s)) s

/-- The station function's endpoints answer: configured, in run time. -/
def epReady (s : State) (u : TeamId) : Bool := (s.team u).station.st == .configured && !(s.team u).station.dfuMode

/-- One whole item at the head of queue q: its bytes, where the queue has one and no word of it is uncorrectable (05 R161, R163). -/
def popItem (q : QueueId) (s : State) : Option (List Byte) × State :=
  let found := checkFails s q
  let s := queueCheck q s
  let x := s.queue q
  if found ∨ listEmpty s q then (none, s)
  else
    let n := if bitOf (cellWord s x.head x.rd) 30 then 1 else 4
    if (nextWords s n x.head x.rd).any fun w => eccAt s .creel w == some true then (none, resetQueue q true s)
    else
      let (bs, s) := (List.range n).foldl (fun (a : List Byte × State) _ =>
        match popWord q a.2 with
        | some (w, s) => (a.1 ++ toBytes 4 w.toNat, s)
        | none => a) ([], s)
      (some bs, gapAfterRead q (modQueue q (fun x => { x with records := x.records - 1 }) s))

/-- Bytes of the item at the head of queue q. -/
def headSize (s : State) (q : QueueId) : Nat :=
  let x := s.queue q
  if listEmpty s q then 0 else if bitOf (cellWord s x.head x.rd) 30 then 4 else 16

/-- Whole items fill a packet of at most `room` bytes; the queues in ascending order (R93; log 19). -/
def fillPacket (u : TeamId) : Nat → Nat → List Byte → State → List Byte × State
  | 0, _, acc, s => (acc, s)
  | n + 1, room, acc, s =>
    match (fins 16).find? fun q => qOwner s q == some u && headSize s q != 0 with
    | none => (acc, s)
    | some q =>
      if room < headSize s q then (acc, s)
      else
        match popItem q s with
        | (some bs, s) => fillPacket u n (room - bs.length) (acc ++ bs) s
        | (none, s) => fillPacket u n room acc s

/-- R93, 05 R167: an IN transaction on endpoint 0x81. Items copied into the transmit buffer stay there, and are sent again, until the
host has acknowledged them. The endpoints answer in the safe state too, in which the event-queue engine runs on (13 R429; log 147). -/
def execEventEndpointIn (x : EventIn) (s : State) : Result :=
  let u := x.team
  onReq (onStation u (fun s =>
    if ¬ epReady s u then answer u .none s
    else
      let (bs, s) :=
        if (s.team u).evBuf.isEmpty then fillPacket u 144 (if (s.team u).speed = some .high then 512 else 64) [] s else ((s.team u).evBuf, s)
      let s := modTeam u (fun t => { t with evBuf := if x.acked then [] else bs }) s
      if bs.isEmpty then answer u .nak s else sendIn u bs s)) s

/-- The oldest unsent entry of the ring; OVF on the first sent after a loss (08 R284). -/
def popCorr (u : TeamId) (s : State) : List Byte × State :=
  let c := (s.team u).corr
  let i : Fin 8 := Fin.ofNat 8 (c.newest.val + 9 - c.unsent)
  let e := c.entries[i]
  let w0 := if c.ovf then orBit e.w0 30 else e.w0
  ([w0, e.w1, e.w2, e.w3].flatMap fun w => toBytes 4 w.toNat,
    modTeam u (fun t => { t with corr := { t.corr with unsent := t.corr.unsent - 1, ovf := false } }) s)

def execCorrelationEndpointIn (u : TeamId) (s : State) : Result :=
  onReq (onStation u (fun s =>
    if ¬ epReady s u then answer u .none s
    else
      match (s.team u).corr.unsent with
      | 0 => answer u .nak s
      | 1 => let (a, s) := popCorr u s; sendIn u a s
      | _ =>
        let (a, s) := popCorr u s
        let (b, s) := popCorr u s
        sendIn u (a ++ b) s)) s

/-! ### Moving a port (R110, R111, R113) -/

/-- The end of a move: an Rp that the old team's host had withdrawn stays withdrawn only under a team that is enabled, switches port
power and holds its logical power off (R73, R86; log 132). -/
def rpAfterMove (p : PortId) (s : State) : State :=
  let held := match servedBy s p with | some u => teamEn s u && pwrSw s u && !hubPower s u (hubPortOf p) | none => false
  followPower p (modHub p (fun h => { h with rpOff := h.rpOff && held }) s)

/-- t1: every context of the TT is free, and the port counts as the target's. -/
def execMoveRetireEnd (p : PortId) (s : State) : Result :=
  onHub (fun s => (s.port p).hub.mstate == 1) (fun s =>
    let s := freeTt p s
    if (s.port p).hub.owner < 4 then setMstate p 2 s
    else rpAfterMove p (modHub p (fun h => { h with moveChange := 0 }) (setMstate p 0 s))) s

/-- t2: the port reports on the target team, with the change bits of the move's physical events. -/
def execMoveGapExpire (p : PortId) (s : State) : Result :=
  onHub (fun s => (s.port p).hub.mstate == 2) (fun s =>
    let s := setMstate p 3 s
    let s := modHub p (fun h => { h with moveChange := 0 }) (portChange p (s.port p).hub.moveChange s)
    rpAfterMove p (setMstate p 0 (syncHub p s))) s

end Sys2Proof.Machine
end

