-- ==== Sys2Proof/Machine/Pd.lean ====
section
/-!
DEFINITION. Machine/Pd.lean: the commands of chapter 06 that come from the CC pins, the wire, the timers and the mailboxes.
-/
namespace Sys2Proof.Machine

/-- A timer of the policy expires: its action, where the timer runs and the weaver can act. -/
def onTimer (p : PortId) (t : PdTimer) (f : State → State) (s : State) : State :=
  if tHas s p t ∧ weaverActs s p then f (tOff p t s) else s

/-! ### Attach and detach (R172 to R176, R214) -/

/-- AttachWait goes on while the same pin reads vRd and the other vOPEN or vRa (R172); a weaver that cannot act sees the change later. -/
def execCcPatternChange (p : PortId) (cc1 cc2 : Cc) (s : State) : Result :=
  let t := (s.port p).tc
  let held := attachPin t
  if t.cc1 = cc1 ∧ t.cc2 = cc2 then .next s
  else
    let (st, s) := takeStamp (some (tileOf p)) s
    let s := modPhy p (fun x => { x with ccStamp := some st }) (modTc p (fun t => { t with cc1 := cc1, cc2 := cc2 }) s)
    let s := latchEv p (BitVec.ofNat 32 (2 ^ 9)) s
    .next <|
      if ¬ weaverActs s p then modTc p (fun t => { t with ccDebounce := t.ccDebounce && attachPin t == held }) s
      else modTc p (fun t =>
        match t.st with
        | .attachWait => if attachPin t = held ∧ held ≠ .none then t else { t with st := .unattached, ccDebounce := false }
        | .unsupported => { t with st := if cc1 = .vOpen ∧ cc2 = .vOpen then .unattached else .unsupported }
        | .attached => { t with pdDebounce := attachedCc t == .vOpen }
        | _ => t) s

def execAttachWait (p : PortId) (s : State) : Result :=
  .next <|
    let t := (s.port p).tc
    if weaverActs s p ∧ t.st = .unattached ∧ t.rp ≠ .none ∧ attachPin t ≠ .none then
      modTc p (fun t => { t with st := .attachWait, ccDebounce := true }) s
    else s

/-- Attached.SRC: the configuration takes effect, the ATTACH record, then the base (R172, R174, R177, R195). -/
def execTCcDebounce (p : PortId) (s : State) : Result :=
  .next <|
    if weaverActs s p ∧ (s.port p).tc.st = .attachWait ∧ (s.port p).tc.ccDebounce ∧ attachPin (s.port p).tc ≠ .none then
      let s := latchTcCfg p s
      let o := attachPin (s.port p).tc
      let s := modTc p (fun t => { t with
        st := .attached, ccDebounce := false, orient := o, ccsel := o, ra := otherCc t o == .vRa, rp := rpAdv s p }) s
      let s := holdVconn p (startBaseline p s)
      let t := (s.port p).tc
      let s := weaverPost p clsAttach (pack [(pinCode o, 28), (rpCode t.rp, 26), (b2n t.ra, 25)]) s
      let s := modPd p (fun d => { pdIdle d with pe := if pdEn s p then .noPd else .pdDisabled }) s
      syncHub p (askBase p s)
    else s

def execCcUnsupported (p : PortId) (s : State) : Result :=
  .next <|
    let t := (s.port p).tc
    if weaverActs s p ∧ (t.st = .unattached ∨ t.st = .attachWait) ∧ t.rp ≠ .none ∧ unsupportedPins t then
      weaverPost p clsAttach (pack [(rpCode t.rp, 26), (b2n (t.cc1 == .vRa), 25), (1, 24)]) (modTc p (fun t => { t with st := .unsupported, ccDebounce := false }) s)
    else s

def execTPdDebounce (p : PortId) (vbus : Nat) (s : State) : Result :=
  .next <| portEv p (fun s =>
    let t := (s.port p).tc
    if weaverActs s p ∧ t.st = .attached ∧ t.pdDebounce ∧ attachedCc t = .vOpen then
      detach p 0 false vbus (modPw p (fun w => { w with vbus := vbus }) s)
    else s) s

def execErrorRecoveryEnd (p : PortId) (s : State) : Result :=
  .next <| onTimer p .errorRecovery (fun s => if (s.port p).tc.st = .errorRecovery then restTc p s else s) s

/-- R214: with the monitor armed, CC open and no load for 1 ms; the monitor is keeper hardware and acts without the weaver (07 R239). -/
def execTransitionDetach (p : PortId) (vbus : Nat) (s : State) : Result :=
  .next <| portEv p (fun s =>
    let w := (s.port p).pw
    if (s.port p).pd.transMon ∧ attachedCc (s.port p).tc = .vOpen ∧ w.cur < noloadOf w.effProt then
      let s := modPw p (fun w => { w with vbus := vbus }) s
      if weaverActs s p then detach p 0 true vbus s else hwDetach p 0 true vbus s
    else s) s

/-! ### The PHY (01 R19, R180, 09 R323 to R325) -/

/-- Hard Reset signalling arrives (06 R212). -/
def rxHardReset (p : PortId) (s : State) : State :=
  if (s.port p).tc.ccsel = .none then s
  else
    let (st, s) := takeStamp (some (tileOf p)) s
    let s := latchEv p (BitVec.ofNat 32 (2 ^ 7)) (phyHardReset p s)
    onLate p .hardReset (postPd p clsPdRx st .hardReset false 0 s)

def execPdMessageRx (p : PortId) (f : Frame) (h : BitVec 16) (objs : List Word) (crcOk : Bool) (low : Int) (s : State) : Result :=
  .next <| portEv p (fun s =>
    if ¬ clocksRun s then hearAsleep p s
    else if f = .hardReset then rxHardReset p s
    else if ¬ phyHears s p f then s
    else if ¬ crcOk then modPd p (fun d => { d with rxCrc := satInc d.rxCrc 255 }) s
    else
      let m : PdMsg := { frame := f, header := h, objs := objs.take (mObjs h) }
      onlyIf (isOverflow s p m) (overflowed p) (phyReceive p m (baselineSample p low s))) s

def execHardReset (p : PortId) (s : State) : Result := .next (portEv p (fun s => if clocksRun s then rxHardReset p s else hearAsleep p s) s)

/-- Its first transmission clears the MessageIDs of its frame (log 21). -/
def isSoftReset (m : PdMsg) : Bool := m.frame == .sop && !mExt m.header && mObjs m.header == 0 && mType m.header == cSoftReset

/-- The PHY starts a pending send; Hard Reset signalling is over with its sending (09 Table 9.8 bit 5). -/
def execPdTxStart (p : PortId) (s : State) : Result :=
  .next <|
    let x := (s.port p).phy
    match x.tx with
    | some t =>
      if ¬ clocksRun s ∨ t.started ∨ x.bist ∨ (s.port p).tc.ccsel = .none then s
      else
        let (st, s) := takeStamp (some (tileOf p)) s
        let s := modPhy p (fun x => { x with txStamp := some st }) s
        if t.msg.frame = .hardReset then
          let s := latchEv p (BitVec.ofNat 32 (2 ^ 5)) (modPhy p (fun x => { phyIdle x with tx := none }) s)
          nextTx p (if t.bySend then s else postPd p clsPdTx st .hardReset false 0 s)
        else
          let s := onlyIf (isSoftReset t.msg) (modPhy p fun x => { x with idSop := 0, rxId := none }) s
          let h := BitVec.ofNat 16 (t.msg.header.toNat - mId t.msg.header * 512 + txId (s.port p).phy t.msg.frame * 512)
          modPhy p (fun x => { x with tx := some { t with started := true, msg := { t.msg with header := h } } }) s
    | none => s

/-- A VCONN_Swap, which the port sends on firmware command only (Table 6.1): its sequence runs as R207 says. -/
def isVconnSwap (m : PdMsg) : Bool := m.frame == .sop && !mExt m.header && mObjs m.header == 0 && mType m.header == cVconnSwap

/-- A send that belongs to the shipped policy. -/
def ofPolicy (t : Tx) : Bool := !t.bySend || isVconnSwap t.msg

/-- A record of a finished send, stamped at its first preamble. -/
def postSent (p : PortId) (t : Tx) (failed : Bool) (s : State) : State :=
  if ¬ ofPolicy t then s else postPd p clsPdTx ((s.port p).phy.txStamp.getD {}) t.msg.frame failed t.msg.header s

/-- The transmitter is free again. -/
def endTx (p : PortId) (t : Tx) (s : State) : State :=
  nextTx p (stepTxId p t.msg.frame (modPhy p (fun x => { x with tx := none }) s))

def execTReceive (p : PortId) (s : State) : Result :=
  .next <| portEv p (fun s =>
    match (s.port p).phy.tx with
    | some t =>
      if ¬ clocksRun s ∨ ¬ t.started then s
      else if t.retries < retryLimit s p then modPhy p (fun x => { x with tx := some { t with retries := t.retries + 1 } }) s
      else
        let s := latchEv p (BitVec.ofNat 32 (2 ^ 6)) (modPd p (fun d => { d with txFail := satInc d.txFail 255 }) s)
        let s := endTx p t (postSent p t true s)
        onlyIf (ofPolicy t && pdLive s p) (onLate p (.failed t.msg)) s
    | none => s) s

def isPsRdy (m : PdMsg) : Bool := m.frame == .sop && !mExt m.header && mObjs m.header == 0 && mType m.header == cPsRdy

/-- GoodCRC of the message; that of a contract's PS_RDY ends the keeper's monitor (R214). -/
def execGoodcrc (p : PortId) (s : State) : Result :=
  .next <| portEv p (fun s =>
    match (s.port p).phy.tx with
    | some t =>
      if ¬ clocksRun s ∨ ¬ t.started then s
      else
        let s := endTx p t (postSent p t false (latchEv p (BitVec.ofNat 32 (2 ^ 5)) s))
        let s := onlyIf (isPsRdy t.msg && !(s.port p).pd.swapToPort) (modPd p fun d => { d with transMon := false }) s
        onlyIf (ofPolicy t && pdLive s p) (onLate p (.sent t.msg)) s
    | none => s) s

def execBistCarrierModeEnd (p : PortId) (s : State) : Result := .next (modPhy p (fun x => { x with bist := false }) s)

/-! ### Messages of the partner (R181, R188, R206, R211, R221) -/

/-- The explicit contract is not covered by the capabilities last sent (R198). -/
def exceeds (d : PortPd) : Bool :=
  d.objpos != 0 && !(d.caps.any fun x => x.volt == d.volt && decide (d.opCur ≤ x.cur))

/-- A Request; while the port's own Soft_Reset awaits Accept it is not answered (log 154). -/
def execRequest (p : PortId) (h : BitVec 16) (rdo : Word) (s : State) : Result :=
  .next <| portEv p (onMsg p (rxData .sop h [rdo]) (fun s =>
    let d := (s.port p).pd
    if awaitsAccept d then s
    else if d.req.isSome ∨ d.pe = .transition then softReset p s
    else
      match validReq d rdo with
      | none =>
        let s := if exceeds d then s else tOff p .senderResponse s
        sendReject p (modPd p (fun d => { d with req := some { objpos := 0, volt := 0, cur := 0, mismatch := false, answered := true } }) s)
      | some r =>
        let s := modPd p (fun d => { takeOver .request d with req := some r }) (tOff p .waitCap (tOff p .senderResponse s))
        ask p opCommit (reqPower r) (tOn p .commit8ms s))) s

def execSoftReset (p : PortId) (h : BitVec 16) (s : State) : Result :=
  .next <| portEv p (onMsg p (rxCtl h) (fun s =>
    let s := abortSeq p (stCut p (modPd p (fun d => { d with softResets := satInc d.softResets 255 }) s))
    let s := modPhy p (fun x => { x with tx := none, idSop := 0 }) s
    sendCaps p .capsHold (putTx p (ctlMsg s p cAccept) s))) s

def execGetSourceCap (p : PortId) (h : BitVec 16) (s : State) : Result :=
  .next <| portEv p (onMsg p (rxCtl h) (sendCaps p .request)) s

/-- An answer that only Revision 3.x has (R179). -/
def rev3 (p : PortId) (f : State → State) (s : State) : State := if (s.port p).pd.rev = 2 then f s else unsupported p s

def execGetSourceCapExtended (p : PortId) (h : BitVec 16) (s : State) : Result :=
  .next <| portEv p (onMsg p (rxCtl h) (rev3 p fun s => putTx p (extMsg s p 1 (scedb s p)) s)) s

def execGetStatus (p : PortId) (h : BitVec 16) (s : State) : Result :=
  .next <| portEv p (onMsg p (rxCtl h) (rev3 p fun s =>
    let t := Config.junction s.free
    let s := putTx p (extMsg s p 2 (statusBlock (s.port p).pd t)) { s with free := s.free + 1 }
    modPd p (fun d => { d with ocp := false, ovp := false }) s)) s

def execGetSourceInfo (p : PortId) (h : BitVec 16) (s : State) : Result :=
  .next <| portEv p (onMsg p (rxCtl h) (rev3 p fun s => putTx p (dataMsg s p .sop dSourceInfo [sourceInfo s p]) s)) s

def execGetRevision (p : PortId) (h : BitVec 16) (s : State) : Result :=
  .next <| portEv p (onMsg p (rxCtl h) (rev3 p fun s =>
    putTx p (dataMsg s p .sop dRevision [pack [(3, 28), (1, 24), (1, 20), (8, 16)]]) s)) s

def execDrSwap (p : PortId) (h : BitVec 16) (s : State) : Result := .next (portEv p (onMsg p (rxCtl h) (sendReject p)) s)

def execPrSwap (p : PortId) (h : BitVec 16) (s : State) : Result := .next (portEv p (onMsg p (rxCtl h) (sendReject p)) s)

def execVconnSwap (p : PortId) (h : BitVec 16) (pinHigh : Bool) (s : State) : Result :=
  .next <| portEv p (onMsg p (rxCtl h) (fun s =>
    let accept (s : State) : State := putTx p (ctlMsg s p cAccept) s
    if (s.port p).tc.vconnPartner then
      (if vswapAcc s p ∧ ¬ (s.port p).tc.vconnOc then vconnToPort p pinHigh (accept s) else sendReject p s)
    else if (vswapAcc s p ∧ discEnded s p) ∨ ¬ cableDisc s p then accept (modPd p (takeOver .vconnSwap) s)
    else sendReject p s)) s

def execPsRdy (p : PortId) (h : BitVec 16) (s : State) : Result :=
  .next <| portEv p (onMsg p (rxCtl h) (fun s =>
    if tHas s p .vconnSource then endSeq p (vconnToPartner p (tOff p .vconnSource s)) else unsupported p s)) s

def execPdAccept (p : PortId) (h : BitVec 16) (pinHigh : Bool) (s : State) : Result :=
  .next <| portEv p (onMsg p (rxCtl h) (fun s =>
    if awaitsAccept (s.port p).pd then
      sendCaps p .capsHold (modPd p (fun d => { d with seq := .none, after := .none }) (tOff p .senderResponse s))
    else if (s.port p).pd.seq = .vconnSwap then
      let s := tOff p .senderResponse s
      if (s.port p).tc.vconnPartner then vconnToPort p pinHigh s else tOn p .vconnSource s
    else unsupported p s)) s

/-- The sequence of the port's own ends without a result; a Soft_Reset goes on waiting for its Accept (R213). -/
def dropSeq (p : PortId) (s : State) : State :=
  if (s.port p).pd.seq = .softReset then s
  else endSeq p (if awaitsAccept (s.port p).pd then s else tOff p .senderResponse s)

/-- A VDM awaits its answer no longer; another sequence that runs goes on. -/
def endVdm (p : PortId) (s : State) : State :=
  let s := tOff p .vdm s
  if isVdm (s.port p).pd.seq then endSeq p s
  else modPd p (fun d => { d with after := if isVdm d.after then .none else d.after }) s

/-- Stamp of the answer that the policy acts on (08 Table 8.4). -/
def answerStamp (s : State) (p : PortId) : Option Stamp := (s.port p).phy.takenAt

/-- Station-time discovery ends for this attach (R215). -/
def stFail (p : PortId) (st : Option Stamp) (s : State) : State := endVdm p (postAltAt p st 3 stSvid s)

/-- The partner has left the mode, or not answered Exit Mode: the ALT_MODE record of the exit (08 Table 8.4). -/
def stLeft (p : PortId) (st : Option Stamp) (s : State) : State :=
  endVdm p (postAltAt p st 1 stSvid (modPd p (fun d => { d with alt := false }) s))

/-- A VDM gets no answer, or one that is none: a step of R215 ends discovery, an Exit Mode leaves the mode. -/
def vdmFailed (p : PortId) (st : Option Stamp) (s : State) : State :=
  let q := vdmSeq (s.port p).pd
  if stStep q then stFail p st s else if q = .stExit then stLeft p st s else endVdm p s

/-- Reject or Wait ends the sequence that it answers (Table 6.1). -/
def refused (p : PortId) (s : State) : State :=
  let q := (s.port p).pd.seq
  if isVdm q then vdmFailed p (answerStamp s p) s
  else if q = .none ∨ q = .request then unsupported p s
  else dropSeq p s

def execPdReject (p : PortId) (h : BitVec 16) (s : State) : Result := .next (portEv p (onMsg p (rxCtl h) (refused p)) s)

/-- Not_Supported ends the sequence that it answers, a VDM first. -/
def execNotSupported (p : PortId) (h : BitVec 16) (s : State) : Result :=
  .next <| portEv p (onMsg p (rxCtl h) (fun s =>
    if vdmSeq (s.port p).pd ≠ .none then vdmFailed p (answerStamp s p) s
    else if (s.port p).pd.seq = .none then s else dropSeq p s)) s

def execBist (p : PortId) (h : BitVec 16) (mode : Word) (s : State) : Result :=
  .next <| portEv p (onMsg p (rxData .sop h [mode]) (fun s =>
    if (s.port p).pd.objpos = 0 ∨ (s.port p).pd.volt ≠ 100 then s
    else if fld mode 31 28 = 5 then modPhy p (fun x => { x with bist := true }) s
    else if fld mode 31 28 = 8 then modPd p (fun d => { d with bistMode := true }) s
    else s)) s

def execAlert (p : PortId) (h : BitVec 16) (s : State) : Result := .next (portEv p (onMsg p (rxCtl h) id) s)

/-- A message without a command of its own: Wait, those that Table 6.1 answers with Not_Supported, and any other (R181). -/
def execUnsupportedMessage (p : PortId) (h : BitVec 16) (s : State) : Result :=
  .next <| portEv p (onMsg p (rxCtl h) (fun s =>
    if mType h = cWait ∧ mObjs h = 0 ∧ ¬ mExt h then refused p s
    else if tableUnsupported h then putTx p (ctlMsg s p cNotSupported) s
    else unsupported p s)) s

def execExtendedMessage (p : PortId) (h : BitVec 16) (multiChunk : Bool) (s : State) : Result :=
  .next <| portEv p (onMsg p (rxCtl h) (fun s =>
    if multiChunk then tOn p .chunk s else putTx p (ctlMsg s p cNotSupported) s)) s

def execTChunkingNotSupported (p : PortId) (s : State) : Result :=
  .next <| onTimer p .chunk (fun s => if pdLive s p then resumeOwn p (putTx p (ctlMsg s p cNotSupported) s) else s) s

/-- An answer to a VDM of the partner. -/
def answerVdm (p : PortId) (objs : State → List Word) (s : State) : State := putTx p (dataMsg s p .sop dVdm (objs s)) s

def execDiscoverIdentity (p : PortId) (h : BitVec 16) (s : State) : Result :=
  .next <| portEv p (onMsg p (rxCtl h) (answerVdm p fun s => vdmHeader 0xFF00 0 1 1 :: identityVdos s p)) s

def execDiscoverSvids (p : PortId) (h : BitVec 16) (s : State) : Result :=
  .next <| portEv p (onMsg p (rxCtl h) (answerVdm p fun _ => [vdmHeader 0xFF00 0 2 2])) s

def execDiscoverModes (p : PortId) (h : BitVec 16) (svid : BitVec 16) (s : State) : Result :=
  .next <| portEv p (onMsg p (rxCtl h) (answerVdm p fun _ => [vdmHeader svid.toNat 0 2 3])) s

def execEnterMode (p : PortId) (h : BitVec 16) (svid : BitVec 16) (s : State) : Result :=
  .next <| portEv p (onMsg p (rxCtl h) (answerVdm p fun _ => [vdmHeader svid.toNat 1 2 4])) s

def execUnstructuredVdm (p : PortId) (h : BitVec 16) (s : State) : Result :=
  .next <| portEv p (onMsg p (rxCtl h) fun s => putTx p (ctlMsg s p cNotSupported) s) s

def execAttention (p : PortId) (h : BitVec 16) (s : State) : Result :=
  .next <| portEv p (onMsg p (rxCtl h) fun s => if (s.port p).pd.alt then startOwn p .stStatus s else s) s

/-! ### Discovery (R209, R210, R215 to R219) -/

/-- A cable's ACK or NAK ends SOP' discovery (R210); a 5 A cable brings a new want, or new capabilities from the hold (R187). -/
def cableAnswer (p : PortId) (ty : Nat) (vdos : List Word) (s : State) : State :=
  if (s.port p).pd.discDone ∨ (s.port p).pd.discCount = 0 ∨ (ty ≠ 1 ∧ ty ≠ 2) then s
  else
    let s := tOff p .discoverIdentity s
    let s := modPd p (fun d =>
      if ty = 1 then { d with discDone := true, cableId := true, cable := vdos.getD 3 0 } else { d with discDone := true }) s
    let s := if vdmSeq (s.port p).pd = .cableId then endVdm p s else s
    if cable5A s p ∧ (s.port p).pd.hold < wantOf s p ∧ ((s.port p).pd.capsDue ∨ (s.port p).pd.caps ≠ []) then
      askHold p (modPd p (fun d => { d with capsDue := false }) s)
    else if cable5A s p ∧ (s.port p).pd.caps ≠ [] ∧ pdLive s p then startOwn p .request s
    else firstCaps p s

/-- SVIDs of a Discover SVIDs ACK, in order. -/
def svidsOf (vdos : List Word) : List Nat := (vdos.map fun w => [fld w 31 16, fld w 15 0]).flatten.filter (· != 0)

/-- The partner's ACK of a step of R215; with ST_EN = 0 by then discovery goes no further, and an entered mode is left (R220). -/
def stAck (p : PortId) (q : Seq) (vdos : List Word) (s : State) : State :=
  let st := answerStamp s p
  let s := endVdm p s
  if ¬ stEn s p ∧ (q = .stIdentity ∨ q = .stSvids ∨ q = .stModes) then s
  else
  match q with
  | .stIdentity => startOwn p .stSvids s
  | .stSvids =>
    let others := (svidsOf vdos).filter (· != stSvid)
    let s :=
      match others with
      | o :: _ => if (s.port p).pd.stRefused then s else postAltAt p st 2 o (modPd p (fun d => { d with stRefused := true }) s)
      | [] => s
    if (svidsOf vdos).contains stSvid then startOwn p .stModes s else s
  | .stModes =>
    let v := vdos.headD 0
    if v &&& 3#32 ≠ 0 then startOwn p .stEnter (modPd p (fun d => { d with modeVdo := v }) s) else s
  | .stEnter =>
    let s := postAltAt p st 0 stSvid (modPd p (fun d => { d with alt := true }) s)
    if stEn s p then startOwn p .stConfig s else exitMode p s
  | .stConfig => if stEn s p then sendStStatus p (closeSbu p s) else s
  | _ => s

def execVdmResponse (p : PortId) (f : Frame) (h : BitVec 16) (vdm : Word) (vdos : List Word) (s : State) : Result :=
  .next <| portEv p (onMsg p (rxData f h (vdm :: vdos)) (fun s =>
    let ty := fld vdm 7 6
    let q := vdmSeq (s.port p).pd
    if f = .sop1 then cableAnswer p ty vdos s
    else if q = .stExit then stLeft p (answerStamp s p) s
    else if q = .stStatus then endVdm p s
    else if ¬ stStep q then s
    else if ty = 1 then stAck p q vdos s
    else
      let s := stFail p (answerStamp s p) s
      if q = .stConfig ∧ ty = 2 then exitMode p s else s)) s

def execTVdmSenderResponse (p : PortId) (s : State) : Result :=
  .next <| portEv p (onTimer p .vdm (vdmFailed p none)) s

def execTVconnStable (p : PortId) (s : State) : Result :=
  .next <| portEv p (onTimer p .vconnStable (fun s =>
    if discWanted s p ∧ ¬ (s.port p).pd.discDone ∧ (s.port p).pd.discCount < 20 then startOwn p .cableId s else firstCaps p s)) s

def execTDiscoverIdentity (p : PortId) (s : State) : Result :=
  .next <| portEv p (onTimer p .discoverIdentity (fun s =>
    if (s.port p).pd.discDone then s
    else
      let s := if vdmSeq (s.port p).pd = .cableId then endVdm p s else s
      let n := (s.port p).pd.discCount
      if 20 ≤ n then firstCaps p (modPd p (fun d => { d with discDone := true }) s)
      else if n < 2 ∨ (s.port p).pd.objpos ≠ 0 then (if discWanted s p then startOwn p .cableId s else firstCaps p s)
      else firstCaps p s)) s

/-! ### Timers of the policy (Table 6.2) -/

def execTSourceCapability (p : PortId) (s : State) : Result :=
  .next <| portEv p (onTimer p .sourceCapability (fun s => if pdLive s p then sendCaps p .request s else s)) s

def execTSenderResponse (p : PortId) (s : State) : Result := .next (portEv p (onTimer p .senderResponse (sendHardReset p)) s)

def execCommitLate (p : PortId) (s : State) : Result := .next (portEv p (onTimer p .commit8ms (answerWait p)) s)

def execTSrcTransition (p : PortId) (s : State) : Result := .next (portEv p (onTimer p .srcTransition (takeContract p)) s)

/-- tSrcSettle ends the keeper's transition (07 R239), whoever wrote the setting; the weaver that awaits it sends Hard Reset
(R190). -/
def execTSrcSettle (p : PortId) (s : State) : Result :=
  .next <| portEv p (fun s =>
    let awaited := tHas s p .srcSettle && weaverActs s p
    let s := onlyIf awaited (tOff p .srcSettle) s
    let s := if settling (s.port p).pw then endTransition p s else s
    onlyIf awaited (sendHardReset p) s) s

def execTPsHardReset (p : PortId) (s : State) : Result :=
  .next <| portEv p (onTimer p .psHardReset (fun s =>
    let s := latchEv p (BitVec.ofNat 32 (2 ^ 11)) (keeperNone p 0 s)
    let s := if (s.port p).tc.vconnOn then setVconn p false 1 s else s
    tOn p .srcRecover (modTc p (fun t => { t with vconnPartner := false }) s))) s

/-- VCONN is restored before VBUS, once its pin reads below 0.8 V (R208, R212). -/
def execTSrcRecover (p : PortId) (pinHigh : Bool) (s : State) : Result :=
  .next <| portEv p (fun s =>
    if ¬ tHas s p .srcRecover ∨ ¬ weaverActs s p then s
    else if vconnWanted s p ∧ pinHigh then (if tHas s p .vconnPin then s else tOn p .vconnPin s)
    else
      let s := tOff p .vconnPin (tOff p .srcRecover s)
      let s :=
        if vconnWanted s p then
          let s := setVconn p true 5 s
          if cableDisc s p ∧ ¬ (s.port p).pd.discDone then tOn p .vconnStable s else s
        else s
      if (s.port p).tc.st = .attached then vbusOn p s else s) s

def execTNoResponse (p : PortId) (s : State) : Result :=
  .next <| portEv p (onTimer p .noResponse (fun s => if 2 ≤ (s.port p).pd.hrCount then disablePd p s else sendHardReset p s)) s

def execTSinkTx (p : PortId) (s : State) : Result :=
  .next <| portEv p (onTimer p .sinkTx (resumeOwn p)) s

def execTVconnSourceTimeout (p : PortId) (s : State) : Result := .next (portEv p (onTimer p .vconnSource (sendHardReset p)) s)

def execVconnPinWaitTimeout (p : PortId) (s : State) : Result :=
  .next <| portEv p (onTimer p .vconnPin (fun s => enterRecovery p (postVconn p 6 (tOff p .srcRecover s)))) s

def execWaitSourceCapTimeout (p : PortId) (s : State) : Result :=
  .next <| portEv p (onTimer p .waitCap (fun s => if pdLive s p then sendCaps p .capsReduced s else s)) s

/-! ### VCONN faults (R205, 14 R466) -/

/-- The VCONN switch trips: off until detach; cable discovery ends with it, and the first capabilities go out (R209). A weaver that cannot
act posts the record when it can. -/
def vconnTrip (p : PortId) (s : State) : State :=
  if (s.port p).tc.vconnOn then
    let s := latchEv p (BitVec.ofNat 32 (2 ^ 17)) (modTc p (fun t => { t with vconnOn := false, vconnOc := true }) s)
    if weaverActs s p then firstCaps p (postVconn p 4 s) else modTc p (fun t => { t with ocDue := true }) s
  else s

def execVconnOc (p : PortId) (s : State) : Result := .next (vconnTrip p s)

/-- 14 R466: a hold opens its switch; VCONN that it cuts off stays off as after a trip (log 172). -/
def execCcOvervoltHold (p : PortId) (sbu high : Bool) (s : State) : Result :=
  .next <|
    if sbu then modTc p (fun t => { t with sbuHold := high }) s
    else holdVconn p (onlyIf high (vconnTrip p) (modTc p (fun t => { t with ccHold := high }) s))

/-! ### Budget words (R189, R194 to R198, R202) -/

/-- A word of the weaver reaches the arbiter. -/
def toArbiter (p : PortId) (w : BudWord) (s : State) : State := if supUp s then unstall s (decideWord p w (arriveUp p w s)) else s

def execBase (p : PortId) (tag : Byte) (power : BitVec 16) (s : State) : Result :=
  .next (toArbiter p { op := opBase, tag := tag, power := power } s)

def execHold (p : PortId) (tag : Byte) (power : BitVec 16) (s : State) : Result :=
  .next (toArbiter p { op := opHold, tag := tag, power := power } s)

def execCommit (p : PortId) (tag : Byte) (power : BitVec 16) (s : State) : Result :=
  .next (toArbiter p { op := opCommit, tag := tag, power := power } s)

def execRelease (p : PortId) (tag : Byte) (power : BitVec 16) (s : State) : Result :=
  .next (toArbiter p { op := opRelease, tag := tag, power := power } s)

/-- An answer of the arbiter reaches the weaver: what it was asked for, oldest first; none where nothing was asked. -/
def answered (p : PortId) (w : BudWord) (f : Nat → State → State) (s : State) : State :=
  if ¬ weaverActs s p then s
  else
    let s := arriveDown p w s
    match (s.port p).pd.asked with
    | [] => s
    | op :: r => f op (modPd p (fun d => { d with asked := r, hold := w.power.toNat }) s)

/-- The answer to a COMMIT whose Request has been followed by another is too late for a contract (R189). -/
def lateCommit (s : State) (p : PortId) : Bool := (s.port p).pd.asked.contains opCommit

/-- A Request waits for its answer. -/
def openReq (s : State) (p : PortId) : Bool := match (s.port p).pd.req with | some r => !r.answered | none => false

/-- A granted base brings VBUS: the first setting, or one for the Rp that has changed outside a contract (R174, R225, 07 R237). -/
def vbusDue (s : State) (p : PortId) : Bool :=
  let w := (s.port p).pw
  w.keeper == 0 || ((s.port p).pd.objpos == 0 && kPath w.keeper == .five && kIbase w.keeper != rpCurrent (s.port p).tc.rp)

/-- A late grant of a COMMIT is no contract; the hold that a COMMIT changes brings new capabilities (R187, R189). -/
def execGrant (p : PortId) (tag : Byte) (power : BitVec 16) (s : State) : Result :=
  let was := (s.port p).pd.hold
  .next <| portEv p (answered p { op := opGrant, tag := tag, power := power } (fun op s =>
    if op = opBase then (if (s.port p).tc.st ≠ .attached then fallToZero p s else onlyIf (vbusDue s p) (vbusOn p) s)
    else if op = opCommit then
      onlyIf ((s.port p).pd.hold != was) (holdKnown p) (if lateCommit s p ∨ ¬ openReq s p then s else answerAccept p s)
    else holdKnown p s)) s

/-- The next lower Rp (R195). -/
def lowerRp : Rp → Rp
  | .a30 => .a15
  | _ => .dflt

def execShort (p : PortId) (tag : Byte) (power : BitVec 16) (s : State) : Result :=
  let was := (s.port p).pd.hold
  .next <| portEv p (answered p { op := opShort, tag := tag, power := power } (fun op s =>
    if op = opBase then
      (if (s.port p).tc.st = .attached then askBase p (setRp p (lowerRp (s.port p).tc.rp) s) else s)
    else if op = opCommit then onlyIf ((s.port p).pd.hold != was) (holdKnown p) (if lateCommit s p then s else answerWait p s)
    else holdKnown p s)) s

/-- A word that changes the hold unasked (R197, R198). -/
def newHold (p : PortId) (w : BudWord) (s : State) : State :=
  if weaverActs s p then holdKnown p (modPd p (fun d => { d with hold := w.power.toNat }) (arriveDown p w s)) else s

def execOffer (p : PortId) (power : BitVec 16) (s : State) : Result :=
  .next (portEv p (newHold p { op := opOffer, tag := 0, power := power }) s)

def execReclaim (p : PortId) (power : BitVec 16) (s : State) : Result :=
  .next (portEv p (newHold p { op := opReclaim, tag := 0, power := power }) s)

end Sys2Proof.Machine
end

