-- ==== Sys2Proof/Machine/Power.lean ====
section
/-!
DEFINITION. Machine/Power.lean: the commands of chapter 07 that the rim slices and the relay engine carry out. Voltages
are in 50 mV, currents in 10 mA. A command whose condition does not hold has no effect (log 12).
-/
namespace Sys2Proof.Machine

/-- A condition on the group decides whether the command has an effect. -/
def onGroup (g : TileId) (ok : State → Bool) (f : State → State) (s : State) : Result :=
  .next (groupEv g (fun s => if ok s then f s else s) s)

/-- A condition on the port decides whether the command has an effect. -/
def onPort (p : PortId) (ok : State → Bool) (f : State → State) (s : State) : Result :=
  .next (portEv p (fun s => if ok s then f s else s) s)

/-- Return hysteresis of a feed threshold, 250 mV in 50 mV (R230). -/
def feedHyst : Nat := 5

/-- A lower threshold's comparator: it crosses below the threshold and returns above it plus the hysteresis (R230, R231). -/
def belowNow (was : Bool) (thr volt : Nat) : Bool := decide (volt < thr) || (was && decide (volt ≤ thr + feedHyst))

/-- An upper threshold's comparator: it crosses above the threshold and returns below it less the hysteresis (R230). -/
def aboveNow (was : Bool) (thr volt : Nat) : Bool := decide (thr < volt) || (was && decide (thr ≤ volt + feedHyst))

/-- The feed voltage as measured, and the comparators of UV, OV and WARN (R230, R231). -/
def seeFeedV (g : TileId) (volt : Nat) (s : State) : State :=
  modGrp g (fun x => { x with
    feedV := volt, uvLow := belowNow x.uvLow (grpUv x.thrNow) volt, ovOver := aboveNow x.ovOver (grpOv x.thrNow) volt
    warnLow := belowNow x.warnLow (grpWarn x.thrNow) volt }) s

/-- The feed current as measured. -/
def seeFeedI (g : TileId) (current : Nat) (s : State) : State := modGrp g (fun x => { x with feedI := current }) s

/-- The feed voltage lies between UV and OV, by more than the hysteresis of one that it had crossed (R229, R230). -/
def feedInWindow (s : State) (g : TileId) (volt : Nat) : Bool :=
  let x := s.grp g
  decide (grpUv x.thrNow < volt) && decide (volt < grpOv x.thrNow) &&
    !belowNow x.uvLow (grpUv x.thrNow) volt && !aboveNow x.ovOver (grpOv x.thrNow) volt

/-- Feed shunt in 0.5 mΩ; 0 acts as 1 (Table 7.8). -/
def feedShunt (x : Group) : Nat := max 1 (fld x.cfgNow 11 8)

/-- A feed current in 10 mA as the hundredth part of 0.5 mV across the feed shunt (R227). -/
def feedDrop (x : Group) (current : Nat) : Nat := current * feedShunt x

/-- The limit that holds the feed current: INRUSH while the gate ramps, else ILIM, in 0.5 mV (R229, R230). -/
def feedLim (x : Group) : Nat := if x.st = .ramping then fld x.limNow 7 0 else fld x.limNow 15 8

/-- FAST in 0.5 mV (Table 7.10). -/
def feedFast (x : Group) : Nat := fld x.limNow 23 16

/-- A switch-off of R230, and what the policies make of it. -/
def tripFeed (g : TileId) (flag cause current : Nat) (s : State) : State := feedLost g (feedTrip g flag cause current s)

/-! ### The group feed (R229 to R236) -/

/-- INS_DELAY starts (R229); a feed that tripped in DEEP waits for the wake (R256). -/
def execFeedQualify (g : TileId) (volt : Nat) (s : State) : Result :=
  onGroup g (fun s => (clocksRun s || !(s.grp g).deepTrip) && (s.grp g).st == .off && feedAllowed s g && !thrBad (s.grp g) && feedInWindow s g volt)
    (fun s => setFeed g .qualifying (seeFeedV g volt s)) s

def execFeedQualifyBreak (g : TileId) (volt : Nat) (s : State) : Result :=
  onGroup g (fun s => (s.grp g).st == .qualifying && !feedInWindow s g volt) (fun s => setFeed g .off (seeFeedV g volt s)) s

def execFeedRampStart (g : TileId) (s : State) : Result :=
  onGroup g (fun s => (s.grp g).st == .qualifying && !thrBad (s.grp g)) (setFeed g .ramping) s

def execFeedOn (g : TileId) (s : State) : Result :=
  onGroup g (fun s => (s.grp g).st == .ramping) (fun s => settle (setFeed g .on s)) s

/-- An attached port asks for its base once its feed is back, or once its weaver can act (R234). -/
def feedBack (p : PortId) (s : State) : State := if (s.port p).tc.st = .attached then orLater p .feedBack (askAgain p) s else s

/-- Gg_PG_N asserts: first once the gate is on and the fault timer is idle, again only above WARN plus hysteresis (R231). At its first
assertion the ports ask again in relay-start order (R234, R244, 06 R199); the feed of a warning band was never down. -/
def execFeedPgood (g : TileId) (volt : Nat) (s : State) : Result :=
  onGroup g (fun s =>
      let x := s.grp g
      !x.limiting && (x.st == .on || (x.st == .warning && decide (grpWarn x.thrNow + feedHyst < volt))))
    (fun s =>
      let first := (s.grp g).st == .on
      let s := settle (setFeedPg g true 3 (setFeed g .good (seeFeedV g volt s)))
      forEach (portsOf g) syncHub (onlyIf first (forEach (sortBy (relayRank s) (portsOf g)) feedBack) s)) s

/-- The warning band starts (R231). -/
def execFeedWarn (g : TileId) (volt : Nat) (s : State) : Result :=
  onGroup g (fun s => (s.grp g).st == .good && decide (volt < grpWarn (s.grp g).thrNow))
    (fun s => settle (setFeedPg g false 4 (setFeed g .warning (seeFeedV g volt s)))) s

/-- The feed current reaches its limit: the fault timer runs (R230, R232). -/
def execFeedLimit (x : FeedSample) (s : State) : Result :=
  onGroup x.grp (fun s => gateDriven s x.grp && decide (100 * feedLim (s.grp x.grp) ≤ feedDrop (s.grp x.grp) x.current))
    (fun s => modGrp x.grp (fun y => { y with limiting := true }) (seeFeedI x.grp x.current s)) s

/-- The feed current has fallen by the 1 mV of hysteresis below its limit (R230, R232). -/
def execFeedLimitEnd (x : FeedSample) (s : State) : Result :=
  onGroup x.grp (fun s => (s.grp x.grp).limiting && decide (feedDrop (s.grp x.grp) x.current + 200 ≤ 100 * feedLim (s.grp x.grp)))
    (fun s => modGrp x.grp (fun y => { y with limiting := false }) (seeFeedI x.grp x.current s)) s

def execFeedFaultTimer (g : TileId) (s : State) : Result :=
  onGroup g (fun s => gateDriven s g && (s.grp g).limiting) (fun s => tripFeed g 4 12 (s.grp g).feedI s) s

def execFeedFastTrip (g : TileId) (current : Nat) (s : State) : Result :=
  onGroup g (fun s => gateDriven s g && decide (100 * feedFast (s.grp g) < feedDrop (s.grp g) current))
    (fun s => tripFeed g 5 13 current (seeFeedI g current s)) s

def execFeedUv (g : TileId) (volt : Nat) (s : State) : Result :=
  onGroup g (fun s => gateDriven s g && decide (volt < grpUv (s.grp g).thrNow))
    (fun s => tripFeed g 2 10 (s.grp g).feedI (seeFeedV g volt s)) s

def execFeedOv (g : TileId) (volt : Nat) (s : State) : Result :=
  onGroup g (fun s => gateDriven s g && decide (grpOv (s.grp g).thrNow < volt))
    (fun s => tripFeed g 3 11 (s.grp g).feedI (seeFeedV g volt s)) s

def execFeedGateRiseFail (g : TileId) (s : State) : Result :=
  onGroup g (fun s => gateDriven s g) (fun s => tripFeed g 6 14 (s.grp g).feedI s) s

def execFeedCooldownEnd (g : TileId) (s : State) : Result :=
  onGroup g (fun s => (s.grp g).st == .cooldown) (fun s => setFeed g (if feedAllowed s g then .off else .disabled) s) s

def execFeedStageReset (g : TileId) (s : State) : Result :=
  onGroup g (fun s => (s.grp g).pg) (modGrp g fun x => { x with trips := 0, stage := 0 }) s

/-- The rail comes up through the ±5 % window (R235). -/
def execRailUp (g : TileId) (volt : Nat) (s : State) : Result :=
  onGroup g (fun s => (s.grp g).pg && railVolt s g != 0 && !(s.grp g).railUp && inWindow (railVolt s g) volt)
    (fun s => forEach (portsOf g) (fun p s => onlyIf (classB s p) (rewant p) s) (modGrp g (fun x => { x with railUp := true, railV := volt }) s)) s

/-- Trip with rail lost, then the weaver's Hard Reset (R236). -/
def loseRailPort (p : PortId) (s : State) : State :=
  if (s.port p).pw.pathNow = .rail then
    let s := tripPort p 15 0 (s.port p).pw.cur.natAbs .rail s
    orLater p .sendReset (sendHardReset p) s
  else s

def execRailLost (g : TileId) (volt : Nat) (s : State) : Result :=
  onGroup g (fun s => (s.grp g).railUp && decide (volt * 100 < railVolt s g * 90))
    (fun s => forEach (portsOf g) loseRailPort (modGrp g (fun x => { x with railUp := false, railV := volt }) s)) s

/-! ### Relay start and ramps (R243 to R247) -/

/-- The relay engine runs on the hub die; relay grants stop in SLEEP and DEEP (R256, 12 R393) and in the safe state (13 R429), and two are at least
SPACING apart (R243). -/
def execRelayGrant (s : State) : Result :=
  .next <|
    if clocksRun s && !s.flt.safe && relayDue s then
      match nextRelay s with
      | some p => portEv p (fun s => modBud (fun b => { b with relayAt := some s.now }) (startRamp p s)) s
      | none => s
    else s

/-- A port that ramps. -/
def ramping (s : State) (p : PortId) : Bool := (s.port p).pw.pstate == .ramping

def seePort (p : PortId) (vbus : Nat) (current : Int) (s : State) : State := modPw p (fun w => { w with vbus := vbus, cur := current }) s

/-- A trip and what the policy makes of it: PD ends, and the cause waits for the next Status (06 Table 6.4, R253). -/
def tripAndTell (p : PortId) (cause point current : Nat) (path : Path) (s : State) : State :=
  let s := tripPort p cause point current path s
  let s := modPd p (fun d => { d with ocp := cause == 0 || cause == 1 || cause == 2 || cause == 5, ovp := cause == 4 }) s
  vbusLost p s

def tripNow (p : PortId) (cause current : Nat) (s : State) : State := tripAndTell p cause 0 current (s.port p).pw.pathNow s

/-- Slew after the probe in 10 mV/ms: 0.8 × INRUSH / C within 0.5 to 10 V/ms (R245). -/
def plannedSlew (inrush cload : Nat) : Nat := if cload = 0 then 1000 else if 1023 < cload then 50 else clampNat 50 1000 ((800 * inrush + cload / 2) / cload)

/-- The load capacitance in µF: mean current in 10 mA over measured slew in 10 mV/ms, to the nearest; what the quotient of a slew of 0
reads is above every value of the register, and open where the current is 0 too (R245 step 2; log 136). -/
def loadCap (current slew open_ : Nat) : Nat :=
  if slew = 0 then (if current = 0 then open_ else 1024) else (1000 * current + slew / 2) / slew

/-- End of the probe: `current` is the mean current and `slew` the measured slew over its last 150 µs (R245 step 2 and 3, R247). -/
def execRampProbeEnd (p : PortId) (vbus current slew : Nat) (s : State) : Result :=
  onPort p (fun s => ramping s p && !(s.port p).pw.probed) (fun s =>
    let s := seePort p vbus current s
    let (n, s) := if current = 0 ∧ slew = 0 then drawNat s else (0, s)
    let cload := loadCap current slew n
    let inr := inrushOf (s.port p).pw.effPwr
    let s := modPw p (fun w => { w with
      probed := true, rampBase := vbus, rampChecks := 0, cload := min 1023 cload, slew := plannedSlew inr cload }) s
    if noLoad (s.port p).pw vbus current then s
    else if vbus < 5 ∧ inr ≤ 2 * current then tripNow p 5 current s
    else s) s

/-- The 250 µs check: at least half of the planned rise since the probe, the plan ending at the keeper's voltage (R247). -/
def execRampCheck (p : PortId) (vbus current : Nat) (s : State) : Result :=
  onPort p (fun s => ramping s p && (s.port p).pw.probed) (fun s =>
    let s := seePort p vbus current s
    let w := (s.port p).pw
    if noLoad w vbus current then modPw p (fun w => { w with rampBase := vbus, rampChecks := 0 }) s
    else
      let n := w.rampChecks + 1
      let planned := min (w.slew * n) (20 * (kVolt w.inForce - w.rampBase))
      if 40 * (vbus - w.rampBase) < planned then tripNow p (if vbus < 5 then 5 else 6) current s
      else modPw p (fun w => { w with rampChecks := n }) s) s

/-- The gate current moves by up to one sixteenth towards the slew that the ramp plans now (R246). -/
def execGateLoopTick (p : PortId) (x : GateStep) (s : State) : Result :=
  onPort p (fun s => ramping s p) (modPw p fun w =>
    let d := min x.delta (w.gateNow / 16)
    { w with gateNow := if x.slew < slewNow w then min 255 (w.gateNow + d) else if slewNow w < x.slew then w.gateNow - d else w.gateNow }) s

def execBreakersArm (p : PortId) (s : State) : Result :=
  onPort p (fun s => ramping s p) (modPw p fun w => { w with armed := true }) s

/-- A sample of the gate current; GATE_LEARN is the mean of the last four (R246). -/
def learnGate (w : PortPwr) (sample : Nat) : PortPwr :=
  let xs := (w.gateSamples ++ [sample % 256]).reverse.take 4 |>.reverse
  { w with gateSamples := xs, gateLearn := if xs.length < 4 then 0 else xs.sum / 4 }

/-- The ramp has reached the keeper's voltage; a held write starts (R245, R246, R240). -/
def execRampComplete (p : PortId) (sample : Nat) (s : State) : Result :=
  onPort p (fun s => ramping s p) (fun s =>
    contractMade p <| startHeld p (modPw p (fun w => learnGate { w with pstate := .on, armed := true, vbus := kVolt w.inForce } sample) s)) s

def execRampTimeout (p : PortId) (current : Nat) (s : State) : Result :=
  onPort p (fun s => ramping s p && !(s.port p).pw.armed && !noLoad (s.port p).pw (s.port p).pw.vbus current) (tripNow p 6 current) s

/-- VBUS lies where a transition to the setting in force ends: inside its window, and downward below 5.25 V (R239). -/
def transitionMet (w : PortPwr) (vbus : Nat) : Bool :=
  inWindow (kVolt w.inForce) vbus && (!(kPath w.inForce == .five && w.pathNow == .rail) || decide (vbus < 105))

/-- A ramp that ends at its window leaves the sample of its gate current, which the command does not give (R240, R246; log 2). -/
def learnHeldRamp (p : PortId) (s : State) : State :=
  if (s.port p).pw.pstate = .ramping then
    let (n, s) := drawNat s
    modPw p (fun w => learnGate { w with armed := true } n) s
  else s

/-- VBUS reads inside the new window: the transition, or a ramp with a write held, ends; a held write starts, and PS_RDY follows where
nothing is left to reach (R239, R240, 06 R190). -/
def execTransitionEnd (p : PortId) (vbus : Nat) (s : State) : Result :=
  onPort p (fun s => settling (s.port p).pw && transitionMet (s.port p).pw vbus)
    (fun s => contractMade p (endTransition p (learnHeldRamp p (modPw p (fun w => { w with vbus := vbus }) s)))) s

/-! ### Power-good (R242) -/

def execPgoodRise (p : PortId) (vbus : Nat) (s : State) : Result :=
  onPort p (fun s =>
      let w := (s.port p).pw
      !w.pgood && w.pathNow != .none && w.pstate != .transition && !w.held && inWindow (kVolt w.inForce) vbus)
    (fun s =>
      let s := modPw p (fun w => { w with pgood := true, vbus := vbus, tripped := false }) s
      vbusGood p (syncHub p (postPgood p true 0 s))) s

def execPgoodFall (p : PortId) (vbus : Nat) (s : State) : Result :=
  onPort p (fun s =>
      let w := (s.port p).pw
      w.pgood && w.pstate != .transition && !w.held && !inWindow (kVolt w.inForce) vbus)
    (fun s => syncHub p (postPgood p false 1 (modPw p (fun w => { w with pgood := false, vbus := vbus }) s))) s

/-! ### Breakers and protections (R248 to R250) -/

/-- A path of the port is on. -/
def pathOn (s : State) (p : PortId) : Bool := (s.port p).pw.pathNow != .none

def execFastTrip (p : PortId) (current : Nat) (s : State) : Result :=
  onPort p (fun s => pathOn s p && decide (scMa (s.port p).pw.effPwr (s.port p).pw.effProt < 10 * current))
    (fun s => tripNow p 0 current (modPw p (fun w => { w with cur := current }) s)) s

/-- The operand is the magnitude of the reverse current. -/
def execReverseTrip (p : PortId) (current : Nat) (s : State) : Result :=
  onPort p (fun s => pathOn s p && decide (revOf (s.port p).pw.effProt < current))
    (fun s => tripNow p 3 current (modPw p (fun w => { w with cur := -(current : Int) }) s)) s

def execOvTrip (p : PortId) (vbus : Nat) (s : State) : Result :=
  onPort p (fun s => pathOn s p && decide (ovNow (s.port p).pw < vbus))
    (fun s => tripNow p 4 (s.port p).pw.cur.natAbs (modPw p (fun w => { w with vbus := vbus }) s)) s

/-- The current crosses 1.25 × IBASE or point currents: timers start or reset (R248, R249). -/
def execBreakerCurrentCrossing (p : PortId) (current : Nat) (s : State) : Result :=
  onPort p (fun s => pathOn s p && (s.port p).pw.armed) (fun s =>
    let ib := kIbase (s.port p).pw.inForce
    modPw p (fun w =>
      let w := { w with cur := current }
      if classB s p then
        { w with curveRun := Vector.ofFn fun k =>
          let pt := curvePct w.effCurve[k] * ib
          curvePct w.effCurve[k] != 0 && (if pt < 100 * current then true else if 10000 * current < 95 * pt then false else w.curveRun[k]) }
      else { w with ftRun := decide (5 * ib < 4 * current) }) s) s

def execClassATrip (p : PortId) (current : Nat) (s : State) : Result :=
  onPort p (fun s => pathOn s p && !classB s p && (s.port p).pw.ftRun) (tripNow p 1 current) s

def execCurveTrip (p : PortId) (k : Fin 8) (current : Nat) (s : State) : Result :=
  onPort p (fun s => pathOn s p && classB s p && (s.port p).pw.curveRun[k])
    (fun s => tripAndTell p 2 k.val current (s.port p).pw.pathNow s) s

/-! ### Pass-FET checks (R251, R252) -/

def execGateRiseFail (p : PortId) (s : State) : Result :=
  onPort p (fun s => pathOn s p) (fun s =>
    let path := (s.port p).pw.pathNow
    tripAndTell p 7 0 (s.port p).pw.cur.natAbs path (latchPfet p path false s)) s

/-- The operand is Pnn_IS in mV with both paths off. -/
def execFetShort (p : PortId) (isMv : Nat) (s : State) : Result :=
  .next <| groupEv (tileOf p) (fun s =>
    if pathOn s p ∨ isMv ≤ 1000 then s
    else
      let path : Path := if 7000 ≤ isMv then .rail else .five
      let s := disableTc p (tripAndTell p 8 0 0 path (latchPfet p path true s))
      if bitOf (s.grp (tileOf p)).cfgNow 14 ∧ (s.grp (tileOf p)).st ≠ .disabled then feedLost (tileOf p) (feedDisable (tileOf p) s) else syncHub p s) s

def execFetOpen (p : PortId) (s : State) : Result :=
  onPort p (fun s => pathOn s p) (fun s =>
    let path := (s.port p).pw.pathNow
    tripAndTell p 9 0 (s.port p).pw.cur.natAbs path (latchPfet p path false s)) s

/-! ### After a trip (R254, R255) -/

/-- The cooldown expires; the weaver writes the 5 V setting again. -/
def execPortCooldownEnd (p : PortId) (s : State) : Result :=
  onPort p (fun s => (s.port p).pw.pstate == .cooldown) (fun s =>
    let s := modPw p (fun w => { w with
      pstate := if w.fwOff then .fwOff else if kPath w.inForce = .none then .off else .waiting }) s
    syncHub p (vbusAgain p s)) s

def execPortStageReset (p : PortId) (s : State) : Result :=
  onPort p (fun s => (s.port p).pw.pgood) (modPw p fun w => { w with stage := 0, retries := 0 }) s

/-- VBUS has been below 0.50 V for 10 ms; what it reads there is open (R255; log 2). -/
def execDischargeEnd (p : PortId) (s : State) : Result :=
  onPort p (fun s => (s.port p).pw.discharge) (fun s =>
    let (n, s) := drawNat s
    modHub p (fun h => { h with powerPending := false }) (modPw p (fun w => { w with discharge := false, vbus := n % 10 }) s)) s

end Sys2Proof.Machine
end

