-- ==== Sys2Proof/Machine/Flags.lean ====
section
/-!
DEFINITION. Machine/Flags.lean: results of the PSI ALU with the flags N, Z, C and V they set (09 R294, Table 9.1, R301,
Table 9.6), and the CRC instruction's register (09 R303).
-/
namespace Sys2Proof.Machine

/-- A result with the carry and overflow it sets; `none` leaves the flag as it is. -/
structure AluOut where
  val : Word
  carry : Option Bool := none
  ovf : Option Bool := none
deriving DecidableEq, Repr

/-- Table 9.1: N and Z from the result. -/
def setFlags (r : AluOut) (c : Cpu) : Cpu :=
  { c with n := r.val.msb, z := r.val == 0, c := r.carry.getD c.c, v := r.ovf.getD c.v }

/-- ra + rb + carry in: carry out, signed overflow. -/
def addOut (a b : Word) (cin : Bool) : AluOut :=
  let r := BitVec.ofNat 32 (a.toNat + b.toNat + b2n cin)
  { val := r, carry := some (decide (2 ^ 32 ≤ a.toNat + b.toNat + b2n cin)), ovf := some (decide (r.toInt ≠ a.toInt + b.toInt + b2n cin)) }

/-- ra − rb − (1 − carry): C = 1 means no borrow, signed overflow. -/
def subOut (a b : Word) (cin : Bool) : AluOut :=
  let r := a - b - BitVec.ofNat 32 (b2n (!cin))
  { val := r, carry := some (decide (b.toNat + b2n (!cin) ≤ a.toNat)), ovf := some (decide (r.toInt ≠ a.toInt - b.toInt - b2n (!cin))) }

/-- Results that set N and Z only. -/
def logicOut (w : Word) : AluOut := { val := w }

/-- Shifts and rotation by 0 to 31: C is the last bit shifted out, unchanged for count 0. -/
def shlOut (a : Word) (n : Nat) : AluOut :=
  { val := a <<< n, carry := if n = 0 then none else some (bitOf a (32 - n)) }

def shrOut (a : Word) (n : Nat) : AluOut :=
  { val := a >>> n, carry := if n = 0 then none else some (bitOf a (n - 1)) }

def sarOut (a : Word) (n : Nat) : AluOut :=
  { val := a.sshiftRight n, carry := if n = 0 then none else some (bitOf a (n - 1)) }

def rorOut (a : Word) (n : Nat) : AluOut :=
  { val := a.rotateRight n, carry := if n = 0 then none else some (bitOf a (n - 1)) }

/-- High 32 bits of the unsigned product. -/
def mulHigh (a b : Word) : Word := BitVec.ofNat 32 (a.toNat * b.toNat / 2 ^ 32)

/-- Signed minimum and maximum. -/
def minS (a b : Word) : Word := if a.toInt ≤ b.toInt then a else b
def maxS (a b : Word) : Word := if a.toInt ≤ b.toInt then b else a

/-- Unsigned minimum and maximum. -/
def minU (a b : Word) : Word := if a.toNat ≤ b.toNat then a else b
def maxU (a b : Word) : Word := if a.toNat ≤ b.toNat then b else a

/-- Leading zeros among the n low bits. -/
def leadingZeros (a : Word) : Nat → Nat
  | 0 => 0
  | n + 1 => if bitOf a n then 0 else 1 + leadingZeros a n

/-- Bits set among the n low bits. -/
def bitsSet (a : Word) : Nat → Nat
  | 0 => 0
  | n + 1 => b2n (bitOf a n) + bitsSet a n

/-- The low n bytes of a word, least significant first. -/
def crcBytes (n : Nat) (b : Word) : List Byte := toBytes n b.toNat

/-- CRC-32 of IEEE 802.3 over the bytes, without initial value or final inversion. -/
def crcWord (c : Word) (bs : List Byte) : Word := bs.foldl (fun c b => crcShift 8 (c ^^^ b.setWidth 32)) c

/-- n steps of the CRC-16 of polynomial 0x1021, most significant bit first. -/
def crc16Shift : Nat → BitVec 16 → BitVec 16
  | 0, c => c
  | n + 1, c => crc16Shift n (if c.getLsbD 15 then (c <<< 1) ^^^ 0x1021#16 else c <<< 1)

/-- The CRC-16 over the bytes. -/
def crcHalf (c : BitVec 16) (bs : List Byte) : BitVec 16 := bs.foldl (fun (c : BitVec 16) (b : Byte) => crc16Shift 8 (c ^^^ (b.setWidth 16 <<< 8))) c

/-- Flags of an instruction that reports in Z whether it was carried out (Table 9.1). -/
def setDone (ok : Bool) (c : Cpu) : Cpu := { c with z := ok }

/-- Table 9.7: the condition holds; 0xF is illegal and holds never. -/
def condHolds (c : Cpu) (cond : Fin 16) : Bool :=
  match cond.val with
  | 0 => c.z
  | 1 => !c.z
  | 2 => c.c
  | 3 => !c.c
  | 4 => c.n
  | 5 => !c.n
  | 6 => c.v
  | 7 => !c.v
  | 8 => c.c && !c.z
  | 9 => !c.c || c.z
  | 10 => c.n == c.v
  | 11 => c.n != c.v
  | 12 => !c.z && c.n == c.v
  | 13 => c.z || c.n != c.v
  | 14 => true
  | _ => false

end Sys2Proof.Machine
end

