-- ==== Sys2Proof/Machine/Operands.lean ====
section
/-!
DEFINITION. Machine/Operands.lean: operands of the PSI instructions: immediates, register pairs, local and device addresses,
local loads and stores, mailbox indices; and the issue of an instruction by a core (09 R288 to R309, R320).
-/
namespace Sys2Proof.Machine

/-! ### Registers and immediates (09 R293, R302) -/

/-- A sign-extended immediate. -/
def sext {n : Nat} (i : BitVec n) : Word := i.signExtend 32

/-- A zero-extended immediate. -/
def zext {n : Nat} (i : BitVec n) : Word := i.setWidth 32

/-- A sign-extended word offset, in bytes. -/
def wordOff {n : Nat} (i : BitVec n) : Word := sext i * 4#32

/-- A pair operand must name an even register (R293). -/
def oddReg (r : Reg) : Bool := r.val % 2 == 1

/-- The high register of a pair. -/
def highReg (r : Reg) : Reg := r + 1

/-- Write a pair: low word, high word. -/
def setPair (r : Reg) (lo hi : Word) (c : Cpu) : Cpu := setReg (highReg r) hi (setReg r lo c)

/-- The core goes on to the next instruction. -/
def advance (c : Cpu) : Cpu := { c with st := .running, stall := .none, pc := c.pc + 4 }

/-- The core goes on at an address. -/
def jump (a : Word) (c : Cpu) : Cpu := { c with pc := a }

/-- A change of the core's own registers and the next instruction. -/
def finish (k : Core) (f : Cpu → Cpu) (s : State) : State := modCpu k (fun c => advance (f c)) s

/-! ### Issue of an instruction (09 R288 to R291, R296; 13 R426) -/

/-- The core executes instructions now: it is out of reset and neither halted, waiting nor stalled, and its clock runs. -/
def executes (s : State) (k : Core) : Bool :=
  (cpuOf s k).st == .running && clocksRun s &&
    (match k with | .weaver p => weaverUp s p | .sup => supUp s)

/-- The n bytes from a place on. -/
def localBytes (s : State) (x : LocalPlace) (n : Nat) : List Byte :=
  match x with
  | .ram key _ _ => memGetBytes s.mem key n
  | .rom off => (List.range n).map fun i => Config.bootRom (off + i)

/-- The word at a place. -/
def wordAt (s : State) (x : LocalPlace) : Word := BitVec.ofNat 32 (ofBytes (localBytes s x 4))

/-- The core fetches at its pc and executes the commanded instruction: a fetch outside the code regions, of an uncorrectable word, or of
a word that is no instruction (R299, R300) raises its exception instead. Which instruction the word at the pc is, the command says, and
not the memory (log 143); an armed lockstep injection meets the supervisor's next instruction. A core
that does not execute ignores the command (log 12). -/
def issue (k : Core) (f : State → State) (s : State) : Result :=
  .next <|
    if ¬ executes s k then s
    else if k = .sup ∧ bitOf s.flt.inj 31 ∧ fld s.flt.inj 26 24 = 3 then latchReport fLockstep s.sup.pc false (injDone s)
    else
      let pc := (cpuOf s k).pc
      match (if pc.toNat % 4 = 0 then localPlace k .fetch pc.toNat else none) with
      | none => busError' k pc s
      | some x =>
        let (bad, s) := eccLocal x s
        if bad then memError k pc s else if (decodePsi (wordAt s x)).isNone then illegal k s else f s

/-- An instruction that is illegal under a condition. -/
def legal (k : Core) (ok : Bool) (f : State → State) (s : State) : State := if ok then f s else illegal k s

/-- An instruction of the weavers only (R291). -/
def onWeaver (k : Core) (f : PortId → State → State) (s : State) : State :=
  match k with
  | .weaver p => f p s
  | .sup => illegal k s

/-- An instruction of the supervisor only (R291). -/
def onSup (k : Core) (f : State → State) (s : State) : State :=
  match k with
  | .weaver _ => illegal k s
  | .sup => f s

/-! ### Local memory (09 R296, R306) -/

/-- The next word of the same memory. -/
def nextPlace : LocalPlace → LocalPlace
  | .ram key m w => .ram (key + 4) m (w + 1)
  | .rom off => .rom (off + 4)

/-- ECC of the words that an n-byte load reads. -/
def eccLoad (n : Nat) (x : LocalPlace) (s : State) : Bool × State :=
  let (bad, s) := eccLocal x s
  if n = 8 ∧ ¬ bad then eccLocal (nextPlace x) s else (bad, s)

/-- ra + sign-extended IMM18. -/
def localAddr (c : Cpu) (ra : Reg) (imm : BitVec 18) : Word := getReg c ra + sext imm

/-- Load n bytes, low byte first, and give the number to the registers. -/
def loadLocal (k : Core) (n : Nat) (ra : Reg) (imm : BitVec 18) (f : Nat → Cpu → Cpu) (s : State) : State :=
  let a := localAddr (cpuOf s k) ra imm
  if a.toNat % n ≠ 0 then busError' k a s
  else
    match localPlace k .load a.toNat with
    | none => busError' k a s
    | some x =>
      let (bad, s) := eccLoad n x s
      if bad then memError k a s else finish k (f (ofBytes (localBytes s x n))) s

/-- Check bits of the word that an n-byte store reaches: a whole word has new ones; a store of a part reads the word first, which
corrects and reports a single-bit error and leaves an uncorrectable word uncorrectable (01 R12). -/
def eccWritten (n : Nat) (m : EccMem) (w : Nat) (s : State) : State :=
  if n = 8 then eccStore m (w + 1) (eccStore m w s)
  else if n = 4 then eccStore m w s
  else if eccAt s m w = some true then s
  else eccStore m w (eccFix m w s)

/-- Device key that a local store reaches. -/
def storeKey (k : Core) (a : Word) : Option Nat :=
  match localPlace k .store a.toNat with
  | some (.ram key _ _) => some key
  | _ => none

/-- Store the n low bytes of a number, low byte first. -/
def storeLocal (k : Core) (n : Nat) (ra : Reg) (imm : BitVec 18) (v : Nat) (s : State) : State :=
  let a := localAddr (cpuOf s k) ra imm
  if a.toNat % n ≠ 0 then busError' k a s
  else
    match localPlace k .store a.toNat with
    | some (.ram key m w) => finish k id (eccWritten n m w { s with mem := memPutBytes s.mem key (toBytes n v) })
    | _ => busError' k a s

/-! ### Device addresses (09 R307) -/

/-- The master that a core is (02 R34). -/
def masterOf : Core → Master
  | .weaver p => .weaver (tileOf p)
  | .sup => .sup

/-- Width of IMM18[17:16]. -/
def devWidth (imm : BitVec 18) : Width :=
  match imm.toNat / 2 ^ 16 with
  | 0 => .byte
  | 1 => .half
  | 2 => .word
  | _ => .dbl

/-- ra + IMM18[15:0], unsigned. -/
def devAddr (c : Cpu) (ra : Reg) (imm : BitVec 18) : Word := getReg c ra + BitVec.ofNat 32 (imm.toNat % 2 ^ 16)

/-- A read that stalls its core until the data returns: of another block than those local to a weaver, or by the supervisor
of a tile or of the RIM domain (R308, R309, Table 9.16). -/
def readStalls (k : Core) (a : Nat) (s : State) : Bool :=
  match k with
  | .weaver p =>
    tileOfAddr a != some (tileOf p) && (match regAt (a / 4 * 4) with | some .timeSec => false | some .timeNs => false | _ => true)
  | .sup =>
    placeFor .sup false (a / 4 * 4) s != .none &&
      (match regAt (a / 4 * 4) with
      | some r => r.slow
      | none => (tileOfAddr a).isSome)

/-- The data of a read, or its bus error. -/
def readDevice (k : Core) (rd : Reg) (w : Width) (a : Word) (s : State) : State :=
  let (x, lo, hi, s) := psiRead (masterOf k) w a.toNat s
  let s := modAcc (fun y => { y with answer := x, data := lo }) s
  if x = .ok then finish k (fun c => if w = .dbl then setPair rd lo hi c else setReg rd lo c) s else busError' k a s

/-! ### Mailboxes (09 R320) -/

/-- (ra + IMM12)[3:0]. -/
def mailIndex (c : Cpu) (ra : Reg) (imm : BitVec 12) : Nat := (getReg c ra + zext imm).toNat % 16

/-- The sending mailbox of an index. -/
def sendBox (k : Core) (i : Nat) : Option (Fin 24) :=
  match k with
  | .weaver p => if i = 0 then some (boxUp (tileOf p)) else none
  | .sup => if i < 4 then some (boxS2H (Fin.ofNat 4 i)) else if 8 ≤ i then some (boxDown (Fin.ofNat 8 i)) else none

/-- The receiving mailbox of an index. -/
def recvBox (k : Core) (i : Nat) : Option (Fin 24) :=
  match k with
  | .weaver p => if i = 0 then some (boxDown (tileOf p)) else none
  | .sup => if i < 4 then some (boxH2S (Fin.ofNat 4 i)) else if 8 ≤ i then some (boxUp (Fin.ofNat 8 i)) else none

/-- The thread that a core is within its tile. -/
def threadOf : Core → Option (Fin 8)
  | .weaver p => some (laneOf p)
  | .sup => none

/-- A mailbox instruction: the index names the mailbox; any other index, or IMM12[11:4] not 0, is illegal. -/
def onBox (k : Core) (box : Core → Nat → Option (Fin 24)) (ra : Reg) (imm : BitVec 12) (f : Fin 24 → State → State) (s : State) : State :=
  match (if imm.toNat < 16 then box k (mailIndex (cpuOf s k) ra imm) else none) with
  | some b => f b s
  | none => illegal k s

end Sys2Proof.Machine
end

