-- ==== Sys2Proof/Machine/PsiAlu.lean ====
section
/-!
DEFINITION. Machine/PsiAlu.lean: ALU instructions, immediates, CRC, branches and jumps of the PSI cores (09 R301 to R305).
-/
namespace Sys2Proof.Machine

/-- An ALU instruction: rd takes the result, and with S = 1 the flags follow it (R301). -/
def alu (k : Core) (rd : Reg) (f : Bool) (r : Cpu → AluOut) (s : State) : Result :=
  issue k (finish k fun c => setReg rd (r c).val (onlyIf f (setFlags (r c)) c)) s

/-- A comparison: flags only, and the RD field must be 0 (R301, R302). -/
def aluTest (k : Core) (rd : Reg) (r : Cpu → AluOut) (s : State) : Result :=
  issue k (legal k (rd == 0) (finish k fun c => setFlags (r c) c)) s

/-- An ALU instruction of one operand: the RB field must be 0 (R301). -/
def aluOne (k : Core) (rd rb : Reg) (f : Bool) (r : Cpu → AluOut) (s : State) : Result :=
  issue k (legal k (rb == 0) (finish k fun c => setReg rd (r c).val (onlyIf f (setFlags (r c)) c))) s

/-- Shift count rb[4:0]. -/
def countOf (w : Word) : Nat := w.toNat % 32

/-! ### The ALU group (Table 9.6) -/

def execAdd (k : Core) (rd ra rb : Reg) (f : Bool) (s : State) : Result := alu k rd f (fun c => addOut (getReg c ra) (getReg c rb) false) s

def execAdc (k : Core) (rd ra rb : Reg) (f : Bool) (s : State) : Result := alu k rd f (fun c => addOut (getReg c ra) (getReg c rb) c.c) s

def execSub (k : Core) (rd ra rb : Reg) (f : Bool) (s : State) : Result := alu k rd f (fun c => subOut (getReg c ra) (getReg c rb) true) s

def execSbc (k : Core) (rd ra rb : Reg) (f : Bool) (s : State) : Result := alu k rd f (fun c => subOut (getReg c ra) (getReg c rb) c.c) s

def execAnd (k : Core) (rd ra rb : Reg) (f : Bool) (s : State) : Result := alu k rd f (fun c => logicOut (getReg c ra &&& getReg c rb)) s

def execOr (k : Core) (rd ra rb : Reg) (f : Bool) (s : State) : Result := alu k rd f (fun c => logicOut (getReg c ra ||| getReg c rb)) s

def execXor (k : Core) (rd ra rb : Reg) (f : Bool) (s : State) : Result := alu k rd f (fun c => logicOut (getReg c ra ^^^ getReg c rb)) s

def execAndn (k : Core) (rd ra rb : Reg) (f : Bool) (s : State) : Result := alu k rd f (fun c => logicOut (getReg c ra &&& ~~~getReg c rb)) s

def execShl (k : Core) (rd ra rb : Reg) (f : Bool) (s : State) : Result := alu k rd f (fun c => shlOut (getReg c ra) (countOf (getReg c rb))) s

def execShr (k : Core) (rd ra rb : Reg) (f : Bool) (s : State) : Result := alu k rd f (fun c => shrOut (getReg c ra) (countOf (getReg c rb))) s

def execSar (k : Core) (rd ra rb : Reg) (f : Bool) (s : State) : Result := alu k rd f (fun c => sarOut (getReg c ra) (countOf (getReg c rb))) s

def execRor (k : Core) (rd ra rb : Reg) (f : Bool) (s : State) : Result := alu k rd f (fun c => rorOut (getReg c ra) (countOf (getReg c rb))) s

def execMul (k : Core) (rd ra rb : Reg) (f : Bool) (s : State) : Result := alu k rd f (fun c => logicOut (getReg c ra * getReg c rb)) s

def execMulhu (k : Core) (rd ra rb : Reg) (f : Bool) (s : State) : Result := alu k rd f (fun c => logicOut (mulHigh (getReg c ra) (getReg c rb))) s

def execMin (k : Core) (rd ra rb : Reg) (f : Bool) (s : State) : Result := alu k rd f (fun c => logicOut (minS (getReg c ra) (getReg c rb))) s

def execMax (k : Core) (rd ra rb : Reg) (f : Bool) (s : State) : Result := alu k rd f (fun c => logicOut (maxS (getReg c ra) (getReg c rb))) s

def execMinu (k : Core) (rd ra rb : Reg) (f : Bool) (s : State) : Result := alu k rd f (fun c => logicOut (minU (getReg c ra) (getReg c rb))) s

def execMaxu (k : Core) (rd ra rb : Reg) (f : Bool) (s : State) : Result := alu k rd f (fun c => logicOut (maxU (getReg c ra) (getReg c rb))) s

def execClz (k : Core) (rd ra rb : Reg) (f : Bool) (s : State) : Result :=
  aluOne k rd rb f (fun c => logicOut (BitVec.ofNat 32 (leadingZeros (getReg c ra) 32))) s

def execPopc (k : Core) (rd ra rb : Reg) (f : Bool) (s : State) : Result :=
  aluOne k rd rb f (fun c => logicOut (BitVec.ofNat 32 (bitsSet (getReg c ra) 32))) s

def execCmp (k : Core) (rd ra rb : Reg) (s : State) : Result := aluTest k rd (fun c => subOut (getReg c ra) (getReg c rb) true) s

def execTst (k : Core) (rd ra rb : Reg) (s : State) : Result := aluTest k rd (fun c => logicOut (getReg c ra &&& getReg c rb)) s

/-! ### Immediate forms (R302) -/

def execAddi (k : Core) (rd ra : Reg) (imm : BitVec 18) (s : State) : Result :=
  alu k rd false (fun c => addOut (getReg c ra) (sext imm) false) s

def execAndi (k : Core) (rd ra : Reg) (imm : BitVec 18) (s : State) : Result := alu k rd false (fun c => logicOut (getReg c ra &&& zext imm)) s

def execOri (k : Core) (rd ra : Reg) (imm : BitVec 18) (s : State) : Result := alu k rd false (fun c => logicOut (getReg c ra ||| zext imm)) s

def execXori (k : Core) (rd ra : Reg) (imm : BitVec 18) (s : State) : Result := alu k rd false (fun c => logicOut (getReg c ra ^^^ zext imm)) s

def execCmpi (k : Core) (rd ra : Reg) (imm : BitVec 18) (s : State) : Result := aluTest k rd (fun c => subOut (getReg c ra) (sext imm) true) s

def execTsti (k : Core) (rd ra : Reg) (imm : BitVec 18) (s : State) : Result := aluTest k rd (fun c => logicOut (getReg c ra &&& zext imm)) s

/-- The shift that IMM18[6:5] of SHI names. -/
def shiftOf (kind : Nat) (a : Word) (n : Nat) : AluOut :=
  match kind with
  | 0 => shlOut a n
  | 1 => shrOut a n
  | 2 => sarOut a n
  | _ => rorOut a n

/-- SHI: [7] S, [6:5] kind, [4:0] count; [17:8] must be 0. -/
def execShi (k : Core) (rd ra : Reg) (imm : BitVec 18) (s : State) : Result :=
  let i := imm.toNat
  issue k (legal k (decide (i < 256)) (finish k fun c =>
    let r := shiftOf (i / 32 % 4) (getReg c ra) (i % 32)
    setReg rd r.val (onlyIf (decide (128 ≤ i)) (setFlags r) c))) s

def execLui (k : Core) (rd : Reg) (imm : BitVec 22) (s : State) : Result := issue k (finish k (setReg rd (zext imm <<< 10))) s

def execAddpc (k : Core) (rd : Reg) (imm : BitVec 22) (s : State) : Result := issue k (finish k fun c => setReg rd (c.pc + wordOff imm) c) s

/-! ### CRC (R303) -/

/-- The CRC-16 register in ra: its upper half is no part of it, and what rd then holds there is open unless ra holds 0 there (log 32). -/
def crcSixteen (a : Word) (bs : List Byte) (free : Word) : Word :=
  let r := (crcHalf (a.setWidth 16) bs).setWidth 32
  if a.toNat < 65536 then r else r ||| (free &&& 0xFFFF0000#32)

def execCrc (k : Core) (rd ra rb : Reg) (fn : BitVec 6) (f : Bool) (s : State) : Result :=
  let n := fn.toNat
  issue k (legal k (decide (n < 8) && !f) (fun s =>
    let c := cpuOf s k
    let bs := crcBytes (n % 4 + 1) (getReg c rb)
    if n / 4 = 0 then finish k (setReg rd (crcWord (getReg c ra) bs)) s
    else
      let (w, s) := drawWord s
      finish k (setReg rd (crcSixteen (getReg c ra) bs w)) s)) s

/-! ### Branches and jumps (R304, R305) -/

def execB (k : Core) (cond : Fin 16) (off : BitVec 22) (s : State) : Result :=
  issue k (legal k (cond != 15) (modCpu k fun c => if condHolds c cond then jump (c.pc + wordOff off) c else advance c)) s

def execBl (k : Core) (cond : Fin 16) (off : BitVec 22) (s : State) : Result :=
  issue k (legal k (cond != 15) (modCpu k fun c =>
    if condHolds c cond then jump (c.pc + wordOff off) (setReg 15 (c.pc + 4) c) else advance c)) s

def execJlr (k : Core) (rd ra : Reg) (imm : BitVec 18) (s : State) : Result :=
  issue k (fun s =>
    let a := localAddr (cpuOf s k) ra imm
    if a.toNat % 4 ≠ 0 then busError' k a s else modCpu k (fun c => jump a (setReg rd (c.pc + 4) c)) s) s

end Sys2Proof.Machine
end

