-- ==== Sys2Proof/Machine/PsiMem.lean ====
section
/-!
DEFINITION. Machine/PsiMem.lean: loads and stores of local memory, and device-register access by the PSI cores (09 R306 to R310).
-/
namespace Sys2Proof.Machine

/-! ### Local memory (R306) -/

def execLdw (k : Core) (rd ra : Reg) (imm : BitVec 18) (s : State) : Result :=
  issue k (loadLocal k 4 ra imm fun v => setReg rd (BitVec.ofNat 32 v)) s

def execLdh (k : Core) (rd ra : Reg) (imm : BitVec 18) (s : State) : Result :=
  issue k (loadLocal k 2 ra imm fun v => setReg rd (sext (BitVec.ofNat 16 v))) s

def execLdhu (k : Core) (rd ra : Reg) (imm : BitVec 18) (s : State) : Result :=
  issue k (loadLocal k 2 ra imm fun v => setReg rd (zext (BitVec.ofNat 16 v))) s

def execLdb (k : Core) (rd ra : Reg) (imm : BitVec 18) (s : State) : Result :=
  issue k (loadLocal k 1 ra imm fun v => setReg rd (sext (BitVec.ofNat 8 v))) s

def execLdbu (k : Core) (rd ra : Reg) (imm : BitVec 18) (s : State) : Result :=
  issue k (loadLocal k 1 ra imm fun v => setReg rd (zext (BitVec.ofNat 8 v))) s

def execLdd (k : Core) (rd ra : Reg) (imm : BitVec 18) (s : State) : Result :=
  issue k (legal k (!oddReg rd) (loadLocal k 8 ra imm fun v => setPair rd (BitVec.ofNat 32 v) (BitVec.ofNat 32 (v / 2 ^ 32)))) s

def execStw (k : Core) (rd ra : Reg) (imm : BitVec 18) (s : State) : Result :=
  issue k (fun s => storeLocal k 4 ra imm (getReg (cpuOf s k) rd).toNat s) s

def execSth (k : Core) (rd ra : Reg) (imm : BitVec 18) (s : State) : Result :=
  issue k (fun s => storeLocal k 2 ra imm (getReg (cpuOf s k) rd).toNat s) s

def execStb (k : Core) (rd ra : Reg) (imm : BitVec 18) (s : State) : Result :=
  issue k (fun s => storeLocal k 1 ra imm (getReg (cpuOf s k) rd).toNat s) s

/-- The pair as one number, low word first. -/
def pairNat (c : Cpu) (r : Reg) : Nat := (getReg c r).toNat + 2 ^ 32 * (getReg c (highReg r)).toNat

def execStd (k : Core) (rd ra : Reg) (imm : BitVec 18) (s : State) : Result :=
  issue k (legal k (!oddReg rd) (fun s => storeLocal k 8 ra imm (pairNat (cpuOf s k) rd) s)) s

/-! ### Device registers (R307 to R309) -/

/-- RLD: bits [31:24] of the address must be 0; a remote read stalls. -/
def rldRun (k : Core) (rd ra : Reg) (imm : BitVec 18) (s : State) : State :=
  let a := devAddr (cpuOf s k) ra imm
  let w := devWidth imm
  if 2 ^ 24 ≤ a.toNat ∨ a.toNat % widthBytes w ≠ 0 then busError' k a s
  else if readStalls k a.toNat s then modCpu k (fun c => { c with st := .stallRld, stall := .rld rd a.toNat w }) s
  else readDevice k rd w a s

def execRld (k : Core) (rd ra : Reg) (imm : BitVec 18) (s : State) : Result :=
  issue k (legal k (!(devWidth imm == .dbl && oddReg rd)) (rldRun k rd ra imm)) s

/-- The stalled RLD of a core. -/
def stalledRld (c : Cpu) : Option (Reg × Nat × Width) :=
  match c.st, c.stall with
  | .stallRld, .rld rd a w => some (rd, a, w)
  | _, _ => none

/-- The data of a stalled RLD returns (R308, R309). -/
def execRldComplete (k : Core) (s : State) : Result :=
  .next <|
    match stalledRld (cpuOf s k) with
    | some (rd, a, w) => if clocksRun s ∧ ¬ readLost (masterOf k) a s then readDevice k rd w (BitVec.ofNat 32 a) s else s
    | none => s

/-- R309: 1 ms without the data of a tile-domain register. -/
def execRldTimeout (s : State) : Result :=
  .next <|
    match stalledRld s.sup with
    | some (_, a, _) => if (tileOfAddr a).isSome then busError' .sup (BitVec.ofNat 32 a) s else s
    | none => s

/-- RST. The core goes on first: the write may itself halt or restart it. -/
def rstRun (k : Core) (rd ra : Reg) (imm : BitVec 18) (s : State) : State :=
  let c := cpuOf s k
  let a := devAddr c ra imm
  if 2 ^ 24 ≤ a.toNat then busError' k a s
  else
    let (x, s₁) := psiWrite (masterOf k) (devWidth imm) a.toNat (getReg c rd) (getReg c (highReg rd)) (modCpu k advance s)
    let s₁ := modAcc (fun y => { y with answer := x }) s₁
    if x = .align ∨ x = .decode then busError' k a (modCpu k (jump c.pc) s₁) else s₁

def execRst (k : Core) (rd ra : Reg) (imm : BitVec 18) (s : State) : Result :=
  issue k (legal k (!(devWidth imm == .dbl && oddReg rd)) (rstRun k rd ra imm)) s

/-! ### FENCE (R310) -/

/-- A posted write of the supervisor is on its way; a weaver's accesses are local to its tile and never posted (R308). -/
def fenceWaits (k : Core) (s : State) : Bool :=
  match k with
  | .weaver _ => false
  | .sup => s.acc.busy.toList.any fun w => match w with | some x => x.master == .sup | none => false

def execFence (k : Core) (s : State) : Result :=
  issue k (fun s => if fenceWaits k s then modCpu k (fun c => { c with st := .stallFence }) s else finish k id s) s

def execFenceComplete (k : Core) (s : State) : Result :=
  .next <| if (cpuOf s k).st = .stallFence ∧ ¬ fenceWaits k s then finish k id s else s

end Sys2Proof.Machine
end

