-- ==== Sys2Proof/Machine/PsiPort.lean ====
section
/-!
DEFINITION. Machine/PsiPort.lean: PD buffer and port instructions of the weavers (09 R323 to R327).
-/
namespace Sys2Proof.Machine

/-! ### PD buffers (R323 to R325) -/

/-- Word w of the current slot (Table 9.13). What words 0 to 9, and all of word 10 but VALID, read with no slot held is open. -/
def slotWord (x : Option Slot) (w : Nat) (free : Word) : Word :=
  match x with
  | some t =>
    if w < 8 then BitVec.ofNat 32 (ofBytes (((mBytes t.msg).take (mLength t.msg) ++ List.replicate 32 0).drop (4 * w) |>.take 4))
    else if w = 8 then pack [(b2n t.stamp.tq, 31), (t.stamp.sec % 2 ^ 30, 0)]
    else if w = 9 then pack [(t.stamp.ns % 2 ^ 30, 0)]
    else if w = 10 then pack [(1, 31), (frameCode t.msg.frame, 28), (mLength t.msg, 0)]
    else 0
  | none => if w < 10 then free else if w = 10 then free &&& 0x7000003F#32 else 0

/-- A slot word that nothing defines. -/
def slotOpen (x : Option Slot) (w : Nat) : Bool := x.isNone && decide (w < 11)

def execPdrd (k : Core) (rd : Reg) (w : BitVec 12) (s : State) : Result :=
  issue k (onWeaver k fun p s =>
    let x := (s.port p).phy.slots.head?
    let i := w.toNat % 16
    if slotOpen x i then
      let (free, s) := drawWord s
      finish k (setReg rd (slotWord x i free)) s
    else finish k (setReg rd (slotWord x i 0)) s) s

def execPdwr (k : Core) (ra : Reg) (w : BitVec 12) (s : State) : Result :=
  issue k (onWeaver k fun p s =>
    let v := getReg (cpuOf s k) ra
    finish k id (modPhy p (fun x => { x with txBuf := x.txBuf.set (w.toNat % 8) v (by omega) }) s)) s

/-- The message in the transmit buffer: header, then the data objects it counts. -/
def bufferMsg (buf : Vector Word 8) (f : Frame) : PdMsg :=
  let bs := (buf.toList.map fun (w : Word) => toBytes 4 w.toNat).flatten
  let h := BitVec.ofNat 16 (ofBytes (bs.take 2))
  { frame := f, header := h
    objs := (List.range (mObjs h)).map fun i => BitVec.ofNat 32 (ofBytes ((bs.drop (2 + 4 * i)).take 4)) }

/-- Frame codes that PDSEND may send. -/
def sendFrame (f : Nat) : Option Frame :=
  match f with
  | 0 => some .sop
  | 1 => some .sop1
  | 7 => some .hardReset
  | _ => none

/-- PDSEND is refused while a send is in progress, and while the PHY receives on SOP or SOP' (R324). -/
def execPdsend (k : Core) (f : PdsendArg) (s : State) : Result :=
  issue k (onWeaver k fun p s =>
    match sendFrame (f.imm.toNat % 8) with
    | none => illegal k s
    | some fr =>
      if (s.port p).phy.tx.isSome ∨ f.receiving then finish k (setDone false) s
      else
        let m := if fr = .hardReset then { frame := .hardReset } else bufferMsg (s.port p).phy.txBuf fr
        finish k (setDone true) (modPhy p (fun x => { x with tx := some { msg := m, bySend := true } }) s)) s

def execPdrel (k : Core) (s : State) : Result :=
  issue k (onWeaver k fun p s => finish k id (modPhy p (fun x => { x with slots := x.slots.drop 1 }) s)) s

/-- The word that PDSTAT returns. -/
def pdStatus (x : PdPhy) : Word := pack [(b2n x.tx.isSome, 31), (x.slots.length, 28), (x.rxOvf, 8)]

def execPdstat (k : Core) (rd : Reg) (s : State) : Result :=
  issue k (onWeaver k fun p s =>
    finish k (setReg rd (pdStatus (s.port p).phy)) (modPhy p (fun x => { x with rxOvf := 0 }) s)) s

def execPdcfg (k : Core) (b : BitVec 12) (s : State) : Result :=
  issue k (onWeaver k fun p => legal k (decide (b.toNat < 8)) fun s =>
    finish k id (modPhy p (fun x => { x with optSop1 := b.getLsbD 0, optRev2 := b.getLsbD 1, bist := x.bist || b.getLsbD 2 }) s)) s

/-! ### PCTL (R326) -/

/-- A PCTL function with an argument below a bound: Z = 1, and the port follows; what it does may stall the program (01 R20). -/
def pctl (k : Core) (bound : Nat) (x : Byte) (f : PortId → State → State) (s : State) : Result :=
  issue k (onWeaver k fun p => legal k (decide (x.toNat < bound)) fun s => f p (finish k (setDone true) s)) s

def rpOf (n : Nat) : Rp :=
  match n with
  | 0 => .dflt
  | 1 => .a15
  | 2 => .a30
  | _ => .none

def execPctlRp (k : Core) (x : Byte) (s : State) : Result := pctl k 4 x (fun p => setRp p (rpOf x.toNat)) s

def pinOf (n : Nat) : Pin :=
  match n with
  | 0 => .none
  | 1 => .cc1
  | _ => .cc2

def execPctlCcsel (k : Core) (x : Byte) (s : State) : Result := pctl k 3 x (fun p => modTc p fun t => { t with ccsel := pinOf x.toNat }) s

/-- VCONN on is refused with no pin selected, after a VCONN trip, or with the VCONN pin at 0.8 V or more. -/
def vconnRefused (t : PortTc) (on pinHigh : Bool) : Bool := on && (t.ccsel == .none || t.vconnOc || pinHigh)

def execPctlVconn (k : Core) (x : Byte) (pinHigh : Bool) (s : State) : Result :=
  issue k (onWeaver k fun p => legal k (decide (x.toNat < 2)) fun s =>
    let on := x.toNat == 1
    if vconnRefused (s.port p).tc on pinHigh then finish k (setDone false) s
    else
      let s := onlyIf on (holdVconn p) (modTc p (fun t => { t with vconnOn := on && !t.ccHold, vconnPartner := t.vconnPartner && !on }) s)
      finish k (setDone true) s) s

def sbuOf (n : Nat) : Sbu :=
  match n with
  | 0 => .isOpen
  | 1 => .straight
  | _ => .crossed

def execPctlSbu (k : Core) (x : Byte) (s : State) : Result := pctl k 3 x (fun p => modTc p fun t => { t with sbu := sbuOf x.toNat }) s

def tcOf (n : Nat) : TcState :=
  match n with
  | 0 => .unattached
  | 1 => .attachWait
  | 2 => .attached
  | 3 => .disabled
  | 4 => .errorRecovery
  | _ => .unsupported

/-- STATE: ErrorRecovery on a firmware command takes Rp, VBUS and VCONN off and times its 30 ms (06 R176). -/
def execPctlState (k : Core) (x : Byte) (s : State) : Result :=
  pctl k 6 x (fun p s => allEv (fun s =>
    if tcOf x.toNat = .errorRecovery then enterRecovery p s else syncHub p (modTc p (fun t => { t with st := tcOf x.toNat }) s)) s) s

/-- BASE: 0 restarts the learning from the trim, 1 freezes the baseline. -/
def execPctlBase (k : Core) (x : Byte) (s : State) : Result :=
  pctl k 2 x (fun p s => if x.toNat = 0 then startBaseline p s else modTc p (fun t => { t with baseFrozen := true }) s) s

/-! ### PSTAT and PORTB (R327) -/

def execPstat (k : Core) (rd : Reg) (s : State) : Result :=
  issue k (onWeaver k fun p s => finish k (setReg rd (pstat s p)) s) s

def execPortb (k : Core) (rd : Reg) (s : State) : Result :=
  issue k (onWeaver k fun p => finish k (setReg rd (BitVec.ofNat 32 (addrPort p 0)))) s

end Sys2Proof.Machine
end

