-- ==== Sys2Proof/Machine/PsiSys.lean ====
section
/-!
DEFINITION. Machine/PsiSys.lean: special registers, exceptions, waiting, timers, stamps, records, mailboxes and semaphores of the
PSI cores (09 R295, R310 to R322, R328 to R331).
-/
namespace Sys2Proof.Machine

/-! ### Special registers (R295, Table 9.2) -/

/-- The special register n; `none` for one outside the core's set. -/
def specialReg (s : State) (k : Core) (n : Nat) : Option Word :=
  let c := cpuOf s k
  match n with
  | 0 => some (statusWord c)
  | 1 => some c.epc
  | 2 => some (c.ecause.setWidth 32)
  | 3 => some c.eaddr
  | 4 => some c.estat
  | 5 => some c.emask
  | 6 => some (ependOf s k)
  | 7 => some (selfWord k)
  | 8 => some (cycleWord s k)
  | 9 => some (evecOf s k)
  | 10 => match k with | .sup => some c.ien | .weaver _ => none
  | _ => none

/-- A write of special register n; a read-only one discards it. -/
def writeSpecial (k : Core) (n : Nat) (v : Word) (c : Cpu) : Cpu :=
  match n with
  | 0 => setStatus k v c
  | 1 => { c with epc := v }
  | 4 => { c with estat := v }
  | 5 => { c with emask := v }
  | 6 => { c with epend := c.epend &&& ~~~v }
  | 9 => match k with | .sup => { c with evec := v &&& 0xFFFFFC00#32 } | .weaver _ => c
  | 10 => { c with ien := v }
  | _ => c

def execSrd (k : Core) (rd : Reg) (n : BitVec 12) (s : State) : Result :=
  issue k (fun s => match specialReg s k n.toNat with | some v => finish k (setReg rd v) s | none => illegal k s) s

def execSwr (k : Core) (ra : Reg) (n : BitVec 12) (s : State) : Result :=
  issue k (fun s => legal k (specialReg s k n.toNat).isSome (finish k fun c => writeSpecial k n.toNat (getReg c ra) c) s) s

/-! ### Traps and exceptions (R329 to R331) -/

def execTrap (k : Core) (n : Fin 16) (s : State) : Result := issue k (takeException k (excTrap + n.val) 0 true) s

def execEret (k : Core) (s : State) : Result := issue k (returnException k) s

/-- The supervisor takes an interrupt between instructions, also while EWAIT or a WAIT in RUN waits (Table 9.15). -/
def execInterrupt (s : State) : Result :=
  let c := s.sup
  let ready : Bool := match c.st with | .running | .ewait | .wait => true | _ => false
  .next <|
    if ready ∧ supUp s ∧ clocksRun s ∧ s.crp.st = .run ∧ c.ie ∧ ¬ c.ex ∧ ependOf s .sup &&& c.ien ≠ 0 then
      takeException .sup excInterrupt 0 false s
    else s

/-- A pending NMI of the collector is taken at once; a stalled instruction is abandoned (R331). -/
def execNmi (s : State) : Result :=
  .next <|
    if s.flt.nmi ∧ supUp s ∧ clocksRun s ∧ (s.crp.st = .run ∨ s.crp.st = .idle) then
      takeException .sup excNmi 0 false
        (modCrp (fun c => { c with st := .run }) (modFlt (fun f => { f with nmi := false }) s))
    else s

def execWdog (k : Core) (s : State) : Result := issue k (fun s => finish k (fun c => { c with wdogAt := s.now }) s) s

/-- R312. -/
def execSig (k : Core) (i : BitVec 12) (s : State) : Result :=
  issue k (onWeaver k fun p => legal k (decide (i.toNat < 8)) fun s =>
    finish k id (latchEv (portOf (tileOf p) (Fin.ofNat 8 i.toNat)) (BitVec.ofNat 32 (2 ^ 19)) s)) s

/-! ### Waiting (R311, R313, R314) -/

/-- The mask: ra, or EMASK when ra is g0. -/
def waitMask (c : Cpu) (ra : Reg) : Word := if ra = 0 then c.emask else getReg c ra

/-- An instruction waits for its mask; an event already pending is returned at once. -/
def beginWait (k : Core) (st : RunState) (rd ra : Reg) (s : State) : State :=
  let mask := waitMask (cpuOf s k) ra
  if ependOf s k &&& mask ≠ 0 then endWait k rd mask s
  else modCpu k (fun c => { c with waitRd := rd, waitMask := mask, st := st }) s

def execEwait (k : Core) (rd ra : Reg) (s : State) : Result := issue k (beginWait k .ewait rd ra) s

/-- WAIT of the supervisor reads CRP_MODE (R314). -/
def supWait (rd ra : Reg) (s : State) : State :=
  let mode := fld s.crp.mode 2 0
  let mask := waitMask s.sup ra
  if mode = 0 then beginWait .sup .ewait rd ra s
  else if mode = 1 then
    let s := beginWait .sup .wait rd ra s
    if s.sup.st = .wait then modCrp (fun c => { c with st := .idle }) s else s
  else requestEntry mode mask (modCpu .sup (fun c => { c with waitRd := rd, waitMask := mask, st := .wait }) s)

def execWait (k : Core) (rd ra : Reg) (s : State) : Result :=
  issue k (fun s => match k with | .weaver _ => beginWait k .wait rd ra s | .sup => supWait rd ra s) s

/-- An event of the mask is pending: the wait returns, and IDLE ends (R311, R314). -/
def execEwaitResume (k : Core) (s : State) : Result :=
  let c := cpuOf s k
  let waits : Bool := c.st == .ewait || c.st == .wait
  let up : Bool := match k with | .weaver p => weaverUp s p | .sup => supUp s && (s.crp.st == .run || s.crp.st == .idle)
  .next <|
    if waits ∧ up ∧ clocksRun s ∧ ependOf s k &&& c.waitMask ≠ 0 then
      let s := endWait k c.waitRd c.waitMask s
      if k = .sup then modCrp (fun x => { x with st := .run }) s else s
    else s

/-! ### Timers and stamps (R315 to R317) -/

/-- TSET: the RD field names a timer 0 to 3 (Table 9.11). -/
def execTset (k : Core) (n : Reg) (ra : Reg) (s : State) : Result :=
  issue k (legal k (decide (n.val < 4)) fun s =>
    finish k id (timerStart k (Fin.ofNat 4 n.val) ((getReg (cpuOf s k) ra).toNat % 2 ^ 28) s)) s

/-- Ticks that IMM18 of TSETI names. -/
def tsetiCount (imm : BitVec 18) : Nat := if imm.getLsbD 17 then imm.toNat % 2 ^ 17 * 1000 else imm.toNat % 2 ^ 17

def execTseti (k : Core) (n : Reg) (ra : Reg) (imm : BitVec 18) (s : State) : Result :=
  issue k (legal k (decide (n.val < 4) && ra == 0) fun s => finish k id (timerStart k (Fin.ofNat 4 n.val) (tsetiCount imm) s)) s

def execTclr (k : Core) (n : BitVec 12) (s : State) : Result :=
  issue k (fun s => finish k id (timerStop k (Fin.ofNat 4 n.toNat) s)) s

def execTrd (k : Core) (rd : Reg) (n : BitVec 12) (s : State) : Result :=
  issue k (fun s => finish k (fun c => setReg rd (BitVec.ofNat 32 (timerLeft s c.timers[Fin.ofNat 4 n.toNat])) c) s) s

/-- R315: a running timer reaches 0; one that has been started in this very cycle runs on (R316). -/
def execTimerExpire (k : Core) (n : Fin 4) (s : State) : Result :=
  .next <| if (cpuOf s k).timers[n].running ∧ (cpuOf s k).timers[n].start ≠ s.now then timerDone k n s else s

/-- The stamp of a source: `none` for a source outside the core's set, `some none` for one that holds no stamp. -/
def stampSource (s : State) (k : Core) (src : Nat) : Option (Option Stamp) :=
  if src < 5 then some (cpuOf s k).timers[Fin.ofNat 4 (src - 1)].stamp
  else
    match k with
    | .sup => none
    | .weaver p =>
      let x := (s.port p).phy
      if src = 5 then some (x.slots.head?.map (·.stamp)) else if src = 6 then some x.txStamp else some x.ccStamp

def putStamp (k : Core) (rd : Reg) (x : Option Stamp) (s : State) : State :=
  finish k (fun c => setPair rd (stampPair x).1 (stampPair x).2 c) s

def execTstamp (k : Core) (rd : Reg) (src : BitVec 12) (s : State) : Result :=
  issue k (legal k (!oddReg rd) fun s =>
    if src.toNat % 8 = 0 then
      let (st, s) := takeStamp (coreTile k) s
      putStamp k rd (some st) s
    else
      match stampSource s k (src.toNat % 8) with
      | some x => putStamp k rd x s
      | none => illegal k s) s

/-! ### Records (R318, R319) -/

/-- Table 9.10: the source code of a class that the core may post. -/
def postSource (k : Core) (cls : Nat) : Option Nat :=
  match k with
  | .weaver p =>
    if [0x01, 0x02, 0x04, 0x05, 0x0A, 0x0B].contains cls then some (srcPort p)
    else if 0x20 ≤ cls ∧ cls < 0x30 then some (srcTile (tileOf p))
    else none
  | .sup =>
    if cls = 0x12 then some srcBoot
    else if cls = 0x13 then some srcBudget
    else if 0x20 ≤ cls ∧ cls < 0x30 then some srcSup
    else none

/-- The post buffer of a core. -/
def postPlace : Core → PostSource
  | .weaver p => .tilePost (tileOf p)
  | .sup => .supPost

/-- The stamp of an EPOST: the pair, or the instruction's own cycle when rd is g0. -/
def postStamp (k : Core) (rd : Reg) (s : State) : Stamp × State :=
  if rd = 0 then takeStamp (coreTile k) s else (pairStamp (getReg (cpuOf s k) rd) (getReg (cpuOf s k) (highReg rd)), s)

def execEpost (k : Core) (ra rd : Reg) (cls : BitVec 12) (s : State) : Result :=
  issue k (legal k (!oddReg rd) fun s =>
    match (if cls.toNat < 64 then postSource k cls.toNat else none) with
    | none => illegal k s
    | some src =>
      let payload := (getReg (cpuOf s k) ra).setWidth 30
      let (st, s) := postStamp k rd s
      finish k (setDone (postRoom s (postPlace k))) (epost (postPlace k) { cls := cls.toNat, src := src, stamp := st, payload := payload } s)) s

/-! ### Mailboxes (R320 to R322); the value of MSEND, MTRY and MCLR is in the RD field (log 33) -/

def execMsend (k : Core) (rd ra : Reg) (imm : BitVec 12) (s : State) : Result :=
  issue k (onBox k sendBox ra imm fun b s =>
    let v := getReg (cpuOf s k) rd
    if s.mbx.box[b].full then modCpu k (fun c => { c with st := .stallSend, stall := .send b v }) s
    else finish k id (storeBox b v (threadOf k) s)) s

/-- A weaver whose send is over sees what came about meanwhile (01 R20). -/
def goesOn (k : Core) (s : State) : State :=
  match k with
  | .weaver p => catchUp p s
  | .sup => s

/-- A stalled MSEND stores its word once FULL is 0. -/
def execMsendComplete (k : Core) (s : State) : Result :=
  .next <|
    match (cpuOf s k).st, (cpuOf s k).stall with
    | .stallSend, .send b v => if s.mbx.box[b].full ∨ ¬ clocksRun s then s else goesOn k (finish k id (storeBox b v (threadOf k) s))
    | _, _ => s

def execMtry (k : Core) (rd ra : Reg) (imm : BitVec 12) (s : State) : Result :=
  issue k (onBox k sendBox ra imm fun b s =>
    let v := getReg (cpuOf s k) rd
    if s.mbx.box[b].full then finish k (setDone false) s else finish k (setDone true) (storeBox b v (threadOf k) s)) s

/-- A word waits for this core: for a weaver, one steered to its thread (R321). -/
def wordWaits (s : State) (k : Core) (b : Fin 24) : Bool :=
  match k with
  | .weaver p => mailWaits s p
  | .sup => s.mbx.box[b].full

def execMrecv (k : Core) (rd ra : Reg) (imm : BitVec 12) (s : State) : Result :=
  issue k (onBox k recvBox ra imm fun b s =>
    let m := s.mbx.box[b]
    let got := wordWaits s k b
    let s := modBox b (fun m => { m with sndReset := false }) s
    let s := if got then pumpBox b (takeBox b s) else s
    finish k (fun c => setReg rd (if got then m.data else 0) { c with z := !got, c := m.sndReset }) s) s

/-- The box of MSTAT and MCLR. A weaver's index 0 means one box for sending and another for receiving; which of them is meant
here the spec leaves open (log 34). -/
def statusBox (k : Core) (i : Nat) (s : State) : Option (Fin 24) × State :=
  let (first, s) := drawBool s
  (if first then sendBox k i else recvBox k i, s)

/-- An instruction on a status register. -/
def onStatus (k : Core) (ra : Reg) (imm : BitVec 12) (f : Fin 24 → State → State) (s : State) : State :=
  match statusBox k (mailIndex (cpuOf s k) ra imm) s with
  | (some b, s') => legal k (decide (imm.toNat < 16)) (f b) s'
  | (none, s') => illegal k s'

def execMstat (k : Core) (rd ra : Reg) (imm : BitVec 12) (s : State) : Result :=
  issue k (onStatus k ra imm fun b s => finish k (setReg rd (mbxStat s.mbx.box[b])) s) s

def execMclr (k : Core) (rd ra : Reg) (imm : BitVec 12) (s : State) : Result :=
  issue k (onStatus k ra imm fun b s => finish k id (modBox b (clearBox (getReg (cpuOf s k) rd)) s)) s

/-! ### Semaphores (R328) -/

/-- Device address of ACC_SEMn. -/
def semAddr (n : Nat) : Nat := 0x1100 + 4 * n

def execSema (k : Core) (rd : Reg) (n : BitVec 12) (s : State) : Result :=
  issue k (onSup k (legal k (decide (n.toNat < 16)) fun s =>
    let (_, v, s) := wordRead .sup (semAddr n.toNat) s
    finish k (fun c => setReg rd (v &&& 1#32) (setDone (bitOf v 0) c)) s)) s

def execSemr (k : Core) (rd : Reg) (n : BitVec 12) (s : State) : Result :=
  issue k (onSup k (legal k (decide (n.toNat < 16) && rd == 0) fun s =>
    let (_, s) := wordWrite .sup (semAddr n.toNat) 0 s
    finish k id s)) s

end Sys2Proof.Machine
end

