-- ==== Sys2Proof/Machine/Queue.lean ====
section
/-!
DEFINITION. Machine/Queue.lean: meanings of chapter 05's commands that no register access makes: the event-queue engine, its
timeouts and scans, and the scrubbers (13 R414).
-/
namespace Sys2Proof.Machine

/-- The oldest record of a waiting place. -/
def firstPost (s : State) (src : PostSource) : Option (PostSource × Record) := s.posts.find? fun x => x.1 == src

/-- A tile's records wait while the spare replaces its control channel (01 R14, R15). -/
def frameHeld (s : State) (src : PostSource) : Bool :=
  match src with
  | .tile t | .tilePost t => laneSwitching s t laneControl
  | _ => false

/-- R155 to R158: the engine takes the oldest record of a waiting place and routes it; a routed record aborts a DEEP entry
(12 R395) and may wake the host of the team that drains its queue (03 R98). The clocks must run. -/
def execRecordEnqueue (src : PostSource) (s : State) : Result :=
  match firstPost s src with
  | none => .next s
  | some x =>
    if ¬ clocksRun s ∨ frameHeld s src then .next s
    else
      let s := { s with posts := s.posts.erase x }
      let q := routeOf s x.2
      let s := if q.isSome ∧ mayAbort s then abortEntry 9 s else s
      let s := route x.2 s
      .next (match q.bind (qOwner s) with | some u => stationWake u s | none => s)

/-- R162: the hold expires after 1 ms. -/
def execHoldTimeout (q : QueueId) (s : State) : Result :=
  if ¬ clocksRun s ∨ (s.queue q).latch.isEmpty then .next s else .next (modQueue q (fun x => { x with holdTo := true }) (endHold q s))

/-- R165: the two copies of the queue's pointers differ, or a word of its cells is uncorrectable. -/
def execQueuePtrMismatch (q : QueueId) (ecc : Bool) (s : State) : Result := .next (if clocksRun s then resetQueue q ecc s else s)

/-- R165, R166: t0 + 49.2 µs. -/
def execQueueReclaimEnd (q : QueueId) (s : State) : Result := .next (if clocksRun s && (s.queue q).scanning then endReclaim q s else s)

/-- R168. -/
def execFreelistRebuild (s : State) : Result := .next (if clocksRun s then startRebuild s else s)

def execFreelistRebuildEnd (s : State) : Result := .next (if clocksRun s && rebuilding s then endRebuild s else s)

/-! ### The scrubbers (13 R414) -/

/-- Words of a memory (01 Table 1.2). -/
def memWords : EccMem → Nat
  | .creel => 262144
  | .codeTcm => 98304
  | .dataTcm => 32768
  | .context => 8192
  | .retention => 16384
  | .tileProg _ => 8192
  | .tileData _ => 4096

/-- The TT and slot of the context that holds a word of the context store. -/
def ctxHolder (s : State) (word : Nat) : Option PortId := (fins 64).find? fun p => (s.tt p).ctxs.any fun c => c.slot == word / 16

/-- The scrubber finds an uncorrectable word. -/
def scrubFatal (m : EccMem) (word : Nat) (s : State) : State :=
  match m with
  | .creel =>
    let c := word / 16
    if 4096 ≤ c ∧ (cellKind s c = 1 ∨ cellKind s c = 3) then resetQueue (Fin.ofNat 16 (cellOwner s c)) true s else crlError 3 0 s
  | .context =>
    match ctxHolder s word with
    | some p => eccDrop p (word / 16) s
    | none =>
      let (n, s) := drawNat s
      ttcError 4 (Fin.ofNat 64 n) s
  | .retention =>
    let s := modCrp (fun c => { c with retErr := orBit c.retErr (word / 1024) }) s
    raise fRetBank (s.crp.retErr &&& 0xFFFF#32) s
  | m => raise (ecc2Line m word).1 (ecc2Line m word).2 s

/-- The scrubber of the memory runs: the creel's under SCRUB_EN, retention RAM's in RUN and IDLE. -/
def scrubs (s : State) (m : EccMem) : Bool :=
  clocksRun s &&
    match m with
    | .creel => bitOf s.crl.ctl 0
    | .retention => s.crp.st == .run || s.crp.st == .idle
    | _ => true

/-- A scrubber visits a word. -/
def execScrubWord (mem : EccMem) (word : Nat) (s : State) : Result :=
  if memWords mem ≤ word ∨ ¬ scrubs s mem then .next s
  else
    match eccAt s mem word with
    | some true => .next (scrubFatal mem word s)
    | _ => .next (eccFix mem word s)

end Sys2Proof.Machine
end

