-- ==== Sys2Proof/Machine/Time.lean ====
section
/-!
DEFINITION. Machine/Time.lean: the commands of chapter 08 that come from the reference inputs and the counter.
-/
namespace Sys2Proof.Machine

/-- An active edge of a 1PPS input, with the counter's reading at it (R262, R265). -/
def execPpsEdge (i : PpsInput) (sec : Nat) (qns : Nat) (s : State) : Result :=
  .next <| allEv (fun s =>
    let now : Int := (sec : Int) * qPerSec + (qns % 4000000000 : Nat)
    let x := ppsOf s.tim i
    let gap : Option Int := x.lastEdge.map (now - ·)
    let early : Bool := match gap with | some d => decide (d < 3600000000) | none => false
    if ¬ ppsEn s.tim i ∨ ¬ s.tim.running ∨ early then s
    else
      let inRow : Bool := match gap with | some d => decide (3999960000 ≤ d ∧ d ≤ 4000040000) | none => false
      let q : Int := (qns % 4000000000 : Nat)
      let e : Int := if 2000000000 < q then q - 4000000000 else q
      let s := modPps i (fun x => { x with lastEdge := some now, err := e, run := if inRow then x.run + 1 else 1 }) s
      let s := modTim (fun t => { t with phase := e }) s
      let x := ppsOf s.tim i
      let s := if ¬ x.ok ∧ qualN s.tim ≤ x.run then refRecordDue 2 (ppsRef i) (modPps i (fun x => { x with ok := true }) s) else s
      let s := measureDiff s
      if s.tim.ref = ppsRef i then refEdge e now s else s) s

def execPpsLost (i : PpsInput) (s : State) : Result := .next (losePps i s)

/-- An IRIG-B frame has ended: it is good where its elements, markers and digits are valid and its seconds follow (R262, R266,
R267). -/
def execIrigFrame (f : IrigFrame) (s : State) : Result :=
  .next <| allEv (fun s =>
    let t := s.tim
    if ¬ irigEn t ∨ ¬ t.running then s
    else
      let x := readFrame (irigFmt t) f
      let follows : Bool :=
        match x, t.irigLast with
        | some b, some a => followsOne (irigFmt t) a b
        | some _, none => true
        | none, _ => false
      let pps := if t.ref = .ppsA then t.a.err else t.b.err
      let off := (t.ref = .ppsA ∨ t.ref = .ppsB) ∧ (ppsWin t < f.phase - pps ∨ f.phase - pps < -ppsWin t)
      match x with
      | some b => if follows ∧ ¬ off then goodFrame b (prSecond t f) f.phase s else badFrame s
      | none => badFrame s) s

def execIrigLost (s : State) : Result := .next (loseIrig s)

/-- A 1 s gate of REF10M: its frequency against the crystal (R262, R274). -/
def execRef10mGate (ppb : Int) (s : State) : Result :=
  .next <|
    if ¬ ref10mEn s.tim then s
    else if ppb < -50000 ∨ 50000 < ppb then loseRef10m (modTim (fun t => { t with refRun := 0 }) s)
    else
      let s := modTim (fun t => { t with refPpb := ppb, refRun := t.refRun + 1 }) s
      let s := if ¬ s.tim.refOk ∧ qualN s.tim ≤ s.tim.refRun then refRecordDue 2 .ref10m (modTim (fun t => { t with refOk := true }) s) else s
      modTim (fun t =>
        if t.refOk ∧ (t.st = .freq ∨ t.st = .holdover) then
          { t with freq := freqWord (10 * ppb), freqAid := t.freqAid || t.st == .holdover }
        else t) s

def execRef10mLost (s : State) : Result := .next (loseRef10m s)

/-- The second ends: a pulse of PPS_OUT whose cycle lies in the rest of it starts before the boundary (R285). -/
def execSecondBoundary (s : State) : Result :=
  .next <| allEv (fun s =>
    secondTurn (if s.tim.running ∧ s.tim.ns / 8 < ppsCycle s.tim then startPps s else s)) s

/-- What the boot ROM and the supervisor's program do as time passes: a boot step ends, an activation goes on, a trial is confirmed
(10 R349, 11 R376, R380). -/
def romTick (s : State) : State :=
  if (bootPaused s).isSome then allEv bootResume s
  else if s.boot.act.isSome then allEv activationGoesOn s
  else if s.boot.windowOn then firmwareConfirm s
  else s

/-- TRST_N is high again: from t4 on the TAP leaves reset (14 R461; log 173). -/
def trstRises (s : State) : State :=
  if s.pwr.trstLow then
    modPwr (fun x => { x with trstLow := false, tapHeld := match x.phase with | .coreUp | .boot | .run => false | _ => true }) s
  else s

/-- One 8 ns period of the TIME clock: the model's clock, and the counter while it runs (R259; log 8). -/
def tick (s : State) : State :=
  let s := { s with now := s.now + 1 }
  let s := if clocksRun s then scanTick s else s
  let s := romTick (trstRises s)
  let s := if clocksRun s ∧ ¬ s.flt.safe then collectorCheck s else s
  if ¬ s.tim.running then s
  else if s.tim.ns + 8 < nsPerSec then
    let s := modTim (fun t => { t with ns := t.ns + 8 }) s
    if s.tim.ns / 8 = ppsCycle s.tim then startPps s else s
  else
    let extra := s.tim.ns + 8 - nsPerSec
    allEv (fun s => modTim (fun t => { t with ns := t.ns + extra }) (secondTurn s)) s

/-- HOLD_MAX expires (Table 8.3). -/
def execHoldoverExpire (s : State) : Result :=
  .next (if s.tim.st = .holdover ∧ fld s.tim.holdCfg 31 16 ≠ 0 then endHoldover (modTim (fun t => { t with freqAid := false }) s) else s)

/-- No accepted edge within 2 s of an AT_EDGE command (R275). -/
def execAtEdgeTimeout (s : State) : Result :=
  .next (if s.tim.pending.isSome then refuseSet (modTim (fun t => { t with pending := none }) s) else s)

/-- A sync frame reaches a tile, unless it is lost on a control channel that the spare is replacing (01 R15): within ±16 ns the replica is in its window again, outside it the tile reports (01 R23). -/
def execReplicaSync (t : TileId) (offset : Int) (s : State) : Result :=
  .next <|
    if ¬ coreUp s ∨ laneSwitching s t laneControl then s
    else if -16 ≤ offset ∧ offset ≤ 16 then modTile t (fun x => { x with replicaOut := false, changedAt := none, lag := 0, replicaErr := offset }) s
    else raise (fReplica t) (BitVec.ofNat 32 (sat16 offset)) (modTile t (fun x => { x with replicaOut := true, changedAt := none, lag := 0, replicaErr := offset }) s)

def execPpsOutPulseEnd (s : State) : Result := .next (modTim (fun t => { t with ppsOut := false }) s)

/-- 10 ms have passed: SBU1's pulse is ten of them long, and SBU2 sends its next element unless the frame has been ended by a step or
set (R277, R286). -/
def execSbuSignalElement (p : PortId) (s : State) : Result :=
  .next <| modTc p (fun c =>
    let c := if c.sbuPulse then { c with sbuLeft := c.sbuLeft - 1, sbuPulse := decide (1 < c.sbuLeft) } else c
    if ¬ c.sbuRun then c
    else if c.sbuStop then { c with sbuRun := false, sbuStop := false }
    else if c.sbuElement + 1 < 100 then { c with sbuElement := c.sbuElement + 1 }
    else c) s

end Sys2Proof.Machine
end

