-- ==== Sys2Proof/Machine/Dispatch.lean ====
section
/-!
DEFINITION. Machine/Dispatch.lean: exec, one arm per command of spec/opcode_table.json, each a call of its meaning.
-/
namespace Sys2Proof.Machine

def exec (i : Instr) (s : State) : Host.Outcome State Fault Refusal :=
  match i with
  | .registerWrite m a v w => Sys2Proof.Machine.execRegisterWrite m a v w s
  | .spiWrite a v => Sys2Proof.Machine.execSpiWrite a v s
  | .spiGuardedWrite a v c => Sys2Proof.Machine.execSpiGuardedWrite a v c s
  | .spiRead a => Sys2Proof.Machine.execSpiRead a s
  | .readResult => Sys2Proof.Machine.execReadResult s
  | .spiStatus => Sys2Proof.Machine.execSpiStatus s
  | .badcmd code => Sys2Proof.Machine.execBadcmd code s
  | .frameErr code bits => Sys2Proof.Machine.execFrameErr code bits s
  | .spiReadComplete => Sys2Proof.Machine.execSpiReadComplete s
  | .wsWrite addrBytes a data stop => Sys2Proof.Machine.execWsWrite addrBytes a data stop s
  | .wsGuardedWrite a v c => Sys2Proof.Machine.execWsGuardedWrite a v c s
  | .wsRead addrBytes a extra => Sys2Proof.Machine.execWsRead addrBytes a extra s
  | .wsReadTimeout a => Sys2Proof.Machine.execWsReadTimeout a s
  | .mgmtPathLost wakeSerial => Sys2Proof.Machine.execMgmtPathLost wakeSerial s
  | .postedWriteComplete busy => Sys2Proof.Machine.execPostedWriteComplete busy s
  | .guardWindowExpire a => Sys2Proof.Machine.execGuardWindowExpire a s
  | .accLockWrite m v c => Sys2Proof.Machine.execAccLockWrite m v c s
  | .semAcquire m n => Sys2Proof.Machine.execSemAcquire m n s
  | .semRelease m n => Sys2Proof.Machine.execSemRelease m n s
  | .semForce m v c => Sys2Proof.Machine.execSemForce m v c s
  | .mbxDataWrite m b v => Sys2Proof.Machine.execMbxDataWrite m b v s
  | .mbxDataRead m b => Sys2Proof.Machine.execMbxDataRead m b s
  | .mbxTimeout b => Sys2Proof.Machine.execMbxTimeout b s
  | .ttcPdropCntRead m => Sys2Proof.Machine.execTtcPdropCntRead m s
  | .ttcTtCntRead m p => Sys2Proof.Machine.execTtcTtCntRead m p s
  | .crlNorouteCntRead m => Sys2Proof.Machine.execCrlNorouteCntRead m s
  | .crlQDropRead m q => Sys2Proof.Machine.execCrlQDropRead m q s
  | .portPdCntRead m p => Sys2Proof.Machine.execPortPdCntRead m p s
  | .budCntRead m => Sys2Proof.Machine.execBudCntRead m s
  | .tileCntRead m t => Sys2Proof.Machine.execTileCntRead m t s
  | .crpPsRefuseRead m => Sys2Proof.Machine.execCrpPsRefuseRead m s
  | .teamAttach u => Sys2Proof.Machine.execTeamAttach u s
  | .teamDetach u => Sys2Proof.Machine.execTeamDetach u s
  | .teamEnable m u v => Sys2Proof.Machine.execTeamEnable m u v s
  | .teamDisable m u v => Sys2Proof.Machine.execTeamDisable m u v s
  | .busReset u chirp => Sys2Proof.Machine.execBusReset u chirp s
  | .teamSuspend u => Sys2Proof.Machine.execTeamSuspend u s
  | .hostResume u => Sys2Proof.Machine.execHostResume u s
  | .remoteWakeK p => Sys2Proof.Machine.execRemoteWakeK p s
  | .remoteWakeDriveEnd u => Sys2Proof.Machine.execRemoteWakeDriveEnd u s
  | .lpmToken u l1 besl remoteWake => Sys2Proof.Machine.execLpmToken u l1 besl remoteWake s
  | .l1Exit u => Sys2Proof.Machine.execL1Exit u s
  | .getDescriptor u d k len => Sys2Proof.Machine.execGetDescriptor u d k len s
  | .setInterface u alt => Sys2Proof.Machine.execSetInterface u alt s
  | .clearHubFeature u sel => Sys2Proof.Machine.execClearHubFeature u sel s
  | .clearPortEnable u port => Sys2Proof.Machine.execClearPortEnable u port s
  | .setPortSuspend u port => Sys2Proof.Machine.execSetPortSuspend u port s
  | .clearPortSuspend u port => Sys2Proof.Machine.execClearPortSuspend u port s
  | .portResumeComplete p => Sys2Proof.Machine.execPortResumeComplete p s
  | .setPortReset u port => Sys2Proof.Machine.execSetPortReset u port s
  | .portResetComplete p sp => Sys2Proof.Machine.execPortResetComplete p sp s
  | .clearPortL1 u port => Sys2Proof.Machine.execClearPortL1 u port s
  | .setPortPower u port => Sys2Proof.Machine.execSetPortPower u port s
  | .clearPortPower u port => Sys2Proof.Machine.execClearPortPower u port s
  | .setPortTest u port mode => Sys2Proof.Machine.execSetPortTest u port mode s
  | .clearPortChange u port c => Sys2Proof.Machine.execClearPortChange u port c s
  | .clearTtBuffer u port dev ep ty dirIn => Sys2Proof.Machine.execClearTtBuffer u port dev ep ty dirIn s
  | .getBusState u => Sys2Proof.Machine.execGetBusState u s
  | .getHubDescriptor u len => Sys2Proof.Machine.execGetHubDescriptor u len s
  | .getHubStatus u => Sys2Proof.Machine.execGetHubStatus u s
  | .getPortStatus u port => Sys2Proof.Machine.execGetPortStatus u port s
  | .getTtState u port => Sys2Proof.Machine.execGetTtState u port s
  | .resetTt u port => Sys2Proof.Machine.execResetTt u port s
  | .stopTt u port => Sys2Proof.Machine.execStopTt u port s
  | .setHubDescriptor u => Sys2Proof.Machine.execSetHubDescriptor u s
  | .setHubFeature u sel => Sys2Proof.Machine.execSetHubFeature u sel s
  | .setAndTestPortL1 u port besl remoteWake dev a1 a2 a3 => Sys2Proof.Machine.execSetAndTestPortL1 u port besl remoteWake dev a1 a2 a3 s
  | .hubRequestUnsupported u bRequest => Sys2Proof.Machine.execHubRequestUnsupported u bRequest s
  | .statusChangeIn u => Sys2Proof.Machine.execStatusChangeIn u s
  | .deviceConnect p sp => Sys2Proof.Machine.execDeviceConnect p sp s
  | .deviceDisconnect p => Sys2Proof.Machine.execDeviceDisconnect p s
  | .portBabble p => Sys2Proof.Machine.execPortBabble p s
  | .portContextFree p => Sys2Proof.Machine.execPortContextFree p s
  | .getInfo x => Sys2Proof.Machine.execGetInfo x s
  | .setQueues u x => Sys2Proof.Machine.execSetQueues u x s
  | .teamQmaskWrite m u v => Sys2Proof.Machine.execTeamQmaskWrite m u v s
  | .eventEndpointIn x => Sys2Proof.Machine.execEventEndpointIn x s
  | .correlationEndpointIn u => Sys2Proof.Machine.execCorrelationEndpointIn u s
  | .dfuDetach u => Sys2Proof.Machine.execDfuDetach u s
  | .portMove m p v c => Sys2Proof.Machine.execPortMove m p v c s
  | .moveRetireEnd p => Sys2Proof.Machine.execMoveRetireEnd p s
  | .moveGapExpire p => Sys2Proof.Machine.execMoveGapExpire p s
  | .ufpSof u frame => Sys2Proof.Machine.execUfpSof u frame s
  | .microframeTimeout u => Sys2Proof.Machine.execMicroframeTimeout u s
  | .startSplitPeriodic u port dev ep dirIn ty low part data => Sys2Proof.Machine.execStartSplitPeriodic u port dev ep dirIn ty low part data s
  | .startSplitNonperiodic u port dev ep dirIn setup ty low crcOk data => Sys2Proof.Machine.execStartSplitNonperiodic u port dev ep dirIn setup ty low crcOk data s
  | .completeSplit u port dev ep dirIn ty => Sys2Proof.Machine.execCompleteSplit u port dev ep dirIn ty s
  | .ttDescriptor p => Sys2Proof.Machine.execTtDescriptor p s
  | .microframeMarker t u => Sys2Proof.Machine.execMicroframeMarker t u s
  | .portBusTxnStart p fits => Sys2Proof.Machine.execPortBusTxnStart p fits s
  | .ttResult p r => Sys2Proof.Machine.execTtResult p r s
  | .ttResultLost p => Sys2Proof.Machine.execTtResultLost p s
  | .lateDrop p => Sys2Proof.Machine.execLateDrop p s
  | .periodicContextExpire p => Sys2Proof.Machine.execPeriodicContextExpire p s
  | .npHoldExpire p dev ep dirIn => Sys2Proof.Machine.execNpHoldExpire p dev ep dirIn s
  | .ttStop m p => Sys2Proof.Machine.execTtStop m p s
  | .ttReset m p => Sys2Proof.Machine.execTtReset m p s
  | .ttResetEnd p => Sys2Proof.Machine.execTtResetEnd p s
  | .recordEnqueue src => Sys2Proof.Machine.execRecordEnqueue src s
  | .queueRead m q => Sys2Proof.Machine.execQueueRead m q s
  | .holdTimeout q => Sys2Proof.Machine.execHoldTimeout q s
  | .queueFlush m q => Sys2Proof.Machine.execQueueFlush m q s
  | .queuePtrMismatch q ecc => Sys2Proof.Machine.execQueuePtrMismatch q ecc s
  | .queueReclaimEnd q => Sys2Proof.Machine.execQueueReclaimEnd q s
  | .freelistRebuild => Sys2Proof.Machine.execFreelistRebuild s
  | .freelistRebuildEnd => Sys2Proof.Machine.execFreelistRebuildEnd s
  | .queueEnable m q v => Sys2Proof.Machine.execQueueEnable m q v s
  | .queueDisable m q v => Sys2Proof.Machine.execQueueDisable m q v s
  | .queueCapChange m q v => Sys2Proof.Machine.execQueueCapChange m q v s
  | .debugWindowWrite m a v => Sys2Proof.Machine.execDebugWindowWrite m a v s
  | .scrubWord mem word => Sys2Proof.Machine.execScrubWord mem word s
  | .attachWait p => Sys2Proof.Machine.execAttachWait p s
  | .tCcDebounce p => Sys2Proof.Machine.execTCcDebounce p s
  | .ccUnsupported p => Sys2Proof.Machine.execCcUnsupported p s
  | .tPdDebounce p vbus => Sys2Proof.Machine.execTPdDebounce p vbus s
  | .errorRecoveryEnd p => Sys2Proof.Machine.execErrorRecoveryEnd p s
  | .transitionDetach p vbus => Sys2Proof.Machine.execTransitionDetach p vbus s
  | .pdMessageRx p f h objs crcOk low => Sys2Proof.Machine.execPdMessageRx p f h objs crcOk low s
  | .pdTxStart p => Sys2Proof.Machine.execPdTxStart p s
  | .tReceive p => Sys2Proof.Machine.execTReceive p s
  | .goodcrc p => Sys2Proof.Machine.execGoodcrc p s
  | .request p h rdo => Sys2Proof.Machine.execRequest p h rdo s
  | .softReset p h => Sys2Proof.Machine.execSoftReset p h s
  | .hardReset p => Sys2Proof.Machine.execHardReset p s
  | .getSourceCap p h => Sys2Proof.Machine.execGetSourceCap p h s
  | .getSourceCapExtended p h => Sys2Proof.Machine.execGetSourceCapExtended p h s
  | .getStatus p h => Sys2Proof.Machine.execGetStatus p h s
  | .getSourceInfo p h => Sys2Proof.Machine.execGetSourceInfo p h s
  | .getRevision p h => Sys2Proof.Machine.execGetRevision p h s
  | .drSwap p h => Sys2Proof.Machine.execDrSwap p h s
  | .prSwap p h => Sys2Proof.Machine.execPrSwap p h s
  | .vconnSwap p h pinHigh => Sys2Proof.Machine.execVconnSwap p h pinHigh s
  | .psRdy p h => Sys2Proof.Machine.execPsRdy p h s
  | .pdAccept p h pinHigh => Sys2Proof.Machine.execPdAccept p h pinHigh s
  | .pdReject p h => Sys2Proof.Machine.execPdReject p h s
  | .notSupported p h => Sys2Proof.Machine.execNotSupported p h s
  | .bist p h mode => Sys2Proof.Machine.execBist p h mode s
  | .alert p h => Sys2Proof.Machine.execAlert p h s
  | .unsupportedMessage p h => Sys2Proof.Machine.execUnsupportedMessage p h s
  | .extendedMessage p h multiChunk => Sys2Proof.Machine.execExtendedMessage p h multiChunk s
  | .tChunkingNotSupported p => Sys2Proof.Machine.execTChunkingNotSupported p s
  | .discoverIdentity p h => Sys2Proof.Machine.execDiscoverIdentity p h s
  | .discoverSvids p h => Sys2Proof.Machine.execDiscoverSvids p h s
  | .discoverModes p h svid => Sys2Proof.Machine.execDiscoverModes p h svid s
  | .enterMode p h svid => Sys2Proof.Machine.execEnterMode p h svid s
  | .unstructuredVdm p h => Sys2Proof.Machine.execUnstructuredVdm p h s
  | .attention p h => Sys2Proof.Machine.execAttention p h s
  | .vdmResponse p f h vdm vdos => Sys2Proof.Machine.execVdmResponse p f h vdm vdos s
  | .tVdmSenderResponse p => Sys2Proof.Machine.execTVdmSenderResponse p s
  | .tSourceCapability p => Sys2Proof.Machine.execTSourceCapability p s
  | .tSenderResponse p => Sys2Proof.Machine.execTSenderResponse p s
  | .commitLate p => Sys2Proof.Machine.execCommitLate p s
  | .tSrcTransition p => Sys2Proof.Machine.execTSrcTransition p s
  | .tSrcSettle p => Sys2Proof.Machine.execTSrcSettle p s
  | .tPsHardReset p => Sys2Proof.Machine.execTPsHardReset p s
  | .tSrcRecover p pinHigh => Sys2Proof.Machine.execTSrcRecover p pinHigh s
  | .tNoResponse p => Sys2Proof.Machine.execTNoResponse p s
  | .tSinkTx p => Sys2Proof.Machine.execTSinkTx p s
  | .tVconnStable p => Sys2Proof.Machine.execTVconnStable p s
  | .tDiscoverIdentity p => Sys2Proof.Machine.execTDiscoverIdentity p s
  | .tVconnSourceTimeout p => Sys2Proof.Machine.execTVconnSourceTimeout p s
  | .vconnPinWaitTimeout p => Sys2Proof.Machine.execVconnPinWaitTimeout p s
  | .vconnOc p => Sys2Proof.Machine.execVconnOc p s
  | .ccOvervoltHold p sbu high => Sys2Proof.Machine.execCcOvervoltHold p sbu high s
  | .tcEnWrite m p en => Sys2Proof.Machine.execTcEnWrite m p en s
  | .pdEnWrite m p en => Sys2Proof.Machine.execPdEnWrite m p en s
  | .stEnWrite m p en => Sys2Proof.Machine.execStEnWrite m p en s
  | .base p tag power => Sys2Proof.Machine.execBase p tag power s
  | .hold p tag power => Sys2Proof.Machine.execHold p tag power s
  | .commit p tag power => Sys2Proof.Machine.execCommit p tag power s
  | .release p tag power => Sys2Proof.Machine.execRelease p tag power s
  | .grant p tag power => Sys2Proof.Machine.execGrant p tag power s
  | .short p tag power => Sys2Proof.Machine.execShort p tag power s
  | .offer p power => Sys2Proof.Machine.execOffer p power s
  | .reclaim p power => Sys2Proof.Machine.execReclaim p power s
  | .budHoldWrite m p v => Sys2Proof.Machine.execBudHoldWrite m p v s
  | .feedQualify g volt => Sys2Proof.Machine.execFeedQualify g volt s
  | .feedRampStart g => Sys2Proof.Machine.execFeedRampStart g s
  | .feedOn g => Sys2Proof.Machine.execFeedOn g s
  | .feedPgood g volt => Sys2Proof.Machine.execFeedPgood g volt s
  | .feedWarn g volt => Sys2Proof.Machine.execFeedWarn g volt s
  | .feedLimit x => Sys2Proof.Machine.execFeedLimit x s
  | .feedFaultTimer g => Sys2Proof.Machine.execFeedFaultTimer g s
  | .feedFastTrip g current => Sys2Proof.Machine.execFeedFastTrip g current s
  | .feedUv g volt => Sys2Proof.Machine.execFeedUv g volt s
  | .feedOv g volt => Sys2Proof.Machine.execFeedOv g volt s
  | .feedGateRiseFail g => Sys2Proof.Machine.execFeedGateRiseFail g s
  | .feedEnWrite m g en => Sys2Proof.Machine.execFeedEnWrite m g en s
  | .feedCooldownEnd g => Sys2Proof.Machine.execFeedCooldownEnd g s
  | .feedStageReset g => Sys2Proof.Machine.execFeedStageReset g s
  | .railUp g volt => Sys2Proof.Machine.execRailUp g volt s
  | .railLost g volt => Sys2Proof.Machine.execRailLost g volt s
  | .railChange m g rail => Sys2Proof.Machine.execRailChange m g rail s
  | .keeperWrite m p v c => Sys2Proof.Machine.execKeeperWrite m p v c s
  | .relayGrant => Sys2Proof.Machine.execRelayGrant s
  | .rampProbeEnd p vbus current slew => Sys2Proof.Machine.execRampProbeEnd p vbus current slew s
  | .rampCheck p vbus current => Sys2Proof.Machine.execRampCheck p vbus current s
  | .gateLoopTick p x => Sys2Proof.Machine.execGateLoopTick p x s
  | .breakersArm p => Sys2Proof.Machine.execBreakersArm p s
  | .rampComplete p sample => Sys2Proof.Machine.execRampComplete p sample s
  | .rampTimeout p current => Sys2Proof.Machine.execRampTimeout p current s
  | .transitionEnd p vbus => Sys2Proof.Machine.execTransitionEnd p vbus s
  | .pgoodRise p vbus => Sys2Proof.Machine.execPgoodRise p vbus s
  | .pgoodFall p vbus => Sys2Proof.Machine.execPgoodFall p vbus s
  | .fastTrip p current => Sys2Proof.Machine.execFastTrip p current s
  | .reverseTrip p current => Sys2Proof.Machine.execReverseTrip p current s
  | .ovTrip p vbus => Sys2Proof.Machine.execOvTrip p vbus s
  | .classATrip p current => Sys2Proof.Machine.execClassATrip p current s
  | .curveTrip p k current => Sys2Proof.Machine.execCurveTrip p k current s
  | .gateRiseFail p => Sys2Proof.Machine.execGateRiseFail p s
  | .fetShort p isMv => Sys2Proof.Machine.execFetShort p isMv s
  | .fetOpen p => Sys2Proof.Machine.execFetOpen p s
  | .portCooldownEnd p => Sys2Proof.Machine.execPortCooldownEnd p s
  | .portStageReset p => Sys2Proof.Machine.execPortStageReset p s
  | .dischargeEnd p => Sys2Proof.Machine.execDischargeEnd p s
  | .clrPfet m p => Sys2Proof.Machine.execClrPfet m p s
  | .clrLatch m p => Sys2Proof.Machine.execClrLatch m p s
  | .fwOffSet m p => Sys2Proof.Machine.execFwOffSet m p s
  | .fwOffClear m p => Sys2Proof.Machine.execFwOffClear m p s
  | .ppsEdge xi sec qns => Sys2Proof.Machine.execPpsEdge xi sec qns s
  | .ppsLost xi => Sys2Proof.Machine.execPpsLost xi s
  | .irigFrame f => Sys2Proof.Machine.execIrigFrame f s
  | .irigLost => Sys2Proof.Machine.execIrigLost s
  | .ref10mGate ppb => Sys2Proof.Machine.execRef10mGate ppb s
  | .ref10mLost => Sys2Proof.Machine.execRef10mLost s
  | .secondBoundary => Sys2Proof.Machine.execSecondBoundary s
  | .holdoverExpire => Sys2Proof.Machine.execHoldoverExpire s
  | .immediate m => Sys2Proof.Machine.execImmediate m s
  | .atEdge m => Sys2Proof.Machine.execAtEdge m s
  | .atEdgeTimeout => Sys2Proof.Machine.execAtEdgeTimeout s
  | .timFreqWrite m v => Sys2Proof.Machine.execTimFreqWrite m v s
  | .replicaSync t offset => Sys2Proof.Machine.execReplicaSync t offset s
  | .ppsOutPulseEnd => Sys2Proof.Machine.execPpsOutPulseEnd s
  | .add k rd ra rb f => Sys2Proof.Machine.execAdd k rd ra rb f s
  | .adc k rd ra rb f => Sys2Proof.Machine.execAdc k rd ra rb f s
  | .sub k rd ra rb f => Sys2Proof.Machine.execSub k rd ra rb f s
  | .sbc k rd ra rb f => Sys2Proof.Machine.execSbc k rd ra rb f s
  | .and k rd ra rb f => Sys2Proof.Machine.execAnd k rd ra rb f s
  | .or k rd ra rb f => Sys2Proof.Machine.execOr k rd ra rb f s
  | .xor k rd ra rb f => Sys2Proof.Machine.execXor k rd ra rb f s
  | .andn k rd ra rb f => Sys2Proof.Machine.execAndn k rd ra rb f s
  | .shl k rd ra rb f => Sys2Proof.Machine.execShl k rd ra rb f s
  | .shr k rd ra rb f => Sys2Proof.Machine.execShr k rd ra rb f s
  | .sar k rd ra rb f => Sys2Proof.Machine.execSar k rd ra rb f s
  | .ror k rd ra rb f => Sys2Proof.Machine.execRor k rd ra rb f s
  | .mul k rd ra rb f => Sys2Proof.Machine.execMul k rd ra rb f s
  | .mulhu k rd ra rb f => Sys2Proof.Machine.execMulhu k rd ra rb f s
  | .min k rd ra rb f => Sys2Proof.Machine.execMin k rd ra rb f s
  | .max k rd ra rb f => Sys2Proof.Machine.execMax k rd ra rb f s
  | .minu k rd ra rb f => Sys2Proof.Machine.execMinu k rd ra rb f s
  | .maxu k rd ra rb f => Sys2Proof.Machine.execMaxu k rd ra rb f s
  | .clz k rd ra rb f => Sys2Proof.Machine.execClz k rd ra rb f s
  | .popc k rd ra rb f => Sys2Proof.Machine.execPopc k rd ra rb f s
  | .cmp k rd ra rb => Sys2Proof.Machine.execCmp k rd ra rb s
  | .tst k rd ra rb => Sys2Proof.Machine.execTst k rd ra rb s
  | .addi k rd ra imm => Sys2Proof.Machine.execAddi k rd ra imm s
  | .andi k rd ra imm => Sys2Proof.Machine.execAndi k rd ra imm s
  | .ori k rd ra imm => Sys2Proof.Machine.execOri k rd ra imm s
  | .xori k rd ra imm => Sys2Proof.Machine.execXori k rd ra imm s
  | .cmpi k rd ra imm => Sys2Proof.Machine.execCmpi k rd ra imm s
  | .tsti k rd ra imm => Sys2Proof.Machine.execTsti k rd ra imm s
  | .shi k rd ra imm => Sys2Proof.Machine.execShi k rd ra imm s
  | .lui k rd imm => Sys2Proof.Machine.execLui k rd imm s
  | .addpc k rd imm => Sys2Proof.Machine.execAddpc k rd imm s
  | .crc k rd ra rb fn f => Sys2Proof.Machine.execCrc k rd ra rb fn f s
  | .ldw k rd ra imm => Sys2Proof.Machine.execLdw k rd ra imm s
  | .ldh k rd ra imm => Sys2Proof.Machine.execLdh k rd ra imm s
  | .ldhu k rd ra imm => Sys2Proof.Machine.execLdhu k rd ra imm s
  | .ldb k rd ra imm => Sys2Proof.Machine.execLdb k rd ra imm s
  | .ldbu k rd ra imm => Sys2Proof.Machine.execLdbu k rd ra imm s
  | .ldd k rd ra imm => Sys2Proof.Machine.execLdd k rd ra imm s
  | .stw k rd ra imm => Sys2Proof.Machine.execStw k rd ra imm s
  | .sth k rd ra imm => Sys2Proof.Machine.execSth k rd ra imm s
  | .stb k rd ra imm => Sys2Proof.Machine.execStb k rd ra imm s
  | .std k rd ra imm => Sys2Proof.Machine.execStd k rd ra imm s
  | .rld k rd ra imm => Sys2Proof.Machine.execRld k rd ra imm s
  | .rldComplete k => Sys2Proof.Machine.execRldComplete k s
  | .rldTimeout => Sys2Proof.Machine.execRldTimeout s
  | .rst k rd ra imm => Sys2Proof.Machine.execRst k rd ra imm s
  | .b k cond off => Sys2Proof.Machine.execB k cond off s
  | .bl k cond off => Sys2Proof.Machine.execBl k cond off s
  | .jlr k rd ra imm => Sys2Proof.Machine.execJlr k rd ra imm s
  | .ewait k rd ra => Sys2Proof.Machine.execEwait k rd ra s
  | .ewaitResume k => Sys2Proof.Machine.execEwaitResume k s
  | .wait k rd ra => Sys2Proof.Machine.execWait k rd ra s
  | .srd k rd n => Sys2Proof.Machine.execSrd k rd n s
  | .swr k ra n => Sys2Proof.Machine.execSwr k ra n s
  | .trap k n => Sys2Proof.Machine.execTrap k n s
  | .eret k => Sys2Proof.Machine.execEret k s
  | .fence k => Sys2Proof.Machine.execFence k s
  | .fenceComplete k => Sys2Proof.Machine.execFenceComplete k s
  | .wdog k => Sys2Proof.Machine.execWdog k s
  | .sig k xi => Sys2Proof.Machine.execSig k xi s
  | .tset k n ra => Sys2Proof.Machine.execTset k n ra s
  | .tseti k n ra imm => Sys2Proof.Machine.execTseti k n ra imm s
  | .tclr k n => Sys2Proof.Machine.execTclr k n s
  | .trd k rd n => Sys2Proof.Machine.execTrd k rd n s
  | .timerExpire k n => Sys2Proof.Machine.execTimerExpire k n s
  | .tstamp k rd src => Sys2Proof.Machine.execTstamp k rd src s
  | .epost k ra rd cls => Sys2Proof.Machine.execEpost k ra rd cls s
  | .msend k rd ra imm => Sys2Proof.Machine.execMsend k rd ra imm s
  | .msendComplete k => Sys2Proof.Machine.execMsendComplete k s
  | .mtry k rd ra imm => Sys2Proof.Machine.execMtry k rd ra imm s
  | .mrecv k rd ra imm => Sys2Proof.Machine.execMrecv k rd ra imm s
  | .mstat k rd ra imm => Sys2Proof.Machine.execMstat k rd ra imm s
  | .mclr k rd ra imm => Sys2Proof.Machine.execMclr k rd ra imm s
  | .pdrd k rd w => Sys2Proof.Machine.execPdrd k rd w s
  | .pdwr k ra w => Sys2Proof.Machine.execPdwr k ra w s
  | .pdsend k f => Sys2Proof.Machine.execPdsend k f s
  | .pdrel k => Sys2Proof.Machine.execPdrel k s
  | .pdstat k rd => Sys2Proof.Machine.execPdstat k rd s
  | .pdcfg k b => Sys2Proof.Machine.execPdcfg k b s
  | .pctlRp k x => Sys2Proof.Machine.execPctlRp k x s
  | .pctlCcsel k x => Sys2Proof.Machine.execPctlCcsel k x s
  | .pctlVconn k x pinHigh => Sys2Proof.Machine.execPctlVconn k x pinHigh s
  | .pctlSbu k x => Sys2Proof.Machine.execPctlSbu k x s
  | .pctlState k x => Sys2Proof.Machine.execPctlState k x s
  | .pctlBase k x => Sys2Proof.Machine.execPctlBase k x s
  | .pstat k rd => Sys2Proof.Machine.execPstat k rd s
  | .portb k rd => Sys2Proof.Machine.execPortb k rd s
  | .sema k rd n => Sys2Proof.Machine.execSema k rd n s
  | .semr k rd n => Sys2Proof.Machine.execSemr k rd n s
  | .interrupt => Sys2Proof.Machine.execInterrupt s
  | .nmi => Sys2Proof.Machine.execNmi s
  | .tileRun m t run => Sys2Proof.Machine.execTileRun m t run s
  | .tileRestart m t restart run => Sys2Proof.Machine.execTileRestart m t restart run s
  | .programWindowWrite m a v => Sys2Proof.Machine.execProgramWindowWrite m a v s
  | .vrimPor => Sys2Proof.Machine.execVrimPor s
  | .rimPorRelease => Sys2Proof.Machine.execRimPorRelease s
  | .pwrOkAssert => Sys2Proof.Machine.execPwrOkAssert s
  | .pwrOkLoss => Sys2Proof.Machine.execPwrOkLoss s
  | .pwrTimeout => Sys2Proof.Machine.execPwrTimeout s
  | .oscReady => Sys2Proof.Machine.execOscReady s
  | .oscTimeout => Sys2Proof.Machine.execOscTimeout s
  | .coreEnOffExpire => Sys2Proof.Machine.execCoreEnOffExpire s
  | .coreResetRelease => Sys2Proof.Machine.execCoreResetRelease s
  | .bootStart testMode flash => Sys2Proof.Machine.execBootStart testMode flash s
  | .bootStepTimeout step => Sys2Proof.Machine.execBootStepTimeout step s
  | .tileSwitchOn t => Sys2Proof.Machine.execTileSwitchOn t s
  | .tileReady t => Sys2Proof.Machine.execTileReady t s
  | .resetPin => Sys2Proof.Machine.execResetPin s
  | .resetPinRelease => Sys2Proof.Machine.execResetPinRelease s
  | .chip m => Sys2Proof.Machine.execChip m s
  | .sup m => Sys2Proof.Machine.execSup m s
  | .tile m t => Sys2Proof.Machine.execTile m t s
  | .tapReset => Sys2Proof.Machine.execTapReset s
  | .phyCfgWrite m a v => Sys2Proof.Machine.execPhyCfgWrite m a v s
  | .begin m => Sys2Proof.Machine.execBegin m s
  | .write m => Sys2Proof.Machine.execWrite m s
  | .writeComplete programOk eraseOk => Sys2Proof.Machine.execWriteComplete programOk eraseOk s
  | .verify m => Sys2Proof.Machine.execVerify m s
  | .verifyComplete => Sys2Proof.Machine.execVerifyComplete s
  | .activate m => Sys2Proof.Machine.execActivate m s
  | .activationCommit programOk => Sys2Proof.Machine.execActivationCommit programOk s
  | .abort m => Sys2Proof.Machine.execAbort m s
  | .sessionTimeout => Sys2Proof.Machine.execSessionTimeout s
  | .dfuDnload u block data => Sys2Proof.Machine.execDfuDnload u block data s
  | .dfuManifest u => Sys2Proof.Machine.execDfuManifest u s
  | .dfuUpload u => Sys2Proof.Machine.execDfuUpload u s
  | .dfuGetstatus u => Sys2Proof.Machine.execDfuGetstatus u s
  | .dfuClrstatus u => Sys2Proof.Machine.execDfuClrstatus u s
  | .dfuAbort u => Sys2Proof.Machine.execDfuAbort u s
  | .confirm m => Sys2Proof.Machine.execConfirm m s
  | .confirmWindowExpire flash => Sys2Proof.Machine.execConfirmWindowExpire flash s
  | .offDischargeDone => Sys2Proof.Machine.execOffDischargeDone s
  | .wakeSource w => Sys2Proof.Machine.execWakeSource w s
  | .sleepWakeComplete => Sys2Proof.Machine.execSleepWakeComplete s
  | .wakeMinOffExpire => Sys2Proof.Machine.execWakeMinOffExpire s
  | .deepWakeHandover => Sys2Proof.Machine.execDeepWakeHandover s
  | .retry m v c => Sys2Proof.Machine.execRetry m v c s
  | .retDataAccess m write v => Sys2Proof.Machine.execRetDataAccess m write v s
  | .faultReport src detail => Sys2Proof.Machine.execFaultReport src detail s
  | .scorecardRecord => Sys2Proof.Machine.execScorecardRecord s
  | .fltStatClear m hi v => Sys2Proof.Machine.execFltStatClear m hi v s
  | .fltLostClear m => Sys2Proof.Machine.execFltLostClear m s
  | .fltSrcWrite m n v c => Sys2Proof.Machine.execFltSrcWrite m n v c s
  | .swFault m v => Sys2Proof.Machine.execSwFault m v s
  | .faultInject m v c => Sys2Proof.Machine.execFaultInject m v c s
  | .collectorMismatch index => Sys2Proof.Machine.execCollectorMismatch index s
  | .lockstepMismatch => Sys2Proof.Machine.execLockstepMismatch s
  | .supWatchdog => Sys2Proof.Machine.execSupWatchdog s
  | .warmScrubEnd uncorrectable digestOk => Sys2Proof.Machine.execWarmScrubEnd uncorrectable digestOk s
  | .done m => Sys2Proof.Machine.execDone m s
  | .doneTimeout => Sys2Proof.Machine.execDoneTimeout s
  | .weaverWatchdog p => Sys2Proof.Machine.execWeaverWatchdog p s
  | .rimDetach p vbus => Sys2Proof.Machine.execRimDetach p vbus s
  | .controlFrame t crcOk => Sys2Proof.Machine.execControlFrame t crcOk s
  | .linkLaneFault t lane => Sys2Proof.Machine.execLinkLaneFault t lane s
  | .spareLaneSwitchDone t => Sys2Proof.Machine.execSpareLaneSwitchDone t s
  | .linkSecondFailure t lane => Sys2Proof.Machine.execLinkSecondFailure t lane s
  | .uuVbusValid u => Sys2Proof.Machine.execUuVbusValid u s
  | .ccPatternChange p cc1 cc2 => Sys2Proof.Machine.execCcPatternChange p cc1 cc2 s
  | .l1ResumeEnd p => Sys2Proof.Machine.execL1ResumeEnd p s
  | .setAddress u d addr => Sys2Proof.Machine.execSetAddress u d addr s
  | .setConfiguration u d cfg => Sys2Proof.Machine.execSetConfiguration u d cfg s
  | .deviceRemoteWakeup u d on => Sys2Proof.Machine.execDeviceRemoteWakeup u d on s
  | .repeatPathPacket u up sp => Sys2Proof.Machine.execRepeatPathPacket u up sp s
  | .feedQualifyBreak g volt => Sys2Proof.Machine.execFeedQualifyBreak g volt s
  | .feedLimitEnd x => Sys2Proof.Machine.execFeedLimitEnd x s
  | .breakerCurrentCrossing p current => Sys2Proof.Machine.execBreakerCurrentCrossing p current s
  | .waitSourceCapTimeout p => Sys2Proof.Machine.execWaitSourceCapTimeout p s
  | .sbuSignalElement p => Sys2Proof.Machine.execSbuSignalElement p s
  | .bistCarrierModeEnd p => Sys2Proof.Machine.execBistCarrierModeEnd p s
  | .entryResident => Sys2Proof.Machine.execEntryResident s
  | .linkTrainingFailed t => Sys2Proof.Machine.execLinkTrainingFailed t s

end Sys2Proof.Machine
end

