-- ==== Sys2Proof/Safety.lean ====
section
/-!
DEFINITION. Safety.lean: the terms in which claims are stated: the invariant of every state, when a core executes an instruction,
when a register is free to be accessed, and what two states have in common.
-/
namespace Sys2Proof.Machine

/-! ### The invariant -/

/-- Memory is in canonical form, so that equal memories are equal data. -/
def State.Inv (s : State) : Prop := s.mem.wf = true

/-! ### Cores -/

/-- The word of a place has no latent ECC error. -/
def cleanPlace (s : State) : LocalPlace → Bool
  | .ram _ m w => (eccAt s m w).isNone
  | .rom _ => true

/-- The core fetches an instruction: its pc is a multiple of 4 in a code region (09 Table 9.3), and the word there is sound and is one
of the instruction set (09 R299, R300). -/
def fetches (k : Core) (s : State) : Bool :=
  let pc := (cpuOf s k).pc
  match (if pc.toNat % 4 = 0 then localPlace k .fetch pc.toNat else none) with
  | some x => cleanPlace s x && (decodePsi (wordAt s x)).isSome
  | none => false

/-- A lockstep injection of FLT_INJ is armed, which the supervisor's next instruction meets (13 R426). -/
def lockstepArmed (s : State) : Bool := bitOf s.flt.inj 31 && fld s.flt.inj 26 24 == 3

/-- The core executes the instruction that it is commanded. -/
def issues (k : Core) (s : State) : Bool := executes s k && fetches k s && !(k == .sup && lockstepArmed s)

/-- General registers after rd takes a value: g0 discards it (09 R292). -/
def regsWith (c : Cpu) (rd : Reg) (v : Word) : Vector Word 16 := if rd = 0 then c.regs else c.regs.set rd v

/-- The core after an instruction that gives rd a value and changes nothing else of it. -/
def coreWith (c : Cpu) (rd : Reg) (v : Word) : Cpu := { c with regs := regsWith c rd v, pc := c.pc + 4, st := .running, stall := .none }

/-- The core after an instruction that changes no register. -/
def coreOn (c : Cpu) : Cpu := { c with pc := c.pc + 4, st := .running, stall := .none }

/-- Flags of a result, where the instruction sets them. -/
def flagged (f : Bool) (v : Word) (carry ovf : Bool) (c : Cpu) : Cpu :=
  if f then { c with n := v.msb, z := v == 0, c := carry, v := ovf } else c

/-- The state with one core replaced. -/
def setCpu (k : Core) (c : Cpu) (s : State) : State :=
  match k with
  | .sup => { s with sup := c }
  | .weaver p => { s with tiles := s.tiles.set (tileOf p) { s.tiles[tileOf p] with thr := s.tiles[tileOf p].thr.set (laneOf p) c } }

/-- Byte i from a place of local memory on. -/
def placeAtByte (s : State) (i : Nat) : LocalPlace → Byte
  | .ram key _ _ => memGet s.mem (key + i)
  | .rom off => Config.bootRom (off + i)

/-- Byte i from a place on, where a load finds the words sound. -/
def soundPlace (s : State) (n : Nat) (x : LocalPlace) : Bool := cleanPlace s x && (n != 8 || cleanPlace s (nextPlace x))

/-! ### States that agree -/

/-- The state with no latched event bit. -/
def withoutEvents (s : State) : State :=
  { s with
    sup := { s.sup with epend := 0 }
    tiles := s.tiles.map fun t => { t with thr := t.thr.map fun (c : Cpu) => { c with epend := 0 } } }

/-- Two states agree in everything but the latched event bits of the cores (EPEND, 09 Tables 9.8 and 9.9). -/
def SameButEvents (a b : State) : Prop := withoutEvents a = withoutEvents b

/-! ### Registers -/

/-- No guarded pair waits in the register's block and its BUSY flag reads 0 (02 R49, R50). -/
def pathClear (s : State) (a : Nat) : Bool :=
  (s.acc.held.all fun h => blockOf h.addr != blockOf a) && (match busyOf a with | none => true | some i => s.acc.busy[i].isNone)

/-- The supervisor can access the register: nothing is in the way, and its clock runs (12 R392). -/
def openAt (s : State) (a : Nat) : Bool := pathClear s a && clocksRun s

/-- The master can make an access: a PSI core while its clock runs (12 R392). -/
def masterUp (m : Master) (s : State) : Bool := match m with | .spi | .ws => true | _ => clocksRun s

/-- A bit of ACC_LOCK is clear. -/
def unlocked (s : State) (b : Nat) : Bool := !bitOf s.acc.lock b

/-- A write of an unguarded register that nothing bars: no lock, no refusal of the value, no pair or posted write in the way (02 R49
to R53, R500), and the register is written at once: it is not posted, or it is the writer's own tile's (02 R48). -/
def writable (m : Master) (r : Rg) (a : Nat) (v : Word) (s : State) : Bool :=
  placeFor m true a s == .reg r && a % 4 == 0 && !r.guarded && !isPosted m r a && !isLocked s r && !barred s r v && !prioLocked s r v &&
    !writeRefused m r v s && pathClear s a && masterUp m s

/-- A write of a guarded register, as a pair of the value and its complement, that nothing bars. -/
def guardOpen (m : Master) (r : Rg) (a : Nat) (v : Word) (s : State) : Bool :=
  placeFor m true a s == .reg r && a % 4 == 0 && r.guarded && !isPosted m r a && !isLocked s r && !barred s r v && !prioLocked s r v &&
    !writeRefused m r v s && pathClear s a && masterUp m s

/-- A register that can be read now: no pair waits in its block, the master is up, and no control-channel switch holds the read back. -/
def readable (m : Master) (r : Rg) (a : Nat) (s : State) : Bool :=
  placeFor m false a s == .reg r && a % 4 == 0 && (s.acc.held.all fun h => blockOf h.addr != blockOf a) && masterUp m s && !readLost m a s

/-- The state with the answer of an access. -/
def withAnswer (x : Verdict) (s : State) : State := { s with acc := { s.acc with answer := x } }

/-- The state with the answer and the data of a read. -/
def withData (v : Word) (s : State) : State := { s with acc := { s.acc with answer := .ok, data := v } }

/-! ### Stamps and ports -/

/-- A stamp is within 100 ns of the time counter (01 R22), and tells whether the time is good (08 R280). -/
def StampNow (tile : Option TileId) (st : Stamp) (s : State) : Prop :=
  st.sec * 1000000000 + st.ns ≤ counterNs s + 100 ∧ counterNs s ≤ st.sec * 1000000000 + st.ns + 100 ∧ st.ns < 1000000000 ∧
    st.tq = stampTq tile s

/-- The state with one port replaced. -/
def setPort (p : PortId) (x : Port) (s : State) : State := { s with ports := s.ports.set p x }

/-- The state with one mailbox replaced. -/
def setBox (b : Fin 24) (x : Mailbox) (s : State) : State := { s with mbx := { s.mbx with box := s.mbx.box.set b x } }

/-! ### Management paths -/

/-- The SPI target serves a transaction: no read is pending, no framing failure stands (02 R39, R41, R56). -/
def spiIdle (s : State) : Bool := spiUp s && s.spi.pending.isNone && s.spi.badFrames == 0 && !s.spi.lost

/-- The wake-serial target answers, and no framing failure stands (02 R43, R56). -/
def wsIdle (s : State) : Bool := wsUp s && s.ws.badCounts == 0 && !s.ws.lost

/-- The SPI target after a transaction that answered `st` and shifted out `out`. -/
def spiAfter (st : Byte) (out : List Byte) (x : Spi) : Spi := { x with first := x.status, status := st, out := out }

/-- The wake-serial target after a transaction. -/
def wsAfter (n : WsNack) (out : List Byte) (x : Ws) : Ws := { x with nack := n, out := out, answers := true }

/-- The four bytes of a word, most significant first. -/
def bytesOf (v : Word) : List Byte := [(v >>> 24).setWidth 8, (v >>> 16).setWidth 8, (v >>> 8).setWidth 8, v.setWidth 8]

/-- A bit of ACC_ERR_STAT is set, with OVERFLOW where a capture stood, and the error line of ACC has reported (02 R55). -/
def AccReported (bit : Nat) (s t : State) : Prop :=
  t.acc.errStat = s.acc.errStat ||| BitVec.ofNat 32 (2 ^ bit) ||| (if capHeld s.acc then 1 else 0) ∧ ∃ d, t.flt.lines = s.flt.lines ++ [{ src := 0, detail := d }]

/-! ### Teams -/

/-- Nothing but team u has changed, the records it posts and the counter of free values apart. -/
def OnlyTeam (u : TeamId) (s t : State) : Prop :=
  SameButEvents { t with teams := s.teams, free := s.free, posts := s.posts } s ∧ ∀ w, w ≠ u → t.team w = s.team w

/-- The hub firmware answers class requests on the team (03 R80, 13 R429, R433). -/
def classUp (s : State) (u : TeamId) : Bool := awake s u && !s.flt.safe && supUp s && !s.flt.inWr

/-- The station function of the team can be reached by its host (03 R82, R91). -/
def stationUp (s : State) (u : TeamId) : Bool :=
  awake s u && stationConn s u && (s.team u).station.enabled && !(s.team u).station.suspended && !(s.team u).station.l1 && !s.flt.safe

/-- The station function's vendor interface answers (03 R93). -/
def stationRuns (s : State) (u : TeamId) : Bool := stationUp s u && epReady s u

/-! ### Type-C and Power Delivery -/

/-- An event bit of a core is latched (09 Tables 9.8 and 9.9). -/
def eventLatched (k : Core) (n : Nat) (s : State) : Prop := (cpuOf s k).epend.getLsbD n = true

/-- The port's policy acts on a message of this frame and header (06 R181, R211): it stands in a slot, or it is new and a slot is free
for it (06 R180, 09 R325). -/
def policyHears (p : PortId) (f : Frame) (h : BitVec 16) (s : State) : Bool :=
  let m : PdMsg := { frame := f, header := h }
  weaverActs s p && pdLive s p && !(s.port p).pd.bistMode && ((s.port p).phy.slots.any (inSlot m) || (!isRepeat s p m && !isOverflow s p m))

/-- A timer of the policy runs, and the weaver that acts at its expiry runs its program and is not stalled (01 R20). -/
def expires (t : PdTimer) (p : PortId) (s : State) : Bool := tHas s p t && weaverActs s p

/-- No sequence of messages runs or waits on the port, and it may start one at once (06 R191). -/
def policyIdle (p : PortId) (s : State) : Bool := !inSequence s p && !serveRule s p && (s.port p).phy.tx.isNone

/-- The transmitter has taken up a message with this frame, type and data objects, which is not sent yet. -/
def Sends (p : PortId) (f : Frame) (ty : Nat) (objs : List Word) (t : State) : Prop :=
  ∃ m, (t.port p).phy.tx = some { msg := m } ∧ m.frame = f ∧ mType m.header = ty ∧ mObjs m.header = objs.length ∧
    mExt m.header = false ∧ m.objs = objs

/-- The transmitter has taken up an extended message of one chunk with these bytes (06 R182). -/
def SendsBlock (p : PortId) (ty : Nat) (bytes : List Byte) (t : State) : Prop :=
  ∃ m, (t.port p).phy.tx = some { msg := m } ∧ m.frame = .sop ∧ mType m.header = ty ∧ mExt m.header = true ∧
    mObjs m.header = (2 + bytes.length + 3) / 4 ∧ m.bytes = le16 (0x8000 + bytes.length) ++ bytes

/-- The Type-C state but for the CC baseline, of which every message on the wire is a sample (06 R177). -/
def sansBaseline (x : PortTc) : PortTc := { x with baseline := 0, baseLearn := false, samples := [] }

/-- No part of port p has changed but its PD policy and its CC baseline, and no other port at all. -/
def OnlyPolicy (p : PortId) (s t : State) : Prop :=
  (∀ q, q ≠ p → t.port q = s.port q) ∧ (t.port p).hub = (s.port p).hub ∧ sansBaseline (t.port p).tc = sansBaseline (s.port p).tc ∧ (t.port p).pw = (s.port p).pw ∧
    (t.port p).pd.objpos = (s.port p).pd.objpos ∧ (t.port p).pd.cfg = (s.port p).pd.cfg ∧ t.teams = s.teams ∧ t.grps = s.grps ∧ t.mem = s.mem

/-- A budget word of the port waits for the arbiter, or stands in its mailbox (06 R201, 01 R20). -/
def WordUp (p : PortId) (op power : Nat) (t : State) : Prop :=
  ∃ tag, let w : BudWord := { op := op, tag := tag, power := BitVec.ofNat 16 power }
    (p, w) ∈ t.bud.up ∨ (t.mbx.box[boxUp (tileOf p)].full = true ∧ t.mbx.box[boxUp (tileOf p)].data = budWord p w)

/-- A budget word of the arbiter waits for the port's weaver, or stands in its mailbox (06 R502). -/
def WordDown (p : PortId) (op : Nat) (tag : Byte) (power : Nat) (t : State) : Prop :=
  let w : BudWord := { op := op, tag := tag, power := BitVec.ofNat 16 power }
  (p, w) ∈ t.bud.down ∨ (t.mbx.box[boxDown (tileOf p)].full = true ∧ t.mbx.box[boxDown (tileOf p)].data = budWord p w)

/-- A port without a partner (06 R175): VBUS and VCONN are off, the SBU switches open, no contract, no hold. -/
def Detached (p : PortId) (t : State) : Prop :=
  let x := t.port p
  x.tc.orient = .none ∧ x.tc.ra = false ∧ x.tc.vconnOn = false ∧ x.tc.vconnPartner = false ∧ x.tc.vconnOc = false ∧ x.tc.sbu = .isOpen ∧
    x.tc.ccsel = .none ∧ x.pd.pe = .noPd ∧ x.pd.objpos = 0 ∧ x.pd.alt = false ∧ x.pd.caps = [] ∧ x.pw.keeper = 0 ∧ x.pw.pathNow = .none ∧
    x.phy.tx = none ∧ allocOf t p = 0

/-- Hard Reset runs on the port (06 R212): PE_STATE, no contract mode, SBU open, Rp of the granted base, the count of PORT_PD_CNT. -/
def InHardReset (p : PortId) (s t : State) : Prop :=
  let x := t.port p
  x.pd.pe = .hardReset ∧ x.pd.alt = false ∧ x.pd.caps = [] ∧ x.pd.seq = .none ∧ x.tc.sbu = .isOpen ∧ x.tc.rp = attachRp s p ∧
    x.pd.hardResets = satInc (s.port p).pd.hardResets 255 ∧ tHas t p .psHardReset = true

/-- The arbiter's room for an increase of port p up to `power`, within its want (06 R194). -/
def fits (s : State) (p : PortId) (power : Nat) : Bool :=
  decide (power ≤ allocOf s p ∨ power - allocOf s p ≤ min (roomFor s p) (wantOf s p - allocOf s p))

/-- A write of a posted register that nothing bars: it waits under its BUSY flag (02 R48, R49). -/
def postable (m : Master) (r : Rg) (a : Nat) (s : State) : Bool :=
  placeFor m true a s == .reg r && a % 4 == 0 && !r.guarded && isPosted m r a && !isLocked s r && pathClear s a && masterUp m s

/-- A posted write waits under BUSY flag i, and the access has been answered. -/
def posting (m : Master) (i : Fin 10) (a : Nat) (v : Word) (s : State) : State :=
  withAnswer .ok { s with acc := { s.acc with busy := s.acc.busy.set i (some { addr := a, value := v, master := m }) } }

/-! ### Power -/

/-- The group's feed is off, and its ports are without path, setting and allocation (07 R234, 06 R199). -/
def FeedDown (g : TileId) (t : State) : Prop :=
  (t.grp g).pg = false ∧ (t.grp g).railUp = false ∧ (t.grp g).limiting = false ∧
    ∀ p, tileOf p = g → (t.port p).pw.keeper = 0 ∧ (t.port p).pw.pathNow = .none ∧ (t.port p).pw.pgood = false ∧ allocOf t p = 0

/-- A port has tripped (07 R253, R254): both paths off, no setting, no contract, the allocation at its base; a cause up to 6 starts
a cooldown of the next stage, or latches off after the retries of PORT_PROT_CFG. -/
def Tripped (p : PortId) (cause : Nat) (s t : State) : Prop :=
  let w := (s.port p).pw
  let y := (t.port p).pw
  let most := fld w.effProt 15 12
  y.pathNow = .none ∧ y.keeper = 0 ∧ y.inForce = 0 ∧ y.pgood = false ∧ y.armed = false ∧ bitOf y.flags cause = true ∧ (t.port p).pd.objpos = 0 ∧
    allocOf t p = min (allocOf s p) s.bud.port[p].base ∧
    (cause ≤ 6 → y.retries = satInc w.retries 15 ∧ y.stage = min 4 w.retries ∧
      y.pstate = if most ≠ 0 ∧ most ≤ y.retries then .latched else .cooldown)

/-- A record of a class and source code has joined the records on their way. -/
def Posted (cls src : Nat) (t : State) : Prop := ∃ x ∈ t.posts, x.2.cls = cls ∧ x.2.src = src

/-! ### Power states -/

/-- Row `row` of Table 12.2 fails at index j for the state that CRP_MODE code `mode` names and the events of `mask` (12 R391). A mailbox of
the management host and the rebuild name index 0 (log 69). -/
def entryFails (mode : Nat) (mask : Word) (row j : Nat) (s : State) : Bool :=
  let deep := mode == 3
  let low := mode == 2 || deep
  let team (f : TeamId → Team → Bool) : Bool := (fins 4).any fun u => u.val == j && teamEn s u && (s.team u).vbusOk && f u (s.team u)
  let port (f : Port → Bool) : Bool := (fins 64).any fun p => p.val == j && f (s.port p)
  let queue (f : QueueId → Bool) : Bool := (fins 16).any fun q => q.val == j && f q
  let hostMail := (fins 4).any fun n => s.mbx.box[boxH2S n].full
  match row with
  | 1 => j == 0 && (s.flt.safe || s.boot.rescue || !(2 ≤ mode && mode ≤ 4))
  | 2 => j == 0 && ependOf s .sup &&& mask != 0
  | 3 => low && team fun _ x => x.st != .suspended || x.drivingK
  | 4 => deep && team fun _ x => x.rwakeEn || x.station.rwake
  | 5 => low && (fins 8).any fun t => t.val == j && !quiescent s t
  | 6 => low && port fun x => x.pw.pstate == .waiting || x.pw.pstate == .ramping || x.pw.pstate == .transition || x.pd.pe == .transition ||
      x.pd.pe == .hardReset || x.hub.mstate != 0
  | 7 => deep && port fun x => x.pw.pathNow == .rail
  | 8 => low && (if hostMail then j == 0 else (fins 8).any fun t => t.val == j && s.mbx.box[boxUp t].full)
  | 9 => low && (if rebuilding s then j == 0 else queue fun q => (s.queue q).scanning)
  | 10 => deep && queue fun q => queueEn s q && ((s.queue q).records != 0 || !(s.queue q).latch.isEmpty)
  | 11 => j == 0 && (fins 10).any fun i => s.acc.busy[i].isSome
  | 12 => j == 0 && sessionOpen s
  | 13 => deep && j == 0 && s.boot.trial
  | _ => false

/-- REFUSER of a row of Table 12.2. -/
def rowCode (row : Nat) : Nat := [0, 1, 11, 2, 2, 3, 4, 4, 5, 6, 6, 7, 8, 8].getD row 0

/-- An entry has ended without a power state: ENTRY_REFUSED counts, REFUSER and INDEX stand, and the supervisor's WAIT has returned WAKE
(12 R391, R395). -/
def EntryEnded (code j : Nat) (s t : State) : Prop :=
  t.crp.refused = satInc s.crp.refused 0xFFFF ∧ t.crp.refuser = code ∧ t.crp.refIndex = j ∧ Posted 0x11 0x5C t ∧ t.sup.st = .running ∧
  t.sup.pc = s.sup.pc + 4

/-! ### Resets -/

/-- A chip reset has begun (10 R343, R344, Tables 10.3 and 10.4): registers of the hub die are at their reset values, every keeper is at
none, the cause and COUNT of CRP_RST_CAUSE stand, and retention RAM, flash and the learned gate currents are kept. -/
def ChipReset (cause : Nat) (s t : State) : Prop :=
  t.mbx = {} ∧ t.crl = {} ∧ t.bud = {} ∧ t.tim = {} ∧ t.acc.lock = 0 ∧ t.acc.held = [] ∧ t.flt.stat = 0 ∧ t.flt.safe = false ∧ t.sup.run = false ∧
    (∀ p, (t.port p).pw.keeper = 0 ∧ (t.port p).pw.pathNow = .none ∧ (t.port p).pw.gateLearn = (s.port p).pw.gateLearn ∧ t.tts[p] = {}) ∧
    bitOf t.crp.rstCause cause = true ∧ fld t.crp.rstCause 15 8 = satInc (fld s.crp.rstCause 15 8) 0xFF ∧
    ∀ a, retBase ≤ a → memGet t.mem a = memGet s.mem a

end Sys2Proof.Machine
end

