-- ==== Sys2Proof/Certificates/Slice0/Obligations.lean ====
section
/-!
DEFINITION. Certificates/Slice0/Obligations.lean: what is claimed of the NZ-64T block, rule by rule.
-/
open Sys2Proof Sys2Proof.Machine

/-- R301, R302, Tables 9.1 and 9.6: ADD, ADC, SUB, SBC, ADDI, CMP and CMPI of a core that executes. The carry is the unsigned sum at
or above 2^32, or no borrow; the overflow is a result whose sign the operands' signs exclude. Nothing but that core changes, and of it
nothing but rd, the pc and, where the instruction sets them, N, Z, C and V. -/
def Obligations.PsiAddAndSubtract : Prop :=
  ∀ (k : Core) (s : State) (rd ra rb : Reg) (f : Bool) (imm : BitVec 18), issues k s = true →
    let c := cpuOf s k
    let a := getReg c ra
    let b := getReg c rb
    let i : Word := imm.signExtend 32
    let cin : Word := if c.c then 1 else 0
    let bor : Word := if c.c then 0 else 1
    let addV (x y r : Word) : Bool := x.msb == y.msb && r.msb != x.msb
    let subV (x y r : Word) : Bool := x.msb != y.msb && r.msb != x.msb
    exec (.add k rd ra rb f) s =
      .next (setCpu k (flagged f (a + b) (decide (2 ^ 32 ≤ a.toNat + b.toNat)) (addV a b (a + b)) (coreWith c rd (a + b))) s) ∧
    exec (.adc k rd ra rb f) s =
      .next (setCpu k (flagged f (a + b + cin) (decide (2 ^ 32 ≤ a.toNat + b.toNat + cin.toNat)) (addV a b (a + b + cin))
        (coreWith c rd (a + b + cin))) s) ∧
    exec (.sub k rd ra rb f) s =
      .next (setCpu k (flagged f (a - b) (decide (b.toNat ≤ a.toNat)) (subV a b (a - b)) (coreWith c rd (a - b))) s) ∧
    exec (.sbc k rd ra rb f) s =
      .next (setCpu k (flagged f (a - b - bor) (decide (b.toNat + bor.toNat ≤ a.toNat)) (subV a b (a - b - bor))
        (coreWith c rd (a - b - bor))) s) ∧
    exec (.addi k rd ra imm) s = .next (setCpu k (coreWith c rd (a + i)) s) ∧
    exec (.cmp k 0 ra rb) s = .next (setCpu k (flagged true (a - b) (decide (b.toNat ≤ a.toNat)) (subV a b (a - b)) (coreOn c)) s) ∧
    exec (.cmpi k 0 ra imm) s = .next (setCpu k (flagged true (a - i) (decide (i.toNat ≤ a.toNat)) (subV a i (a - i)) (coreOn c)) s)

/-- R301, R302, Tables 9.1 and 9.6: the logic, multiply, minimum and maximum instructions of a core that executes set N and Z and leave
C and V. -/
def Obligations.PsiLogicAndMultiply : Prop :=
  ∀ (k : Core) (s : State) (rd ra rb : Reg) (f : Bool) (imm : BitVec 18), issues k s = true →
    let c := cpuOf s k
    let a := getReg c ra
    let b := getReg c rb
    let i : Word := imm.setWidth 32
    let gives (v : Word) : State := setCpu k (flagged f v c.c c.v (coreWith c rd v)) s
    exec (.and k rd ra rb f) s = .next (gives (a &&& b)) ∧
    exec (.or k rd ra rb f) s = .next (gives (a ||| b)) ∧
    exec (.xor k rd ra rb f) s = .next (gives (a ^^^ b)) ∧
    exec (.andn k rd ra rb f) s = .next (gives (a &&& ~~~b)) ∧
    exec (.mul k rd ra rb f) s = .next (gives (BitVec.ofNat 32 (a.toNat * b.toNat))) ∧
    exec (.mulhu k rd ra rb f) s = .next (gives (BitVec.ofNat 32 (a.toNat * b.toNat / 2 ^ 32))) ∧
    exec (.min k rd ra rb f) s = .next (gives (if a.slt b then a else b)) ∧
    exec (.max k rd ra rb f) s = .next (gives (if a.slt b then b else a)) ∧
    exec (.minu k rd ra rb f) s = .next (gives (if a.ult b then a else b)) ∧
    exec (.maxu k rd ra rb f) s = .next (gives (if a.ult b then b else a)) ∧
    exec (.andi k rd ra imm) s = .next (setCpu k (coreWith c rd (a &&& i)) s) ∧
    exec (.ori k rd ra imm) s = .next (setCpu k (coreWith c rd (a ||| i)) s) ∧
    exec (.xori k rd ra imm) s = .next (setCpu k (coreWith c rd (a ^^^ i)) s) ∧
    exec (.tst k 0 ra rb) s = .next (setCpu k (flagged true (a &&& b) c.c c.v (coreOn c)) s) ∧
    exec (.tsti k 0 ra imm) s = .next (setCpu k (flagged true (a &&& i) c.c c.v (coreOn c)) s)

/-- R301, R302, Table 9.6: shifts and rotation by rb[4:0] or by the count of SHI, with C the last bit shifted out and unchanged for count
0; CLZ and POPC. -/
def Obligations.PsiShiftAndCount : Prop :=
  ∀ (k : Core) (s : State) (rd ra rb : Reg) (f : Bool) (n : Fin 32) (kind : Fin 4), issues k s = true →
    let c := cpuOf s k
    let a := getReg c ra
    let m := (getReg c rb).toNat % 32
    let shifts (j : Fin 4) (n : Nat) : Word :=
      match j with
      | 0 => a <<< n
      | 1 => a >>> n
      | 2 => a.sshiftRight n
      | 3 => (a >>> n) ||| (a <<< (32 - n))
    let out (j : Fin 4) (n : Nat) : Bool := if n = 0 then c.c else if j = 0 then a.getLsbD (32 - n) else a.getLsbD (n - 1)
    let gives (f : Bool) (j : Fin 4) (n : Nat) : State := setCpu k (flagged f (shifts j n) (out j n) c.v (coreWith c rd (shifts j n))) s
    let counts (v : Nat) : State := setCpu k (flagged f (BitVec.ofNat 32 v) c.c c.v (coreWith c rd (BitVec.ofNat 32 v))) s
    exec (.shl k rd ra rb f) s = .next (gives f 0 m) ∧
    exec (.shr k rd ra rb f) s = .next (gives f 1 m) ∧
    exec (.sar k rd ra rb f) s = .next (gives f 2 m) ∧
    exec (.ror k rd ra rb f) s = .next (gives f 3 m) ∧
    exec (.shi k rd ra (BitVec.ofNat 18 (128 * (if f then 1 else 0) + 32 * kind.val + n.val))) s = .next (gives f kind n.val) ∧
    exec (.clz k rd ra 0 f) s = .next (counts (if a = 0 then 32 else 31 - Nat.log2 a.toNat)) ∧
    exec (.popc k rd ra 0 f) s = .next (counts ((List.range 32).countP fun i => a.getLsbD i))

/-- R302 to R305, Table 9.7: LUI, ADDPC, CRC, B, BL and JLR of a core that executes. A branch goes to its own address plus four times the
signed offset when the condition holds, and BL then puts the following address into g15; condition 0xF is illegal, and a target that is
not word-aligned is a bus error at the JLR. -/
def Obligations.PsiConstantsCrcAndBranches : Prop :=
  ∀ (k : Core) (s : State) (rd ra rb : Reg) (imm : BitVec 22) (i18 : BitVec 18) (n : Fin 4) (cond : Fin 16), issues k s = true →
    let c := cpuOf s k
    let a := getReg c ra
    let b := getReg c rb
    let target := c.pc + (imm.signExtend 32 <<< 2)
    let holds : Bool :=
      match cond.val with
      | 0 => c.z | 1 => !c.z | 2 => c.c | 3 => !c.c | 4 => c.n | 5 => !c.n | 6 => c.v | 7 => !c.v
      | 8 => c.c && !c.z | 9 => !(c.c && !c.z) | 10 => c.n == c.v | 11 => !(c.n == c.v)
      | 12 => !c.z && c.n == c.v | 13 => !(!c.z && c.n == c.v) | _ => true
    exec (.lui k rd imm) s = .next (setCpu k (coreWith c rd (imm ++ 0#10)) s) ∧
    exec (.addpc k rd imm) s = .next (setCpu k (coreWith c rd target) s) ∧
    exec (.crc k rd ra rb (BitVec.ofNat 6 n.val) false) s =
      .next (setCpu k (coreWith c rd (crcWord a ((List.range (n.val + 1)).map fun i => (b >>> (8 * i)).setWidth 8))) s) ∧
    (a.toNat < 2 ^ 16 →
      ∃ t, exec (.crc k rd ra rb (BitVec.ofNat 6 (4 + n.val)) false) s = .next t ∧
        { t with free := s.free } = setCpu k (coreWith c rd
          ((crcHalf (a.setWidth 16) ((List.range (n.val + 1)).map fun i => (b >>> (8 * i)).setWidth 8)).setWidth 32)) s) ∧
    (cond ≠ 15 → exec (.b k cond imm) s = .next (setCpu k (if holds then { c with pc := target } else coreOn c) s)) ∧
    (cond ≠ 15 → exec (.bl k cond imm) s =
      .next (setCpu k (if holds then { c with regs := regsWith c 15 (c.pc + 4), pc := target } else coreOn c) s)) ∧
    ((a + i18.signExtend 32).toNat % 4 = 0 → exec (.jlr k rd ra i18) s =
      .next (setCpu k { c with regs := regsWith c rd (c.pc + 4), pc := a + i18.signExtend 32 } s)) ∧
    (exec (.b k 15 imm) s = .next (takeException k 1 0 false s) ∧ exec (.bl k 15 imm) s = .next (takeException k 1 0 false s)) ∧
    ((a + i18.signExtend 32).toNat % 4 ≠ 0 →
      let t := takeException k 2 (a + i18.signExtend 32) false s
      exec (.jlr k rd ra i18) s = .next t ∧
        (c.ex = false → (cpuOf t k).epc = c.pc ∧ (cpuOf t k).ecause = 2 ∧ (cpuOf t k).eaddr = a + i18.signExtend 32))

/-- R292, R293, R306, Table 9.3: loads of local memory by a core that executes: little-endian bytes, sign- or zero-extended; LDD gives the
low word to rd and the high word to the register after it. -/
def Obligations.PsiLocalLoads : Prop :=
  ∀ (k : Core) (s : State) (rd ra : Reg) (imm : BitVec 18) (x : LocalPlace), issues k s = true →
    let c := cpuOf s k
    let a := (getReg c ra + imm.signExtend 32).toNat
    let b (i : Nat) : Byte := placeAtByte s i x
    localPlace k .load a = some x →
    (a % 4 = 0 → soundPlace s 4 x = true →
      exec (.ldw k rd ra imm) s = .next (setCpu k (coreWith c rd (b 3 ++ b 2 ++ b 1 ++ b 0)) s)) ∧
    (a % 2 = 0 → soundPlace s 2 x = true →
      exec (.ldh k rd ra imm) s = .next (setCpu k (coreWith c rd ((b 1 ++ b 0).signExtend 32)) s) ∧
      exec (.ldhu k rd ra imm) s = .next (setCpu k (coreWith c rd ((b 1 ++ b 0).setWidth 32)) s)) ∧
    (soundPlace s 1 x = true →
      exec (.ldb k rd ra imm) s = .next (setCpu k (coreWith c rd ((b 0).signExtend 32)) s) ∧
      exec (.ldbu k rd ra imm) s = .next (setCpu k (coreWith c rd ((b 0).setWidth 32)) s)) ∧
    (a % 8 = 0 → rd.val % 2 = 0 → soundPlace s 8 x = true →
      let d := coreWith c rd (b 3 ++ b 2 ++ b 1 ++ b 0)
      exec (.ldd k rd ra imm) s = .next (setCpu k { d with regs := regsWith d (rd + 1) (b 7 ++ b 6 ++ b 5 ++ b 4) } s))

/-- R306, Table 9.3: stores to local memory by a core that executes. The n bytes at the place that the address names take the low bytes of
rd, low byte first; STD stores rd and the register after it; every other byte of memory, every register and every flag stays. -/
def Obligations.PsiLocalStores : Prop :=
  ∀ (k : Core) (s : State) (rd ra : Reg) (imm : BitVec 18) (key : Nat) (m : EccMem) (w : Nat), issues k s = true →
    let c := cpuOf s k
    let a := (getReg c ra + imm.signExtend 32).toNat
    let v := getReg c rd
    let pair : BitVec 64 := getReg c (rd + 1) ++ v
    localPlace k .store a = some (.ram key m w) → (eccAt s m w).isNone = true → (eccAt s m (w + 1)).isNone = true →
    injArmed s 0 1 (injTarget m) = false →
    let stored (n : Nat) (d : BitVec 64) (i : Instr) : Prop :=
      a % n = 0 → ∃ t, exec i s = .next t ∧ t = setCpu k (coreOn c) { s with mem := t.mem } ∧
        ∀ x, memGet t.mem x = if key ≤ x ∧ x < key + n then (d >>> (8 * (x - key))).setWidth 8 else memGet s.mem x
    stored 4 (v.setWidth 64) (.stw k rd ra imm) ∧
    stored 2 (v.setWidth 64) (.sth k rd ra imm) ∧
    stored 1 (v.setWidth 64) (.stb k rd ra imm) ∧
    (rd.val % 2 = 0 → stored 8 pair (.std k rd ra imm))

/-- R307 to R310, Table 9.16: device registers read and written by RLD and RST of a core that executes, the stall of a remote read and its
end, the supervisor's bus error after 1 ms, and FENCE. -/
def Obligations.PsiDeviceAccess : Prop :=
  ∀ (k : Core) (s : State) (rd ra : Reg) (off : BitVec 16) (r : Rg) (v : Word) (a : Nat),
    let c := cpuOf s k
    let imm : BitVec 18 := 2#2 ++ off
    ((getReg c ra + off.setWidth 32).toNat = a → a < 2 ^ 24 → a % 4 = 0 → issues k s = true →
      (readStalls k a s = false → readable (masterOf k) r a s = true → regRead (masterOf k) r s = (v, s) →
        exec (.rld k rd ra imm) s = .next (setCpu k (coreWith c rd v) (withData v s))) ∧
      (readStalls k a s = true →
        exec (.rld k rd ra imm) s = .next (setCpu k { c with st := .stallRld, stall := .rld rd a .word } s)) ∧
      (writable (masterOf k) r a (getReg c rd) s = true →
        ∃ t, exec (.rst k rd ra imm) s = .next t ∧
          SameButEvents t (withAnswer .ok (regWrite (masterOf k) r (getReg c rd) (setCpu k (coreOn c) s))))) ∧
    (c.st = .stallRld → c.stall = .rld rd a .word → clocksRun s = true → a < 2 ^ 24 → readable (masterOf k) r a s = true →
      regRead (masterOf k) r s = (v, s) → exec (.rldComplete k) s = .next (setCpu k (coreWith c rd v) (withData v s))) ∧
    (s.sup.st = .stallRld → s.sup.stall = .rld rd a .word → (tileOfAddr a).isSome = true →
      exec .rldTimeout s = .next (takeException .sup 2 (BitVec.ofNat 32 a) false s)) ∧
    (issues k s = true → fenceWaits k s = false → exec (.fence k) s = .next (setCpu k (coreOn c) s)) ∧
    (issues k s = true → fenceWaits k s = true → exec (.fence k) s = .next (setCpu k { c with st := .stallFence } s)) ∧
    (c.st = .stallFence → fenceWaits k s = false → exec (.fenceComplete k) s = .next (setCpu k (coreOn c) s))

/-- R295, Table 9.2: SRD gives rd the special register n of the core's set, and SWR gives the special register ra's value, as each register
takes it; nothing else changes. A number that the core has no register for is an illegal instruction. -/
def Obligations.PsiSpecialRegisters : Prop :=
  ∀ (k : Core) (s : State) (rd ra : Reg), issues k s = true →
    let c := cpuOf s k
    let v := getReg c ra
    let d := coreOn c
    let reads (n : BitVec 12) (x : Word) : Prop := exec (.srd k rd n) s = .next (setCpu k (coreWith c rd x) s)
    let writes (n : BitVec 12) (e : Cpu) : Prop := exec (.swr k ra n) s = .next (setCpu k e s)
    (∃ x, reads 0 x ∧ ∀ i, x.getLsbD i =
      match i with | 9 => c.ie | 8 => c.ex | 3 => c.n | 2 => c.z | 1 => c.c | 0 => c.v | _ => false) ∧
    reads 1 c.epc ∧ reads 2 (c.ecause.setWidth 32) ∧ reads 3 c.eaddr ∧ reads 4 c.estat ∧ reads 5 c.emask ∧ reads 6 (ependOf s k) ∧
    reads 7 (match k with | .sup => 0x100#32 | .weaver p => BitVec.ofNat 32 p.val) ∧
    reads 8 (match k with | .sup => BitVec.ofNat 32 (4 * (s.now - c.cycle)) | .weaver _ => BitVec.ofNat 32 ((s.now - c.cycle) / 5)) ∧
    reads 9 (match k with | .sup => c.evec | .weaver p => (s.tile (tileOf p)).evec) ∧
    (k = .sup → reads 10 c.ien) ∧
    writes 0 { d with ie := k == .sup && v.getLsbD 9, ex := v.getLsbD 8, n := v.getLsbD 3, z := v.getLsbD 2, c := v.getLsbD 1, v := v.getLsbD 0 } ∧
    writes 1 { d with epc := v } ∧ writes 2 d ∧ writes 3 d ∧ writes 4 { d with estat := v } ∧ writes 5 { d with emask := v } ∧
    writes 6 { d with epend := c.epend &&& ~~~v } ∧ writes 7 d ∧ writes 8 d ∧
    writes 9 (if k = .sup then { d with evec := v &&& 0xFFFFFC00#32 } else d) ∧
    (k = .sup → writes 10 { d with ien := v }) ∧
    (∀ n : BitVec 12, 11 ≤ n.toNat ∨ (n.toNat = 10 ∧ k ≠ .sup) →
      exec (.srd k rd n) s = .next (takeException k 1 0 false s) ∧ exec (.swr k ra n) s = .next (takeException k 1 0 false s))

/-- R329 to R331, Table 9.15: TRAP, ERET, the supervisor's interrupt and its NMI. An entry saves STATUS into ESTAT and the pc into EPC (of
the following instruction for TRAP), writes ECAUSE and EADDR, sets EX, clears IE and goes to EVEC + 16 × cause; ERET restores STATUS and
the pc. Nothing but the core changes, but for the NMI line and the state IDLE, which the NMI ends. -/
def Obligations.PsiTrapsInterruptsAndReturn : Prop :=
  ∀ (k : Core) (s : State) (n : Fin 16),
    let c := cpuOf s k
    let entry (c : Cpu) (evec : Word) (cause : Nat) (epc : Word) : Cpu :=
      { c with
        estat := statusWord c, epc := epc, ecause := BitVec.ofNat 8 cause, eaddr := 0, ex := true, ie := false, st := .running, stall := .none
        pc := evec + 16#32 * BitVec.ofNat 32 cause }
    (issues k s = true → c.ex = false → exec (.trap k n) s = .next (setCpu k (entry c (evecOf s k) (0x10 + n.val) (c.pc + 4)) s)) ∧
    (issues k s = true → c.ex = true → exec (.eret k) s =
      .next (setCpu k { c with
        ie := k == .sup && c.estat.getLsbD 9, ex := c.estat.getLsbD 8, n := c.estat.getLsbD 3, z := c.estat.getLsbD 2
        c := c.estat.getLsbD 1, v := c.estat.getLsbD 0, pc := c.epc } s)) ∧
    (supUp s = true → clocksRun s = true → s.crp.st = .run → (s.sup.st = .running ∨ s.sup.st = .ewait ∨ s.sup.st = .wait) →
      s.sup.ie = true → s.sup.ex = false → ependOf s .sup &&& s.sup.ien ≠ 0 →
      exec .interrupt s = .next { s with sup := entry s.sup s.sup.evec 0x20 s.sup.pc }) ∧
    (s.flt.nmi = true → supUp s = true → clocksRun s = true → (s.crp.st = .run ∨ s.crp.st = .idle) → s.sup.ex = false →
      exec .nmi s = .next { s with
        sup := entry s.sup s.sup.evec 0x21 s.sup.pc, flt := { s.flt with nmi := false }, crp := { s.crp with st := .run } })

/-- R311 to R314, R328 of chapter 09: EWAIT and a weaver's WAIT return the pending events of their mask at once, clearing their latched
bits, or wait; the wait ends when an event of the mask is pending; the supervisor's WAIT waits so for CRP_MODE 0 and 1 (PowerStates states the
others); SIG sets SOFT in a thread of
the same tile; WDOG reloads the core's watchdog. -/
def Obligations.PsiEventsAndWaiting : Prop :=
  ∀ (k : Core) (s : State) (rd ra : Reg) (p : PortId) (i : Fin 8),
    let c := cpuOf s k
    let mask := if ra = 0 then c.emask else getReg c ra
    let returns (rd : Reg) (w : Word) (c : Cpu) : Cpu :=
      { c with regs := regsWith c rd w, epend := c.epend &&& ~~~w, st := .running, pc := c.pc + 4 }
    let waits (st : RunState) (c : Cpu) (mask : Word) : Cpu := { c with waitRd := rd, waitMask := mask, st := st }
    let q := portOf (tileOf p) i
    let set19 (s : State) : State := setCpu (.weaver q) { cpuOf s (.weaver q) with epend := (cpuOf s (.weaver q)).epend ||| 0x80000#32 } s
    (issues k s = true → ependOf s k &&& mask ≠ 0 →
      exec (.ewait k rd ra) s = .next (setCpu k (returns rd (ependOf s k &&& mask) c) s) ∧
      (k = .weaver p ∨ fld s.crp.mode 2 0 < 2 → exec (.wait k rd ra) s = .next (setCpu k (returns rd (ependOf s k &&& mask) c) s))) ∧
    (issues k s = true → ependOf s k &&& mask = 0 →
      exec (.ewait k rd ra) s = .next (setCpu k (waits .ewait c mask) s) ∧
      (k = .weaver p → exec (.wait k rd ra) s = .next (setCpu k (waits .wait c mask) s)) ∧
      (k = .sup → fld s.crp.mode 2 0 = 0 → exec (.wait k rd ra) s = .next (setCpu k (waits .ewait c mask) s)) ∧
      (k = .sup → fld s.crp.mode 2 0 = 1 →
        exec (.wait k rd ra) s = .next { setCpu k (waits .wait c mask) s with crp := { s.crp with st := .idle } })) ∧
    (k = .weaver p → (c.st = .ewait ∨ c.st = .wait) → weaverUp s p = true → clocksRun s = true → ependOf s k &&& c.waitMask ≠ 0 →
      exec (.ewaitResume k) s = .next (setCpu k (returns c.waitRd (ependOf s k &&& c.waitMask) c) s)) ∧
    (k = .sup → (c.st = .ewait ∨ c.st = .wait) → supUp s = true → (s.crp.st = .run ∨ s.crp.st = .idle) → clocksRun s = true →
      ependOf s k &&& c.waitMask ≠ 0 →
      exec (.ewaitResume k) s =
        .next { setCpu k (returns c.waitRd (ependOf s k &&& c.waitMask) c) s with crp := { s.crp with st := .run } }) ∧
    (k = .weaver p → issues k s = true →
      exec (.sig k (BitVec.ofNat 12 i.val)) s = .next (setCpu k (coreOn (cpuOf (set19 s) k)) (set19 s))) ∧
    (k = .weaver p → issues k s = true → ∀ m : BitVec 12, 8 ≤ m.toNat → exec (.sig k m) s = .next (takeException k 1 0 false s)) ∧
    (issues k s = true → exec (.wdog k) s = .next (setCpu k { coreOn c with wdogAt := s.now } s))

/-- R315 to R317, Table 9.11: timers of a core that executes: TSET and TSETI start a count of 1 µs ticks, a count of 0 expiring at once;
TCLR stops it; TRD reads the ticks left; an expiry sets TMRn and latches a stamp, but not in the cycle in which the timer was started, and a
start or a stop in the cycle of an expiry undoes it; TSTAMP reads a stamp into a register pair. -/
def Obligations.PsiTimersAndStamps : Prop :=
  ∀ (k : Core) (s : State) (rd ra : Reg) (n : Fin 4) (count : BitVec 17) (big : Bool) (m : BitVec 12),
    let c := cpuOf s k
    let v := (getReg c ra).toNat % 2 ^ 28
    let ticks := if big then count.toNat * 1000 else count.toNat
    let imm : BitVec 18 := BitVec.ofBool big ++ count
    let timer (f : Timer → Timer) (c : Cpu) : Cpu := { c with timers := c.timers.set n (f c.timers[n]) }
    let bit : Word := BitVec.ofNat 32 (2 ^ n.val)
    let won : Cpu :=
      match c.timers[n].undo with
      | some (at_, pc, was, old) => if at_ = s.now ∧ pc = c.pc then { timer (fun t => { t with stamp := old, undo := none }) c with
          epend := if was then c.epend else c.epend &&& ~~~bit } else c
      | none => c
    let started (count : Nat) (c : Cpu) : Cpu := timer (fun t => { t with running := true, count := count, start := s.now }) c
    let expired (c : Cpu) (o : Cpu → Cpu) (i : Instr) : Prop :=
      ∃ t st, exec i s = .next t ∧ StampNow (match k with | .weaver p => some (tileOf p) | .sup => none) st s ∧
        { t with free := s.free } = setCpu k (o { timer (fun t => { t with
          running := false, stamp := some st, undo := some (s.now, c.pc, c.epend.getLsbD n.val, t.stamp) }) c with epend := c.epend ||| bit }) s
    let pair (st : Option Stamp) : Cpu :=
      let d := coreWith c rd (match st with | some x => BitVec.ofNat 32 x.sec | none => 0)
      { d with regs := regsWith d (rd + 1) (match st with | some x => BitVec.ofNat 32 ((if x.tq then 2 ^ 31 else 0) + x.ns) | none => 0x80000000#32) }
    (c.timers[n].running = true → c.timers[n].start ≠ s.now → expired c id (.timerExpire k n)) ∧
    (c.timers[n].start = s.now → exec (.timerExpire k n) s = .next s) ∧
    (issues k s = true →
      (v ≠ 0 → exec (.tset k (Fin.ofNat 16 n.val) ra) s = .next (setCpu k (coreOn (started v won)) s)) ∧
      (v = 0 → expired won coreOn (.tset k (Fin.ofNat 16 n.val) ra)) ∧
      (ticks ≠ 0 → exec (.tseti k (Fin.ofNat 16 n.val) 0 imm) s = .next (setCpu k (coreOn (started ticks won)) s)) ∧
      (ticks = 0 → expired won coreOn (.tseti k (Fin.ofNat 16 n.val) 0 imm)) ∧
      (m.toNat % 4 = n.val →
        exec (.tclr k m) s = .next (setCpu k (coreOn (timer (fun t => { t with running := false }) won)) s) ∧
        exec (.trd k rd m) s = .next (setCpu k (coreWith c rd (BitVec.ofNat 32
          (if c.timers[n].running then c.timers[n].count - (s.now - c.timers[n].start) / 125 else 0))) s)) ∧
      (rd.val % 2 = 0 → m.toNat % 8 = n.val + 1 → exec (.tstamp k rd m) s = .next (setCpu k (pair c.timers[n].stamp) s)) ∧
      (rd.val % 2 = 0 → m.toNat % 8 = 0 →
        ∃ t st, exec (.tstamp k rd m) s = .next t ∧ StampNow (match k with | .weaver p => some (tileOf p) | .sup => none) st s ∧
          { t with free := s.free } = setCpu k (pair (some st)) s) ∧
      (∀ p, k = .weaver p → rd.val % 2 = 0 →
        (m.toNat % 8 = 5 → exec (.tstamp k rd m) s = .next (setCpu k (pair ((s.port p).phy.slots.head?.map (·.stamp))) s)) ∧
        (m.toNat % 8 = 6 → exec (.tstamp k rd m) s = .next (setCpu k (pair (s.port p).phy.txStamp) s)) ∧
        (m.toNat % 8 = 7 → exec (.tstamp k rd m) s = .next (setCpu k (pair (s.port p).phy.ccStamp) s))))

/-- R318 to R322, Table 9.10, Table 9.12: EPOST, MSEND, MTRY, MRECV, MSTAT and MCLR of a core that executes, and the end of a stalled
MSEND. A full post buffer discards the record, a full mailbox stalls MSEND and turns MTRY away; the flags say so. -/
def Obligations.PsiRecordsAndMailboxes : Prop :=
  ∀ (k : Core) (s : State) (rd ra : Reg) (imm : BitVec 12) (cls : BitVec 12) (src : Nat) (b : Fin 24) (v : Word),
    let c := cpuOf s k
    let i := (getReg c ra + imm.setWidth 32).toNat % 16
    let place : PostSource := match k with | .weaver p => .tilePost (tileOf p) | .sup => .supPost
    let room : Nat := match k with | .weaver _ => 16 | .sup => 8
    let waiting := (s.posts.filter fun x => x.1 == place).length
    let rec' (st : Stamp) : Record := { cls := cls.toNat, src := src, stamp := st, payload := (getReg c ra).setWidth 30 }
    let thread : Option (Fin 8) := match k with | .weaver p => some (laneOf p) | .sup => none
    let m := s.mbx.box[b]
    let stored (v : Word) : Mailbox := { m with data := v, full := true, timedOut := false, thread := thread, budget := false }
    (issues k s = true → cls.toNat < 64 → postSource k cls.toNat = some src →
      (rd.val % 2 = 0 → rd ≠ 0 → waiting < room →
        exec (.epost k ra rd cls) s = .next (setCpu k { coreOn c with z := true } { s with
          posts := s.posts ++ [(place, rec' { sec := (getReg c rd).toNat, ns := (getReg c (rd + 1)).toNat % 2 ^ 30, tq := (getReg c (rd + 1)).msb })] })) ∧
      (waiting < room →
        ∃ t st, exec (.epost k ra 0 cls) s = .next t ∧ StampNow (match k with | .weaver p => some (tileOf p) | .sup => none) st s ∧
          { t with free := s.free } = setCpu k { coreOn c with z := true } { s with posts := s.posts ++ [(place, rec' st)] }) ∧
      (rd.val % 2 = 0 → room ≤ waiting → ∃ t, exec (.epost k ra rd cls) s = .next t ∧ t.posts = s.posts ∧
        (cpuOf t k).z = false ∧ (cpuOf t k).pc = c.pc + 4 ∧
        ∀ p, k = .weaver p → (t.tile (tileOf p)).postLost = min 0xFFFF ((s.tile (tileOf p)).postLost + 1) ∨ 0xFFFF < (s.tile (tileOf p)).postLost)) ∧
    (issues k s = true → imm.toNat < 16 → sendBox k i = some b →
      (m.full = false →
        exec (.msend k rd ra imm) s = .next (setCpu k (coreOn c) (setBox b (stored (getReg c rd)) s)) ∧
        exec (.mtry k rd ra imm) s = .next (setCpu k { coreOn c with z := true } (setBox b (stored (getReg c rd)) s))) ∧
      (m.full = true →
        exec (.msend k rd ra imm) s = .next (setCpu k { c with st := .stallSend, stall := .send b (getReg c rd) } s) ∧
        exec (.mtry k rd ra imm) s = .next (setCpu k { coreOn c with z := false } s))) ∧
    (c.st = .stallSend → c.stall = .send b v → clocksRun s = true → m.full = false →
      ((∀ p, k = .weaver p → (s.port p).tc.st = .unattached ∧ (s.port p).tc.ocDue = false ∧ (s.port p).pd.late = [] ∧ tcEn s p = true ∧
          withdrawn s p = false) →
        exec (.msendComplete k) s = .next (setCpu k (coreOn c) (setBox b (stored v) s))) ∧
      ∃ t, exec (.msendComplete k) s = .next t ∧ t.mbx.box[b] = stored v ∧ (cpuOf t k).pc = c.pc + 4 ∧ (cpuOf t k).regs = c.regs ∧
        ((cpuOf t k).st = .running ∨ (cpuOf t k).st = .stallSend ∧ ∃ p, k = .weaver p ∧ wordPends t p = true)) ∧
    (issues k s = true → imm.toNat < 16 → recvBox k i = some b →
      (wordWaits s k b = true → s.bud.up = [] → s.bud.down = [] →
        exec (.mrecv k rd ra imm) s =
          .next (setCpu k { coreWith c rd m.data with z := false, c := m.sndReset } (setBox b { m with sndReset := false, full := false, thread := none } s))) ∧
      (wordWaits s k b = false →
        exec (.mrecv k rd ra imm) s =
          .next (setCpu k { coreWith c rd 0 with z := true, c := m.sndReset } (setBox b { m with sndReset := false } s)))) ∧
    (issues k s = true → imm.toNat < 16 → (sendBox k i).isSome = true →
      (∃ t b x, exec (.mstat k rd ra imm) s = .next t ∧ (sendBox k i = some b ∨ recvBox k i = some b) ∧
        { t with free := s.free } = setCpu k (coreWith c rd x) s ∧ ∀ j, x.getLsbD j =
          match j with
          | 0 => s.mbx.box[b].full | 1 => s.mbx.box[b].timeout | 2 => s.mbx.box[b].overrun | 3 => s.mbx.box[b].rcvReset | 4 => s.mbx.box[b].sndReset
          | _ => false) ∧
      (∃ t b, exec (.mclr k rd ra imm) s = .next t ∧ (sendBox k i = some b ∨ recvBox k i = some b) ∧
        { t with free := s.free } = setCpu k (coreOn c) (setBox b { s.mbx.box[b] with
          timeout := s.mbx.box[b].timeout && !(getReg c rd).getLsbD 1, overrun := s.mbx.box[b].overrun && !(getReg c rd).getLsbD 2
          rcvReset := s.mbx.box[b].rcvReset && !(getReg c rd).getLsbD 3, sndReset := s.mbx.box[b].sndReset && !(getReg c rd).getLsbD 4 } s)))

/-- R323 to R327, Table 9.13: the PD buffer and port instructions of a weaver that executes: the current receive slot's words, the transmit
buffer, PDSEND, the release of a slot, the buffers' status, PDCFG, PCTL, PSTAT and PORTB. Nothing changes but the weaver and its port. -/
def Obligations.PsiPortInstructions : Prop :=
  ∀ (p : PortId) (s : State) (rd ra : Reg) (w : BitVec 12) (n : Fin 8) (x : Byte) (high rx : Bool),
    let k : Core := .weaver p
    let c := cpuOf s k
    let o := s.port p
    let i := w.toNat % 16
    let on (c : Cpu) (q : Port) (s : State) : State := setCpu k c (setPort p q s)
    issues k s = true →
    (∀ t rest, o.phy.slots = t :: rest →
      let bytes := (mBytes t.msg).take (mLength t.msg) ++ List.replicate 32 0
      exec (.pdrd k rd w) s = .next (setCpu k (coreWith c rd (
        if i < 8 then bytes.getD (4 * i + 3) 0 ++ bytes.getD (4 * i + 2) 0 ++ bytes.getD (4 * i + 1) 0 ++ bytes.getD (4 * i) 0
        else if i = 8 then BitVec.ofNat 32 ((if t.stamp.tq then 2 ^ 31 else 0) + t.stamp.sec % 2 ^ 30)
        else if i = 9 then BitVec.ofNat 32 (t.stamp.ns % 2 ^ 30)
        else if i = 10 then BitVec.ofNat 32 (2 ^ 31 + frameCode t.msg.frame * 2 ^ 28 + mLength t.msg)
        else 0)) s)) ∧
    (o.phy.slots = [] → i = 10 → ∃ t, exec (.pdrd k rd w) s = .next t ∧ ∃ v : Word, v.msb = false ∧
      { t with free := s.free } = setCpu k (coreWith c rd v) s) ∧
    exec (.pdwr k ra w) s = .next (on (coreOn c) { o with phy := { o.phy with
      txBuf := o.phy.txBuf.set (w.toNat % 8) (getReg c ra) (by omega) } } s) ∧
    (∀ f fr, w.toNat % 8 = f → ((f = 0 ∧ fr = Frame.sop) ∨ (f = 1 ∧ fr = .sop1) ∨ (f = 7 ∧ fr = .hardReset)) →
      (o.phy.tx = none → ∃ t m, exec (.pdsend k ⟨w, false⟩) s = .next t ∧ m.msg.frame = fr ∧
        t = on { coreOn c with z := true } { o with phy := { o.phy with tx := some m } } s) ∧
      (o.phy.tx.isSome = true ∨ rx = true → exec (.pdsend k ⟨w, rx⟩) s = .next (setCpu k { coreOn c with z := false } s))) ∧
    exec (.pdrel k) s = .next (on (coreOn c) { o with phy := { o.phy with slots := o.phy.slots.drop 1 } } s) ∧
    exec (.pdstat k rd) s = .next (on (coreWith c rd (BitVec.ofNat 32
      ((if o.phy.tx.isSome then 2 ^ 31 else 0) + o.phy.slots.length * 2 ^ 28 + o.phy.rxOvf * 2 ^ 8))) { o with phy := { o.phy with rxOvf := 0 } } s) ∧
    exec (.pdcfg k (BitVec.ofNat 12 n.val)) s = .next (on (coreOn c) { o with phy := { o.phy with
      optSop1 := n.val.testBit 0, optRev2 := n.val.testBit 1, bist := o.phy.bist || n.val.testBit 2 } } s) ∧
    (x.toNat < 4 → exec (.pctlRp k x) s = .next (on { coreOn c with z := true } { o with tc := { o.tc with
      rp := match x.toNat with | 0 => .dflt | 1 => .a15 | 2 => .a30 | _ => .none } } s)) ∧
    (x.toNat < 3 →
      exec (.pctlCcsel k x) s = .next (on { coreOn c with z := true } { o with tc := { o.tc with
        ccsel := match x.toNat with | 0 => .none | 1 => .cc1 | _ => .cc2 } } s) ∧
      exec (.pctlSbu k x) s = .next (on { coreOn c with z := true } { o with tc := { o.tc with
        sbu := match x.toNat with | 0 => .isOpen | 1 => .straight | _ => .crossed } } s)) ∧
    (x = 0 → exec (.pctlVconn k x high) s = .next (on { coreOn c with z := true } { o with tc := { o.tc with vconnOn := false } } s)) ∧
    (x = 1 → o.tc.ccsel ≠ .none → o.tc.vconnOc = false → high = false →
      exec (.pctlVconn k x high) s = .next (on { coreOn c with z := true } { o with tc := { o.tc with vconnOn := true, vconnPartner := false } } s)) ∧
    (x = 1 → (o.tc.ccsel = .none ∨ o.tc.vconnOc = true ∨ high = true) →
      exec (.pctlVconn k x high) s = .next (setCpu k { coreOn c with z := false } s)) ∧
    (x.toNat < 6 → x ≠ 4 → ∃ t, exec (.pctlState k x) s = .next t ∧ (cpuOf t k).z = true ∧ (cpuOf t k).pc = c.pc + 4 ∧ (cpuOf t k).regs = c.regs ∧
      (t.port p).tc = { o.tc with st :=
        match x.toNat with | 0 => .unattached | 1 => .attachWait | 2 => .attached | 3 => .disabled | _ => .unsupported }) ∧
    (x = 4 → ∃ t, exec (.pctlState k x) s = .next t ∧ (cpuOf t k).z = true ∧ (cpuOf t k).pc = c.pc + 4 ∧ (cpuOf t k).regs = c.regs ∧
      (t.port p).tc.st = .errorRecovery ∧ (t.port p).tc.rp = .none ∧ (t.port p).tc.vconnOn = false ∧ (t.port p).pw.keeper = 0 ∧
      (t.port p).pw.pathNow = .none ∧ tHas t p .errorRecovery = true) ∧
    (x = 1 → exec (.pctlBase k x) s = .next (on { coreOn c with z := true } { o with tc := { o.tc with baseFrozen := true } } s)) ∧
    (x = 0 → ∃ t, exec (.pctlBase k x) s = .next t ∧ (cpuOf t k).z = true ∧ (t.port p).tc.baseFrozen = false ∧ (t.port p).tc.samples = []) ∧
    exec (.pstat k rd) s = .next (setCpu k (coreWith c rd (pstat s p)) s) ∧
    exec (.portb k rd) s = .next (setCpu k (coreWith c rd (BitVec.ofNat 32 (0x100000 + 0x1000 * p.val))) s)

/-- R291, R293, R301 to R303, R315, R318, R320, R323 to R328, Table 9.15: an instruction word that the core may not execute takes the
illegal-instruction exception: reserved fields that are not 0, odd pair registers, special registers, timers, sources and mailboxes
outside the core's set, and the instructions of the other kind of core. -/
def Obligations.PsiIllegalInstructions : Prop :=
  ∀ (k : Core) (s : State) (rd ra rb : Reg) (f : Bool) (imm : BitVec 18) (i12 : BitVec 12) (off : BitVec 22) (fn : BitVec 6) (x : Byte) (h : Bool),
    issues k s = true →
    let c := cpuOf s k
    let bad (i : Instr) : Prop := exec i s = .next (takeException k 1 0 false s)
    (rd ≠ 0 → bad (.cmp k rd ra rb) ∧ bad (.tst k rd ra rb) ∧ bad (.cmpi k rd ra imm) ∧ bad (.tsti k rd ra imm)) ∧
    (rb ≠ 0 → bad (.clz k rd ra rb f) ∧ bad (.popc k rd ra rb f)) ∧
    (256 ≤ imm.toNat → bad (.shi k rd ra imm)) ∧
    (8 ≤ fn.toNat ∨ f = true → bad (.crc k rd ra rb fn f)) ∧
    (bad (.b k 15 off) ∧ bad (.bl k 15 off)) ∧
    (rd.val % 2 = 1 → bad (.ldd k rd ra imm) ∧ bad (.std k rd ra imm) ∧ bad (.tstamp k rd i12) ∧ bad (.epost k ra rd i12) ∧
      (imm.toNat / 2 ^ 16 = 3 → bad (.rld k rd ra imm) ∧ bad (.rst k rd ra imm))) ∧
    (11 ≤ i12.toNat ∨ (i12.toNat = 10 ∧ k ≠ .sup) → bad (.srd k rd i12) ∧ bad (.swr k ra i12)) ∧
    (4 ≤ rd.val → bad (.tset k rd ra) ∧ bad (.tseti k rd 0 imm)) ∧
    (ra ≠ 0 → bad (.tseti k rd ra imm)) ∧
    (64 ≤ i12.toNat ∨ postSource k i12.toNat = none → bad (.epost k ra rd i12)) ∧
    (16 ≤ i12.toNat ∨ sendBox k ((getReg c ra + i12.setWidth 32).toNat % 16) = none → bad (.msend k rd ra i12) ∧ bad (.mtry k rd ra i12)) ∧
    (16 ≤ i12.toNat ∨ recvBox k ((getReg c ra + i12.setWidth 32).toNat % 16) = none → bad (.mrecv k rd ra i12)) ∧
    (k = .sup → bad (.sig k i12) ∧ bad (.pdrd k rd i12) ∧ bad (.pdwr k ra i12) ∧ bad (.pdsend k ⟨i12, h⟩) ∧ bad (.pdrel k) ∧ bad (.pdstat k rd) ∧
      bad (.pdcfg k i12) ∧ bad (.pctlRp k x) ∧ bad (.pctlCcsel k x) ∧ bad (.pctlVconn k x h) ∧ bad (.pctlSbu k x) ∧ bad (.pctlState k x) ∧
      bad (.pctlBase k x) ∧ bad (.pstat k rd) ∧ bad (.portb k rd) ∧ (5 ≤ i12.toNat % 8 → rd.val % 2 = 0 → bad (.tstamp k rd i12))) ∧
    (k ≠ .sup → bad (.sema k rd i12) ∧ bad (.semr k rd i12) ∧
      (8 ≤ i12.toNat → bad (.sig k i12) ∧ bad (.pdcfg k i12)) ∧
      (i12.toNat % 8 ≠ 0 → i12.toNat % 8 ≠ 1 → i12.toNat % 8 ≠ 7 → bad (.pdsend k ⟨i12, h⟩)) ∧
      (4 ≤ x.toNat → bad (.pctlRp k x)) ∧ (3 ≤ x.toNat → bad (.pctlCcsel k x) ∧ bad (.pctlSbu k x)) ∧
      (2 ≤ x.toNat → bad (.pctlVconn k x h) ∧ bad (.pctlBase k x)) ∧ (6 ≤ x.toNat → bad (.pctlState k x))) ∧
    (k = .sup → (16 ≤ i12.toNat → bad (.sema k rd i12) ∧ bad (.semr k rd i12)) ∧ (rd ≠ 0 → bad (.semr k rd i12))) ∧
    (c.ex = false → bad (.eret k))

/-- R296, R299, R300, R305 to R307, R329, R330, Tables 9.5 and 9.15: bus errors and memory errors of a core that executes, a word that is no
instruction, what taking an exception does, and
what a second one does: it kills a weaver, which is reported, and a fetch that fails takes the exception in the instruction's place. -/
def Obligations.PsiExceptionEntry : Prop :=
  ∀ (k : Core) (s : State) (rd ra : Reg) (f : Bool) (imm : BitVec 18) (cause : Nat) (addr : Word) (next : Bool) (p : PortId),
    let c := cpuOf s k
    let a := getReg c ra + imm.signExtend 32
    let bus (i : Instr) : Prop := exec i s = .next (takeException k 2 a false s)
    let unassigned (op : Nat) : Prop := (10 ≤ op ∧ op ≤ 14) ∨ op = 26 ∨ op = 27 ∨ op = 30 ∨ op = 31 ∨ (35 ≤ op ∧ op ≤ 39) ∨ 47 ≤ op
    let bad (kind : LocalKind) (n : Nat) : Prop := a.toNat % n ≠ 0 ∨ localPlace k kind a.toNat = none
    (issues k s = true →
      (bad .load 4 → bus (.ldw k rd ra imm)) ∧
      (bad .load 2 → bus (.ldh k rd ra imm) ∧ bus (.ldhu k rd ra imm)) ∧
      (bad .load 1 → bus (.ldb k rd ra imm) ∧ bus (.ldbu k rd ra imm)) ∧
      (bad .load 8 → rd.val % 2 = 0 → bus (.ldd k rd ra imm)) ∧
      (bad .store 4 → bus (.stw k rd ra imm)) ∧ (bad .store 2 → bus (.sth k rd ra imm)) ∧ (bad .store 1 → bus (.stb k rd ra imm)) ∧
      (bad .store 8 → rd.val % 2 = 0 → bus (.std k rd ra imm)) ∧
      (a.toNat % 4 ≠ 0 → bus (.jlr k rd ra imm)) ∧
      (∀ key m w, c.ex = false → a.toNat % 4 = 0 → localPlace k .load a.toNat = some (.ram key m w) → eccAt s m w = some true →
        ∃ t, exec (.ldw k rd ra imm) s = .next t ∧
          t = takeException k 3 a false { s with flt := { s.flt with lines := t.flt.lines } } ∧ s.flt.lines.length < t.flt.lines.length)) ∧
    (executes s k = true → lockstepArmed s = false → (c.pc.toNat % 4 ≠ 0 ∨ localPlace k .fetch c.pc.toNat = none) →
      exec (.add k rd ra ra f) s = .next (takeException k 2 c.pc false s)) ∧
    (∀ x, executes s k = true → lockstepArmed s = false → c.pc.toNat % 4 = 0 → localPlace k .fetch c.pc.toNat = some x → cleanPlace s x = true →
      decodePsi (wordAt s x) = none → exec (.add k rd ra ra f) s = .next (takeException k 1 0 false s)) ∧
    (∀ w : Word, w = 0xFFFFFFFF#32 ∨ unassigned (w.toNat / 2 ^ 26) ∨ (w.toNat / 2 ^ 26 = 0 ∧ w.toNat / 64 % 128 ≠ 0) → decodePsi w = none) ∧
    (c.ex = false → takeException k cause addr next s = setCpu k { c with
      estat := statusWord c, epc := if next then c.pc + 4 else c.pc, ecause := BitVec.ofNat 8 cause, eaddr := addr, ex := true, ie := false
      st := .running, stall := .none, pc := evecOf s k + 16#32 * BitVec.ofNat 32 cause } s) ∧
    (k = .weaver p → c.ex = true →
      let t := takeException k cause addr next s
      (cpuOf t k).st = .dead ∧ (cpuOf t k).ecause = BitVec.ofNat 8 cause ∧
        t.flt.lines = s.flt.lines ++ [{ src := fWeaver (tileOf p), detail := BitVec.ofNat 32 ((laneOf p).val * 2 ^ 16 + 2) }])

/-- R34, R47 to R50, R53, R55, R59, R500: a word that a PSI master writes. A write that no check bars has its register's effect; a posted
one sets the BUSY flag of its domain and waits; an unmapped address, a lock, a busy domain and a narrow access set their bits of
ACC_ERR_STAT, report, and change nothing else but the capture; a misaligned access changes nothing. -/
def Obligations.RegisterWriteChecks : Prop :=
  ∀ (m : Master) (a : Addr) (v : Word) (r : Rg) (i : Fin 10) (s : State), (m = .sup ∨ ∃ t, m = .weaver t) →
    let n := a.toNat
    let w := exec (.registerWrite m a v .word) s
    let barredBy (x : Verdict) (bit : Nat) (i : Instr) : Prop :=
      ∃ t, exec i s = .next t ∧ t.acc.answer = x ∧ AccReported bit s t ∧
        { t with acc := s.acc, flt := { t.flt with lines := s.flt.lines } } = s
    (writable m r n v s = true → ∃ t, w = .next t ∧ SameButEvents t (withAnswer .ok (regWrite m r v s))) ∧
    (placeFor m true n s = .reg r → n % 4 = 0 → openAt s n = true → r.guarded = false → isLocked s r = false → barred s r v = false →
      isPosted m r n = true → busyOf n = some i →
      w = .next (withAnswer .ok { s with acc := { s.acc with busy := s.acc.busy.set i (some { addr := n, value := v, master := m }) } })) ∧
    (clocksRun s = true → n % 4 = 0 → placeFor m true n s = .none → barredBy .decode 5 (.registerWrite m a v .word)) ∧
    (clocksRun s = true → n % 4 = 0 → placeFor m true n s = .reg r → r.guarded = false → (s.acc.held.all fun h => blockOf h.addr != blockOf n) = true →
      (isLocked s r = true → barredBy .locked 2 (.registerWrite m a v .word)) ∧
      (isLocked s r = false → barred s r v = false → busyAt s (some r) n = true → barredBy .busy 4 (.registerWrite m a v .word))) ∧
    (clocksRun s = true → placeFor m true n s = .reg r → (s.acc.held.all fun h => blockOf h.addr != blockOf n) = true → barredBy .narrow 1 (.registerWrite m a v .byte)) ∧
    (clocksRun s = true → n % 4 ≠ 0 → w = .next (withAnswer .align s)) ∧
    (capHeld s.acc = false → ∀ bit (write : Bool), bit < 8 →
      let t := accErr bit m write n s
      fld t.acc.errCap 30 28 = bit ∧ bitOf t.acc.errCap 27 = write ∧ fld t.acc.errCap 23 0 = n ∧ bitOf t.acc.errCap2 3 = true)

/-- R38 to R42, Tables 2.2 and 2.3: SPI transactions: a Write of a register, a Guarded write of a guarded one, a Read that completes at once
and one that stays PENDING, Read result, Status, and what a framing failure does. -/
def Obligations.SpiTransactions : Prop :=
  ∀ (a : Addr) (v c : Word) (r : Rg) (s t' : State) (code : Byte) (bits : Nat),
    let n := a.toNat
    let after (st : Byte) (out : List Byte) (x : State) : State := { x with spi := spiAfter st out x.spi }
    let done (v : Word) (x : State) : State := withData v { x with spi := { x.spi with pending := none, lastStatus := 0, lastData := v } }
    (spiIdle s = true →
      (writable .spi r n v s = true →
        ∃ t, exec (.spiWrite a v) s = .next t ∧ SameButEvents t (withAnswer .ok (after 0 [] (regWrite .spi r v s)))) ∧
      (guardOpen .spi r n v s = true →
        ∃ t, exec (.spiGuardedWrite a v (~~~v)) s = .next t ∧ SameButEvents t (withAnswer .ok (after 0 [] (regWrite .spi r v s)))) ∧
      (guardOpen .spi r n v s = true → c ≠ ~~~v →
        ∃ t, exec (.spiGuardedWrite a v c) s = .next t ∧ t.acc.answer = .guard ∧ t.spi.status = 6 ∧ AccReported 3 s t) ∧
      (readable .spi r n s = true → r.slow = false → regRead .spi r s = (v, t') →
        ∃ t, exec (.spiRead a) s = .next t ∧ SameButEvents t (after 0 (0 :: bytesOf v) (done v t'))) ∧
      (readable .spi r n s = true → r.slow = true → (∃ x, tileOfAddr n = some x ∧ (s.tile x).ready = false) →
        ∃ t, exec (.spiRead a) s = .next t ∧ t.spi.pending = some a ∧ t.spi.status = 1 ∧ t.spi.out.head? = some 1) ∧
      exec .readResult s = .next (after s.spi.lastStatus (s.spi.lastStatus :: bytesOf s.spi.lastData) s) ∧
      exec .spiStatus s = .next (after s.spi.status [s.spi.status, s.acc.errStat.setWidth 8] s) ∧
      (spiBits code = none → ∃ t, exec (.badcmd code) s = .next t ∧ t.spi.status = 7 ∧ t.spi.badFrames = 1 ∧ AccReported 7 s t) ∧
      (∀ x, spiBits code = some x → bits ≠ x → 8 ≤ bits →
        ∃ t, exec (.frameErr code bits) s = .next t ∧ t.spi.status = 8 ∧ t.spi.badFrames = 1 ∧ AccReported 7 s t)) ∧
    (spiUp s = true → s.spi.pending = some a →
      (∃ t, exec .readResult s = .next t ∧ t.spi.status = 1 ∧ t.spi.pending = some a) ∧
      (readable .spi r n s = true → regRead .spi r s = (v, t') →
        ∃ t, exec .spiReadComplete s = .next t ∧ SameButEvents t (done v t')))

/-- R43 to R46, R51, R56, R501: wake-serial transactions: a write of four data bytes, a guarded write of eight, a read, a read that is
abandoned, an address or a byte count that is refused, an address that is not the target's, and the loss of a management path. -/
def Obligations.WakeSerialTransactions : Prop :=
  ∀ (a : Addr) (v : Word) (r : Rg) (s : State) (extra : Nat) (ws : Bool) (dev : BitVec 7) (data : List Byte),
    let n := a.toNat
    let after (k : WsNack) (out : List Byte) (x : State) : State := { x with ws := wsAfter k out x.ws }
    (dev ≠ s.crp.wsAddr →
      let silent : State := { s with ws := { s.ws with answers := false } }
      exec (.wsWrite 3 ⟨dev, a⟩ data true) s = .next silent ∧ exec (.wsGuardedWrite ⟨dev, a⟩ v (~~~v)) s = .next silent ∧
        exec (.wsRead 3 ⟨dev, a⟩ extra) s = .next silent ∧ exec (.wsReadTimeout ⟨dev, a⟩) s = .next silent) ∧
    (dev = s.crp.wsAddr → wsIdle s = true → domainUp n s = true →
      (writable .ws r n v s = true →
        ∃ t, exec (.wsWrite 3 ⟨dev, a⟩ (bytesOf v) true) s = .next t ∧
          SameButEvents { t with ws := { t.ws with badCounts := 0, lost := false } }
            (withAnswer .ok (after .none [] { regWrite .ws r v s with ws := { (regWrite .ws r v s).ws with badCounts := 0, lost := false } }))) ∧
      (guardOpen .ws r n v s = true →
        ∃ t, exec (.wsGuardedWrite ⟨dev, a⟩ v (~~~v)) s = .next t ∧
          SameButEvents { t with ws := { t.ws with badCounts := 0, lost := false } }
            (withAnswer .ok (after .none [] { regWrite .ws r v s with ws := { (regWrite .ws r v s).ws with badCounts := 0, lost := false } }))) ∧
      (readable .ws r n s = true → regRead .ws r s = (v, s) →
        ∃ t, exec (.wsRead 3 ⟨dev, a⟩ extra) s = .next t ∧ SameButEvents t (withData v (after .none (bytesOf v ++ List.replicate extra 0xFF#8) s))) ∧
      (readable .ws r n s = true → exec (.wsReadTimeout ⟨dev, a⟩) s = .next (after .addressRead [] s)) ∧
      (coreUp s = true → placeFor .ws true n s = .none →
        ∃ t, exec (.wsWrite 3 ⟨dev, a⟩ (bytesOf v) true) s = .next t ∧ t.ws.nack = .addrLow ∧ AccReported 5 s t) ∧
      (placeFor .ws true n s = .reg r → n % 4 = 0 → r.guarded = false →
        ∃ t, exec (.wsWrite 3 ⟨dev, a⟩ ((bytesOf v).drop 1) true) s = .next t ∧ t.ws.badCounts = 1 ∧ AccReported 1 s t)) ∧
    (clocksRun s = true → (if ws then s.ws.lost else s.spi.lost) = false →
      ∃ t, exec (.mgmtPathLost ws) s = .next t ∧ (if ws then t.ws.lost else t.spi.lost) = true ∧
        t.flt.lines = s.flt.lines ++ [{ src := 23, detail := if ws then 0x101#32 else 0x001#32 }])

/-- R48, R50, R54, R61, R63 to R65, R67, Table 2.13: the end of a posted write, an expired guard window, the lock register, the semaphores
for each master that has them, and the mailboxes, for the supervisor as master. -/
def Obligations.LocksSemaphoresAndMailboxes : Prop :=
  ∀ (s : State) (i : Fin 10) (w : PostedWrite) (r : Rg) (a : Addr) (h : HeldWord) (v : Word) (n : Fin 16) (b : Fin 24),
    let sem (x : Sem) : State := { s with acc := { s.acc with sems := s.acc.sems.set n x } }
    let m := s.mbx.box[b]
    (∀ k h, holderOf k = some h →
      let y := s.acc.sems[n]
      let got := regRead k (.accSem n) s
      (y.owner = none → got.1.getLsbD 0 = true ∧ got.2 = sem { owner := some h, broken := false }) ∧
      (y.owner = some h → got.1.getLsbD 0 = true ∧ got.2 = s) ∧
      (y.owner ≠ none → y.owner ≠ some h → got.1.getLsbD 0 = false ∧ got.2 = s) ∧
      (y.owner = some h → v.getLsbD 0 = false → regWrite k (.accSem n) v s = sem { y with owner := none }) ∧
      (y.owner ≠ some h → regWrite k (.accSem n) v s = s)) ∧
    (clocksRun s = true → s.acc.busy[i] = some w → (∀ t : TileId, t.val = i.val → (s.tile t).link.switching = false) → regAt w.addr = some r →
      writeRefused w.master r w.value s = false →
      ∃ t, exec (.postedWriteComplete i) s = .next t ∧
        SameButEvents t (regWrite w.master r w.value { s with acc := { s.acc with busy := s.acc.busy.set i none } })) ∧
    (s.acc.held = [h] → h.addr = a.toNat → h.refused = false →
      ∃ t, exec (.guardWindowExpire a) s = .next t ∧ t.acc.held = [{ h with refused := true }] ∧ AccReported 3 s t) ∧
    (openAt s 0x1010 = true →
      ∃ t, exec (.accLockWrite .sup v (~~~v)) s = .next t ∧
        SameButEvents t (withAnswer .ok { s with acc := { s.acc with lock := s.acc.lock ||| (v &&& 0x7FF#32) } })) ∧
    (openAt s 0x1020 = true → v.getLsbD 4 = true → v.toNat % 16 = n.val → s.acc.sems[n].owner.isSome = true →
      ∃ t, exec (.semForce .sup v (~~~v)) s = .next t ∧ SameButEvents t (withAnswer .ok
        { sem { owner := none, broken := true } with acc := { (sem { owner := none, broken := true }).acc with semForce := v &&& 0xF#32 } })) ∧
    (openAt s (0x1100 + 4 * n.val) = true →
      (s.acc.sems[n].owner = none → ∃ t, exec (.semAcquire .sup n) s = .next t ∧ SameButEvents t (withData 0x11#32 (sem { owner := some .sup, broken := false }))) ∧
      (s.acc.sems[n].owner = some .spi → ∃ t d, exec (.semAcquire .sup n) s = .next t ∧ d.getLsbD 0 = false ∧ SameButEvents t (withData d s)) ∧
      (s.acc.sems[n].owner = some .sup →
        ∃ t, exec (.semRelease .sup n) s = .next t ∧ SameButEvents t (withAnswer .ok (sem { s.acc.sems[n] with owner := none }))) ∧
      (s.acc.sems[n].owner ≠ some .sup → ∃ t, exec (.semRelease .sup n) s = .next t ∧ SameButEvents t (withAnswer .ok s))) ∧
    (openAt s (addrMbx b) = true → sendsTo .sup b = true →
      (m.full = false → ∃ t, exec (.mbxDataWrite .sup b v) s = .next t ∧
        SameButEvents t (withAnswer .ok (setBox b { m with data := v, full := true, timedOut := false, thread := none } s))) ∧
      (m.full = true → ∃ t, exec (.mbxDataWrite .sup b v) s = .next t ∧
        SameButEvents t (withAnswer .ok (setBox b { m with overrun := true } s)))) ∧
    (openAt s (addrMbx b) = true → takesFrom .sup b = true → s.bud.up = [] → s.bud.down = [] →
      (m.full = true → ∃ t, exec (.mbxDataRead .sup b) s = .next t ∧
        SameButEvents t (withData m.data (setBox b { m with full := false, thread := none } s))) ∧
      (m.full = false → ∃ t, exec (.mbxDataRead .sup b) s = .next t ∧ SameButEvents t (withData 0 s))) ∧
    (m.full = true → m.timedOut = false → ∃ t d, exec (.mbxTimeout b) s = .next t ∧
      t = { setBox b { m with timeout := true, timedOut := true } s with flt := { s.flt with lines := s.flt.lines ++ [{ src := 1, detail := d }] } })

/-- R34, Table 0.6 (RC): the counters that a read returns and clears, read by the supervisor: TTC_PDROP_CNT, TTC_TTp_CNT, CRL_NOROUTE,
CRL_Qq_DROP, PORT_PD_CNT, BUD_CNT, TILE_CNT and CRP_PS_REFUSE. -/
def Obligations.CounterReadsClear : Prop :=
  ∀ (s : State) (p : PortId) (q : QueueId) (t₀ : TileId), s.acc.held = [] → clocksRun s = true →
    let reads (i : Instr) (v : Word) (x : State) : Prop := ∃ t, exec i s = .next t ∧ SameButEvents t (withData v x)
    let port := s.port p
    reads (.ttcPdropCntRead .sup) s.ttc.pdrop { s with ttc := { s.ttc with pdrop := 0 } } ∧
    reads (.ttcTtCntRead .sup p) (ttCnt s p) { s with tts := s.tts.set p { s.tt p with busErr := 0, npNak := 0 } } ∧
    reads (.crlNorouteCntRead .sup) s.crl.noroute { s with crl := { s.crl with noroute := 0 } } ∧
    reads (.crlQDropRead .sup q) (s.queue q).drop { s with queues := s.queues.set q { s.queue q with drop := 0 } } ∧
    ((s.tile (tileOf p)).link.isolated = false → laneSwitching s (tileOf p) laneControl = false →
      reads (.portPdCntRead .sup p) (portPdCnt s p) (setPort p { port with pd := { port.pd with hardResets := 0, softResets := 0, txFail := 0, rxCrc := 0 } } s)) ∧
    reads (.budCntRead .sup) (BitVec.ofNat 32 (s.bud.cntWaits * 2 ^ 16 + s.bud.cntReduced)) { s with bud := { s.bud with cntWaits := 0, cntReduced := 0 } } ∧
    ((s.tile t₀).link.isolated = false → laneSwitching s t₀ laneControl = false →
      reads (.tileCntRead .sup t₀) (BitVec.ofNat 32 ((s.tile t₀).postLost * 2 ^ 16 + (s.tile t₀).restarts))
        { s with tiles := s.tiles.set t₀ { s.tile t₀ with postLost := 0, restarts := 0 } }) ∧
    reads (.crpPsRefuseRead .sup) (BitVec.ofNat 32 (s.crp.refused * 2 ^ 16 + s.crp.refuser * 2 ^ 8 + s.crp.refIndex))
      { s with crp := { s.crp with refused := 0, refuser := 0, refIndex := 0 } }

/-- R73 to R77, R96 to R101, R104, Table 3.2: the upstream side of a team: Uu_VBUS, attach and detach, enable and disable, bus reset,
suspend, resume, remote wake and LPM. Nothing but the team changes where nothing but the team is concerned. -/
def Obligations.TeamUpstream : Prop :=
  ∀ (u : TeamId) (p : PortId) (s : State) (v : Word) (chirp wake : Bool) (besl : Fin 16),
    let x := s.team u
    let goes (i : Instr) (P : State → Prop) : Prop := ∃ t, exec i s = .next t ∧ P t
    let only (i : Instr) (y : Team) : Prop := goes i fun t => OnlyTeam u s t ∧ t.team u = y
    let free : Bool := unlocked s 4 && openAt s (0x8000 + 0x800 * u.val)
    let leaves (t : State) : Prop := (t.team u).drivingK = false ∧ (t.team u).l1Wake = false ∧ (t.team u).addr = x.addr ∧
      ∀ q, t.port q = if servedBy s q = some u then { s.port q with hub := { (s.port q).hub with k := false } } else s.port q
    only (.uuVbusValid u) { x with vbusOk := true } ∧
    (clocksRun s = true → teamEn s u = true → x.vbusOk = true → x.st = .detached →
      goes (.teamAttach u) fun t => OnlyTeam u s t ∧ (t.team u).st = .attached ∧ (t.team u).pullUp = true ∧ (t.team u).speed = some .full ∧
        ∃ r, t.posts = s.posts ++ [(.hub, r)] ∧ r.cls = 0x0D ∧ r.src = 0x40 + u.val) ∧
    (coreUp s = true → x.pullUp = true → goes (.teamDetach u) fun t => (t.team u).st = .detached ∧ (t.team u).pullUp = false ∧ (t.team u).vbusOk = false ∧
      (t.team u).addr = 0 ∧ (t.team u).power = Vector.replicate 65 false) ∧
    (x.pullUp = false → only (.teamDetach u) { x with vbusOk := false }) ∧
    (coreUp s = false → x.pullUp = true → only (.teamDetach u) { x with vbusOk := false, pullUp := false }) ∧
    (free = true → x.ctl.getLsbD 0 = false → v.getLsbD 0 = true →
      goes (.teamEnable .sup u v) fun t => SameButEvents t (withAnswer .ok { s with teams := s.teams.set u { x with
        ctl := v &&& 0xF1#32, fsOnly := v.getLsbD 7, lpmEn := v.getLsbD 6, rdEn := v.getLsbD 4 } })) ∧
    (free = true → x.ctl.getLsbD 0 = true → v.getLsbD 0 = false →
      goes (.teamDisable .sup u v) fun t => (t.team u).ctl = v &&& 0xF1#32 ∧ (t.team u).st = .detached ∧ (t.team u).pullUp = false ∧
        (t.team u).power = Vector.replicate 65 false ∧ t.acc.answer = .ok) ∧
    (clocksRun s = true → x.pullUp = true → goes (.busReset u chirp) fun t => (t.team u).st = .default ∧ (t.team u).addr = 0 ∧ (t.team u).rwakeEn = false ∧
      (t.team u).multiTt = false ∧ (t.team u).speed = some (if chirp && !x.fsOnly then .high else .full) ∧
      (t.team u).power = Vector.replicate 65 false ∧ ∀ q, servedBy s q = some u → (t.port q).hub.enable = false ∧ (t.port q).hub.test = none) ∧
    (clocksRun s = true → (awake s u = true ∨ x.st = .attached) → goes (.teamSuspend u) fun t => (t.team u).st = .suspended ∧ (t.team u).under = x.st ∧
      (t.team u).drivingK = stationCalls s u ∧ (stationCalls s u = false → OnlyTeam u s t)) ∧
    (clocksRun s = true → x.st = .suspended → goes (.hostResume u) fun t => (t.team u).st = x.under ∧ (t.team u).drivingK = false ∧ (t.team u).wakePorts = [] ∧
      (x.stationWoke = true → (t.team u).station.suspended = false ∧ (x.station.suspended = true → (wPortChange t u 65).getLsbD 2 = true)) ∧
      ∀ q ∈ x.wakePorts, (t.port q).hub.suspend = false ∧
        ((s.port q).hub.suspend = true → servedBy s q = some u → (wPortChange t u (q.val + 1)).getLsbD 2 = true)) ∧
    (clocksRun s = true → servedBy s p = some u → (s.port p).hub.enable = true →
      (x.st = .suspended → x.rwakeEn = true → goes (.remoteWakeK p) fun t => (t.team u).drivingK = true ∧ p ∈ (t.team u).wakePorts ∧
        (t.team u).st = .suspended ∧ ∀ q, servedBy s q = some u → (t.port q).hub.k = ((s.port q).hub.enable && !(s.port q).hub.suspend)) ∧
      (awake s u = true → (s.port p).hub.l1 = true → (s.port p).hub.l1Resuming = false →
        goes (.remoteWakeK p) fun t => (t.port p).hub.l1 = false ∧ (wPortChange t u (p.val + 1)).getLsbD 5 = true) ∧
      (awake s u = true → (s.port p).hub.l1 = false → (s.port p).hub.suspend = true → (s.port p).hub.resuming = false →
        goes (.remoteWakeK p) fun t =>
          SameButEvents t (setPort p { s.port p with hub := { (s.port p).hub with resuming := true, devResume := true } } s))) ∧
    (clocksRun s = true → x.drivingK = true → x.st ≠ .l1 → only (.remoteWakeDriveEnd u) { x with drivingK := false }) ∧
    (clocksRun s = true → x.drivingK = true → x.st = .l1 → goes (.remoteWakeDriveEnd u) fun t => (t.team u).st = x.under ∧ leaves t) ∧
    (awake s u = true →
      (x.lpmEn = true → 2 ≤ besl.val → l1Busy s u = false → goes (.lpmToken u true besl wake) fun t => OnlyTeam u s t ∧
        (t.team u).answer = .ack ∧ (t.team u).st = .l1 ∧ (t.team u).under = x.st ∧ (t.team u).l1Wake = wake) ∧
      (x.lpmEn = true → (besl.val < 2 ∨ l1Busy s u = true) → goes (.lpmToken u true besl wake) fun t => OnlyTeam u s t ∧
        (t.team u).answer = .nyet ∧ (t.team u).st = x.st) ∧
      (x.lpmEn = false → goes (.lpmToken u true besl wake) fun t => OnlyTeam u s t ∧ (t.team u).answer = .stall ∧ (t.team u).st = x.st)) ∧
    (clocksRun s = true → x.st = .l1 → goes (.l1Exit u) fun t => (t.team u).st = x.under ∧ leaves t)

/-- R78, R79, R85, R91 to R94, R284, Tables 3.3 and 3.12: standard requests to a hub that is awake, its status-change endpoint, and the vendor
requests and endpoints of a station function that its host can reach. -/
def Obligations.TeamRequestsAndEndpoints : Prop :=
  ∀ (u : TeamId) (s : State) (v : Word) (mask val : BitVec 16) (len alt cfg : Nat) (addr : BitVec 7) (on : Bool) (b : Byte),
    let x := s.team u
    let goes (i : Instr) (P : Team → Prop) : Prop := ∃ t, exec i s = .next t ∧ OnlyTeam u s t ∧ P (t.team u)
    let others : BitVec 16 := ((List.finRange 4).filter (· ≠ u)).foldl (fun (m : BitVec 16) w => m ||| (s.team w).qmask) 0
    let high : Bool := x.speed == some .high
    let device : List Byte := [0x12, 0x01, if x.lpmEn then 0x10 else 0x00, 0x02, 0x09, 0x00, if high then 0x02 else 0x00, 0x40, 0xC7, 0x31,
      BitVec.ofNat 8 u.val, 0x64, 0x01, 0x0B, 0x01, 0x02, 0x03, 0x01]
    (awake s u = true →
      goes (.getDescriptor u .hub .device len) (fun y => y.answer = .control (device.take len)) ∧
      (x.lpmEn = false → goes (.getDescriptor u .hub .bos len) (fun y => y.answer = .stall)) ∧
      (x.st = .configured → (alt = 0 ∨ (alt = 1 ∧ high = true)) →
        goes (.setInterface u alt) (fun y => y.answer = .control [] ∧ y.multiTt = (alt == 1))) ∧
      (x.st ≠ .configured ∨ 1 < alt ∨ (alt = 1 ∧ high = false) → goes (.setInterface u alt) (fun y => y.answer = .stall ∧ y.multiTt = x.multiTt)) ∧
      (x.st ≠ .configured → goes (.setAddress u .hub addr) (fun y => y.answer = .control [] ∧ y.addr = addr.toNat ∧
        y.st = if addr = 0 then .default else .address)) ∧
      (x.st ≠ .default → cfg ≤ 1 → goes (.setConfiguration u .hub cfg) (fun y => y.answer = .control [] ∧
        y.st = (if cfg = 0 then .address else .configured) ∧ y.multiTt = false)) ∧
      (x.st = .default ∨ 1 < cfg → goes (.setConfiguration u .hub cfg) (fun y => y.answer = .stall ∧ y.st = x.st)) ∧
      goes (.deviceRemoteWakeup u .hub on) (fun y => y.answer = .control [] ∧ y.rwakeEn = on) ∧
      (x.st = .configured → (∃ n, 1 ≤ n ∧ n ≤ 65 ∧ wPortChange s u n ≠ 0) →
        goes (.statusChangeIn u) (fun y => ∃ b bytes, y.answer = .data b bytes ∧ bytes.length = 9 ∧ (ofBytes bytes).testBit 0 = false ∧
          ∀ n, 1 ≤ n → n ≤ 65 → (ofBytes bytes).testBit n = (wPortChange s u n != 0))) ∧
      (x.st = .configured → (∀ n, 1 ≤ n → n ≤ 65 → wPortChange s u n = 0) → goes (.statusChangeIn u) (fun y => y.answer = .nak))) ∧
    (stationUp s u = true →
      goes (.setAddress u .station addr) (fun y => y.answer = .control [] ∧ y.station.addr = addr.toNat) ∧
      goes (.deviceRemoteWakeup u .station on) (fun y => y.answer = .control [] ∧ y.station.rwake = on)) ∧
    (stationRuns s u = true →
      goes (.getInfo ⟨u, 1, 0, 16⟩) (fun y => ∃ bytes, y.answer = .control bytes ∧ bytes.length = 16 ∧ bytes.take 4 = toBytes 4 0x00641B01 ∧
        bytes.getD 4 0 = BitVec.ofNat 8 u.val ∧ (bytes.drop 6).take 2 = toBytes 2 x.qmask.toNat ∧
        (bytes.drop 8).take 4 = toBytes 4 (teamPorts s u 0).toNat ∧ bytes.drop 12 = toBytes 4 (teamPorts s u 1).toNat) ∧
      (b ≠ 1 ∨ val ≠ 0 → goes (.getInfo ⟨u, b, val, len⟩) (fun y => y.answer = .stall)) ∧
      (b ≠ 2 → goes (.setQueues u ⟨b, mask⟩) (fun y => y.answer = .stall ∧ y.qmask = x.qmask)) ∧
      goes (.setQueues u ⟨2, mask⟩) (fun y => y.qmask = mask &&& ~~~others ∧ y.answer = if mask &&& others = 0 then .control [] else .stall) ∧
      (x.corr.unsent = 0 → goes (.correlationEndpointIn u) (fun y => y.answer = .nak)) ∧
      (0 < x.corr.unsent → goes (.correlationEndpointIn u) (fun y => y.corr.unsent = x.corr.unsent - min 2 x.corr.unsent ∧
        ∃ b bytes, y.answer = .data b bytes ∧ bytes.length = 16 * min 2 x.corr.unsent)) ∧
      (x.evBuf ≠ [] → goes (.eventEndpointIn ⟨u, on⟩) (fun y => (∃ b, y.answer = .data b x.evBuf) ∧ y.evBuf = if on then [] else x.evBuf)) ∧
      (x.evBuf = [] → (∀ q, qOwner s q = some u → listEmpty s q = true) → goes (.eventEndpointIn ⟨u, on⟩) (fun y => y.answer = .nak)) ∧
      (x.evBuf = [] → s.ecc = [] → bitOf s.flt.inj 31 = false → (∃ q, qOwner s q = some u ∧ listEmpty s q = false ∧ checkFails s q = false) →
        (∀ q, qOwner s q = some u → checkFails s q = false) →
        ∃ t b bytes, exec (.eventEndpointIn ⟨u, on⟩) s = .next t ∧ (t.team u).answer = .data b bytes ∧ bytes ≠ [] ∧
          (t.team u).evBuf = if on then [] else bytes)) ∧
    (openAt s (0x800C + 0x800 * u.val) = true →
      let y : State := { s with teams := s.teams.set u { x with qmask := v.setWidth 16 &&& ~~~others } }
      ∃ t, exec (.teamQmaskWrite .sup u v) s = .next t ∧ t.acc.answer = .ok ∧ (t.team u).qmask = v.setWidth 16 &&& ~~~others ∧
        (stationCalls y u = false → SameButEvents t (withAnswer .ok y)) ∧
        (stationCalls y u = true → x.st = .suspended → x.stationWoke = false → (t.team u).stationWoke = true))

/-- R80, R81, R141 to R143, Tables 3.5 and 3.7: hub class requests of a team whose hub firmware answers: descriptors and status are returned,
unsupported requests and ports outside 1 to 65 are answered STALL, and the TT requests reach the port's TT. -/
def Obligations.HubClassRequests : Prop :=
  ∀ (u : TeamId) (p : PortId) (s : State) (port len sel dev ep : Nat) (b : Byte) (ty : XferType) (dirIn : Bool),
    let goes (i : Instr) (P : Team → Prop) : Prop := ∃ t, exec i s = .next t ∧ OnlyTeam u s t ∧ P (t.team u)
    let replies (i : Instr) (a : UsbAnswer) : Prop := goes i fun y => y.answer = a
    let h := hubPortOf p
    classUp s u = true →
    (sel < 2 → replies (.clearHubFeature u sel) (.control [])) ∧ (2 ≤ sel → replies (.clearHubFeature u sel) .stall) ∧
    replies (.getBusState u) .stall ∧ replies (.setHubDescriptor u) .stall ∧ replies (.setHubFeature u sel) .stall ∧
    replies (.hubRequestUnsupported u b) .stall ∧
    replies (.getHubDescriptor u len) (.control ((
      ([0x19, 0x29, 0x41, 0x0D, 0x00, 0x32, 0x00] : List Byte) ++ List.replicate 8 0 ++ [0x02] ++ List.replicate 9 0xFF).take len)) ∧
    replies (.getHubStatus u) (.control [0, 0, 0, 0]) ∧
    (1 ≤ port → port ≤ 65 →
      replies (.getPortStatus u port) (.control (toBytes 2 (wPortStatus s u port).toNat ++ toBytes 2 (wPortChange s u port).toNat))) ∧
    (port = 0 ∨ 65 < port → replies (.getPortStatus u port) .stall ∧ replies (.getTtState u port) .stall ∧ replies (.resetTt u port) .stall ∧
      replies (.stopTt u port) .stall ∧ replies (.clearTtBuffer u port dev ep ty dirIn) .stall) ∧
    (servedBy s p = some u →
      let y := s.tt p
      (∃ t, exec (.getTtState u h) s = .next t ∧ ∃ n, (t.team u).answer = .control (toBytes 4 n) ∧ n < 8 ∧ n.testBit 0 = y.stopped ∧
        n.testBit 1 = (y.ctxs.any fun c => c.periodic) ∧ n.testBit 2 = (y.ctxs.any fun c => !c.periodic)) ∧
      (y.resetting = false → ∃ t, exec (.resetTt u h) s = .next t ∧ (t.team u).answer = .nak ∧ (t.tt p).resetting = true ∧
        (t.tt p).stopped = false ∧ ∀ c ∈ (t.tt p).ctxs, ∀ x ∈ c.txns, x.phase ≠ .waiting ∧ x.phase ≠ .ready) ∧
      (y.resetting = false → busBusy s p = false → y.stopNext = false → ∃ t, exec (.stopTt u h) s = .next t ∧ (t.team u).answer = .control [] ∧
        (t.tt p).stopped = true ∧ (t.tt p).ctxs = y.ctxs) ∧
      (busBusy s p = true → ∃ t, exec (.stopTt u h) s = .next t ∧ (t.team u).answer = .nak ∧ (t.tt p).stopNext = true ∧
        (t.tt p).statusPending = true ∧ (t.tt p).stopped = y.stopped) ∧
      ((s.team u).multiTt = true → busBusy s p = false → y.statusPending = false →
        ∃ t, exec (.clearTtBuffer u h dev ep ty dirIn) s = .next t ∧ (t.team u).answer = .control [] ∧
          (t.tt p).ctxs = y.ctxs.filter fun c => !(!c.periodic && c.txns.any fun x => x.dev == dev && x.ep == ep && x.ty == ty)))

/-- R82 to R84, R86, R97, R102, R103, Tables 3.8 and 3.11: port features: enable, suspend, resume, reset, power, L1, test and the change
bits, on a port that the team serves. -/
def Obligations.HubPortFeatures : Prop :=
  ∀ (u : TeamId) (p : PortId) (s : State) (sp : Speed) (mode : TestMode) (c : ChangeBit) (besl : Fin 16) (wake : Bool) (dev : Nat) (a2 a3 : LpmAnswer),
    let h := (s.port p).hub
    let n := hubPortOf p
    let goes (i : Instr) (P : State → Prop) : Prop := ∃ t, exec i s = .next t ∧ P t
    let acks (i : Instr) (P : State → Prop) : Prop := goes i fun t => (t.team u).answer = .control [] ∧ P t
    let chg (t : State) : BitVec 16 := wPortChange t u n
    servedBy s p = some u →
    (classUp s u = true →
      acks (.clearPortEnable u n) (fun t => (t.port p).hub.enable = false) ∧
      acks (.setPortSuspend u n) (fun t => (t.port p).hub = { h with suspend := h.suspend || h.enable, lingers := h.lingers || (h.enable && !h.suspend) }) ∧
      acks (.clearPortSuspend u n) (fun t => (t.port p).hub = { h with resuming := h.suspend, devResume := false }) ∧
      (h.conn = true → acks (.setPortReset u n) (fun t => (t.port p).hub =
        { h with reset := true, suspend := false, lingers := false, resuming := false, devResume := false, l1 := false, l1Resuming := false })) ∧
      (h.conn = false → acks (.setPortReset u n) (fun t => (t.port p).hub = h)) ∧
      acks (.clearPortL1 u n) (fun t => (t.port p).hub = { h with l1Resuming := h.l1 }) ∧
      acks (.setPortPower u n) (fun t => hubPower t u n = true) ∧
      (goes (.clearPortPower u n) fun t => hubPower t u n = false ∧ (t.port p).hub.conn = false ∧
        (t.team u).answer = (if pwrSw s u && (t.port p).pw.discharge then .nak else .control []) ∧
        (pwrSw s u = true → (t.port p).tc.rp = .none ∧ ((s.port p).tc.st = .attached → (t.port p).pw.keeper = 0 ∧ (t.port p).pw.pathNow = .none))) ∧
      (othersIdle s u n = true → acks (.setPortTest u n mode) (fun t => (t.port p).hub = { h with test := some mode })) ∧
      (othersIdle s u n = false → goes (.setPortTest u n mode) fun t => (t.team u).answer = .stall ∧ (t.port p).hub = h) ∧
      acks (.clearPortChange u n c) (fun t => chg t = chg s &&& ~~~(
        match c with | .connection => 1 | .enable => 2 | .suspend => 4 | .overCurrent => 8 | .reset => 16 | .l1 => 32)) ∧
      (h.enable = true → h.lowSpeed = false → goes (.setAndTestPortL1 u n besl wake dev .ack a2 a3) fun t =>
        (t.team u).answer = .control [0] ∧ (t.port p).hub = { h with l1 := true, l1Besl := besl.val, l1Wake := wake }) ∧
      (h.enable = true → h.lowSpeed = true → goes (.setAndTestPortL1 u n besl wake dev .ack a2 a3) fun t =>
        (t.team u).answer = .control [2] ∧ (t.port p).hub = h) ∧
      (h.enable = false → goes (.setAndTestPortL1 u n besl wake dev .ack a2 a3) fun t => (t.team u).answer = .control [3] ∧ (t.port p).hub = h)) ∧
    (clocksRun s = true → h.resuming = true → h.suspend = true → goes (.portResumeComplete p) fun t =>
      (t.port p).hub = { h with suspend := false, lingers := false, resuming := false, devResume := false } ∧ chg t = chg s ||| 4) ∧
    (clocksRun s = true → h.reset = true → h.conn = true → h.oc = false → (s.tile (tileOf p)).link.second = none → goes (.portResetComplete p sp) fun t =>
      (t.port p).hub.enable = true ∧ (t.port p).hub.reset = false ∧ (t.port p).hub.lowSpeed = (sp == .low) ∧
        (t.port p).hub.highSpeed = (sp == .high && (s.team u).speed == some .high) ∧ chg t = chg s ||| 16) ∧
    (clocksRun s = true → h.l1Resuming = true → goes (.l1ResumeEnd p) fun t => (t.port p).hub = { h with l1 := false, l1Resuming := false } ∧ chg t = chg s)

/-- R84, R89, R107, R109 to R113, 01 R17, Tables 3.9, 3.20 and 3.21: devices on a port, babble, the packets of the repeat path, and the move
of a port from its team to another: t0, t1 and t2. -/
def Obligations.DevicesAndPortMoves : Prop :=
  ∀ (u : TeamId) (p : PortId) (s : State) (sp : Speed) (tgt : Fin 5),
    let h := (s.port p).hub
    let goes (i : Instr) (P : State → Prop) : Prop := ∃ t, exec i s = .next t ∧ P t
    let v : Word := BitVec.ofNat 32 (0x100 + tgt.val)
    goes (.deviceConnect p sp) (fun t => (t.port p).hub.dev = some sp ∧ (clocksRun s = true → (t.port p).hub.conn = connected t p)) ∧
    goes (.deviceDisconnect p) (fun t => (t.port p).hub.dev = none ∧
      (clocksRun s = true → (t.port p).hub.conn = false ∧ (h.conn = true → (t.port p).hub.enable = false))) ∧
    (clocksRun s = true → servedBy s p = some u → h.enable = true → goes (.portBabble p) fun t =>
      (t.port p).hub.enable = false ∧ wPortChange t u (hubPortOf p) = wPortChange s u (hubPortOf p) ||| 2) ∧
    (clocksRun s = true → (s.tt p).retiring = true → goes (.portContextFree p) fun t => (t.tt p).ctxs = [] ∧ (t.tt p).retiring = false) ∧
    (awake s u = true → goes (.repeatPathPacket u none sp) fun t =>
      (∀ q, q ∈ (t.team u).sentDown ↔ repeatReaches s u sp q = true ∧ laneSwitching s (tileOf q) (laneDown u) = false) ∧
      ∀ q, (t.port q).hub.phy.samples = (s.port q).hub.phy.samples + (if sp = .high ∧ laneReaches s u q then 1 else 0)) ∧
    (awake s u = true → repeatReaches s u sp p = true → laneSwitching s (tileOf p) (laneUp u) = false →
      goes (.repeatPathPacket u (some p) sp) fun t => (t.team u).sentUp = some p ∧
        (t.team u).phy.samples = (s.team u).phy.samples + (if sp = .high then 1 else 0) ∧ t.ports = s.ports) ∧
    (awake s u = true → laneSwitching s (tileOf p) (laneUp u) = true → exec (.repeatPathPacket u (some p) sp) s = .next s) ∧
    (unlocked s 9 = true → openAt s (0x100000 + 0x1000 * p.val) = true → (s.tile (tileOf p)).link.isolated = false →
      (h.mstate = 0 → goes (.portMove .sup p v (~~~v)) fun t => t.acc.answer = .ok ∧ (t.port p).hub.owner = tgt.val ∧
        (t.port p).hub.oldOwner = h.owner ∧ (t.port p).hub.mstate = 1 ∧ (t.port p).hub.conn = false ∧ (t.port p).hub.enable = false ∧
        (t.tt p).retiring = true ∧ servedBy t p = none) ∧
      (h.mstate ≠ 0 → goes (.portMove .sup p v (~~~v)) fun t => t.acc.answer = .ok ∧ (t.port p).hub = { h with refused := true })) ∧
    (clocksRun s = true → h.mstate = 1 → h.owner < 4 → goes (.moveRetireEnd p) fun t =>
      (t.port p).hub = { h with mstate := 2 } ∧ (t.tt p).ctxs = [] ∧ servedBy t p = none) ∧
    (clocksRun s = true → h.mstate = 1 → 4 ≤ h.owner → goes (.moveRetireEnd p) fun t => (t.port p).hub.mstate = 0 ∧ (t.tt p).ctxs = [] ∧ servedBy t p = none) ∧
    (clocksRun s = true → h.mstate = 2 → h.owner = u.val → goes (.moveGapExpire p) fun t => (t.port p).hub.mstate = 0 ∧ servedBy t p = some u ∧
      wPortChange t u (hubPortOf p) &&& h.moveChange = h.moveChange)

/-- R114 to R116, R118 to R123, R128, R132, R133, R137, Tables 4.2, 4.3, 4.9 and 4.11: the start-of-frame count of a team, its markers, and the
start-splits and complete-splits of its transaction translators. -/
def Obligations.SplitTransactions : Prop :=
  ∀ (u : TeamId) (p : PortId) (t₀ : TileId) (s : State) (port dev ep frame : Nat) (ty : XferType) (low dirIn setup : Bool) (data : List Byte) (sh : Bool),
    let x := s.team u
    let y := s.tt p
    let goes (i : Instr) (P : State → Prop) : Prop := ∃ t, exec i s = .next t ∧ P t
    let errs (t : State) (bit : Nat) : Prop := t.ttc.err = s.ttc.err ||| BitVec.ofNat 32 (2 ^ bit)
    let per : Bool := ty == .iso || ty == .intr
    (awake s u = true → x.speed = some .high →
      goes (.ufpSof u frame) (fun t => (t.team u).count = x.count + 1 ∧ (t.team u).frame = frame % 2048 ∧ (t.team u).counting = true ∧
        (t.team u).uframe = (if x.frame = frame % 2048 then (x.uframe + 1) % 8 else 0)) ∧
      (x.counting = false → exec (.microframeTimeout u) s = .next s) ∧
      (x.counting = true → goes (.microframeTimeout u) fun t => { t with ports := s.ports } = { s with teams := s.teams.set u { x with
          count := x.count + 1, uframe := (x.uframe + 1) % 8, frame := if x.uframe = 7 then (x.frame + 1) % 2048 else x.frame } } ∧
        ∀ q, t.port q = if servedBy s q = some u then { s.port q with hub := { (s.port q).hub with lingers := false } } else s.port q)) ∧
    (awake s u = true → x.speed = some .full →
      goes (.ufpSof u frame) (fun t => (t.team u).count = x.count ∧ (t.team u).frame = frame % 2048 ∧ (t.team u).uframe = 0)) ∧
    (laneSwitching s t₀ laneControl = true → exec (.microframeMarker t₀ u) s = .next s) ∧
    (laneSwitching s t₀ laneControl = false → goes (.microframeMarker t₀ u) fun t =>
      { t with ports := s.ports } = { s with tiles := s.tiles.set t₀ { s.tile t₀ with micro := (s.tile t₀).micro.set u x.count } } ∧
      ∀ q, (t.port q).hub.frameMark =
        if x.uframe = 0 ∧ awake s u = true ∧ x.speed = some .high ∧ tileOf q = t₀ ∧ standing s q = true ∧ onPath s u q = true then some x.frame
        else (s.port q).hub.frameMark) ∧
    (splitPort s u port = some p →
      (speedAgrees s p low ty = true → ttOpen s p = true → per = true → (∀ c ∈ y.ctxs, c.periodic = true → c.y ≠ x.count + 1) →
        (grantCtx s p true = some sh → goes (.startSplitPeriodic u port dev ep true ty low .whole data) fun t =>
          ∃ c z, (t.tt p).ctxs = y.ctxs ++ [c] ∧ c.periodic = true ∧ c.shared = sh ∧ c.y = x.count + 1 ∧ c.txns = [z] ∧
            z.dev = dev ∧ z.ep = ep ∧ z.dirIn = true ∧ z.ty = ty ∧ z.phase = .waiting ∧ (t.team u).answer = .none) ∧
        (grantCtx s p true = some sh → (data.length + 7) / 8 ≤ ringFree s p → goes (.startSplitPeriodic u port dev ep false ty low .whole data) fun t =>
          ∃ c z, (t.tt p).ctxs = y.ctxs ++ [c] ∧ c.txns = [z] ∧ z.dirIn = false ∧ z.len = data.length ∧ readUnits t z.units 0 z.len = data) ∧
        (grantCtx s p true = none → goes (.startSplitPeriodic u port dev ep true ty low .whole data) fun t =>
          (t.tt p).ctxs = y.ctxs ∧ t.ttc.pdrop = BitVec.ofNat 32 (min 0xFFFFFFFF (s.ttc.pdrop.toNat + 1)) ∧ errs t 3)) ∧
      (speedAgrees s p low ty = false ∨ per = false → goes (.startSplitPeriodic u port dev ep dirIn ty low .whole data) fun t =>
        t.tts = s.tts ∧ errs t 1) ∧
      (speedAgrees s p low ty = true → ttOpen s p = true → per = false → (∀ c ∈ y.ctxs, c.periodic = true ∨ ∀ z ∈ c.txns, sameEp z dev ep dirIn = false) →
        (grantCtx s p false = some sh → goes (.startSplitNonperiodic u port dev ep dirIn setup ty low true data) fun t =>
          (t.team u).answer = .ack ∧ ∃ c z, (t.tt p).ctxs = y.ctxs ++ [c] ∧ c.periodic = false ∧ c.shared = sh ∧ c.txns = [z] ∧
            z.dev = dev ∧ z.ep = ep ∧ z.dirIn = dirIn ∧ z.setup = setup ∧ z.ty = ty ∧ z.phase = .waiting) ∧
        (grantCtx s p false = none → goes (.startSplitNonperiodic u port dev ep dirIn setup ty low true data) fun t =>
          (t.team u).answer = .nak ∧ (t.tt p).ctxs = y.ctxs ∧ t.ttc.npNak = s.ttc.npNak + 1))) ∧
    (awake s u = true → x.speed = some .high → csPort s u port = some p → s.ecc = [] →
      (∀ c z cs zs, y.ctxs = c :: cs → c.txns = z :: zs → sameEp z dev ep dirIn = true → z.ty = ty →
        (z.phase = .waiting ∨ z.phase = .ready → goes (.completeSplit u port dev ep dirIn ty) fun t => (t.team u).answer = .nyet) ∧
        (z.phase = .complete .ack → goes (.completeSplit u port dev ep dirIn ty) fun t => (t.team u).answer = .ack) ∧
        (z.phase = .complete .stall → goes (.completeSplit u port dev ep dirIn ty) fun t => (t.team u).answer = .stall) ∧
        (z.phase = .failed → goes (.completeSplit u port dev ep dirIn ty) fun t => (t.team u).answer = if c.periodic then .err else .none)) ∧
      ((∀ c ∈ y.ctxs, ∀ z ∈ c.txns, (sameEp z dev ep dirIn && z.ty == ty) = false) → goes (.completeSplit u port dev ep dirIn ty) fun t =>
        (t.team u).answer = (if per then .err else .none) ∧ errs t 0 ∧ t.tts = s.tts))

/-- R124, R125, R129, R130, R137 to R139, R142 to R144, Tables 4.3, 4.9 and 4.14: a transaction on the port bus: its descriptor, its start, its
result and the loss of it, and the end of contexts; STOP and RESET of a translator through its register. -/
def Obligations.PortBusTransactions : Prop :=
  ∀ (p : PortId) (u : TeamId) (s : State) (c : Ctx) (cs : List Ctx) (x : Txn) (xs : List Txn) (r : BusResult) (dev ep : Nat) (dirIn fits : Bool),
    let y := s.tt p
    let goes (i : Instr) (P : State → Prop) : Prop := ∃ t, exec i s = .next t ∧ P t
    let with' (x : Txn) : List Ctx := { c with txns := x :: xs } :: cs
    let errs (t : State) (bit : Nat) : Prop := t.ttc.err = s.ttc.err ||| BitVec.ofNat 32 (2 ^ bit)
    let pdrop1 (t : State) : Prop := t.ttc.pdrop = BitVec.ofNat 32 (min 0xFFFFFFFF (s.ttc.pdrop.toNat + 1))
    let sound : Prop := laneSwitching s (tileOf p) laneControl = false
    let kept : Prop := ∀ d ∈ y.ctxs, ∀ z ∈ d.txns, z.discard = false
    (clocksRun s = true → y.ctxs = c :: cs → c.txns = x :: xs →
      (s.ecc = [] → x.phase = .waiting → exec (.ttDescriptor p) s =
        .next { s with tts := s.tts.set p { y with ctxs := with' { x with phase := .ready, lost := laneSwitching s (tileOf p) laneControl } } }) ∧
      (s.ecc = [] → busOpen s p = true → c.periodic = true → periodicReady s p c x = true → exec (.portBusTxnStart p fits) s =
        .next { s with tts := s.tts.set p { y with ctxs := with' { x with phase := .running }, onBus := true } }) ∧
      (s.ecc = [] → busOpen s p = true → findTxn y (periodicReady s p) = none → c.periodic = false → x.phase = .ready → x.lost = false →
        exec (.portBusTxnStart p true) s = .next { s with tts := s.tts.set p { y with ctxs := with' { x with phase := .running }, onBus := true } } ∧
        exec (.portBusTxnStart p false) s = .next s) ∧
      (sound → x.phase = .running → x.whole = true → kept → (r = .ack ∨ r = .nak ∨ r = .stall) → goes (.ttResult p r) fun t =>
        (t.tt p).ctxs = with' { x with phase := .complete r } ∧ (t.tt p).onBus = false ∧ (t.tt p).stopped = (y.stopped || (y.stopNext && !y.resetting)) ∧ t.mem = s.mem) ∧
      (sound → x.phase = .running → x.whole = true → kept → goes (.ttResult p .err) fun t =>
        (t.tt p).ctxs = with' { x with phase := .complete .err } ∧ (t.tt p).busErr = (if y.busErr < 0xFFFF then y.busErr + 1 else y.busErr)) ∧
      (x.phase = .running ∧ (∀ d ∈ y.ctxs, ∀ z ∈ d.txns, z.phase = .ready → z.lost = false) ∨ x.phase = .ready ∧ x.lost = true →
        kept → (∀ d ∈ cs, d.slot ≠ c.slot) → goes (.ttResultLost p) fun t =>
        (t.tt p).ctxs = { c with txns := c.txns.map fun z => if z.ended then z else { z with phase := .retired } } :: cs ∧ errs t 5 ∧
        (c.periodic = true → t.ttc.pdrop = BitVec.ofNat 32 (min 0xFFFFFFFF (s.ttc.pdrop.toNat + (c.txns.filter fun z => !z.ended).length)))) ∧
      (isLate s p c x = true → goes (.lateDrop p) fun t => (t.tt p).ctxs = with' { x with phase := .failed } ∧ errs t 2 ∧ pdrop1 t)) ∧
    (servedBy s p = some u →
      goes (.periodicContextExpire p) (fun t => (t.tt p).ctxs = y.ctxs.filter fun c =>
        !(c.periodic && decide (c.y + 4 < (s.team u).count))) ∧
      (awake s u = true → goes (.npHoldExpire p dev ep dirIn) fun t => (t.tt p).ctxs = y.ctxs.filter fun c =>
        !(!c.periodic && c.txns.any fun x => sameEp x dev ep dirIn && x.ended && x.answeredAt.isSome))) ∧
    (openAt s (0x11000 + 16 * p.val) = true → y.resetting = false →
      (busBusy s p = false → goes (.ttStop .sup p) fun t =>
        SameButEvents t (withAnswer .ok { s with tts := s.tts.set p { y with stopped := true } })) ∧
      goes (.ttReset .sup p) (fun t => t.acc.answer = .ok ∧ (t.tt p).resetting = true ∧ (t.tt p).stopped = false ∧
        ∀ d ∈ (t.tt p).ctxs, ∀ z ∈ d.txns, z.phase ≠ .waiting ∧ z.phase ≠ .ready)) ∧
    (clocksRun s = true → y.resetting = true → goes (.ttResetEnd p) fun t => (t.tt p).ctxs = [] ∧ (t.tt p).resetting = false ∧ (t.tt p).stopped = y.stopNext ∧
      (t.tt p).statusPending = false)

/-- R147, R148, R155 to R165, R168, R170, Tables 5.3 and 5.13 to 5.15: a record routed to a queue with room in its tail cell, one that is not
routed and one that is dropped; the reads of a record and its head latch; flush, enable, disable and reset of a queue; the free list. -/
def Obligations.EventQueues : Prop :=
  ∀ (s : State) (q : QueueId) (src : PostSource) (r : Record) (v : Word) (ecc : Bool) (w : Word) (ws : List Word),
    let x := s.queue q
    let goes (i : Instr) (P : State → Prop) : Prop := ∃ t, exec i s = .next t ∧ P t
    let a := 0x21000 + 64 * q.val
    let quiet : Prop := bitOf s.flt.inj 31 = false
    (clocksRun s = true → mayAbort s = false → firstPost s src = some (src, r) → frameHeld s src = false → quiet →
      (routeOf s r = none → goes (.recordEnqueue src) fun t => t = { s with
        posts := s.posts.erase (src, r), crl := { s.crl with noroute := BitVec.ofNat 32 (min 0xFFFFFFFF (s.crl.noroute.toNat + 1)) } }) ∧
      (routeOf s r = some q → checkFails s q = false → dropCause s q = none → 4 ≤ tailFree s q → r.cls < 64 → r.src < 128 → r.stamp.ns < 2 ^ 30 →
        goes (.recordEnqueue src) fun t =>
          let f := cellFill s x.tail
          t.posts = s.posts.erase (src, r) ∧ (t.queue q).nextSeq = x.nextSeq + 1 ∧ (t.queue q).records = x.records + 1 ∧
          (t.queue q).gapOpen = false ∧ (t.queue q).cells = x.cells ∧ cellFill t x.tail = f + 4 ∧
          cellWord t x.tail f = BitVec.ofNat 32 (2 ^ 31 + r.cls * 2 ^ 24 + (if r.stamp.tq then 2 ^ 23 else 0) + r.src * 2 ^ 16 + x.nextSeq.toNat) ∧
          cellWord t x.tail (f + 1) = BitVec.ofNat 32 (2 ^ 31 + r.stamp.sec % 2 ^ 30) ∧
          cellWord t x.tail (f + 2) = BitVec.ofNat 32 (2 ^ 31 + r.stamp.ns) ∧
          cellWord t x.tail (f + 3) = BitVec.ofNat 32 (2 ^ 31 + 2 ^ 30 + r.payload.toNat)) ∧
      (routeOf s r = some q → checkFails s q = false → x.scanning = true → goes (.recordEnqueue src) fun t =>
        (t.queue q).nextSeq = x.nextSeq + 1 ∧ (t.queue q).drop = BitVec.ofNat 32 (min 0xFFFFFFFF (x.drop.toNat + 1)) ∧
        (t.queue q).cells = x.cells + (if x.heldMarker.isNone && !x.gapOpen && tailFree s q == 0 && x.reserve.isSome then 1 else 0))) ∧
    (openAt s (a + 4) = true → qOwner s q = none → quiet → s.ecc = [] →
      (x.latch = [] → listEmpty s q = true → goes (.queueRead .sup q) fun t => SameButEvents t (withData 0 s)) ∧
      (x.latch = [] → listEmpty s q = false → bitOf (cellWord s x.head x.rd) 30 = false → x.rd + 4 < 14 →
        (x.rd + 4 ≤ cellFill s x.head ∨ 1 < x.cells) → goes (.queueRead .sup q) fun t => t.acc.data = cellWord s x.head x.rd ∧
          (t.queue q).latch = [cellWord s x.head (x.rd + 1), cellWord s x.head (x.rd + 2), cellWord s x.head (x.rd + 3)] ∧
          (t.queue q).holder = some .sup ∧ (t.queue q).rd = x.rd + 4 ∧ (t.queue q).records = x.records) ∧
      (x.latch = w :: ws → x.holder = some .sup → goes (.queueRead .sup q) fun t => t.acc.data = w ∧ (t.queue q).latch = ws ∧
        (t.queue q).records = if ws = [] then x.records - 1 else x.records) ∧
      (x.latch = w :: ws → x.holder ≠ some .sup → goes (.queueRead .sup q) fun t => SameButEvents t (withData 0 s))) ∧
    (clocksRun s = true → x.latch ≠ [] → quiet → s.ecc = [] → exec (.holdTimeout q) s =
      .next { s with queues := s.queues.set q { x with holdTo := true, latch := [], holder := none, records := x.records - 1 } }) ∧
    (openAt s a = true → unlocked s 6 = true → quiet → s.ecc = [] →
      goes (.queueFlush .sup q) (fun t => t.acc.answer = .ok ∧ (t.queue q).cells = 0 ∧ (t.queue q).flushed = true ∧ (t.queue q).gapOpen = false ∧
        (t.queue q).latch = x.latch ∧ (t.queue q).records = if x.latch = [] then 0 else 1) ∧
      (bitOf x.cfg 31 = false → bitOf v 31 = true → s.crl.freeCount ≠ 0 → s.crl.rebuild = none → goes (.queueEnable .sup q v) fun t =>
        (t.queue q).cfg = v &&& 0x80003FFF#32 ∧ (t.queue q).reserve = some s.crl.freeHead ∧ t.crl.freeCount = s.crl.freeCount - 1 ∧
        cellKind t s.crl.freeHead = 3 ∧ cellOwner t s.crl.freeHead = q.val) ∧
      (bitOf x.cfg 31 = true → bitOf v 31 = false → goes (.queueDisable .sup q v) fun t =>
        (t.queue q).cfg = v &&& 0x80003FFF#32 ∧ (t.queue q).cells = 0 ∧ (t.queue q).reserve = none ∧ (t.queue q).latch = []) ∧
      (bitOf x.cfg 31 = bitOf v 31 → goes (.queueCapChange .sup q v) fun t =>
        SameButEvents t (withAnswer .ok { s with queues := s.queues.set q { x with cfg := v &&& 0x80003FFF#32 } }))) ∧
    (clocksRun s = true → goes (.queuePtrMismatch q ecc) fun t => (t.queue q).ptrReset = true ∧ (t.queue q).scanning = true ∧ (t.queue q).latch = x.latch ∧
      (t.crl.err ||| s.crl.err ||| (if ecc then 4 else 2)) = t.crl.err) ∧
    (clocksRun s = true → x.scanning = true → goes (.queueReclaimEnd q) fun t => (t.queue q).scanning = false ∧ (t.queue q).latch = x.latch) ∧
    (clocksRun s = true → goes .freelistRebuild fun t => t.crl.rebuild = some s.now ∧ t.crl.err = s.crl.err ||| 1 ∧ t.queues = s.queues) ∧
    (clocksRun s = true → s.crl.rebuild.isSome = true → goes .freelistRebuildEnd fun t => t.crl.rebuild = none ∧ t.queues = s.queues)

/-- R150, R298, R414, R500, Table 16.14: words written through the creel's debug window and a tile's program window by the supervisor, and the
word that a scrubber visits: every other byte of memory stays as it is. -/
def Obligations.MemoryWindowsAndScrubbing : Prop :=
  ∀ (s : State) (a : Addr) (v : Word) (w : Window) (m : EccMem) (k : Nat),
    let n := a.toNat
    let put (t : State) : Prop := ∀ x, memGet t.mem x = if n ≤ x ∧ x < n + 4 then (v >>> (8 * (x - n))).setWidth 8 else memGet s.mem x
    (placeFor .sup true n s = .win w → n % 4 = 0 → openAt s n = true → windowRefused w s = false →
      (w = .creel → ∃ t, exec (.debugWindowWrite .sup a v) s = .next t ∧ t.acc.answer = .ok ∧ put t ∧ t.queues = s.queues ∧ t.crl = s.crl) ∧
      (∀ i, w = .tileProg i → ∃ t, exec (.programWindowWrite .sup a v) s = .next t ∧ t.acc.answer = .ok ∧ put t ∧ t.tiles = s.tiles)) ∧
    (placeFor .sup true n s = .win w → n % 4 = 0 → openAt s n = true → windowRefused w s = true →
      ∃ t, exec (.debugWindowWrite .sup a v) s = .next t ∧ t.acc.answer = .value ∧ t.mem = s.mem ∧ AccReported 5 s t) ∧
    (k < memWords m → scrubs s m = true →
      (eccAt s m k = none → exec (.scrubWord m k) s = .next s) ∧
      (eccAt s m k = some false → ∃ t d, exec (.scrubWord m k) s = .next t ∧
        t = { s with ecc := s.ecc.filter fun e => !(e.mem == m && e.word == k), flt := { s.flt with lines := s.flt.lines ++ [d] } }))

/-- R172 to R177, R195, R214, Tables 6.1 and 6.2: the CC pins, attach, detach, ErrorRecovery. Other ports keep their state. -/
def Obligations.TypecAttachAndDetach : Prop :=
  ∀ (p : PortId) (s : State) (a b : Cc) (vbus : Nat),
    let x := (s.port p).tc
    let goes (i : Instr) (P : State → Prop) : Prop := ∃ t, exec i s = .next t ∧ (∀ q, q ≠ p → t.port q = s.port q) ∧ P t
    let tcOf (t : State) : PortTc := (t.port p).tc
    let off : Bool := !bitOf x.cfg 15 || (s.port p).pw.fetShort
    (x.cc1 = a → x.cc2 = b → exec (.ccPatternChange p a b) s = .next s) ∧
    (x.cc1 ≠ a ∨ x.cc2 ≠ b →
      goes (.ccPatternChange p a b) (fun t => (tcOf t).cc1 = a ∧ (tcOf t).cc2 = b ∧ eventLatched (.weaver p) 9 t) ∧
      (weaverActs s p = true → x.st = .attachWait → attachPin x = .none ∨ attachPin { x with cc1 := a, cc2 := b } ≠ attachPin x →
        goes (.ccPatternChange p a b) fun t => (tcOf t).st = .unattached ∧ (tcOf t).ccDebounce = false) ∧
      (x.st = .attachWait → attachPin x ≠ .none → attachPin { x with cc1 := a, cc2 := b } = attachPin x →
        goes (.ccPatternChange p a b) fun t => (tcOf t).st = .attachWait ∧ (tcOf t).ccDebounce = x.ccDebounce) ∧
      (weaverActs s p = true → x.st = .attached → goes (.ccPatternChange p a b) fun t => (tcOf t).st = .attached ∧
        (tcOf t).pdDebounce = (attachedCc (tcOf t) == .vOpen))) ∧
    (weaverActs s p = true →
      (x.st = .unattached → x.rp ≠ .none → attachPin x ≠ .none →
        exec (.attachWait p) s = .next (setPort p { s.port p with tc := { x with st := .attachWait, ccDebounce := true } } s)) ∧
      (x.st = .attachWait → attachPin x = .none → exec (.tCcDebounce p) s = .next s) ∧
      (x.st = .attachWait → x.ccDebounce = true → attachPin x ≠ .none → goes (.tCcDebounce p) fun t => (tcOf t).st = .attached ∧ (tcOf t).orient = attachPin x ∧
        (tcOf t).ccsel = attachPin x ∧ (tcOf t).ra = (otherCc x (attachPin x) == .vRa) ∧ (tcOf t).vconnOc = (x.vconnOc || x.ccHold) ∧ (tcOf t).eff = x.cfg ∧
        (tcOf t).rp = (match fld x.cfg 9 8 with | 0 => .dflt | 1 => .a15 | _ => .a30) ∧
        WordUp p opBase (baseFor (tcOf t).rp) t ∧ (t.port p).pd.pe = if pdEn s p then .noPd else .pdDisabled) ∧
      (x.st = .unattached ∨ x.st = .attachWait → x.rp ≠ .none → unsupportedPins x = true →
        goes (.ccUnsupported p) fun t => tcOf t = { x with st := .unsupported, ccDebounce := false }) ∧
      (x.st = .attached → x.pdDebounce = true → attachedCc x = .vOpen → goes (.tPdDebounce p vbus) fun t => Detached p t ∧
        (tcOf t).st = if off then .disabled else .unattached) ∧
      ((s.port p).pd.transMon = true → attachedCc x = .vOpen → (s.port p).pw.cur < noloadOf (s.port p).pw.effProt →
        goes (.transitionDetach p vbus) fun t => Detached p t ∧ (tcOf t).st = if off then .disabled else .unattached) ∧
      (tHas s p .errorRecovery = true → x.st = .errorRecovery → goes (.errorRecoveryEnd p) fun t =>
        tHas t p .errorRecovery = false ∧ (tcOf t).st = (if off then .disabled else .unattached) ∧ (off = true → (tcOf t).rp = .none)))

/-- R180, R190, R212, R213, 09 R323 to R325, Table 6.6: messages arrive in the PHY's slots, with GoodCRC sent and a repeated MessageID
discarded; a send starts, is retried nRetryCount times and ends. -/
def Obligations.PdMessagesOnTheWire : Prop :=
  ∀ (p : PortId) (s : State) (f : Frame) (h : BitVec 16) (objs : List Word) (low : Int) (x : Tx),
    let y := (s.port p).phy
    let d := (s.port p).pd
    let goes (i : Instr) (P : State → Prop) : Prop := ∃ t, exec i s = .next t ∧ P t
    let phyOf (t : State) : PdPhy := (t.port p).phy
    let live : Bool := weaverActs s p && pdLive s p && !x.bySend
    let awaits : Prop := d.seq = .softReset ∨ d.after = .softReset
    (f ≠ .hardReset → phyHears s p f = true →
      goes (.pdMessageRx p f h objs false low) (fun t => SameButEvents t (setPort p { s.port p with pd := { d with rxCrc := satInc d.rxCrc 255 } } s)) ∧
      (lastRx y f ≠ some (mId h) → y.slots.length < 3 → goes (.pdMessageRx p f h objs true low) fun t =>
        (∃ st, StampNow (some (tileOf p)) st s ∧
          (phyOf t).slots = y.slots ++ [{ msg := { frame := f, header := h, objs := objs.take (mObjs h) }, stamp := st }]) ∧
        lastRx (phyOf t) f = some (mId h)) ∧
      (lastRx y f ≠ some (mId h) → y.slots.length = 3 → goes (.pdMessageRx p f h objs true low) fun t =>
        (phyOf t).slots = y.slots ∧ (phyOf t).rxOvf = satInc y.rxOvf 255 ∧ eventLatched (.weaver p) 8 t) ∧
      (lastRx y f = some (mId h) → y.slots.length < 3 → ¬(mType h = 13 ∧ mObjs h = 0) → goes (.pdMessageRx p f h objs true low) fun t =>
        (phyOf t).slots = y.slots ∧ (t.port p).pd = d)) ∧
    (phyHears s p .hardReset = true →
      goes (.hardReset p) (fun t => eventLatched (.weaver p) 7 t ∧ (phyOf t).tx = none ∧ (phyOf t).idSop = 0 ∧ (phyOf t).rxId = none) ∧
      (weaverActs s p = true → (s.port p).tc.st = .attached → pdEn s p = true → goes (.hardReset p) fun t => InHardReset p s t ∧
        (t.port p).pd.hrCount = 0 ∧ allocOf t p = min (allocOf s p) s.bud.port[p].base) ∧
      exec (.pdMessageRx p .hardReset h objs true low) s = exec (.hardReset p) s) ∧
    exec (.bistCarrierModeEnd p) s = .next (setPort p { s.port p with phy := { y with bist := false } } s) ∧
    (clocksRun s = true → y.tx = some x →
      (x.started = false → y.bist = false → (s.port p).tc.ccsel ≠ .none → x.msg.frame ≠ .hardReset → txId y x.msg.frame < 8 →
        goes (.pdTxStart p) fun t => (phyOf t).txStamp.isSome = true ∧ ∃ k, (phyOf t).tx = some { x with started := true, msg := { x.msg with header := k } } ∧
          mId k = (if isSoftReset x.msg then 0 else txId y x.msg.frame) ∧ mType k = mType x.msg.header ∧ mObjs k = mObjs x.msg.header) ∧
      (x.started = false → y.bist = false → (s.port p).tc.ccsel ≠ .none → x.msg.frame = .hardReset → d.outq = [] → goes (.pdTxStart p) fun t =>
        (phyOf t).tx = none ∧ (phyOf t).idSop = 0 ∧ eventLatched (.weaver p) 5 t) ∧
      (x.started = true →
        (x.retries < (if y.optRev2 then 3 else 2) → goes (.tReceive p) fun t =>
          SameButEvents t (setPort p { s.port p with phy := { y with tx := some { x with retries := x.retries + 1 } } } s)) ∧
        ((if y.optRev2 then 3 else 2) ≤ x.retries → goes (.tReceive p) fun t => (t.port p).pd.txFail = satInc d.txFail 255 ∧
          eventLatched (.weaver p) 6 t) ∧
        goes (.goodcrc p) (fun t => eventLatched (.weaver p) 5 t) ∧
        (live = false → d.outq = [] → goes (.goodcrc p) fun t => (phyOf t).tx = none ∧
          txId (phyOf t) x.msg.frame = (txId y x.msg.frame + 1) % 8) ∧
        (live = true → x.msg.frame = .sop → mExt x.msg.header = false →
          (mObjs x.msg.header ≠ 0 → mType x.msg.header = 1 → goes (.goodcrc p) fun t => (awaits ∨ tHas t p .senderResponse = true) ∧
            (t.port p).pd.hrCount = 0) ∧
          (mObjs x.msg.header = 0 → mType x.msg.header = 3 → d.pe = .transition → goes (.goodcrc p) fun t => tHas t p .srcTransition = true) ∧
          (mObjs x.msg.header = 0 → mType x.msg.header = 6 → d.pe = .transition → goes (.goodcrc p) fun t => (t.port p).pd.pe = .ready ∧
            (t.port p).pd.transMon = false)))) ∧
    (coreUp s = true → clocksRun s = false → (s.port p).tc.ccsel ≠ .none → goes (.pdMessageRx p f h objs true low) fun t =>
      SameButEvents t (setPort p { s.port p with phy := { y with heard := true } } s) ∧ eventLatched (.weaver p) 8 t)

/-- R179, R181, R185 to R188, R206, R207, R211 and Table 6.4: messages of the partner that reach a policy in PD, its transmitter free. -/
def Obligations.PdMessagesOfThePartner : Prop :=
  ∀ (p : PortId) (s : State) (h : BitVec 16) (rdo mode : Word) (x : Pdo),
    let d := (s.port p).pd
    let tc := (s.port p).tc
    let goes (i : Instr) (P : State → Prop) : Prop := ∃ t, exec i s = .next t ∧ P t
    let control (i : Instr) (ty : Nat) : Prop := goes i fun t => OnlyPolicy p s t ∧ Sends p .sop ty [] t
    let quiet (i : Instr) : Prop := goes i fun t => OnlyPolicy p s t ∧ (t.port p).phy.tx = none
    let calm : Prop := d.seq = .none ∧ d.pe ≠ .transition ∧ d.swapToPort = false ∧ d.after = .none
    let awaits : Prop := d.seq = .softReset ∨ d.after = .softReset
    let waits : Prop := mType h = 12 ∧ mObjs h = 0 ∧ mExt h = false
    let pos := fld rdo 31 28
    policyHears p .sop h s = true → (s.port p).phy.tx = none →
    control (.drSwap p h) 4 ∧ control (.prSwap p h) 4 ∧ quiet (.alert p h) ∧
    (calm → control (.unsupportedMessage p h) 16) ∧
    (tableUnsupported h = true → control (.unsupportedMessage p h) 16) ∧
    (d.seq ≠ .none ∨ d.pe = .transition ∨ d.swapToPort = true → tableUnsupported h = false → ¬waits → goes (.unsupportedMessage p h) fun t => Sends p .sop 13 [] t ∧
      (t.port p).pd.seq = .softReset ∧ (t.port p).pd.softResets = satInc d.softResets 255) ∧
    control (.extendedMessage p h false) 16 ∧ goes (.extendedMessage p h true) (fun t => OnlyPolicy p s t ∧ tHas t p .chunk = true) ∧
    goes (.getSourceCap p h) (fun t => (t.port p).pd.caps = pdosOf t p (if policyWait s then wantOf t p else holdNow t p) ∧
      (t.port p).pd.eff = d.cfg ∧ Sends p .sop 1 (pdoWords (t.port p).pd.caps) t) ∧
    (d.rev = 2 →
      goes (.getSourceCapExtended p h) (fun t => OnlyPolicy p s t ∧ SendsBlock p 1 (scedb s p) t) ∧
      goes (.getStatus p h) (fun t => (t.port p).pd.ocp = false ∧ (t.port p).pd.ovp = false ∧
        ∃ temp, SendsBlock p 2 [lowByte temp, 0x02, 0x00, lowByte (2 * b2n d.ocp + 8 * b2n d.ovp), if 115 ≤ temp then 4 else 2, 0, 0] t) ∧
      goes (.getSourceInfo p h) (fun t => OnlyPolicy p s t ∧ Sends p .sop 11 [sourceInfo s p] t) ∧
      goes (.getRevision p h) (fun t => OnlyPolicy p s t ∧ Sends p .sop 12 [0x31180000#32] t)) ∧
    (d.rev = 1 → calm → control (.getSourceCapExtended p h) 16 ∧ control (.getStatus p h) 16 ∧ control (.getSourceInfo p h) 16 ∧
      control (.getRevision p h) 16) ∧
    goes (.softReset p h) (fun t => Sends p .sop 3 [] t ∧ (t.port p).pd.softResets = satInc d.softResets 255 ∧ (t.port p).pd.req = none ∧
      (t.port p).phy.idSop = 0 ∧ (t.port p).pd.seq = .request ∧ (t.port p).pd.outq.length = 1) ∧
    (d.req = none → d.pe ≠ .transition → ¬awaits →
      (1 ≤ pos → d.caps[pos - 1]? = some x → fld rdo 19 10 ≤ x.cur → (fld rdo 9 0 ≤ x.cur ∨ bitOf rdo 26 = true) →
        goes (.request p h rdo) fun t => WordUp p opCommit ((x.volt * fld rdo 19 10 + 199) / 200) t ∧ tHas t p .commit8ms = true ∧
          tHas t p .senderResponse = false ∧ (t.port p).pd.req = some { objpos := pos, volt := x.volt, cur := fld rdo 19 10, mismatch := bitOf rdo 26 }) ∧
      (pos = 0 ∨ d.caps.length < pos → control (.request p h rdo) 4)) ∧
    (d.pe = .transition → ¬awaits → goes (.request p h rdo) fun t => Sends p .sop 13 [] t ∧ (t.port p).pd.seq = .softReset) ∧
    (awaits → goes (.request p h rdo) (fun t => OnlyPolicy p s t ∧ (t.port p).pd.timers = d.timers.filter (· != .noResponse))) ∧
    (d.seq = .softReset → goes (.pdReject p h) fun t => OnlyPolicy p s t ∧ (t.port p).pd.timers = d.timers.filter (· != .noResponse)) ∧
    (tc.vconnPartner = false →
      (cableDisc s p = false → goes (.vconnSwap p h false) fun t => Sends p .sop 3 [] t ∧ (t.port p).pd.seq = .vconnSwap) ∧
      (vswapAcc s p = true → discEnded s p = true → goes (.vconnSwap p h false) fun t => Sends p .sop 3 [] t ∧ (t.port p).pd.seq = .vconnSwap) ∧
      (cableDisc s p = true → vswapAcc s p = false ∨ discEnded s p = false → control (.vconnSwap p h false) 4)) ∧
    (tc.vconnPartner = true → vswapAcc s p = true → tc.vconnOc = false → tc.ccHold = false → goes (.vconnSwap p h false) fun t => Sends p .sop 3 [] t ∧
      (t.port p).tc.vconnOn = true ∧ (t.port p).tc.vconnPartner = false) ∧
    (tHas s p .vconnSource = true → goes (.psRdy p h) fun t => (t.port p).tc.vconnOn = false ∧ (t.port p).tc.vconnPartner = true) ∧
    (tHas s p .vconnSource = false → calm → control (.psRdy p h) 16) ∧
    (awaits → goes (.pdAccept p h false) fun t => Sends p .sop 1 (pdoWords (t.port p).pd.caps) t ∧ tHas t p .senderResponse = false) ∧
    (d.seq = .vconnSwap → d.after = .none → tc.vconnPartner = false → goes (.pdAccept p h false) fun t => OnlyPolicy p s t ∧ tHas t p .vconnSource = true) ∧
    (calm → control (.pdAccept p h false) 16 ∧ control (.pdReject p h) 16 ∧ quiet (.notSupported p h)) ∧
    (d.seq ≠ .none → d.seq ≠ .request → d.seq ≠ .softReset → d.own = [] → d.after = .none → goes (.pdReject p h) (fun t => (t.port p).pd.seq = .none) ∧
      (waits → goes (.unsupportedMessage p h) fun t => (t.port p).pd.seq = .none) ∧ goes (.notSupported p h) (fun t => (t.port p).pd.seq = .none)) ∧
    (d.objpos ≠ 0 → d.volt = 100 →
      (fld mode 31 28 = 5 → goes (.bist p h mode) fun t => OnlyPolicy p s t ∧ (t.port p).phy.bist = true) ∧
      (fld mode 31 28 = 8 → goes (.bist p h mode) fun t => OnlyPolicy p s t ∧ (t.port p).pd.bistMode = true)) ∧
    (d.objpos = 0 ∨ d.volt ≠ 100 → quiet (.bist p h mode))

/-- R209, R210, R215 to R221 and Tables 6.9 and 6.10: structured VDMs of the partner, SOP' discovery of the cable, and the steps that enter
the station-time mode, each answered by the partner's ACK. -/
def Obligations.PdVendorMessages : Prop :=
  ∀ (p : PortId) (s : State) (h svid : BitVec 16) (vdm : Word) (vdos : List Word) (l : List Seq),
    let d := (s.port p).pd
    let goes (i : Instr) (P : State → Prop) : Prop := ∃ t, exec i s = .next t ∧ P t
    let vdm4 (i : Instr) (objs : List Word) : Prop := goes i fun t => OnlyPolicy p s t ∧ Sends p .sop 15 objs t
    let cable (i : Instr) : Prop := goes i fun t => (t.port p).pd.seq = .cableId ∧ (t.port p).pd.discCount = d.discCount + 1 ∧
      tHas t p .discoverIdentity = true ∧ Sends p .sop1 15 [vdmHeader 0xFF00 0 0 1] t
    let ack : Bool := fld vdm 7 6 == 1
    let next (q r : Seq) (P : State → Prop) : Prop := d.seq = q → goes (.vdmResponse p .sop h vdm vdos) fun t =>
      (t.port p).pd.own = [r] ∧ (t.port p).pd.seq = .none ∧ (t.port p).tc.rp = .a15 ∧ P t
    (policyHears p .sop h s = true → (s.port p).phy.tx = none →
      vdm4 (.discoverIdentity p h) (vdmHeader 0xFF00 0 1 1 :: identityVdos s p) ∧ vdm4 (.discoverSvids p h) [vdmHeader 0xFF00 0 2 2] ∧
      vdm4 (.discoverModes p h svid) [vdmHeader svid.toNat 0 2 3] ∧ vdm4 (.enterMode p h svid) [vdmHeader svid.toNat 1 2 4] ∧
      goes (.unstructuredVdm p h) (fun t => OnlyPolicy p s t ∧ Sends p .sop 16 [] t) ∧
      (d.alt = false → goes (.attention p h) fun t => OnlyPolicy p s t ∧ (t.port p).phy.tx = none) ∧
      (d.alt = true → d.rev = 1 → d.seq = .none → d.pe ≠ .transition → d.swapToPort = false → goes (.attention p h) fun t =>
        (t.port p).pd.seq = .stStatus ∧ Sends p .sop 15 [vdmHeader 0x31C7 1 0 17, stStatusVdo s] t) ∧
      (d.alt = true → d.rev = 2 → d.objpos ≠ 0 → goes (.attention p h) fun t =>
        Seq.stStatus ∈ (t.port p).pd.own ∧ (∀ q ∈ (t.port p).pd.own, q ∈ d.own ∨ q = .stStatus) ∧ (t.port p).pd.sinkNg = true ∧
        (t.port p).pd.seq = d.seq ∧ (t.port p).phy.tx = none ∧
        (d.sinkNg = false → (t.port p).tc.rp = .a15 ∧ tHas t p .sinkTx = true))) ∧
    (expires .sinkTx p s = true → d.sinkNg = true → d.ownRun = false → seqRuns s p = false → (s.port p).phy.tx = none →
      d.own = .stStatus :: l → goes (.tSinkTx p) fun t => (t.port p).pd.own = l ∧ (t.port p).pd.ownRun = true ∧
        (t.port p).pd.seq = .stStatus ∧ Sends p .sop 15 [vdmHeader 0x31C7 1 0 17, stStatusVdo s] t) ∧
    (policyHears p .sop1 h s = true →
      (d.discDone = false → d.discCount ≠ 0 → ack = true → goes (.vdmResponse p .sop1 h vdm vdos) fun t =>
        (t.port p).pd.discDone = true ∧ (t.port p).pd.cableId = true ∧ (t.port p).pd.cable = vdos.getD 3 0) ∧
      (d.discDone = false → d.discCount ≠ 0 → fld vdm 7 6 = 2 → goes (.vdmResponse p .sop1 h vdm vdos) fun t =>
        (t.port p).pd.discDone = true ∧ (t.port p).pd.cableId = d.cableId)) ∧
    (policyHears p .sop h s = true →
      (d.own = [] → d.after = .none → stStep d.seq = true → ack = false → fld vdm 7 6 ≠ 2 → goes (.vdmResponse p .sop h vdm vdos) fun t => (t.port p).pd.seq = .none) ∧
      (ack = true → stEn s p = true → d.own = [] → d.after = .none → d.rev = 2 → d.objpos ≠ 0 →
        next .stIdentity .stSvids (fun _ => True) ∧
        ((svidsOf vdos).contains 0x31C7 = true → next .stSvids .stModes fun _ => True) ∧
        (vdos.headD 0 &&& 3#32 ≠ 0 → next .stModes .stEnter fun t => (t.port p).pd.modeVdo = vdos.headD 0) ∧
        next .stEnter .stConfig (fun t => (t.port p).pd.alt = true) ∧
        (d.seq = .stConfig → goes (.vdmResponse p .sop h vdm vdos) fun t =>
          (t.port p).tc.sbu = if (s.port p).tc.orient = .cc2 then .crossed else .straight))) ∧
    (expires .vdm p s = true → d.own = [] → d.after = .none → d.seq ≠ .softReset → goes (.tVdmSenderResponse p) fun t => (t.port p).pd.seq = .none ∧ tHas t p .vdm = false) ∧
    (expires .discoverIdentity p s = true → d.discDone = false → 20 ≤ d.discCount → goes (.tDiscoverIdentity p) fun t => (t.port p).pd.discDone = true) ∧
    (discWanted s p = true → d.discDone = false → policyIdle p s = true →
      (expires .vconnStable p s = true → d.discCount < 20 → cable (.tVconnStable p)) ∧
      (expires .vconnStable p s = true → 20 ≤ d.discCount → goes (.tVconnStable p) fun t => (t.port p).pd.discCount = d.discCount ∧
        (t.port p).pd.discDone = false) ∧
      (expires .discoverIdentity p s = true → d.discCount < 2 → cable (.tDiscoverIdentity p)))

/-- R187 to R191, R202, R204, R206, R208, R212 to R214, Tables 6.2 and 6.6: what the port does when a timer of its policy expires. -/
def Obligations.PdTimerExpiry : Prop :=
  ∀ (p : PortId) (s : State) (r : Req) (q : Seq) (l : List Seq),
    let d := (s.port p).pd
    let tc := (s.port p).tc
    let goes (i : Instr) (P : State → Prop) : Prop := ∃ t, exec i s = .next t ∧ P t
    let sendsReset (i : Instr) : Prop := goes i fun t => InHardReset p s t ∧ (t.port p).pd.hrCount = d.hrCount + 1 ∧
      (t.port p).phy.tx = some { msg := { frame := .hardReset } } ∧ tHas t p .noResponse = true ∧ allocOf t p = min (allocOf s p) s.bud.port[p].base
    let free : Prop := (s.port p).phy.tx = none
    let path : Path := if r.volt = 100 then .five else .rail
    let v : Word := setting path r.volt r.cur
    let five : Word := setting .five 100 (rpCurrent tc.rp) &&& 0xFFF003FF#32
    (tc.st = .attached →
      (expires .senderResponse p s = true → sendsReset (.tSenderResponse p)) ∧
      (expires .vconnSource p s = true → sendsReset (.tVconnSourceTimeout p)) ∧
      (expires .srcSettle p s = true → sendsReset (.tSrcSettle p)) ∧
      (expires .noResponse p s = true → d.hrCount < 2 → sendsReset (.tNoResponse p))) ∧
    (expires .noResponse p s = true → 2 ≤ d.hrCount → goes (.tNoResponse p) fun t => OnlyPolicy p s t ∧ (t.port p).pd.pe = .pdDisabled) ∧
    (expires .chunk p s = true → pdLive s p = true → free → goes (.tChunkingNotSupported p) fun t => OnlyPolicy p s t ∧ Sends p .sop 16 [] t) ∧
    (expires .sourceCapability p s = true → pdLive s p = true → free → goes (.tSourceCapability p) fun t =>
      Sends p .sop 1 (pdoWords (t.port p).pd.caps) t ∧ (t.port p).pd.caps = pdosOf t p (if policyWait s then wantOf t p else holdNow t p)) ∧
    (expires .waitCap p s = true → pdLive s p = true → free → goes (.waitSourceCapTimeout p) fun t =>
      Sends p .sop 1 (pdoWords (t.port p).pd.caps) t ∧ (t.port p).pd.caps = pdosOf t p (holdNow t p)) ∧
    (expires .commit8ms p s = true → d.req = some r → r.answered = false → free → goes (.commitLate p) fun t => OnlyPolicy p s t ∧
      Sends p .sop 12 [] t ∧ (t.port p).pd.waits = satInc d.waits 7 ∧ t.bud.cntWaits = satInc s.bud.cntWaits 0xFFFF ∧ t.bud.port[p].waiting = true) ∧
    (expires .srcTransition p s = true → d.req = some r → goes (.tSrcTransition p) fun t => tHas t p .srcTransition = false ∧ (t.port p).pd.req = none) ∧
    (expires .srcTransition p s = true → d.req = some r → r.volt < 1024 → r.cur < 1024 → keeperRefusal (latchPwrCfg p s) p v = 0 → free →
      (s.port p).pw.pathNow = path → (s.port p).pw.pstate = .on → goes (.tSrcTransition p) fun t => (t.port p).pw.keeper = v ∧
        (t.port p).pw.inForce = v ∧ (t.port p).pd.objpos = r.objpos ∧ (t.port p).pd.opCur = r.cur ∧ (t.port p).pd.transMon = true ∧ Sends p .sop 6 [] t) ∧
    (expires .psHardReset p s = true → goes (.tPsHardReset p) fun t => (t.port p).pw.keeper = 0 ∧ (t.port p).pw.pathNow = .none ∧
      (t.port p).tc.vconnOn = false ∧ (t.port p).tc.vconnPartner = false ∧ tHas t p .srcRecover = true ∧ tHas t p .psHardReset = false) ∧
    (expires .srcRecover p s = true →
      (vconnWanted s p = true → tHas s p .vconnPin = false → goes (.tSrcRecover p true) fun t =>
        SameButEvents t (setPort p { s.port p with pd := { d with timers := d.timers.filter (· != .vconnPin) ++ [.vconnPin] } } s)) ∧
      goes (.tSrcRecover p false) (fun t => tHas t p .srcRecover = false ∧ (t.port p).tc.vconnOn = (vconnWanted s p || tc.vconnOn)) ∧
      (tc.st = .attached → keeperRefusal (latchPwrCfg p s) p five = 0 → goes (.tSrcRecover p false) fun t =>
        (t.port p).pw.keeper = five)) ∧
    (expires .sinkTx p s = true → d.sinkNg = true → d.ownRun = false → d.seq = .none → d.pe ≠ .transition → d.req = none → d.swapToPort = false →
      tHas s p .chunk = false → d.own = q :: l → goes (.tSinkTx p) fun t =>
      (t.port p).pd.own = l ∧ (t.port p).pd.ownRun = true ∧ tHas t p .sinkTx = false ∧
        (q ≠ .request → q ≠ .capsHold → q ≠ .capsReduced → (t.port p).pd.seq = q)) ∧
    (expires .vconnPin p s = true → goes (.vconnPinWaitTimeout p) fun t => (t.port p).tc.st = .errorRecovery ∧ (t.port p).tc.rp = .none ∧
      tHas t p .errorRecovery = true ∧ (tc.st = .attached → Detached p t))

/-- R205, R225, 14 R466, Tables 6.12 and 6.14: the VCONN switch and the clamps of the CC and SBU pins; the enables of PORT_TC_CFG and
PORT_PD_CFG: a write of the supervisor waits under its BUSY flag, and the tile's own weavers write at once. -/
def Obligations.VconnAndPortEnables : Prop :=
  ∀ (p : PortId) (s : State) (on : Bool),
    let x := s.port p
    let goes (i : Instr) (P : State → Prop) : Prop := ∃ t, exec i s = .next t ∧ P t
    let a := 0x100000 + 0x1000 * p.val + 0x100
    let own : Master := .weaver (tileOf p)
    let i : Fin 10 := ⟨(tileOf p).val, by omega⟩
    let tcv : Word := setFld x.tc.cfg 15 15 (b2n on)
    let pdv : Word := setFld x.pd.cfg 31 31 (b2n on)
    let stv : Word := setFld x.pd.cfg 30 30 (b2n on)
    (x.tc.vconnOn = true → goes (.vconnOc p) fun t => (t.port p).tc.vconnOn = false ∧ (t.port p).tc.vconnOc = true ∧
      eventLatched (.weaver p) 17 t ∧ (x.pd.capsDue = false → (t.port p).tc = { x.tc with vconnOn := false, vconnOc := true, ocDue := x.tc.ocDue || !weaverActs s p })) ∧
    (x.tc.vconnOn = false → exec (.vconnOc p) s = .next s) ∧
    exec (.ccOvervoltHold p true on) s = .next (setPort p { x with tc := { x.tc with sbuHold := on } } s) ∧
    exec (.ccOvervoltHold p false false) s = .next (setPort p { x with tc := { x.tc with ccHold := false } } s) ∧
    (x.tc.vconnOn = false → x.tc.st ≠ .attached ∨ x.tc.vconnOc = true →
      exec (.ccOvervoltHold p false true) s = .next (setPort p { x with tc := { x.tc with ccHold := true } } s)) ∧
    (x.tc.vconnOn = false → x.tc.st = .attached → x.tc.vconnOc = false → goes (.ccOvervoltHold p false true) fun t =>
      (t.port p).tc = { x.tc with ccHold := true, vconnOc := true } ∧ eventLatched (.weaver p) 17 t) ∧
    (x.tc.vconnOn = true → goes (.ccOvervoltHold p false true) fun t =>
      (t.port p).tc.ccHold = true ∧ (t.port p).tc.vconnOn = false ∧ (t.port p).tc.vconnOc = true ∧
        (x.pd.capsDue = false → (t.port p).tc = { x.tc with ccHold := true, vconnOn := false, vconnOc := true, ocDue := x.tc.ocDue || !weaverActs s p })) ∧
    (postable .sup (.portTcCfg p) a s = true → exec (.tcEnWrite .sup p on) s = .next (posting .sup i a tcv s)) ∧
    (postable .sup (.portPdCfg p) (a + 8) s = true → exec (.pdEnWrite .sup p on) s = .next (posting .sup i (a + 8) pdv s) ∧
      exec (.stEnWrite .sup p on) s = .next (posting .sup i (a + 8) stv s)) ∧
    (writable own (.portTcCfg p) a tcv s = true →
      goes (.tcEnWrite own p on) (fun t => t.acc.answer = .ok ∧ tcEn t p = on) ∧
      (weaverActs s p = true → tcEn s p = true → on = false → goes (.tcEnWrite own p on) fun t => (t.port p).tc.st = .disabled ∧ (t.port p).tc.rp = .none ∧
        (x.tc.st = .attached → Detached p t))) ∧
    (writable own (.portPdCfg p) (a + 8) pdv s = true → goes (.pdEnWrite own p on) fun t => t.acc.answer = .ok ∧ bitOf (t.port p).pd.cfg 31 = on) ∧
    (writable own (.portPdCfg p) (a + 8) stv s = true → goes (.stEnWrite own p on) fun t => t.acc.answer = .ok ∧ bitOf (t.port p).pd.cfg 30 = on)

/-- R189, R194 to R199, R201 and Table 6.5: the arbiter decides a BASE, HOLD, COMMIT or RELEASE of a port and answers it. `goal` is what R194
lets an allocation rise to. -/
def Obligations.ArbiterDecisions : Prop :=
  ∀ (p : PortId) (s : State) (tag : Byte) (w : BitVec 16),
    let goes (i : Instr) (P : State → Prop) : Prop := ∃ t, exec i s = .next t ∧ t.ports = s.ports ∧ (∀ q, q ≠ p → allocOf t q = allocOf s q) ∧ P t
    let n := w.toNat
    let a := allocOf s p
    let raised := a + min (min n (max a (wantOf s p)) - a) (roomFor s p)
    let b := s.bud.port[p]
    let low := min a (max b.base n)
    let asked (i : Instr) : Prop :=
      (n ≤ raised → goes i fun t => allocOf t p = raised ∧ t.bud.port[p].hold = BitVec.ofNat 16 raised ∧ t.bud.port[p].starved = false ∧
        WordDown p opGrant tag raised t) ∧
      (raised < n → goes i fun t => allocOf t p = raised ∧ t.bud.port[p].starved = true ∧ t.bud.port[p].want = n ∧ WordDown p opShort tag raised t)
    supUp s = true →
    (fits s p n = true → goes (.base p tag w) fun t => allocOf t p = max a n ∧ t.bud.port[p].base = n ∧ t.bud.oversub = s.bud.oversub ∧
      WordDown p opGrant tag (max a n) t) ∧
    (fits s p n = false → n ≤ 25 → goes (.base p tag w) fun t => allocOf t p = max a n ∧ t.bud.port[p].base = n ∧ t.bud.oversub = true ∧
      WordDown p opGrant tag (max a n) t) ∧
    (fits s p n = false → 25 < n → goes (.base p tag w) fun t => allocOf t p = a ∧ t.bud.port[p].hold = BitVec.ofNat 16 a ∧
      t.bud.port[p].base = b.base ∧ WordDown p opShort tag a t) ∧
    asked (.hold p tag w) ∧ (a < n → asked (.commit p tag w)) ∧
    (n ≤ a → goes (.commit p tag w) fun t => allocOf t p = a ∧ t.bud.port[p].hold = BitVec.ofNat 16 a ∧ t.bud.port[p].want = b.want ∧ WordDown p opGrant tag a t) ∧
    (∃ t, exec (.release p tag w) s = .next t ∧ t.ports = s.ports ∧ allocOf t p ≤ low ∧ (t.bud.port[p].starved = true → allocOf t p < low) ∧
      (totalUsed s ≤ globalLimit s → (∀ g, groupUsed s g ≤ groupLimit s g) → allocOf t p = low ∧ t.bud.port[p].starved = false))

/-- R189, R195, R197, R198, R202 and Table 6.5: a port's weaver takes an answer of the arbiter, or a word that changes its hold unasked. New
capabilities that this brings may take up a written configuration, whose lower want releases what exceeds it and whose higher one is asked
(R184, R225). -/
def Obligations.BudgetWordsAtThePort : Prop :=
  ∀ (p : PortId) (s : State) (tag : Byte) (w : BitVec 16) (op : Nat) (rest : List Nat) (r : Req),
    let d := (s.port p).pd
    let tc := (s.port p).tc
    let goes (i : Instr) (P : State → Prop) : Prop := ∃ t, exec i s = .next t ∧ (∀ q, q ≠ p → t.port q = s.port q) ∧ P t
    let five : Word := setting .five 100 (rpCurrent tc.rp) &&& 0xFFF003FF#32
    let lower : Rp := if tc.rp = .a30 then .a15 else .dflt
    let inForce : Prop := d.eff = d.cfg ∧ tc.eff = tc.cfg
    let held (t : State) : Prop := (t.port p).pd.hold = w.toNat ∨ (pdLive s p = true ∧ wantOf t p < w.toNat ∧ (t.port p).pd.hold = wantOf t p)
    weaverActs s p = true →
    (d.asked = op :: rest → op = opHold ∨ op = opCommit →
      goes (.grant p tag w) (fun t => held t ∧ rest <+: (t.port p).pd.asked ∧ (inForce → (t.port p).pd.hold = w.toNat ∧ (t.port p).pd.asked = rest)) ∧
      goes (.short p tag w) (fun t => held t ∧ rest <+: (t.port p).pd.asked ∧ (inForce → (t.port p).pd.hold = w.toNat ∧ (t.port p).pd.asked = rest))) ∧
    (d.asked = [] → goes (.grant p tag w) (fun t => t.ports = s.ports) ∧ goes (.short p tag w) (fun t => t.ports = s.ports)) ∧
    (d.asked = opBase :: rest → tc.st = .attached →
      ((s.port p).pw.keeper = 0 → keeperRefusal (latchPwrCfg p s) p five = 0 → goes (.grant p tag w) fun t => (t.port p).pw.keeper = five) ∧
      goes (.short p tag w) (fun t => (t.port p).tc.rp = lower ∧ (t.port p).pd.asked = rest ++ [opBase] ∧ WordUp p opBase (baseFor lower) t)) ∧
    (d.asked = opCommit :: rest → rest.contains opCommit = false → d.req = some r → r.answered = false → (s.port p).phy.tx = none →
      goes (.grant p tag w) (fun t => (t.port p).pd.pe = .transition ∧ (t.port p).pd.waits = 0 ∧ Sends p .sop 3 [] t ∧
        tHas t p .commit8ms = false ∧ t.bud.port[p].waiting = false) ∧
      goes (.short p tag w) (fun t => (t.port p).pd.pe = d.pe ∧ (t.port p).pd.waits = satInc d.waits 7 ∧ Sends p .sop 12 [] t ∧
        tHas t p .commit8ms = false ∧ t.bud.port[p].waiting = true ∧ t.bud.cntWaits = satInc s.bud.cntWaits 0xFFFF)) ∧
    (∀ i ∈ [Instr.offer p w, Instr.reclaim p w],
      goes i held ∧
      (pdLive s p = false → goes i fun t => (t.port p).phy = (s.port p).phy ∧ (t.port p).pd = { d with hold := w.toNat }) ∧
      (pdLive s p = true → d.caps ≠ [] → policyIdle p s = true → goes i fun t => (t.port p).pd.caps = pdosOf t p (if policyWait s then wantOf t p else holdNow t p) ∧
        Sends p .sop 1 (pdoWords (t.port p).pd.caps) t) ∧
      (pdLive s p = true → d.caps ≠ [] → serveRule s p = true → d.sinkNg = false → goes i fun t => (t.port p).tc.rp = .a15 ∧
        tHas t p .sinkTx = true ∧ .request ∈ (t.port p).pd.own ∧ (t.port p).phy = (s.port p).phy))

/-- R194, R197, R226 and Table 6.24: BUD_PORTn: PRIO and HOLD are written, and the arbiter's allocation behind HOLD stays. -/
def Obligations.BudgetPortRegister : Prop :=
  ∀ (p : PortId) (s : State) (v : Word),
    let a := 0x40200 + 4 * p.val
    let b := s.bud.port[p]
    (writable .sup (.budPort p) a v s = true → ∃ t, exec (.budHoldWrite .sup p v) s = .next t ∧ t.acc.answer = .ok ∧
      t.bud.port[p] = { b with prio := BitVec.ofNat 8 (fld v 31 24), hold := BitVec.ofNat 16 (fld v 15 0) } ∧ (∀ q, q ≠ p → t.bud.port[q] = s.bud.port[q]) ∧
      t.ports = s.ports ∧ t.mem = s.mem)

/-- R229 to R236, R252, Tables 7.7, 7.8 and 7.11: the group feed qualifies, ramps, is good, warns, limits, trips and cools down, and the high
rail comes up and is lost; no other group changes. A comparator that has crossed returns by 250 mV more; a current is compared as the
voltage across the feed shunt, its limits in 0.5 mV. -/
def Obligations.GroupFeeds : Prop :=
  ∀ (g : TileId) (p : PortId) (s : State) (volt cur : Nat),
    let x := s.grp g
    let others (t : State) : Prop := ∀ h, h ≠ g → t.grp h = s.grp h
    let moved (f : FeedState) (t : State) : Prop := (t.grp g).st = f ∧ Posted 0x09 (0x48 + g.val) t ∧ t.ports = s.ports ∧ others t
    let uv := fld x.thrNow 29 20 + 5 * b2n x.uvLow
    let warn := fld x.thrNow 19 10
    let ov := fld x.thrNow 9 0
    let drop := cur * max 1 (fld x.cfgNow 11 8)
    let lim := 100 * (if x.st = .ramping then fld x.limNow 7 0 else fld x.limNow 15 8)
    let driven : Bool := x.st == .ramping || x.st == .on || x.st == .good || x.st == .warning
    let tripped (flag : Nat) (t : State) : Prop := FeedDown g t ∧ (t.grp g).st = .cooldown ∧ (t.grp g).trips = x.trips + 1 ∧
      (t.grp g).stage = min 4 x.trips ∧ (t.grp g).flags = x.flags ||| BitVec.ofNat 8 (2 ^ flag) ∧ Posted 0x07 (0x48 + g.val) t ∧
      Posted 0x08 (0x48 + g.val) t ∧ others t
    (clocksRun s = true → x.st = .off → feedAllowed s g = true → thrBad x = false → uv < volt → volt + 5 * b2n x.ovOver < ov →
      ∃ t, exec (.feedQualify g volt) s = .next t ∧ moved .qualifying t) ∧
    (x.st = .qualifying → (volt ≤ uv ∨ ov ≤ volt + 5 * b2n x.ovOver) → ∃ t, exec (.feedQualifyBreak g volt) s = .next t ∧ moved .off t) ∧
    (x.st = .qualifying → thrBad x = false → ∃ t, exec (.feedRampStart g) s = .next t ∧ moved .ramping t) ∧
    (x.st = .qualifying → thrBad x = true → ∃ t, exec (.feedRampStart g) s = .next t ∧ t.grps = s.grps ∧ t.ports = s.ports) ∧
    (x.st = .ramping → ∃ t, exec (.feedOn g) s = .next t ∧ moved .on t) ∧
    (x.limiting = false → (x.st = .on ∨ x.st = .warning ∧ warn + 5 < volt) → ∃ t, exec (.feedPgood g volt) s = .next t ∧
      (t.grp g).st = .good ∧ (t.grp g).pg = true ∧ (t.grp g).feedV = volt ∧ others t) ∧
    (x.st = .good → volt < warn → ∃ t, exec (.feedWarn g volt) s = .next t ∧
      (t.grp g).st = .warning ∧ (t.grp g).pg = false ∧ (t.grp g).feedV = volt ∧ others t) ∧
    (driven = true → lim ≤ drop → ∃ t, exec (.feedLimit ⟨g, cur⟩) s = .next t ∧
      t.grp g = { x with limiting := true, feedI := cur } ∧ t.ports = s.ports ∧ others t) ∧
    (x.limiting = true → drop + 200 ≤ lim → ∃ t, exec (.feedLimitEnd ⟨g, cur⟩) s = .next t ∧
      t.grp g = { x with limiting := false, feedI := cur } ∧ t.ports = s.ports ∧ others t) ∧
    (driven = true → x.limiting = true → ∃ t, exec (.feedFaultTimer g) s = .next t ∧ tripped 4 t) ∧
    (driven = true → 100 * fld x.limNow 23 16 < drop → ∃ t, exec (.feedFastTrip g cur) s = .next t ∧ tripped 5 t) ∧
    (drop ≤ 100 * fld x.limNow 23 16 → ∃ t, exec (.feedFastTrip g cur) s = .next t ∧ t.grps = s.grps ∧ t.ports = s.ports) ∧
    (driven = true → volt < fld x.thrNow 29 20 → ∃ t, exec (.feedUv g volt) s = .next t ∧ tripped 2 t) ∧
    (driven = true → ov < volt → ∃ t, exec (.feedOv g volt) s = .next t ∧ tripped 3 t) ∧
    (driven = true → ∃ t, exec (.feedGateRiseFail g) s = .next t ∧ tripped 6 t) ∧
    (x.st = .cooldown → ∃ t, exec (.feedCooldownEnd g) s = .next t ∧
      (t.grp g).st = (if feedAllowed s g then .off else .disabled) ∧ t.ports = s.ports ∧ others t) ∧
    (x.pg = true → ∃ t, exec (.feedStageReset g) s = .next t ∧ t.grp g = { x with trips := 0, stage := 0 } ∧ t.ports = s.ports ∧ others t) ∧
    (x.pg = true → railVolt s g ≠ 0 → x.railUp = false → inWindow (railVolt s g) volt = true → ∃ t, exec (.railUp g volt) s = .next t ∧
      t.grp g = { x with railUp := true, railV := volt } ∧ others t) ∧
    (x.railUp = true → volt * 100 < railVolt s g * 90 → ∃ t, exec (.railLost g volt) s = .next t ∧
      (t.grp g).railUp = false ∧ (t.grp g).railV = volt ∧ others t ∧
      (tileOf p = g → (s.port p).pw.pathNow = .rail → (t.port p).pw.pathNow = .none ∧ (t.port p).pw.keeper = 0 ∧
        (weaverActs s p = true → (s.port p).tc.st = .attached → (t.port p).pd.pe = .hardReset)) ∧
      ((s.port p).pw.pathNow ≠ .rail → (t.port p).pw = (s.port p).pw))

/-- R229, R230, R235, R236, R237 to R240, R243, R252, R254, Tables 7.3, 7.8 and 7.21: the power registers. A supervisor's write waits under
its BUSY flag; the tile's own weaver writes at once: GRP_CFG, PORT_KEEPER and PORT_PWR_CMD. -/
def Obligations.PowerRegisters : Prop :=
  ∀ (p : PortId) (s : State) (v : Word) (rail : Fin 4) (on : Bool),
    let g := tileOf p
    let x := s.grp g
    let w := (s.port p).pw
    let own : Master := .weaver g
    let i : Fin 10 := ⟨g.val, by omega⟩
    let ga := 0x30000 + 0x400 * g.val
    let pa := 0x100000 + 0x1000 * p.val
    let en (b : Bool) : Word := setFld x.cfg 15 15 (b2n b)
    let rv : Word := setFld x.cfg 13 12 rail.val
    let k : Word := v &&& 0xFFF003FF#32
    let cmd (n : Nat) : Word := BitVec.ofNat 32 (2 ^ n + b2n w.fwOff)
    let goes (i : Instr) (P : State → Prop) : Prop := ∃ t, exec i s = .next t ∧ t.acc.answer = .ok ∧ P t
    let keeper (P : State → Prop) : Prop := goes (.keeperWrite own p v (~~~v)) P
    let code := keeperRefusal (latchPwrCfg p s) p k
    (postable .sup (.grpCfg g) ga s = true → exec (.feedEnWrite .sup g on) s = .next (posting .sup i ga (en on) s) ∧
      exec (.railChange .sup g rail) s = .next (posting .sup i ga rv s)) ∧
    (postable .sup (.portPwrCmd p) (pa + 0x220) s = true → exec (.clrPfet .sup p) s = .next (posting .sup i (pa + 0x220) (cmd 2) s) ∧
      exec (.clrLatch .sup p) s = .next (posting .sup i (pa + 0x220) (cmd 1) s) ∧
      exec (.fwOffSet .sup p) s = .next (posting .sup i (pa + 0x220) 1 s) ∧ exec (.fwOffClear .sup p) s = .next (posting .sup i (pa + 0x220) 0 s)) ∧
    (writable own (.grpCfg g) ga (en on) s = true → goes (.feedEnWrite own g on) (fun t => bitOf (t.grp g).cfg 15 = on) ∧
      (on = false → feedEn x = true → x.released = true → goes (.feedEnWrite own g on) fun t => FeedDown g t ∧ (t.grp g).st = .disabled)) ∧
    (writable own (.grpCfg g) ga rv s = true →
      ((∀ q, tileOf q = g → kPath (s.port q).pw.keeper ≠ .rail) → goes (.railChange own g rail) fun t => fld (t.grp g).cfg 13 12 = rail.val ∧
        (rail.val ≠ fld x.cfgNow 13 12 → (t.grp g).railUp = false)) ∧
      (kPath w.keeper = .rail → rail.val ≠ fld x.cfgNow 13 12 → goes (.railChange own g rail) fun t =>
        fld (t.grp g).cfg 13 12 = fld x.cfgNow 13 12 ∧ (t.grp g).flags = x.flags ||| 0x80 ∧ (t.grp g).railUp = x.railUp)) ∧
    (guardOpen own (.portKeeper p) (pa + 0x208) v s = true →
      (code ≠ 0 → keeper fun t => (t.port p).pw.keeper = w.keeper ∧ (t.port p).pw.refuse = code ∧ bitOf (t.port p).pw.flags 16 = true ∧
        (t.port p).pw.pathNow = w.pathNow) ∧
      (code = 0 → fld v 31 30 = 0 → keeper fun t => (t.port p).pw.keeper = k ∧ (t.port p).pw.pathNow = .none ∧ (t.port p).pd.objpos = 0) ∧
      (code = 0 → fld v 31 30 ≠ 0 → keeper fun t => (t.port p).pw.keeper = k ∧ (t.port p).pd.objpos = 0 ∧ eventLatched (.weaver p) 11 t) ∧
      (code = 0 → fld v 31 30 ≠ 0 → w.pstate = .off → w.pathNow = .none → w.fwOff = false → keeper fun t => (t.port p).pw.pstate = .waiting ∧
        (t.port p).pw.inForce = k)) ∧
    (writable own (.portPwrCmd p) (pa + 0x220) (cmd 2) s = true → goes (.clrPfet own p) fun t =>
      (t.port p).pw.pfetL = false ∧ (t.port p).pw.pfetH = false ∧ (t.port p).pw.fetShort = false ∧ (t.port p).pw.fwOff = w.fwOff) ∧
    (writable own (.portPwrCmd p) (pa + 0x220) (cmd 1) s = true → goes (.clrLatch own p) fun t =>
      (t.port p).pw.stage = 0 ∧ (t.port p).pw.retries = 0 ∧ (t.port p).pw.pstate ≠ .cooldown ∧ (t.port p).pw.pstate ≠ .latched) ∧
    (writable own (.portPwrCmd p) (pa + 0x220) 1 s = true → w.fwOff = false → goes (.fwOffSet own p) fun t =>
      (t.port p).pw.fwOff = true ∧ (t.port p).pw.keeper = 0 ∧ (t.port p).pw.pathNow = .none) ∧
    (writable own (.portPwrCmd p) (pa + 0x220) 0 s = true → w.fwOff = true → w.pstate = .fwOff → goes (.fwOffClear own p) fun t =>
      (t.port p).pw = { w with fwOff := false, pstate := if kPath w.inForce == .none then .off else .waiting })

/-- R239, R240, R242, R243, R245 to R247, Table 7.17: relay slots go to the eligible port of the lowest rank, SPACING apart, and none in the safe state (R429); a ramp is probed,
its load capacitance being the mean current over the measured slew (to the nearest, log 136), checked, timed and completed; a transition
ends; power-good rises and falls. Other ports keep their state. -/
def Obligations.RampsAndPowerGood : Prop :=
  ∀ (p : PortId) (s : State) (vbus cur slew sample delta : Nat),
    let w := (s.port p).pw
    let goes (i : Instr) (P : State → Prop) : Prop := ∃ t, exec i s = .next t ∧ (∀ q, q ≠ p → t.port q = s.port q) ∧ P t
    let put (i : Instr) (y : PortPwr) : Prop := goes i fun t => SameButEvents t (setPort p { s.port p with pw := y } s)
    let seen : PortPwr := { w with vbus := vbus, cur := cur }
    let idle : Bool := decide (vbus < 5) && decide (cur < noloadOf w.effProt)
    let inr := 10 * max 1 (fld w.effPwr 15 8)
    let cload := (1000 * cur + slew / 2) / slew
    let probed : PortPwr := { seen with probed := true, rampBase := vbus, rampChecks := 0, cload := min 1023 cload, slew := if cload = 0 then 1000 else clampNat 50 1000 ((800 * inr + cload / 2) / cload) }
    let held := if w.probed then w.slew else 500
    let step := min delta (w.gateNow / 16)
    let met : Bool := inWindow (kVolt w.inForce) vbus && (!(kPath w.inForce == .five && w.pathNow == .rail) || decide (vbus < 105))
    let due := min (w.slew * (w.rampChecks + 1)) (20 * (kVolt w.inForce - w.rampBase))
    (clocksRun s = true → s.flt.safe = false → (∀ a, s.bud.relayAt = some a → a + 12500 * max 5 (fld s.bud.relay 7 0) ≤ s.now) → eligible s p = true → (∀ q, eligible s q = true → relayRank s p ≤ relayRank s q) → goes .relayGrant fun t =>
      (t.port p).pw.pstate = .ramping ∧ (t.port p).pw.pathNow = kPath w.inForce ∧ (t.port p).pw.granted = true ∧ (t.port p).pw.armed = false ∧
        (t.port p).pw.effPwr = w.pwrCfg ∧ t.bud.relayAt = some s.now) ∧
    (∀ a, s.bud.relayAt = some a → s.now < a + 12500 * max 5 (fld s.bud.relay 7 0) → exec .relayGrant s = .next s) ∧
    (clocksRun s = true → (∀ q, eligible s q = false) → exec .relayGrant s = .next s) ∧
    (w.pstate = .ramping →
      (w.probed = false → slew ≠ 0 → cload ≤ 1023 → (idle = true ∨ 5 ≤ vbus ∨ 2 * cur < inr) → put (.rampProbeEnd p vbus cur slew) probed) ∧
      (w.probed = false → idle = false → vbus < 5 → inr ≤ 2 * cur → goes (.rampProbeEnd p vbus cur slew) fun t => Tripped p 5 s t) ∧
      (w.probed = true →
        (idle = true → put (.rampCheck p vbus cur) { seen with rampBase := vbus, rampChecks := 0 }) ∧
        (idle = false → due ≤ 40 * (vbus - w.rampBase) → put (.rampCheck p vbus cur) { seen with rampChecks := w.rampChecks + 1 }) ∧
        (idle = false → 40 * (vbus - w.rampBase) < due → goes (.rampCheck p vbus cur) fun t => Tripped p (if vbus < 5 then 5 else 6) s t)) ∧
      put (.gateLoopTick p ⟨slew, delta⟩) { w with
        gateNow := if slew < held then min 255 (w.gateNow + step) else if held < slew then w.gateNow - step else w.gateNow } ∧
      put (.breakersArm p) { w with armed := true } ∧
      (w.held = false → goes (.rampComplete p sample) fun t => (t.port p).pw.pstate = .on ∧ (t.port p).pw.armed = true ∧
        (t.port p).pw.vbus = kVolt w.inForce ∧ (t.port p).pw.gateSamples.length = min 4 (w.gateSamples.length + 1)) ∧
      (w.armed = false → (5 ≤ w.vbus ∨ noloadOf w.effProt ≤ cur) → goes (.rampTimeout p cur) fun t => Tripped p 6 s t)) ∧
    ((w.pstate = .transition ∨ w.pstate = .ramping) → met = true → w.held = true → heldRefusal s p w.keeper = 0 → goes (.transitionEnd p vbus) fun t =>
      (t.port p).pw.held = false ∧ (t.port p).pw.keeper = w.keeper ∧ (t.port p).pw.inForce = w.keeper) ∧
    (w.pstate = .transition → met = true → w.held = false →
      goes (.transitionEnd p vbus) (fun t => (t.port p).pw = { w with pstate := .on, vbus := vbus, pathNow := kPath w.inForce, discharge := false, ovHigh := 0 }) ∧
      (expires .srcSettle p s = true → kVolt w.inForce = (s.port p).pd.volt → (s.port p).phy.tx = none → goes (.transitionEnd p vbus) fun t => Sends p .sop 6 [] t ∧
        tHas t p .srcSettle = false)) ∧
    (w.pgood = false → w.pathNow ≠ .none → w.pstate ≠ .transition → w.held = false → inWindow (kVolt w.inForce) vbus = true → goes (.pgoodRise p vbus) fun t =>
      (t.port p).pw.pgood = true ∧ (t.port p).pw.vbus = vbus ∧ Posted 0x08 p.val t) ∧
    ((w.pstate = .transition ∨ w.held = true) → exec (.pgoodRise p vbus) s = .next s ∧ exec (.pgoodFall p vbus) s = .next s) ∧
    (w.pgood = true → w.pstate ≠ .transition → w.held = false → inWindow (kVolt w.inForce) vbus = false → goes (.pgoodFall p vbus) fun t =>
      (t.port p).pw = { w with pgood := false, vbus := vbus } ∧ Posted 0x08 p.val t) ∧
    (s.flt.safe = true → exec .relayGrant s = .next s)

/-- R248 to R255, Tables 7.4, 7.15, 7.17 and 7.22: breakers and protections of a port, the pass-FET checks, and what follows a trip. -/
def Obligations.PortProtection : Prop :=
  ∀ (p : PortId) (s : State) (vbus cur mv : Nat) (k : Fin 8),
    let w := (s.port p).pw
    let tc := (s.port p).tc
    let goes (i : Instr) (P : State → Prop) : Prop := ∃ t, exec i s = .next t ∧ P t
    let trips (i : Instr) (cause : Nat) : Prop := goes i fun t => Tripped p cause s t ∧ (∀ q, q ≠ p → t.port q = s.port q) ∧ Posted 0x07 p.val t
    let ib := kIbase w.inForce
    let five : Word := setting .five 100 (rpCurrent tc.rp) &&& 0xFFF003FF#32
    let pct (j : Fin 8) : Nat := curvePct w.effCurve[j]
    (w.pathNow ≠ .none →
      (scMa w.effPwr w.effProt < 10 * cur → trips (.fastTrip p cur) 0) ∧
      (10 * cur ≤ scMa w.effPwr w.effProt → goes (.fastTrip p cur) fun t => SameButEvents t s) ∧
      (10 * max 1 (fld w.effProt 11 8) < cur → trips (.reverseTrip p cur) 3) ∧
      (ovNow w < vbus → trips (.ovTrip p vbus) 4) ∧
      (classB s p = false → w.ftRun = true → trips (.classATrip p cur) 1) ∧
      (classB s p = true → w.curveRun[k] = true → trips (.curveTrip p k cur) 2) ∧
      (w.armed = true → goes (.breakerCurrentCrossing p cur) fun t => ∃ y, SameButEvents t (setPort p { s.port p with pw := y } s) ∧ y.cur = cur ∧
        (classB s p = false → y.ftRun = decide (5 * ib < 4 * cur) ∧ y.curveRun = w.curveRun) ∧
        (classB s p = true → y.ftRun = w.ftRun ∧ (pct k = 0 → y.curveRun[k] = false) ∧
          (pct k ≠ 0 → pct k * ib < 100 * cur → y.curveRun[k] = true) ∧ (10000 * cur < 95 * (pct k * ib) → y.curveRun[k] = false))) ∧
      trips (.gateRiseFail p) 7 ∧ trips (.fetOpen p) 9 ∧
      (∀ i ∈ [Instr.gateRiseFail p, Instr.fetOpen p], goes i fun t => (t.port p).pw.pstate = .off ∧
        (t.port p).pw.pfetL = (w.pfetL || w.pathNow != .rail) ∧ (t.port p).pw.pfetH = (w.pfetH || w.pathNow == .rail))) ∧
    (w.pathNow = .none →
      (mv ≤ 1000 → goes (.fetShort p mv) fun t => SameButEvents t s) ∧
      (1000 < mv → goes (.fetShort p mv) fun t => (t.port p).pw.fetShort = true ∧ (t.port p).pw.pfetL = (w.pfetL || decide (mv < 7000)) ∧
        (t.port p).pw.pfetH = (w.pfetH || decide (7000 ≤ mv)) ∧ (t.port p).tc.st = .disabled ∧ (t.port p).tc.rp = .none ∧ (t.port p).pw.keeper = 0 ∧
        bitOf (t.port p).pw.flags 8 = true ∧ (bitOf (s.grp (tileOf p)).cfgNow 14 = true → (s.grp (tileOf p)).st ≠ .disabled →
          FeedDown (tileOf p) t ∧ (t.grp (tileOf p)).st = .disabled))) ∧
    (w.pstate = .cooldown →
      (weaverActs s p = false → goes (.portCooldownEnd p) fun t => (t.port p).pw = { w with pstate := if w.fwOff then .fwOff else if kPath w.inForce = .none then .off else .waiting }) ∧
      (weaverActs s p = true → tc.st = .attached → w.fwOff = false → w.pathNow = .none → keeperRefusal (latchPwrCfg p s) p five = 0 →
        goes (.portCooldownEnd p) fun t => (t.port p).pw.keeper = five ∧ (t.port p).pw.pstate = .waiting)) ∧
    (w.pgood = true → goes (.portStageReset p) fun t => SameButEvents t (setPort p { s.port p with pw := { w with stage := 0, retries := 0 } } s)) ∧
    (w.discharge = true → goes (.dischargeEnd p) fun t => (t.port p).pw.discharge = false ∧ (t.port p).pw.vbus < 10)

/-- R262 to R268, R274, Tables 8.10 and 8.12: edges of the 1PPS inputs, IRIG-B frames and gates of REF10M are accepted, qualify their
reference and give its phase error; a reference is lost. -/
def Obligations.TimeReferences : Prop :=
  ∀ (i : PpsInput) (s : State) (sec qns : Nat) (f : IrigFrame) (b : IrigTime) (ppb : Int),
    let m := s.tim
    let goes (i : Instr) (P : Tim → Prop) : Prop := ∃ t, exec i s = .next t ∧ P t.tim
    let x := ppsOf m i
    let at_ : Int := (sec : Int) * 4000000000 + (qns % 4000000000 : Nat)
    let e : Int := if 2000000000 < qns % 4000000000 then (qns % 4000000000 : Nat) - 4000000000 else (qns % 4000000000 : Nat)
    let early : Prop := ∃ l, x.lastEdge = some l ∧ at_ - l < 3600000000
    let fmt := fld m.refCfg 18 16
    let next : Prop := ∀ a, m.irigLast = some a → followsOne fmt a b = true
    let off : Prop := (m.ref = .ppsA ∧ (ppsWin m < f.phase - m.a.err ∨ f.phase - m.a.err < -ppsWin m)) ∨
      (m.ref = .ppsB ∧ (ppsWin m < f.phase - m.b.err ∨ f.phase - m.b.err < -ppsWin m))
    (ppsEn m i = false ∨ m.running = false ∨ early → ∃ t, exec (.ppsEdge i sec qns) s = .next t ∧ SameButEvents t s) ∧
    (ppsEn m i = true → m.running = true → ¬early → m.pending = none → goes (.ppsEdge i sec qns) fun t =>
      (ppsOf t i).lastEdge = some at_ ∧ (ppsOf t i).err = e ∧ t.phase = e ∧
      ((∀ l, x.lastEdge = some l → ¬(3999960000 ≤ at_ - l ∧ at_ - l ≤ 4000040000)) → (ppsOf t i).run = 1) ∧
      ((∃ l, x.lastEdge = some l ∧ 3999960000 ≤ at_ - l ∧ at_ - l ≤ 4000040000) → (ppsOf t i).run = x.run + 1) ∧
      (ppsOf t i).ok = (x.ok || decide (qualN m ≤ (ppsOf t i).run))) ∧
    goes (.ppsLost i) (fun t => (ppsOf t i).ok = false ∧ (ppsOf t i).run = 0 ∧ (ppsOf t i).lastEdge = none ∧ t.ppsDiff = 0x80000000 ∧
      (x.ok = true → bitOf t.evt (match i with | .a => 0 | .b => 1) = true) ∧ (x.ok = false → t.evt = m.evt)) ∧
    (irigEn m = true → m.running = true →
      (readFrame fmt f = some b → next → ¬off → m.pending = none → goes (.irigFrame f) fun t =>
        t.irigLast = some b ∧ t.irigErr = f.phase ∧ t.irigBad = 0 ∧ t.irigRun = m.irigRun + 1 ∧
        t.irigOk = (m.irigOk || decide (qualN m ≤ m.irigRun + 1))) ∧
      (readFrame fmt f = none ∨ (readFrame fmt f = some b ∧ ¬next) ∨ off → goes (.irigFrame f) fun t => t.irigBad = m.irigBad + 1 ∧ bitOf t.evt 3 = true ∧
        t.irigOk = (m.irigOk && decide (m.irigBad = 0)))) ∧
    goes .irigLost (fun t => t.irigOk = false ∧ t.irigLast = none ∧ (m.irigOk = true → bitOf t.evt 2 = true) ∧ (m.irigOk = false → t.evt = m.evt)) ∧
    (ref10mEn m = false → exec (.ref10mGate ppb) s = .next s) ∧
    (ref10mEn m = true → -50000 ≤ ppb → ppb ≤ 50000 → goes (.ref10mGate ppb) fun t => t.refPpb = ppb ∧ t.refRun = m.refRun + 1 ∧
      t.refOk = (m.refOk || decide (qualN m ≤ m.refRun + 1)) ∧
      (t.refOk = true → m.st = .freq ∨ m.st = .holdover → t.freq = BitVec.ofInt 32 (10 * ppb)) ∧ (m.st ≠ .freq → m.st ≠ .holdover → t.freq = m.freq)) ∧
    (ref10mEn m = true → ppb < -50000 ∨ 50000 < ppb → goes (.ref10mGate ppb) fun t => t.refOk = false ∧ t.refRun = 0 ∧ t.freq = m.freq) ∧
    goes .ref10mLost (fun t => t.refOk = false ∧ t.refRun = 0 ∧ t.freqAid = false ∧ (m.refOk = true → bitOf t.evt 4 = true))

/-- R259, R263, R266, R268, R270, R274 to R277, R285, R286, 01 R23, 11 R366, Tables 8.2, 8.3 and 8.23: the second boundary and what it brings,
the end of HOLDOVER and of an AT_EDGE wait, the sync frames of the tile replicas and the output signals. -/
def Obligations.SecondBoundaryAndServo : Prop :=
  ∀ (s : State) (p : PortId) (g : TileId) (off d : Int) (day n : Nat),
    let m := s.tim
    let goes (i : Instr) (P : State → Prop) : Prop := ∃ t, exec i s = .next t ∧ P t
    let turn (P : Tim → Prop) : Prop := goes .secondBoundary fun t => P t.tim
    let leap := fld m.leap 31 30
    let utc : Int := (m.sec.toNat : Int) + 1 - (fld m.leap 7 0 : Nat)
    let today := (m.sec.toNat + 1 - fld m.leap 7 0) / 86400
    let x : Int := ((m.sec.toNat + 1 : Nat) : Int) * 4000000000 + d
    let c := (s.port p).tc
    (m.running = false → goes .secondBoundary fun t => SameButEvents t s) ∧
    (m.running = true →
      goes .secondBoundary (fun t => eventLatched (.weaver p) 18 t ∧ eventLatched .sup 8 t ∧ t.tim.ref = chooseRef t.tim ∧
        t.mem = s.mem ∧ t.acc = s.acc) ∧
      (m.step = none → turn fun t => t.sec = m.sec + 1 ∧ t.ns = 0 ∧ t.valid = m.valid) ∧
      (m.step = some d → m.sec.toNat + 1 < 2 ^ 32 → turn fun t => t.sec = BitVec.ofInt 32 (x / 4000000000) ∧
        t.ns = (x % 4000000000).toNat / 32 * 8 ∧ t.step = none ∧ t.valid = (m.valid || m.stepSets) ∧ bitOf t.evt 5 = true) ∧
      (m.step = none → m.sec.toNat + 1 < 2 ^ 32 → leap = 1 → m.leap60 = false → utc % 86400 = 0 → turn fun t => t.leap = m.leap ∧ t.leap60 = true) ∧
      (leap = 1 → m.leap60 = true → fld m.leap 7 0 < 255 → turn fun t => fld t.leap 31 30 = 0 ∧ fld t.leap 7 0 = fld m.leap 7 0 + 1 ∧
        bitOf t.evt 8 = true) ∧
      (m.step = none → m.sec.toNat + 1 < 2 ^ 32 → leap = 2 → m.leap60 = false → (utc + 1) % 86400 = 0 → 0 < fld m.leap 7 0 →
        turn fun t => fld t.leap 31 30 = 0 ∧ fld t.leap 7 0 = fld m.leap 7 0 - 1 ∧ bitOf t.evt 8 = true) ∧
      (leap = 0 → s.boot.timeTable = [] ∨ supLives s = false ∨ bitOf m.refCfg 24 = true → turn fun t => t.leap = m.leap) ∧
      (leap = 0 → m.leap60 = false → m.step = none → m.sec.toNat + 1 < 2 ^ 32 → supLives s = true → bitOf m.refCfg 24 = false → s.boot.timeTable = [(day, n)] →
        today + 1 = day / 86400 → fld m.leap 7 0 < n → turn fun t => t.leap = setFld m.leap 31 30 1) ∧
      (m.st = .acquire → anyPhaseRef m = true → 16 ≤ m.lockN → turn fun t => t.st = .track) ∧
      (m.st = .acquire → anyPhaseRef m = true → m.lockN < 16 → turn fun t => t.st = .acquire) ∧
      (m.st = .track → anyPhaseRef m = false → turn fun t => t.st = .holdover ∧ t.holdSecs = 0) ∧
      (m.st = .holdover → anyPhaseRef m = false → turn fun t => t.st = .holdover ∧ t.holdSecs = m.holdSecs + 1) ∧
      (m.st = .unset ∨ m.st = .free ∨ m.st = .freq ∨ m.st = .holdover → anyPhaseRef m = true → turn fun t => t.st = .acquire ∧ t.learned = false) ∧
      (m.st = .unset ∨ m.st = .free → anyPhaseRef m = false → m.refOk = false → turn fun t => t.st = m.st) ∧
      (m.step = none → fld m.ppsoutCfg 31 30 = 1 → fld m.ppsoutCfg 9 0 = 0 → m.quietTo ≤ (m.sec + 1).toNat → turn fun t =>
        t.ppsOut = true ∧ t.ppsWidth = clampNat 1 999 (fld m.ppsoutCfg 19 10)) ∧
      (m.step = none → sbuNow s p ≠ .isOpen → m.valid = true → m.quietTo ≤ (m.sec + 1).toNat → replicaBad (tileOf p) s = false →
        bitOf (s.port p).pd.modeVdo 1 = true → goes .secondBoundary fun t => (t.port p).tc.sbuRun = true ∧ (t.port p).tc.sbuElement = 0 ∧
          (t.port p).tc.sbuFrame = irigB004 (sendTime (t.tim.sec.toNat - fld t.tim.leap 7 0) t.tim.leap60))) ∧
    (m.st = .holdover → fld m.holdCfg 31 16 ≠ 0 →
      (m.refOk = true → goes .holdoverExpire fun t => t.tim.st = .freq ∧ t.tim.freq = freqWord (10 * m.refPpb)) ∧
      (m.refOk = false → goes .holdoverExpire fun t => t.tim.st = .free ∧ t.tim.freq = m.freq)) ∧
    (m.st ≠ .holdover ∨ fld m.holdCfg 31 16 = 0 → exec .holdoverExpire s = .next s) ∧
    (m.pending = none → exec .atEdgeTimeout s = .next s) ∧
    (m.pending.isSome = true → goes .atEdgeTimeout fun t => t.tim = { m with pending := none, evt := orBit m.evt 7 } ∧
      ∃ v, t.flt.lines = s.flt.lines ++ [{ src := 4, detail := v }]) ∧
    (laneSwitching s g laneControl = true → exec (.replicaSync g off) s = .next s) ∧
    (coreUp s = true → laneSwitching s g laneControl = false → -16 ≤ off → off ≤ 16 → exec (.replicaSync g off) s =
      .next { s with tiles := s.tiles.set g { s.tile g with replicaOut := false, changedAt := none, lag := 0, replicaErr := off } }) ∧
    (coreUp s = true → laneSwitching s g laneControl = false → (off < -16 ∨ 16 < off) → goes (.replicaSync g off) fun t => (t.tile g).replicaOut = true ∧ ∃ v, t.flt.lines = s.flt.lines ++ [{ src := fReplica g, detail := v }]) ∧
    exec .ppsOutPulseEnd s = .next { s with tim := { m with ppsOut := false } } ∧
    (c.sbuRun = true → c.sbuStop = false → c.sbuElement < 99 → c.sbuPulse = false → exec (.sbuSignalElement p) s = .next (setPort p { s.port p with tc :=
      { c with sbuElement := c.sbuElement + 1 } } s)) ∧
    (c.sbuRun = true → c.sbuStop = true → c.sbuPulse = false → exec (.sbuSignalElement p) s = .next (setPort p { s.port p with tc :=
      { c with sbuRun := false, sbuStop := false } } s)) ∧
    (c.sbuRun = false → c.sbuPulse = true → exec (.sbuSignalElement p) s = .next (setPort p { s.port p with tc :=
      { c with sbuLeft := c.sbuLeft - 1, sbuPulse := decide (1 < c.sbuLeft) } } s)) ∧
    (c.sbuRun = false → c.sbuPulse = false → exec (.sbuSignalElement p) s = .next s)

/-- R260, R270, R275, R276, R278, Tables 8.18 and 8.19: firmware sets of the time and of the frequency. The write waits under BUSY flag 8; when it
reaches the TIME domain the set is made, kept for the next edge, or refused with TIM_EVT bit 7. -/
def Obligations.TimeSets : Prop :=
  ∀ (s : State) (v : Word) (w : Master) (i : PpsInput) (sec qns : Nat) (next : BitVec 32),
    let m := s.tim
    let goes (i : Instr) (P : State → Prop) : Prop := ∃ t, exec i s = .next t ∧ P t
    let done (P : Tim → Prop) : Prop := goes (.postedWriteComplete 8) fun t => t.acc = { s.acc with busy := s.acc.busy.set 8 none } ∧ P t.tim
    let waits (a : Nat) (x : Word) : Prop := s.acc.busy[8] = some { addr := a, value := x, master := w }
    let ns := fld m.setNs 29 0
    let refused : Tim := { m with evt := orBit m.evt 7 }
    let free : Bool := m.st == .unset || m.st == .free
    (postable .sup .timSetCtl 0x5028 s = true → exec (.immediate .sup) s = .next (posting .sup 8 0x5028 1 s) ∧
      exec (.atEdge .sup) s = .next (posting .sup 8 0x5028 2 s)) ∧
    (postable .sup .timFreq 0x502C s = true → exec (.timFreqWrite .sup v) s = .next (posting .sup 8 0x502C v s)) ∧
    (clocksRun s = true → waits 0x5028 1 →
      (secSrc m = false → refInUse m = false → ns < 1000000000 → done fun t => t.sec = m.setSec ∧ t.ns = ns / 8 * 8 ∧ t.valid = true ∧
        t.pending = none ∧ t.st = (if m.st = .unset then .free else m.st) ∧ t.freq = m.freq) ∧
      (secSrc m = true ∨ refInUse m = true ∨ 1000000000 ≤ ns → done fun t => t = refused)) ∧
    (clocksRun s = true → waits 0x5028 2 → (secSrc m = false → done fun t => t = { m with pending := some m.setSec }) ∧ (secSrc m = true → done fun t => t = refused)) ∧
    (clocksRun s = true → waits 0x502C v → (free = true → done fun t =>
        let x : Word := BitVec.ofInt 32 (max (-2000000) (min 2000000 v.toInt))
        t = { m with freq := x, start := x } ∧ ∀ y : State, y.tim = t → (regRead .sup .timFreq y).1 = x) ∧
      (free = false → done fun t => t = refused)) ∧
    (m.pending = some next → m.ref = ppsRef i → ppsEn m i = true → m.running = true →
      (∀ e, (ppsOf m i).lastEdge = some e → e + 3600000000 ≤ (sec : Int) * 4000000000 + (qns % 4000000000 : Nat)) →
      goes (.ppsEdge i sec qns) fun t => t.tim.sec = next ∧ t.tim.ns = 0 ∧ t.tim.valid = true ∧ t.tim.pending = none)

/-- R328, R332, 02 R61, R62, Tables 2.13 and 9.22: SEMA and SEMR of the supervisor, and TILE_CTL: RUN and RESTART of the threads of a tile. -/
def Obligations.PsiSemaphoresAndTileControl : Prop :=
  ∀ (s : State) (rd : Reg) (n : Fin 16) (g : TileId) (i : Fin 8) (run restart : Byte),
    let x := s.acc.sems[n]
    let a := 0x1100 + 4 * n.val
    let num : BitVec 12 := BitVec.ofNat 12 n.val
    let goes (i : Instr) (P : State → Prop) : Prop := ∃ t, exec i s = .next t ∧ P t
    let got (b : Bool) (t : State) : Prop := t.sup.regs = regsWith s.sup rd (if b then 1 else 0) ∧ t.sup.z = b ∧ t.sup.pc = s.sup.pc + 4
    let own : Master := .weaver g
    let c := (s.tile g).thr[i]
    let ta := 0x200000 + 0x20000 * g.val + 0x18000
    let rv : Word := run.setWidth 32
    let sv : Word := (restart ++ run).setWidth 32
    let busy : Fin 10 := ⟨g.val, by omega⟩
    (issues .sup s = true → readable .sup (.accSem n) a s = true →
      (x.owner = none → goes (.sema .sup rd num) fun t => got true t ∧ t.acc.sems = s.acc.sems.set n { owner := some .sup, broken := false }) ∧
      (x.owner = some .sup → goes (.sema .sup rd num) fun t => got true t ∧ t.acc.sems = s.acc.sems) ∧
      (x.owner = some .spi ∨ x.owner = some .ws → goes (.sema .sup rd num) fun t => got false t ∧ t.acc.sems = s.acc.sems)) ∧
    (issues .sup s = true → writable .sup (.accSem n) a 0 s = true → goes (.semr .sup 0 num) fun t => t.sup.regs = s.sup.regs ∧
      t.sup.pc = s.sup.pc + 4 ∧ t.acc.sems = s.acc.sems.set n { x with owner := if x.owner = some .sup then none else x.owner }) ∧
    (postable .sup (.tileCtl g) ta s = true → exec (.tileRun .sup g run) s = .next (posting .sup busy ta rv s) ∧
      exec (.tileRestart .sup g restart run) s = .next (posting .sup busy ta sv s)) ∧
    (s.flt.safe = false → writable own (.tileCtl g) ta rv s = true → goes (.tileRun own g run) fun t =>
      let d := (t.tile g).thr[i]
      d.run = run.getLsbD i.val ∧ d.regs = c.regs ∧
      d.pc = (if c.fresh = true ∧ c.run = false ∧ run.getLsbD i.val = true then BitVec.ofNat 32 (4 * i.val) else c.pc) ∧
      (c.run = true → run.getLsbD i.val = false → d.st = if c.st = .dead then .dead else .halted) ∧
      (c.run = false → run.getLsbD i.val = true → d.st = .running ∨ d.st = .stallSend) ∧
      (c.run = run.getLsbD i.val → c.st ≠ .running → c.st ≠ .stallSend → d.st = c.st)) ∧
    (s.flt.safe = false → writable own (.tileCtl g) ta sv s = true → goes (.tileRestart own g restart run) fun t =>
      let d := (t.tile g).thr[i]
      d.run = run.getLsbD i.val ∧ (restart.getLsbD i.val = true → d.pc = BitVec.ofNat 32 (4 * i.val) ∧ d.restarts = satInc c.restarts 0xFFFF ∧
        d.regs = Vector.replicate 16 0) ∧ (restart.getLsbD i.val = false → d.restarts = c.restarts ∧
        d.pc = if c.fresh = true ∧ c.run = false ∧ run.getLsbD i.val = true then BitVec.ofNat 32 (4 * i.val) else c.pc))

/-- R338 to R344, R347, Tables 10.2 to 10.4: power-on, power-up step by step, the two time-outs, loss of PWR_OK, RESET_N and TRST_N. -/
def Obligations.PowerUpAndResets : Prop :=
  ∀ (s : State) (p : PortId) (u : TeamId),
    let goes (i : Instr) (P : State → Prop) : Prop := ∃ t, exec i s = .next t ∧ P t
    let w := s.pwr
    let phase (i : Instr) (y : Pwr) : Prop := exec i s = .next { s with pwr := y }
    let low : Pwr := { w with phase := .offWait, coreEn := false, second := true }
    goes .vrimPor (fun t => t.acc = {} ∧ t.mbx = {} ∧ t.tim = {} ∧ t.crp = {} ∧ t.boot = {} ∧ t.pwr = {} ∧ t.bud = {} ∧
      (t.port p).pw = {} ∧ (t.port p).pd = {} ∧ (t.team u).st = .detached ∧ (t.team u).ctl = 0 ∧
      ∀ a, memGet t.mem a = if flashBase ≤ a then memGet s.mem a else memGet [] a) ∧
    (w.phase = .rimReset → phase .rimPorRelease { w with phase := .waitPwrOk, coreEn := true, second := false }) ∧
    (w.phase = .waitPwrOk → phase .pwrOkAssert { w with phase := .waitOsc } ∧ (w.second = false → phase .pwrTimeout low) ∧
      (w.second = true → s.crp.st ≠ .waking → goes .pwrTimeout fun t => t.pwr = { w with phase := .gaveUp, coreEn := false } ∧
        bitOf t.crp.rstCause 5 = true)) ∧
    (w.phase = .waitOsc → goes .oscReady (fun t => t = { s with pwr := { w with phase := .waitCore }, tim := { s.tim with running := true } }) ∧
      (w.second = false → phase .oscTimeout low) ∧
      (w.second = true → s.crp.st ≠ .waking → goes .oscTimeout fun t => t.pwr = { w with phase := .gaveUp, coreEn := false } ∧
        bitOf t.crp.rstCause 6 = true)) ∧
    (w.phase = .offWait → phase .coreEnOffExpire { w with phase := .waitPwrOk, coreEn := true }) ∧
    (w.phase = .waitCore → w.resetLow = false → w.fromDeep = false → w.fromOff = false →
      phase .coreResetRelease { w with phase := .coreUp, tapHeld := w.trstLow }) ∧
    (w.coreEn = true → w.phase ≠ .waitPwrOk → w.phase ≠ .rimReset →
      (beforeT4 s = false → goes .pwrOkLoss fun t => ChipReset 2 s t ∧ t.pwr.phase = .offWait ∧ t.pwr.coreEn = false) ∧
      (beforeT4 s = true → goes .pwrOkLoss fun t => t.pwr = { w with phase := .offWait, coreEn := false, second := false } ∧
        bitOf t.crp.rstCause 2 = true ∧ fld t.crp.rstCause 15 8 = fld s.crp.rstCause 15 8)) ∧
    (w.resetLow = false →
      (w.phase = .run ∨ w.phase = .boot ∨ w.phase = .coreUp → goes .resetPin fun t => ChipReset 1 s t ∧ t.pwr.phase = .resetHeld ∧ t.pwr.resetLow = true) ∧
      (w.phase = .gaveUp → goes .resetPin fun t => ChipReset 1 s t ∧ t.pwr.phase = .waitPwrOk ∧ t.pwr.coreEn = true)) ∧
    (w.phase = .resetHeld → phase .resetPinRelease { w with resetLow := false, phase := .waitOsc }) ∧
    (w.phase ≠ .resetHeld → phase .resetPinRelease { w with resetLow := false }) ∧
    phase .tapReset { w with trstLow := true, tapHeld := true }

/-- R340, R342, R345, R346, R348 to R350, R358, R359, 13 R433, Tables 10.5 to 10.7: the boot ROM starts, or TEST_MODE takes the device out of
the manual's scope; tiles are switched on in order and become ready; CRP_RST_CMD; the PHY configuration registers. -/
def Obligations.BootAndResetCommands : Prop :=
  ∀ (s : State) (p : PortId) (u : TeamId) (g : TileId) (f : FlashStatus) (test : Bool) (step : Fin 16) (v : Word),
    let goes (i : Instr) (P : State → Prop) : Prop := ∃ t, exec i s = .next t ∧ P t
    let own : Master := .weaver (tileOf p)
    let pa := 0x100000 + 0x1000 * p.val + 0x300
    let ua := 0x8000 + 0x800 * u.val + 0x20
    let cmd (v : Word) : Prop := guardOpen .sup .crpRstCmd 0x4814 v s = true
    (s.pwr.phase = .coreUp →
      (test = false ∨ s.pwr.fromDeep = true → goes (.bootStart test f) fun t => t.pwr.phase = .boot ∧ t.boot = { s.boot with step := 1, plan := some f } ∧
        t.mem = s.mem) ∧
      (s.pwr.fromDeep = false → exec (.bootStart true f) s = .fault .factoryTest)) ∧
    (s.pwr.phase = .boot →
      (bootPaused s = none ∨ step.val ≠ s.boot.step + 1 → exec (.bootStepTimeout step) s = .next { s with flt := { s.flt with lines := s.flt.lines ++ [{ src := 6, detail := BitVec.ofNat 32 step.val }] } }) ∧
      (bootPaused s = some f → step.val = s.boot.step + 1 → f.pauses = [step.val] → s.boot.step < 8 → s.flt.safe = false → goes (.bootStepTimeout step) fun t =>
        t.boot.step = 0xF ∧ t.pwr.phase = .run ∧ { src := 6, detail := BitVec.ofNat 32 step.val } ∈ t.flt.lines) ∧
      (s.boot.step = 1 → (∀ h, h < g → (s.tile h).on = true) →
        exec (.tileSwitchOn g) s = .next { s with tiles := s.tiles.set g { s.tile g with on := true } }) ∧
      (s.boot.step = 1 → (∃ h, h < g ∧ (s.tile h).on = false) → exec (.tileSwitchOn g) s = .next s)) ∧
    ((s.tile g).on = true → (s.tile g).ready = false → (s.tile g).link.isolated = false →
      ((∃ h, h ≠ g ∧ (s.tile h).ready = false) ∨ s.boot.plan = none → goes (.tileReady g) fun t => (t.tile g).ready = true ∧
        (t.tile g).link.trained = true ∧ t.boot = s.boot ∧ (tileOf p = g → (t.port p).hub.cut = false)) ∧
      ((∀ h, h ≠ g → (s.tile h).ready = true) → s.boot.plan = some f → s.pwr.phase = .boot → s.boot.step = 1 → s.pwr.fromDeep = false →
        (3 ∈ f.pauses → goes (.tileReady g) fun t => t.boot = { s.boot with step := 2 } ∧ t.pwr = s.pwr) ∧
        (f.pauses = [] → goes (.tileReady g) fun t => t.boot.step = 0xF ∧ t.boot.plan = none ∧ t.pwr.phase = .run ∧ t.pwr.bootDone = true ∧ t.sup.run = true))) ∧
    (beforeT4 s = false → s.flt.safe = false → cmd 0x10000 → goes (.chip .sup) fun t => ChipReset 3 s t ∧
      t.pwr.phase = if s.pwr.coreEn then .waitOsc else .waitPwrOk) ∧
    (s.flt.safe = false → s.flt.inWr = false → cmd 0x100 → goes (.sup .sup) fun t => t.flt.inWr = true ∧ t.flt.wrCause = 0x1F ∧
      t.flt.wrCount = satInc s.flt.wrCount 0xFFFF ∧ t.sup.run = false ∧ t.sup.regs = Vector.replicate 16 0 ∧ t.ports = s.ports) ∧
    (s.flt.safe = false → cmd (BitVec.ofNat 32 (2 ^ g.val)) → goes (.tile .sup g) fun t => (t.tile g).ready = false ∧ (t.tile g).on = (s.tile g).on ∧
      (∀ i : Fin 8, (t.tile g).thr[i].run = false) ∧ (∀ h, h ≠ g → (t.tile h).on = (s.tile h).on ∧ (t.tile h).ready = (s.tile h).ready) ∧
      (tileOf p = g → (t.port p).hub.cut = true ∧ (t.port p).hub.conn = false ∧ (t.port p).phy = {} ∧ (t.port p).pw.keeper = (s.port p).pw.keeper)) ∧
    (postable .sup (.portPhyCfg p) pa s = true →
      exec (.phyCfgWrite .sup (BitVec.ofNat 24 pa) v) s = .next (posting .sup ⟨(tileOf p).val, by omega⟩ pa v s)) ∧
    (writable own (.portPhyCfg p) pa v s = true → goes (.phyCfgWrite own (BitVec.ofNat 24 pa) v) fun t => (t.port p).hub.phyCfg = v &&& 0x37F ∧
      (t.port p).hub.phy = { (s.port p).hub.phy with adapting := (s.port p).hub.phy.adapting && bitOf v 9 }) ∧
    (writable .sup (.teamPhyCfg u) ua v s = true → goes (.phyCfgWrite .sup (BitVec.ofNat 24 ua) v) fun t => (t.team u).phyCfg = v &&& 0x37F ∧
      (t.team u).phy = { (s.team u).phy with adapting := (s.team u).phy.adapting && bitOf v 9 })

/-- R371 to R376, R379 to R382, Tables 11.4, 11.8 and 11.12: the update session of the SPI path, from BEGIN to ACTIVATE, what the flash answers,
and the confirmation of a trial release. An error ends the session, or is shown in ERR. -/
def Obligations.UpdateSessions : Prop :=
  ∀ (s : State) (off : Nat) (data : List Byte) (er : Bool) (k : Nat) (f : FlashStatus),
    let b := s.boot
    let goes (i : Instr) (P : State → Prop) : Prop := ∃ t, exec i s = .next t ∧ P t
    let boot (i : Instr) (y : Boot) : Prop := goes i fun t => t.boot = y ∧ t.mem = s.mem
    let ends (i : Instr) (st : UpdState) (e : Nat) : Prop := goes i fun t => t.boot.src = .none ∧ t.boot.upd = st ∧ t.boot.busy = false ∧
      t.boot.err = e ∧ t.boot.unit = none ∧ Posted 0x12 0x5B t
    let cmd (v : Word) : Prop := spiIdle s = true ∧ guardOpen .spi .updCmd 0x6010 v s = true
    let arg := b.arg.toNat
    let may : Bool := b.src == .spi && !b.busy && supUp s
    let slot := otherSlot b.slot
    let flash := flashBase + slotBase slot + off
    let read (x : Boot) : Boot := { x with qspi := { b.qspi with sent :=
      [{ op := if b.qspi.quad then 0x6B else 0x0B, addr := some (BitVec.ofNat 24 (slotBase slot)), quad := b.qspi.quad }] } }
    (cmd 1 →
      (b.trial = false → b.src = .none → bitOf b.policy 0 = true → supUp s = true → arg ≤ 0x400000 → boot (.begin .spi) { b with
        src := .spi, upd := .isOpen, busy := false, err := 0, partIdx := 0, units := 0, length := arg, unit := none }) ∧
      (b.trial = true → boot (.begin .spi) { b with err := 11 }) ∧
      (b.trial = false → b.src ≠ .none → boot (.begin .spi) { b with err := 12 }) ∧
      (b.trial = false → b.src = .none → bitOf b.policy 0 = false → boot (.begin .spi) { b with err := 13 })) ∧
    (cmd 2 →
      (may = true → arg = 4096 * b.units → arg < b.length → (arg = 0 → row1 (updBuf s) = true ∧ row2 (updBuf s) = true) →
        boot (.write .spi) { b with upd := .writing, busy := true, unit := some (arg, updBuf s) }) ∧
      (may = true → arg ≠ 4096 * b.units ∨ b.length ≤ arg → boot (.write .spi) { b with err := 9 }) ∧
      (may = true → arg = 0 → b.units = 0 → 0 < b.length → row1 (updBuf s) = false → ends (.write .spi) .failed 3) ∧
      (may = false → boot (.write .spi) { b with err := 11 })) ∧
    (b.unit = some (off, data) →
      (s.Inv → goes (.writeComplete true true) fun t => t.boot.busy = false ∧ t.boot.upd = .isOpen ∧ t.boot.units = b.units + 1 ∧ t.boot.unit = none ∧
        (∀ c ∈ t.boot.qspi.sent, c.op = 0x06 ∨ c.op = 0x02 ∨ c.op = 0x05) ∧
        ∀ h : k < data.length, memGet t.mem (flash + k) = data[k]) ∧
      (off % 65536 ≠ 0 ∨ er = true → ends (.writeComplete false er) .failed 1) ∧
      (off % 65536 = 0 → ends (.writeComplete er false) .failed 2)) ∧
    (cmd 3 →
      (may = true → b.units ≠ 0 → b.length ≤ b.units * 4096 → boot (.verify .spi) { b with upd := .verifying, busy := true }) ∧
      (may = true → (b.units = 0 ∨ b.units * 4096 < b.length) → boot (.verify .spi) { b with err := 10 })) ∧
    (b.upd = .verifying → b.src = .spi →
      (verifySlot s slot (currentRecord s).keyMin (currentRecord s).minRollback = none →
        boot .verifyComplete (read { b with upd := .verified, busy := false })) ∧
      (∀ e i, verifySlot s slot (currentRecord s).keyMin (currentRecord s).minRollback = some (e, i) → ends .verifyComplete .failed e)) ∧
    (cmd 4 →
      (may = true → b.upd = .verified → boot (.activate .spi) { b with upd := .activating, busy := true, actReset := bitOf b.arg 0 }) ∧
      (may = false ∨ b.upd ≠ .verified → boot (.activate .spi) { b with err := 11 })) ∧
    (b.upd = .activating → b.src = .spi →
      ends (.activationCommit false) .failed 1 ∧
      (entryPlace s ≠ none → b.actReset = true → goes (.activationCommit true) fun t => t.boot.afterReset = true ∧ t.pwr.phase = resetPhase s ∧
        t.acc.lock = 0 ∧ ∀ p, (t.port p).pw.keeper = 0) ∧
      (entryPlace s ≠ none → b.actReset = false → goes (.activationCommit true) fun t => t.boot.src = .none ∧ t.boot.upd = .idle ∧ Posted 0x12 0x5B t)) ∧
    (cmd 5 →
      (b.src = .spi → b.upd ≠ .activating → ends (.abort .spi) .idle 0) ∧
      (b.src ≠ .spi ∨ b.upd = .activating → boot (.abort .spi) { b with err := 11 })) ∧
    (b.src ≠ .none → ends .sessionTimeout .failed 14) ∧ (b.src = .none → exec .sessionTimeout s = .next s) ∧
    (spiIdle s = true → guardOpen .spi .bootConfirm 0x6024 1 s = true → b.windowOn = true → goes (.confirm .spi) fun t =>
      t.boot.windowOn = false ∧ (supUp s = true → entryPlace s ≠ none → t.boot.trial = false ∧ t.boot.window = 0 ∧ t.boot.slotRec.trial = false)) ∧
    (b.windowOn = true → goes (.confirmWindowExpire f) fun t => Posted 0x12 0x5B t) ∧
    (b.windowOn = false → exec (.confirmWindowExpire f) s = .next s)

/-- R372 to R374, 03 R95, Tables 11.8 and 11.9: the DFU interface of a team's station function that its host can reach. -/
def Obligations.DfuRequests : Prop :=
  ∀ (s : State) (u : TeamId) (data : List Byte) (block : Nat), stationUp s u = true →
    let x := (s.team u).station
    let b := s.boot
    let goes (i : Instr) (P : State → Station → Prop) : Prop := ∃ t, exec i s = .next t ∧ P t (t.team u).station
    let acks (i : Instr) (P : State → Station → Prop) : Prop := goes i fun t y => (t.team u).answer = .control [] ∧ P t y
    let stalls (i : Instr) (P : State → Station → Prop) : Prop := goes i fun t y => (t.team u).answer = .stall ∧ P t y
    let pad : List Byte := data ++ List.replicate (4096 - data.length) 0xFF
    let may : Bool := b.src == .dfu u && !b.busy && supUp s
    (x.dfuMode = false → bitOf b.policy (4 + u.val) = true → b.rescue = false → acks (.dfuDetach u) fun t y => y.dfuMode = true ∧ y.dfuFresh = true ∧
      y.dfu = .dfuIdle ∧ y.addr = 0 ∧ wPortChange t u 65 &&& 1 = 1) ∧
    (x.dfuMode = true ∨ bitOf b.policy (4 + u.val) = false ∨ b.rescue = true → stalls (.dfuDetach u) fun _ y => y = x) ∧
    (x.dfuMode = true →
      stalls (.dfuUpload u) (fun t y => y = x ∧ t.boot = b) ∧
      (x.dfu = .dfuIdle → data ≠ [] → data.length ≤ 4096 → b.trial = false → b.src = .none → bitOf b.policy (4 + u.val) = true → supUp s = true →
        row1 pad = true → row2 pad = true → acks (.dfuDnload u 0 data) fun t y => y.dfu = .dnloadSync ∧ y.pollMs = 800 ∧ t.boot.src = .dfu u ∧
          t.boot.upd = .writing ∧ t.boot.busy = true ∧ t.boot.unit = some (0, pad)) ∧
      (x.dfu = .dnloadIdle → data ≠ [] → data.length ≤ 4096 → may = true → block ≠ 0 → block = b.units → 4096 * block < b.length →
        acks (.dfuDnload u block data) fun t y => y.dfu = .dnloadSync ∧ t.boot.unit = some (4096 * block, pad)) ∧
      (x.dfu = .dfuIdle → data = [] ∨ 4096 < data.length → stalls (.dfuDnload u block data) fun t y => y.dfu = .error ∧ y.dfuStatus = 0x0F ∧ t.boot = b) ∧
      (x.dfu = .dnloadIdle → may = true → b.units ≠ 0 → acks (.dfuManifest u) fun t y => y.dfu = .manifest ∧ y.pollMs = 3000 ∧
        t.boot.upd = .verifying ∧ t.boot.busy = true) ∧
      (x.dfu ≠ .dnloadIdle → x.dfu ≠ .error → stalls (.dfuManifest u) fun t y => y.dfu = .error ∧ t.boot = b) ∧
      goes (.dfuGetstatus u) (fun t y => ∃ poll, (t.team u).answer = .control ([lowByte x.dfuStatus] ++ toBytes 3 poll ++
          [lowByte (dfuCode x.dfu (b.busy && b.src == .dfu u)), 0]) ∧ (x.dfu = .manifest ∨ x.dfu = .dnloadSync → poll = x.pollMs) ∧
        y.dfu = (if x.dfu = .dnloadSync ∧ (b.busy = false ∨ b.src ≠ .dfu u) then .dnloadIdle else x.dfu)) ∧
      (x.dfu = .error → acks (.dfuClrstatus u) fun _ y => y = { x with dfu := .dfuIdle, dfuStatus := 0 }) ∧
      (x.dfu ≠ .error → stalls (.dfuClrstatus u) fun _ y => y = x) ∧
      (x.dfu ≠ .error → acks (.dfuAbort u) fun t y => y.dfu = .dfuIdle ∧ (b.src = .dfu u → b.upd ≠ .activating → t.boot.src = .none ∧ t.boot.upd = .idle)) ∧
      (x.dfu = .error → stalls (.dfuAbort u) fun t y => y = x ∧ t.boot = b))

/-- R389, R391, R394 to R405, R409, R410, Tables 12.1 to 12.4 and 12.10 to 12.12: the supervisor's WAIT commits to SLEEP, DEEP or OFF where
every condition of Table 12.2 holds and is refused otherwise; DEEP entry is aborted before the end of step 4; a power state becomes resident, a source wakes the device, the wake
completes, a failed wake is retried; CRP_RET_DATA reads and writes retention RAM; what needs the clocks of the hub die does nothing while they do not
run (R392, R393; log 148). -/
def Obligations.PowerStates : Prop :=
  ∀ (s : State) (w : WakeSrc) (v : Word) (m : Master) (src : PostSource) (r : Record) (n : Fin 64) (rd ra : Reg),
    let c := s.crp
    let pw := s.pwr
    let mode := fld c.mode 2 0
    let mask := if ra = 0 then s.sup.emask else getReg s.sup ra
    let goes (i : Instr) (P : State → Prop) : Prop := ∃ t, exec i s = .next t ∧ P t
    let up (t : State) : Prop := t.crp.st = .waking ∧ t.pwr.phase = .waitPwrOk ∧ t.pwr.coreEn = true ∧ t.pwr.second = false
    let ptr := c.retPtr.toNat
    let aborted (code : Nat) (t : State) : Prop := EntryEnded code 0 s t ∧ t.crp.st = .run ∧ t.crp.wakeN = false
    let quietSrc : Prop := fld s.flt.src[n] 3 1 = 0 ∧ (n.val < 8 ∨ 21 < n.val) ∧ (24 ≤ n.val → n.val % 5 ≠ 0 ∧ n.val % 5 ≠ 2)
    (c.st = .entering →
      (c.target = .sleep → exec .entryResident s = .next { s with crp := { c with
        st := if c.wake.isSome then .waking else .sleep, residentAt := some s.now } }) ∧
      (c.target = .deep → goes .entryResident fun t => t.crp.st = .deep ∧ t.pwr.phase = .minOff ∧ t.pwr.coreEn = false ∧
        t.pwr.faultHeld = some (faultLow s) ∧ t.pwr.fromDeep = true ∧ t.acc.lock = 0 ∧ t.sup.run = false ∧
        (∀ a, retBase ≤ a → memGet t.mem a = memGet s.mem a) ∧ ∀ p, (t.port p).pw.keeper = (s.port p).pw.keeper ∧ (t.port p).tc.rp = (s.port p).tc.rp) ∧
      (c.target = .off → goes .offDischargeDone fun t => t.crp.st = .off ∧ t.pwr.phase = .minOff ∧ t.pwr.coreEn = false ∧
        t.pwr.faultHeld = some (faultLow s) ∧ t.pwr.fromOff = true ∧ (∀ p, (t.port p).pw.keeper = 0) ∧
        ∀ a, memGet t.mem a = if flashBase ≤ a then memGet s.mem a else memGet [] a)) ∧
    (c.st ≠ .entering → exec .entryResident s = .next s ∧ exec .offDischargeDone s = .next s) ∧
    (issues .sup s = true → 2 ≤ mode →
      ((∀ row, row < 14 → ∀ j, j < 64 → entryFails mode mask row j s = false) → ∃ t, exec (.wait .sup rd ra) s = .next t ∧ t.crp.st = .entering ∧
        t.crp.target = (if mode = 2 then .sleep else if mode = 3 then .deep else .off) ∧ t.crp.abortable = decide (mode = 3) ∧
        t.crp.wakeN = true ∧ t.crp.wake = none ∧ t.crp.refused = c.refused ∧ t.crp.mode = c.mode ∧ t.sup.st = .wait ∧ t.sup.pc = s.sup.pc ∧
        (mode = 4 → ∀ p, (t.port p).pw.keeper = 0 ∧ (t.port p).tc.rp = .none)) ∧
      (∀ row j, entryFails mode mask row j s = true → (∀ b, b < row → ∀ e, e < 64 → entryFails mode mask b e s = false) →
        (∀ e, e < j → entryFails mode mask row e s = false) → ∃ t, exec (.wait .sup rd ra) s = .next t ∧ EntryEnded (rowCode row) j s t ∧
          t.sup.regs = regsWith s.sup rd ((ependOf s .sup &&& mask) ||| 0x800#32) ∧ t.ports = s.ports ∧ t.teams = s.teams ∧ t.mem = s.mem ∧
          t.crp = { c with refused := t.crp.refused, refuser := t.crp.refuser, refIndex := t.crp.refIndex })) ∧
    (c.st = .entering → c.target = .deep → coreUp s = true → s.sup.st = .wait →
      (c.abortable = true →
        (firstPost s src = some (src, r) → frameHeld s src = false → (routeOf s r).isSome = true →
          goes (.recordEnqueue src) fun t => aborted 9 t) ∧
        (2 ≤ fld s.flt.src[n] 7 6 → quietSrc → goes (.faultReport n v) fun t => aborted 10 t)) ∧
      (c.abortable = false →
        (firstPost s src = some (src, r) → frameHeld s src = false → goes (.recordEnqueue src) fun t => t.crp.st = .entering ∧ t.crp.refused = c.refused) ∧
        (quietSrc → goes (.faultReport n v) fun t => t.crp.st = .entering ∧ t.crp.refused = c.refused))) ∧
    (pw.phase = .minOff →
      (c.wake = none → exec .wakeMinOffExpire s = .next { s with pwr := { pw with phase := .asleep } }) ∧
      (c.wake.isSome = true → goes .wakeMinOffExpire up)) ∧
    (wakeEnds s c.target w = false → exec (.wakeSource w) s = .next s) ∧
    (wakeEnds s c.target w = true → c.wake = none →
      (c.st = .entering → exec (.wakeSource w) s = .next { s with crp := { c with wake := some w, wakeAt := s.now, replay := true } }) ∧
      (c.st = .sleep → exec (.wakeSource w) s = .next { s with crp := { c with wake := some w, wakeAt := s.now, st := .waking } }) ∧
      (c.st = .deep ∨ c.st = .off →
        (pw.phase = .asleep → goes (.wakeSource w) fun t => up t ∧ t.crp.wake = some w) ∧
        (pw.phase ≠ .asleep → exec (.wakeSource w) s = .next { s with crp := { c with wake := some w, wakeAt := s.now } })) ∧
      (c.st = .wakeFailed → exec (.wakeSource w) s = .next s)) ∧
    (c.st = .waking → c.target = .sleep → goes .sleepWakeComplete fun t => t.crp.st = .run ∧ t.crp.mode = 0 ∧ t.crp.wakeN = false ∧
      t.crp.wake = none ∧ t.crp.wakeLast = wakeWord c ∧ Posted 0x11 0x5C t ∧ (s.sup.st = .wait → t.sup.st = .running ∧ t.sup.pc = s.sup.pc + 4)) ∧
    (pw.phase = .boot → pw.fromDeep = true → s.boot.step = 8 → goes .deepWakeHandover fun t => t.pwr.phase = .run ∧ t.pwr.bootDone = true ∧
      t.boot.step = 0xF ∧ t.sup.run = true ∧ eventLatched .sup 11 t ∧ (c.st = .waking → t.crp.st = .run ∧ t.crp.wakeLast = wakeWord c)) ∧
    (wsIdle s = true → guardOpen .ws .crpPsCmd 0x4840 v s = true → bitOf v 0 = true → c.st = .wakeFailed → goes (.retry .ws v (~~~v)) up) ∧
    (postable .sup .crpRetData 0x483C s = true → exec (.retDataAccess .sup true v) s = .next (posting .sup 9 0x483C v s)) ∧
    (readable .sup .crpRetData 0x483C s = true → (eccAt s .retention ptr).isNone = true → goes (.retDataAccess .sup false v) fun t =>
      t.acc.data = retWord s ptr ∧ t.acc.answer = .ok ∧ t.crp = { c with retPtr := c.retPtr + 1 } ∧ t.mem = s.mem) ∧
    (s.Inv → clocksRun s = true ∨ wsUp s = true → s.acc.busy[9] = some { addr := 0x483C, value := v, master := m } →
      (ptr < 15360 → goes (.postedWriteComplete 9) fun t => retWord t ptr = v ∧ t.crp.retPtr = c.retPtr + 1 ∧
        ∀ a, a < retKey ptr ∨ retKey ptr + 4 ≤ a → memGet t.mem a = memGet s.mem a) ∧
      (15360 ≤ ptr → goes (.postedWriteComplete 9) fun t => t.mem = s.mem ∧ t.crp.retPtr = c.retPtr + 1 ∧ bitOf t.acc.errStat 5 = true)) ∧
    (clocksRun s = false →
      exec .relayGrant s = .next s ∧ exec .scorecardRecord s = .next s ∧ exec .lockstepMismatch s = .next s ∧ exec .supWatchdog s = .next s ∧
      exec .freelistRebuild s = .next s ∧ exec (.portMove .sup 0 v (~~~v)) s = .next s ∧ exec (.semAcquire .sup 0) s = .next s ∧
      (∀ i, i ≠ 9 → exec (.postedWriteComplete i) s = .next s) ∧ (∀ q, exec (.holdTimeout q) s = .next s ∧ exec (.queuePtrMismatch q true) s = .next s) ∧
      (∀ u, exec (.hostResume u) s = .next s ∧ exec (.teamSuspend u) s = .next s ∧ exec (.busReset u true) s = .next s) ∧
      ∀ p, exec (.pdTxStart p) s = .next s ∧ exec (.goodcrc p) s = .next s ∧ exec (.ttDescriptor p) s = .next s ∧ exec (.tSenderResponse p) s = .next s ∧
        exec (.remoteWakeK p) s = .next s ∧ exec (.weaverWatchdog p) s = .next s)

/-- R412 to R422, R426, R427, Tables 13.1, 13.2, 13.9, 13.11, 13.12 and 13.18: the collector latches a report, starts the reactions of its
source and keeps the scorecard; its status, source, injection and software-report registers. -/
def Obligations.FaultCollector : Prop :=
  ∀ (s : State) (n : Fin 64) (d v : Word) (x : Intake) (l : Line),
    let f := s.flt
    let goes (i : Instr) (P : State → Prop) : Prop := ∃ t, exec i s = .next t ∧ P t
    let cfg := f.src[n]
    let rises : Bool := !f.stat.getLsbD n.val
    let plain : Prop := bitOf cfg 1 = false ∧ bitOf cfg 2 = false ∧ bitOf cfg 3 = false ∧ (n.val < 8 ∨ 21 < n.val) ∧ (24 ≤ n.val → n.val % 5 ≠ 0 ∧ (n.val % 5 = 2 → supUp s = false))
    let quiet : Prop := f.lines.all (fun y => y.src != n) = true
    let sev := fld cfg 7 6
    (clocksRun s = false → exec (.faultReport n d) s = .next s) ∧
    (clocksRun s = true →
      (bitOf cfg 3 = false → goes (.faultReport n d) fun t => t.flt.stat.getLsbD n.val = true) ∧
      (rises = true → bitOf cfg 1 = true → bitOf cfg 3 = false → n.val ≠ 12 → goes (.faultReport n d) fun t => t.flt.nmi = true) ∧
      (plain → mayAbort s = false →
        (quiet → f.recording = none → f.any = false → f.entries[f.newest] = none → f.intake = [] → goes (.faultReport n d) fun t =>
          (∃ st, StampNow none st s ∧ t.flt = { f with stat := f.stat ||| BitVec.ofNat 64 (2 ^ n.val)
                                                       recording := some { src := n, sev := sev, count := 1, stamp := st, detail := d, lastAt := s.now } }) ∧
            t.mem = s.mem ∧ t.ports = s.ports) ∧
        (quiet → f.recording = some x → x.src = n → s.now ≤ x.lastAt + 12500 * max 1 (fld f.ctl 31 24) → goes (.faultReport n d) fun t =>
          t.flt.recording = some { x with count := satInc x.count 0xFFFF, lastAt := s.now } ∧ t.flt.intake = f.intake) ∧
        (quiet → f.recording = some x → x.src ≠ n → f.intake.any (fun y => y.src == n) = false → 4 ≤ f.intake.length → goes (.faultReport n d) fun t =>
          t.flt.lostFlag = true ∧ t.flt.lostCount = satInc f.lostCount 0xFFFF ∧ t.flt.intake = f.intake ∧ t.flt.recording = f.recording ∧
          (f.lostCount = 0 → Posted 0x10 0x59 t)) ∧
        (f.lines = [l] → l.src = n → goes (.faultReport n d) fun t => t.flt.lines = [] ∧ t.flt.stat.getLsbD n.val = true))) ∧
    (f.recording = none → exec .scorecardRecord s = .next s) ∧
    (clocksRun s = true → f.recording = some x → goes .scorecardRecord fun t =>
      let i : Fin 16 := if f.any then f.newest + 1 else 0
      t.flt.newest = i ∧ t.flt.any = true ∧ t.flt.total = satInc f.total 0xFFFF ∧ t.flt.entries = f.entries.set i (some x) ∧ Posted 0x0F 0x59 t ∧
        t.flt.recording = f.intake.head? ∧ t.flt.intake = f.intake.tail) ∧
    (writable .sup .fltStatHi 0x3000 v s = true → goes (.fltStatClear .sup true v) fun t => t.flt = { f with stat := f.stat &&& ~~~(v ++ 0#32) }) ∧
    (writable .sup .fltStatLo 0x3004 v s = true → goes (.fltStatClear .sup false v) fun t => t.flt = { f with stat := f.stat &&& ~~~(0#32 ++ v) }) ∧
    (writable .sup .fltLost 0x3010 0x80000000 s = true → goes (.fltLostClear .sup) fun t => t.flt = { f with lostFlag := false, lostCount := 0 }) ∧
    (guardOpen .sup (.fltSrc n) (0x3200 + 8 * n.val) v s = true → goes (.fltSrcWrite .sup n v (~~~v)) fun t =>
      t.flt = { f with src := f.src.set n (v &&& 0xDF), srcC := f.srcC.set n (~~~(v &&& 0xDF)) }) ∧
    (writable .sup .fltSwrep 0x3038 v s = true → bitOf v 31 = false → goes (.swFault .sup v) fun t =>
      t.flt = { f with lines := f.lines ++ [{ src := 22, detail := v &&& 0xFFFF }] } ∧ t.mem = s.mem) ∧
    (writable .sup .fltSwrep 0x3038 v s = true → bitOf v 31 = true → s.Inv → dumpKept s = false → goes (.swFault .sup v) fun t =>
      retWord t dumpBase = 0x44555A4E ∧ retWord t (dumpBase + 3) = BitVec.ofNat 32 (22 * 256 + 4)) ∧
    (guardOpen .sup .fltInj 0x3028 v s = true →
      (bitOf v 31 = false ∨ fld v 26 24 ≠ 4 → goes (.faultInject .sup v (~~~v)) fun t => t.flt = { f with inj := v &&& 0x871F0000, injC := ~~~(v &&& 0x871F0000) }) ∧
      (bitOf v 31 = true → fld v 26 24 = 4 → f.safe = false → bitOf f.src[21] 3 = false → goes (.faultInject .sup v (~~~v)) fun t =>
        t.flt.safe = true ∧ t.flt.safeCause = 1 ∧ t.sup.run = false))

/-- R427 to R441, R449, Tables 13.9, 13.10, 13.13 and 13.17: the safe state, the warm restart of the supervisor, the watchdogs, and the detach that
the rim slice makes where the weaver is halted. -/
def Obligations.RestartsAndSafeState : Prop :=
  ∀ (s : State) (p : PortId) (idx vbus : Nat) (unc dig : Bool),
    let f := s.flt
    let goes (i : Instr) (P : State → Prop) : Prop := ∃ t, exec i s = .next t ∧ P t
    let safe (i : Instr) (cause : Nat) : Prop := goes i fun t => t.flt.safe = true ∧ t.flt.safeCause = cause ∧ t.sup.run = false ∧
      (∀ q, (cpuOf t (.weaver q)).run = false) ∧ t.boot.windowOn = false
    let recent := f.wrTimes.filter fun a => decide (s.now < a + wrWin s)
    let warm (i : Instr) (cause : Nat) (n : Nat) : Prop := f.safe = false → bitOf f.src[n]! 3 = false →
      (f.inWr = false → recent.length + 1 ≤ wrMax s → goes i fun t => t.flt.inWr = true ∧ t.flt.wrCause = cause ∧ t.flt.m5 = false ∧
        t.flt.wrCount = satInc f.wrCount 0xFFFF ∧ t.flt.wrTimes = recent ++ [s.now] ∧ t.sup.run = false ∧ t.sup.pc = 0) ∧
      (f.inWr = false → wrMax s < recent.length + 1 → safe i 3) ∧ (f.inWr = true → safe i 2)
    let c := cpuOf s (.weaver p)
    let tries := c.hwRestarts.filter fun a => decide (s.now < a + wvrWin s)
    let runs : Prop := c.run = true ∧ (c.st = .running ∨ c.st = .stallSend ∨ c.st = .stallRld ∨ c.st = .stallFence)
    (clocksRun s = true → f.safe = false → idx ≤ 0x42 → bitOf f.src[21] 3 = false →
      safe (.collectorMismatch idx) 1) ∧
    (clocksRun s = true → 0x42 < idx → copyMismatch f = none → goes (.collectorMismatch idx) fun t => SameButEvents t s) ∧
    (clocksRun s = true → f.safe = true → bitOf f.src[21] 3 = false → goes (.collectorMismatch idx) fun t => t.flt.safe = true ∧ t.flt.safeCause = f.safeCause) ∧
    (clocksRun s = true → s.sup.run = true → mayAbort s = false → warm .lockstepMismatch 8 8) ∧
    (clocksRun s = true → s.sup.run = true → s.sup.st ≠ .wait → mayAbort s = false → warm .supWatchdog 9 9) ∧
    (s.sup.st = .wait → s.crp.st ≠ .run → exec .supWatchdog s = .next s) ∧
    (f.inWr = true → f.m5 = false → f.safe = false →
      (f.reload = false → s.ecc = [] → goes (.warmScrubEnd false dig) fun t => t.flt.m5 = true ∧ t.flt.warm = true ∧ t.flt.reloaded = false ∧
        t.sup.run = true ∧ t.sup.st = .running ∧ t.sup.pc = s.boot.entry ∧ t.sup.evec = s.boot.vectors ∧ (dumpKept s = false → s.boot.confirmDue = false → t.mem = s.mem) ∧
        (dumpKept s = true → fld s.crp.retErr 14 12 = 0 → retWord t (dumpBase + 3071) ≠ 0)) ∧
      safe (.warmScrubEnd true false) 5) ∧
    (f.inWr = false → exec (.warmScrubEnd unc dig) s = .next s ∧ exec .doneTimeout s = .next s) ∧
    (f.inWr = true → f.m5 = true → f.safe = false → safe .doneTimeout 4) ∧
    (writable .sup .fltSupCmd 0x3020 1 s = true → f.inWr = true → f.m5 = true → f.safe = false → goes (.done .sup) fun t =>
      t.flt = { f with inWr := false, m5 := false, warm := false }) ∧
    (clocksRun s = true → runs →
      (tries.length < wvrMax s → goes (.weaverWatchdog p) fun t =>
        let y := cpuOf t (.weaver p)
        (y.st = .running ∨ (y.st = .stallSend ∧ sendStalled t p = true)) ∧ y.run = true ∧ y.pc = BitVec.ofNat 32 (4 * (laneOf p).val) ∧ y.restarts = satInc c.restarts 0xFFFF ∧
          y.hwRestarts = tries ++ [s.now] ∧ y.regs = Vector.replicate 16 0 ∧ ∃ e, e ∈ t.flt.lines ∧ e.src = fWeaver (tileOf p)) ∧
      (wvrMax s ≤ tries.length → goes (.weaverWatchdog p) fun t => (cpuOf t (.weaver p)).st = .halted ∧ (cpuOf t (.weaver p)).run = false ∧
        ∃ e ∈ t.flt.lines, e.src = fWeaver (tileOf p) ∧ fld e.detail 7 0 = 3)) ∧
    (c.run = false → exec (.weaverWatchdog p) s = .next s) ∧
    (weaverLives s p = false → (s.port p).tc.st = .attached → attachedCc (s.port p).tc = .vOpen → goes (.rimDetach p vbus) fun t =>
      (t.port p).tc.st = (if tcEn s p && !(s.port p).pw.fetShort then .unattached else .disabled) ∧ (t.port p).pw.keeper = 0 ∧ (t.port p).pw.pathNow = .none ∧ (t.port p).pd.objpos = 0 ∧ allocOf t p = 0 ∧
        Posted 0x02 p.val t) ∧
    (weaverLives s p = true → exec (.rimDetach p vbus) s = .next s)

/-- R442, R443, 01 R14, R15, Table 13.19: the control channel resends, a failed lane is replaced by the spare, a second failure disables
ports or isolates the tile. -/
def Obligations.DieToDieLinks : Prop :=
  ∀ (s : State) (g : TileId) (lane : Lane),
    let x := s.tile g
    let l := x.link
    let goes (i : Instr) (P : Tile → Link → State → Prop) : Prop := ∃ t, exec i s = .next t ∧ P (t.tile g) (t.tile g).link t
    let lk (y : Link) : State := { s with tiles := s.tiles.set g { x with link := y } }
    let report (kind : Nat) (n : Lane) (t : State) : Prop := { src := fLink g, detail := pack [(kind, 4), (n.val, 0)] } ∈ t.flt.lines
    let second (n : Lane) : Option Lane := l.second.orElse fun _ => some n
    let lost (i : Instr) (n : Lane) : Prop := (lostLanes l).contains n = false → l.spare ≠ none →
      (n.val ≠ 8 → goes i fun _ y t => y.second = second n ∧ (lostLanes y).contains n = true ∧ y.isolated = l.isolated ∧ report 2 n t) ∧
      (n.val = 8 → goes i fun _ y t => y.second = second n ∧ y.isolated = true ∧ report 2 n t ∧ report 3 n t ∧ t.acc.busy[g.val] = none ∧
        ∀ p, tileOf p = g → (t.port p).hub.conn = false ∧ (t.port p).hub.cut = true)
    let spared (i : Instr) (n : Lane) : Prop := goes i fun _ y t => y.spare = some n ∧ y.switching = true ∧ y.isolated = l.isolated ∧ report 1 n t
    (clocksRun s = true → (l.spare = none → spared (.linkLaneFault g lane) lane) ∧ lost (.linkLaneFault g lane) lane ∧ lost (.linkSecondFailure g lane) lane) ∧
    (l.spare = none → exec (.linkSecondFailure g lane) s = .next s) ∧
    exec (.spareLaneSwitchDone g) s = .next (lk { l with switching := false }) ∧
    (l.switching = true → l.spare = some 8 → ∀ ok, exec (.controlFrame g ok) s = .next s) ∧
    (clocksRun s = true → ¬(l.switching = true ∧ l.spare = some 8) → injArmed s 5 5 g.val = false →
      exec (.controlFrame g true) s = .next (lk { l with fails := 0 }) ∧
      (l.fails < 3 → exec (.controlFrame g false) s = .next (lk { l with fails := l.fails + 1, resends := satInc l.resends 0xFFFF })) ∧
      (3 ≤ l.fails → l.spare = none → spared (.controlFrame g false) 8) ∧ (3 ≤ l.fails → lost (.controlFrame g false) 8)) ∧
    (clocksRun s = true → ¬(l.switching = true ∧ l.spare = some 8) → injArmed s 5 5 g.val = true → l.fails < 3 → goes (.controlFrame g true) fun _ y t => y.fails = l.fails + 1 ∧ y.resends = satInc l.resends 0xFFFF ∧
      bitOf t.flt.inj 31 = false) ∧
    (x.on = true → x.ready = false → goes (.linkTrainingFailed g) fun _ y t => y.isolated = true ∧ ∃ n, report 4 n t) ∧
    (x.on = false ∨ x.ready = true → exec (.linkTrainingFailed g) s = .next s)

/-- A step takes the command at the front of the queue and is its meaning on the state with the rest of the queue (log 1). -/
def Obligations.StepRunsTheFrontCommand : Prop :=
  ∀ (c : Instr) (rest : List Instr) (s : State), step { s with pending := c :: rest } = exec c { s with pending := rest }

/-- On an empty queue a step is one tick of the block's time: the model's choice (log 8). It always answers a next state, with the model's clock
counted on by one and the queue still empty. -/
def Obligations.StepOnEmptyQueueIsATick : Prop :=
  ∀ s : State, s.pending = [] → ∃ t, step s = .next t ∧ t = tick s ∧ t.now = s.now + 1 ∧ t.pending = []

/-- The state after reset has canonical memory, in which nothing is listed, and no command waits. -/
def Obligations.ResetMeetsTheInvariant : Prop := State.reset.Inv ∧ State.reset.mem = [] ∧ State.reset.pending = []

/-- No command changes the queue of the commands that wait behind it. -/
def Obligations.CommandsLeaveTheQueue : Prop := ∀ (c : Instr) (s t : State), exec c s = .next t → t.pending = s.pending

/-- Whatever the command and the state, a step that goes on keeps memory in its canonical form, so that memories that read alike are
equal data. -/
def Obligations.StepKeepsMemoryCanonical : Prop := ∀ s t : State, s.Inv → step s = .next t → t.Inv

/-- 16 Tables 16.1 to 16.13, 13.1 and 7.23: the registers whose stated reset value is not zero read that value after reset, each at its
address, in every instance: blocks, channels, queues, teams, groups, ports and tiles, the sources of the fault collector and the points of
each port's curve. -/
def Obligations.ResetValuesOfTheRegisters : Prop :=
  ∀ (c : Fin 63) (q : Fin 16) (u : TeamId) (g : TileId) (p : PortId) (n : Fin 64) (k : Fin 8),
    let reads (a : Nat) (v : Word) : Prop := ∃ r, regAt a = some r ∧ (regRead .sup r State.reset).1 = v
    let hub : List Word := [0x00, 0x00, 0x41, 0x41, 0x41, 0x81, 0xD1, 0x41, 0x85, 0x85, 0x85, 0x00, 0x85, 0x00, 0x00, 0x00, 0xC8, 0x81, 0x41, 0xD1,
      0xD1, 0xD0, 0x41, 0x41]
    let tile : List Word := [0x81, 0x41, 0x00, 0x81, 0x41]
    let curve : List Word := [0x0DC30D40, 0x0FA0C350, 0x12C02710, 0x15E00BB8, 0x190003E8, 0x1F40012C, 0x25800064, 0x32000014]
    let t := 0x8000 + 0x800 * u.val
    let f := 0x30000 + 0x400 * g.val
    let o := 0x100000 + 0x1000 * p.val
    let x := 0x218000 + 0x20000 * g.val
    reads (0x3200 + 8 * n.val) (if n.val < 24 then hub.getD n.val 0 else tile.getD ((n.val - 24) % 5) 0) ∧
    reads (o + 0x240 + 4 * k.val) (curve.getD k.val 0) ∧
    ∀ row ∈ ([(0x0, 0x00641B01#32), (0x2000, 0x00001064#32), (0x3008, 0x0A33C00A#32), (0x3030, 0x3264400A#32), (0x4800, 0x4E#32), (0x4810, 1#32),
        (0x4830, 0xF#32), (0x5010, 0xA14#32), (0x5014, 0x36320A43#32), (0x5018, 0x05A0060A#32), (0x5034, 0x80000000#32), (0x5038, 0x19000#32),
        (0x503C, 3#32), (0x6004, 0xF3#32), (0x10000, 0x00100410#32), (0x20000, 1#32), (0x20004, 0x30000000#32), (0x20100 + 4 * c.val, 0x100#32),
        (0x21000 + 0x40 * q.val, 0x280#32), (0x40000, 0x3230#32), (0x40004, 0x2580#32), (0x40010, 0x14#32), (0x40100 + 8 * g.val, 0x003204B0#32),
        (t + 0x8, 0x64#32), (t + 0x20, 0x200#32), (f, 0x840A#32), (f + 4, 0x1806C258#32), (f + 8, 0x28A05014#32), (o + 0x100, 0xE120#32),
        (o + 0x108, 0xB0C80096#32), (o + 0x200, 0x00500A28#32), (o + 0x204, 0x500A0551#32), (o + 0x300, 0x200#32),
        (x + 0x4, 0xFF00#32), (x + 0x8, 0x7C00#32), (x + 0xC, 0x118#32)] : List (Nat × Word)),
      reads row.1 row.2
end

