-- ==== Sys2Proof/Laws/Memory.lean ====
section
/-!
SUPPORT. Laws/Memory.lean: reads after writes, and the canonical form of memory: every memory operation keeps it.
-/
namespace Sys2Proof.Machine

/-! ### Read after write -/

theorem memGet_of_lt {m : Mem} {lo a : Nat} (h : memWfFrom lo m = true) (ha : a < lo) : memGet m a = memDefault a := by
  induction m generalizing lo with
  | nil => rfl
  | cons c r ih =>
    obtain ⟨k, v⟩ := c
    simp only [memWfFrom, Bool.and_eq_true, decide_eq_true_eq] at h
    have hk : k ≠ a := by omega
    simp only [memGet, hk, if_false]
    exact ih h.2 (by omega)

theorem memGet_memPut_same {m : Mem} {lo : Nat} (h : memWfFrom lo m = true) (a : Nat) (v : Byte) :
    memGet (memPut m a v) a = v := by
  induction m generalizing lo with
  | nil =>
    simp only [memPut]
    split
    · next e => simp [memGet, e]
    · simp [memGet]
  | cons c r ih =>
    obtain ⟨k, w⟩ := c
    simp only [memWfFrom, Bool.and_eq_true, decide_eq_true_eq] at h
    simp only [memPut]
    split
    · next hlt =>
      split
      · next e =>
        have hk : k ≠ a := by omega
        simp only [memGet, hk, if_false]
        rw [memGet_of_lt h.2 (by omega), e]
      · simp [memGet]
    · split
      · next hlt heq =>
        split
        · next e =>
          rw [memGet_of_lt h.2 (by omega), e]
        · simp [memGet]
      · next hlt hne =>
        have hk : k ≠ a := fun e => hne e.symm
        simp only [memGet, hk, if_false]
        exact ih h.2

theorem memGet_memPut_other (m : Mem) {a b : Nat} (v : Byte) (hab : b ≠ a) : memGet (memPut m a v) b = memGet m b := by
  induction m with
  | nil =>
    simp only [memPut]
    split
    · rfl
    · simp [memGet, hab.symm]
  | cons c r ih =>
    obtain ⟨k, w⟩ := c
    simp only [memPut]
    split
    · split
      · rfl
      · simp [memGet, hab.symm]
    · split
      · next heq =>
        split
        · simp [memGet, ← heq, hab.symm]
        · simp [memGet, ← heq, hab.symm]
      · simp only [memGet]
        split
        · rfl
        · exact ih

/-! ### The canonical form -/

theorem memWfFrom_mono {m : Mem} {lo lo' : Nat} (h : memWfFrom lo m = true) (hl : lo' ≤ lo) : memWfFrom lo' m = true := by
  cases m with
  | nil => rfl
  | cons c r =>
    obtain ⟨k, v⟩ := c
    simp only [memWfFrom, Bool.and_eq_true, decide_eq_true_eq] at h ⊢
    exact ⟨⟨by omega, h.1.2⟩, h.2⟩

theorem memPut_wfFrom {m : Mem} {lo a : Nat} (v : Byte) (h : memWfFrom lo m = true) (ha : lo ≤ a) :
    memWfFrom lo (memPut m a v) = true := by
  induction m generalizing lo with
  | nil =>
    simp only [memPut]
    split
    · rfl
    · next e => simp [memWfFrom, e, ha]
  | cons c r ih =>
    obtain ⟨k, w⟩ := c
    have h0 := h
    simp only [memWfFrom, Bool.and_eq_true, decide_eq_true_eq] at h
    simp only [memPut]
    split
    · next hlt =>
      split
      · exact h0
      · next e =>
        simp only [memWfFrom, Bool.and_eq_true, decide_eq_true_eq]
        exact ⟨⟨ha, by simp [e]⟩, ⟨by omega, h.1.2⟩, h.2⟩
    · split
      · next hlt heq =>
        subst heq
        split
        · exact memWfFrom_mono h.2 (by omega)
        · next e =>
          simp only [memWfFrom, Bool.and_eq_true, decide_eq_true_eq]
          exact ⟨⟨ha, by simp [e]⟩, h.2⟩
      · next hlt hne =>
        simp only [memWfFrom, Bool.and_eq_true, decide_eq_true_eq]
        exact ⟨⟨h.1.1, h.1.2⟩, ih h.2 (by omega)⟩

theorem memPut_wf {m : Mem} (a : Nat) (v : Byte) (h : m.wf = true) : Mem.wf (memPut m a v) = true :=
  memPut_wfFrom v h (Nat.zero_le a)

theorem memPutBytes_wf {m : Mem} (a : Nat) (bs : List Byte) (h : m.wf = true) : Mem.wf (memPutBytes m a bs) = true := by
  induction bs generalizing m a with
  | nil => exact h
  | cons b bs ih => exact ih (a + 1) (memPut_wf a b h)

theorem memPutWord_wf {m : Mem} (a : Nat) (v : Word) (h : m.wf = true) : Mem.wf (memPutWord m a v) = true :=
  memPutBytes_wf a _ h

theorem memClear_wfFrom {m : Mem} {lo : Nat} (p : Nat → Bool) (h : memWfFrom lo m = true) : memWfFrom lo (memClear m p) = true := by
  induction m generalizing lo with
  | nil => rfl
  | cons c r ih =>
    obtain ⟨k, v⟩ := c
    simp only [memWfFrom, Bool.and_eq_true, decide_eq_true_eq] at h
    have hr := ih h.2
    cases hp : p k with
    | true =>
      have e : memClear ((k, v) :: r) p = memClear r p := by simp [memClear, hp]
      rw [e]
      exact memWfFrom_mono hr (by omega)
    | false =>
      have e : memClear ((k, v) :: r) p = (k, v) :: memClear r p := by simp [memClear, hp]
      rw [e]
      simp only [memWfFrom, Bool.and_eq_true, decide_eq_true_eq]
      exact ⟨⟨h.1.1, h.1.2⟩, hr⟩

theorem memClear_wf {m : Mem} (p : Nat → Bool) (h : m.wf = true) : Mem.wf (memClear m p) = true := memClear_wfFrom p h

end Sys2Proof.Machine
end

