-- ==== Sys2Proof/Laws/Keeps.lean ====
section
/-!
SUPPORT. Laws/Keeps.lean: what every command leaves as it is: the queue of waiting commands, and the canonical form of memory.
One lemma per operation of Machine/ stands in the files Laws/Keeps….lean; a state that keeps both may be given to it.
-/
namespace Sys2Proof.Machine

/-- `t` has the queue of `r`, and its memory is canonical where that of `r` is. -/
def Keeps (r t : State) : Prop := t.pending = r.pending ∧ (r.mem.wf = true → t.mem.wf = true)

theorem Keeps.refl (r : State) : Keeps r r := ⟨rfl, id⟩

theorem Keeps.upd {r s t : State} (h : Keeps r s) (hm : t.mem = s.mem) (hp : t.pending = s.pending) : Keeps r t :=
  ⟨hp.trans h.1, fun w => hm ▸ h.2 w⟩

theorem Keeps.updMem {r s t : State} (h : Keeps r s) (hm : s.mem.wf = true → t.mem.wf = true) (hp : t.pending = s.pending) : Keeps r t :=
  ⟨hp.trans h.1, fun w => hm (h.2 w)⟩

theorem ite_keeps {r a b : State} {c : Prop} [Decidable c] (ha : Keeps r a) (hb : Keeps r b) : Keeps r (if c then a else b) := by
  split
  · exact ha
  · exact hb

theorem forEach_keeps {β : Type} {r s : State} {l : List β} {f : β → State → State}
    (hf : ∀ b t, Keeps r t → Keeps r (f b t)) (h : Keeps r s) : Keeps r (forEach l f s) := by
  unfold forEach
  induction l generalizing s with
  | nil => exact h
  | cons b bs ih => exact ih (hf b s h)

theorem onlyIf_keeps {r s : State} {c : Bool} {f : State → State} (hf : ∀ t, Keeps r t → Keeps r (f t)) (h : Keeps r s) :
    Keeps r (onlyIf c f s) := by
  unfold onlyIf
  split
  · exact hf s h
  · exact h

end Sys2Proof.Machine
end

