-- ==== Sys2Proof/Laws/State.lean ====
section
/-!
SUPPORT. Laws/State.lean: one lemma per field of the state for each update of a part of it, so that no proof unfolds a record update.
-/
namespace Sys2Proof.Machine

/-! ### modTeam -/

section
variable (u : TeamId) (f : Team → Team) (s : State)

@[simp] theorem modTeam_teams : (modTeam u f s).teams = s.teams.set u (f s.teams[u]) := rfl
@[simp] theorem modTeam_acc : (modTeam u f s).acc = s.acc := rfl
@[simp] theorem modTeam_mbx : (modTeam u f s).mbx = s.mbx := rfl
@[simp] theorem modTeam_spi : (modTeam u f s).spi = s.spi := rfl
@[simp] theorem modTeam_ws : (modTeam u f s).ws = s.ws := rfl
@[simp] theorem modTeam_ports : (modTeam u f s).ports = s.ports := rfl
@[simp] theorem modTeam_grps : (modTeam u f s).grps = s.grps := rfl
@[simp] theorem modTeam_tts : (modTeam u f s).tts = s.tts := rfl
@[simp] theorem modTeam_ttc : (modTeam u f s).ttc = s.ttc := rfl
@[simp] theorem modTeam_crl : (modTeam u f s).crl = s.crl := rfl
@[simp] theorem modTeam_queues : (modTeam u f s).queues = s.queues := rfl
@[simp] theorem modTeam_bud : (modTeam u f s).bud = s.bud := rfl
@[simp] theorem modTeam_tim : (modTeam u f s).tim = s.tim := rfl
@[simp] theorem modTeam_tiles : (modTeam u f s).tiles = s.tiles := rfl
@[simp] theorem modTeam_sup : (modTeam u f s).sup = s.sup := rfl
@[simp] theorem modTeam_flt : (modTeam u f s).flt = s.flt := rfl
@[simp] theorem modTeam_boot : (modTeam u f s).boot = s.boot := rfl
@[simp] theorem modTeam_crp : (modTeam u f s).crp = s.crp := rfl
@[simp] theorem modTeam_pwr : (modTeam u f s).pwr = s.pwr := rfl
@[simp] theorem modTeam_mem : (modTeam u f s).mem = s.mem := rfl
@[simp] theorem modTeam_ecc : (modTeam u f s).ecc = s.ecc := rfl
@[simp] theorem modTeam_posts : (modTeam u f s).posts = s.posts := rfl
@[simp] theorem modTeam_now : (modTeam u f s).now = s.now := rfl
@[simp] theorem modTeam_free : (modTeam u f s).free = s.free := rfl
@[simp] theorem modTeam_pending : (modTeam u f s).pending = s.pending := rfl
@[simp] theorem modTeam_team_self : (modTeam u f s).team u = f (s.team u) := by simp [State.team]
theorem modTeam_team_of_ne {j : TeamId} (h : j ≠ u) : (modTeam u f s).team j = s.team j := by
  have h2 : (u : Nat) ≠ (j : Nat) := fun e => h (Fin.ext e.symm)
  simp only [State.team, modTeam_teams, Fin.getElem_fin]
  exact Vector.getElem_set_ne _ _ h2
@[simp] theorem modTeam_port_at (k : PortId) : (modTeam u f s).port k = s.port k := rfl
@[simp] theorem modTeam_tile_at (k : TileId) : (modTeam u f s).tile k = s.tile k := rfl
@[simp] theorem modTeam_queue_at (k : QueueId) : (modTeam u f s).queue k = s.queue k := rfl
@[simp] theorem modTeam_tt_at (k : PortId) : (modTeam u f s).tt k = s.tt k := rfl
@[simp] theorem modTeam_grp_at (k : TileId) : (modTeam u f s).grp k = s.grp k := rfl

end

/-! ### modPort -/

section
variable (p : PortId) (f : Port → Port) (s : State)

@[simp] theorem modPort_ports : (modPort p f s).ports = s.ports.set p (f s.ports[p]) := rfl
@[simp] theorem modPort_acc : (modPort p f s).acc = s.acc := rfl
@[simp] theorem modPort_mbx : (modPort p f s).mbx = s.mbx := rfl
@[simp] theorem modPort_spi : (modPort p f s).spi = s.spi := rfl
@[simp] theorem modPort_ws : (modPort p f s).ws = s.ws := rfl
@[simp] theorem modPort_teams : (modPort p f s).teams = s.teams := rfl
@[simp] theorem modPort_grps : (modPort p f s).grps = s.grps := rfl
@[simp] theorem modPort_tts : (modPort p f s).tts = s.tts := rfl
@[simp] theorem modPort_ttc : (modPort p f s).ttc = s.ttc := rfl
@[simp] theorem modPort_crl : (modPort p f s).crl = s.crl := rfl
@[simp] theorem modPort_queues : (modPort p f s).queues = s.queues := rfl
@[simp] theorem modPort_bud : (modPort p f s).bud = s.bud := rfl
@[simp] theorem modPort_tim : (modPort p f s).tim = s.tim := rfl
@[simp] theorem modPort_tiles : (modPort p f s).tiles = s.tiles := rfl
@[simp] theorem modPort_sup : (modPort p f s).sup = s.sup := rfl
@[simp] theorem modPort_flt : (modPort p f s).flt = s.flt := rfl
@[simp] theorem modPort_boot : (modPort p f s).boot = s.boot := rfl
@[simp] theorem modPort_crp : (modPort p f s).crp = s.crp := rfl
@[simp] theorem modPort_pwr : (modPort p f s).pwr = s.pwr := rfl
@[simp] theorem modPort_mem : (modPort p f s).mem = s.mem := rfl
@[simp] theorem modPort_ecc : (modPort p f s).ecc = s.ecc := rfl
@[simp] theorem modPort_posts : (modPort p f s).posts = s.posts := rfl
@[simp] theorem modPort_now : (modPort p f s).now = s.now := rfl
@[simp] theorem modPort_free : (modPort p f s).free = s.free := rfl
@[simp] theorem modPort_pending : (modPort p f s).pending = s.pending := rfl
@[simp] theorem modPort_port_self : (modPort p f s).port p = f (s.port p) := by simp [State.port]
theorem modPort_port_of_ne {j : PortId} (h : j ≠ p) : (modPort p f s).port j = s.port j := by
  have h2 : (p : Nat) ≠ (j : Nat) := fun e => h (Fin.ext e.symm)
  simp only [State.port, modPort_ports, Fin.getElem_fin]
  exact Vector.getElem_set_ne _ _ h2
@[simp] theorem modPort_team_at (k : TeamId) : (modPort p f s).team k = s.team k := rfl
@[simp] theorem modPort_tile_at (k : TileId) : (modPort p f s).tile k = s.tile k := rfl
@[simp] theorem modPort_queue_at (k : QueueId) : (modPort p f s).queue k = s.queue k := rfl
@[simp] theorem modPort_tt_at (k : PortId) : (modPort p f s).tt k = s.tt k := rfl
@[simp] theorem modPort_grp_at (k : TileId) : (modPort p f s).grp k = s.grp k := rfl

end

/-! ### modTile -/

section
variable (t : TileId) (f : Tile → Tile) (s : State)

@[simp] theorem modTile_tiles : (modTile t f s).tiles = s.tiles.set t (f s.tiles[t]) := rfl
@[simp] theorem modTile_acc : (modTile t f s).acc = s.acc := rfl
@[simp] theorem modTile_mbx : (modTile t f s).mbx = s.mbx := rfl
@[simp] theorem modTile_spi : (modTile t f s).spi = s.spi := rfl
@[simp] theorem modTile_ws : (modTile t f s).ws = s.ws := rfl
@[simp] theorem modTile_teams : (modTile t f s).teams = s.teams := rfl
@[simp] theorem modTile_ports : (modTile t f s).ports = s.ports := rfl
@[simp] theorem modTile_grps : (modTile t f s).grps = s.grps := rfl
@[simp] theorem modTile_tts : (modTile t f s).tts = s.tts := rfl
@[simp] theorem modTile_ttc : (modTile t f s).ttc = s.ttc := rfl
@[simp] theorem modTile_crl : (modTile t f s).crl = s.crl := rfl
@[simp] theorem modTile_queues : (modTile t f s).queues = s.queues := rfl
@[simp] theorem modTile_bud : (modTile t f s).bud = s.bud := rfl
@[simp] theorem modTile_tim : (modTile t f s).tim = s.tim := rfl
@[simp] theorem modTile_sup : (modTile t f s).sup = s.sup := rfl
@[simp] theorem modTile_flt : (modTile t f s).flt = s.flt := rfl
@[simp] theorem modTile_boot : (modTile t f s).boot = s.boot := rfl
@[simp] theorem modTile_crp : (modTile t f s).crp = s.crp := rfl
@[simp] theorem modTile_pwr : (modTile t f s).pwr = s.pwr := rfl
@[simp] theorem modTile_mem : (modTile t f s).mem = s.mem := rfl
@[simp] theorem modTile_ecc : (modTile t f s).ecc = s.ecc := rfl
@[simp] theorem modTile_posts : (modTile t f s).posts = s.posts := rfl
@[simp] theorem modTile_now : (modTile t f s).now = s.now := rfl
@[simp] theorem modTile_free : (modTile t f s).free = s.free := rfl
@[simp] theorem modTile_pending : (modTile t f s).pending = s.pending := rfl
@[simp] theorem modTile_tile_self : (modTile t f s).tile t = f (s.tile t) := by simp [State.tile]
theorem modTile_tile_of_ne {j : TileId} (h : j ≠ t) : (modTile t f s).tile j = s.tile j := by
  have h2 : (t : Nat) ≠ (j : Nat) := fun e => h (Fin.ext e.symm)
  simp only [State.tile, modTile_tiles, Fin.getElem_fin]
  exact Vector.getElem_set_ne _ _ h2
@[simp] theorem modTile_team_at (k : TeamId) : (modTile t f s).team k = s.team k := rfl
@[simp] theorem modTile_port_at (k : PortId) : (modTile t f s).port k = s.port k := rfl
@[simp] theorem modTile_queue_at (k : QueueId) : (modTile t f s).queue k = s.queue k := rfl
@[simp] theorem modTile_tt_at (k : PortId) : (modTile t f s).tt k = s.tt k := rfl
@[simp] theorem modTile_grp_at (k : TileId) : (modTile t f s).grp k = s.grp k := rfl

end

/-! ### modQueue -/

section
variable (q : QueueId) (f : Queue → Queue) (s : State)

@[simp] theorem modQueue_queues : (modQueue q f s).queues = s.queues.set q (f s.queues[q]) := rfl
@[simp] theorem modQueue_acc : (modQueue q f s).acc = s.acc := rfl
@[simp] theorem modQueue_mbx : (modQueue q f s).mbx = s.mbx := rfl
@[simp] theorem modQueue_spi : (modQueue q f s).spi = s.spi := rfl
@[simp] theorem modQueue_ws : (modQueue q f s).ws = s.ws := rfl
@[simp] theorem modQueue_teams : (modQueue q f s).teams = s.teams := rfl
@[simp] theorem modQueue_ports : (modQueue q f s).ports = s.ports := rfl
@[simp] theorem modQueue_grps : (modQueue q f s).grps = s.grps := rfl
@[simp] theorem modQueue_tts : (modQueue q f s).tts = s.tts := rfl
@[simp] theorem modQueue_ttc : (modQueue q f s).ttc = s.ttc := rfl
@[simp] theorem modQueue_crl : (modQueue q f s).crl = s.crl := rfl
@[simp] theorem modQueue_bud : (modQueue q f s).bud = s.bud := rfl
@[simp] theorem modQueue_tim : (modQueue q f s).tim = s.tim := rfl
@[simp] theorem modQueue_tiles : (modQueue q f s).tiles = s.tiles := rfl
@[simp] theorem modQueue_sup : (modQueue q f s).sup = s.sup := rfl
@[simp] theorem modQueue_flt : (modQueue q f s).flt = s.flt := rfl
@[simp] theorem modQueue_boot : (modQueue q f s).boot = s.boot := rfl
@[simp] theorem modQueue_crp : (modQueue q f s).crp = s.crp := rfl
@[simp] theorem modQueue_pwr : (modQueue q f s).pwr = s.pwr := rfl
@[simp] theorem modQueue_mem : (modQueue q f s).mem = s.mem := rfl
@[simp] theorem modQueue_ecc : (modQueue q f s).ecc = s.ecc := rfl
@[simp] theorem modQueue_posts : (modQueue q f s).posts = s.posts := rfl
@[simp] theorem modQueue_now : (modQueue q f s).now = s.now := rfl
@[simp] theorem modQueue_free : (modQueue q f s).free = s.free := rfl
@[simp] theorem modQueue_pending : (modQueue q f s).pending = s.pending := rfl
@[simp] theorem modQueue_queue_self : (modQueue q f s).queue q = f (s.queue q) := by simp [State.queue]
theorem modQueue_queue_of_ne {j : QueueId} (h : j ≠ q) : (modQueue q f s).queue j = s.queue j := by
  have h2 : (q : Nat) ≠ (j : Nat) := fun e => h (Fin.ext e.symm)
  simp only [State.queue, modQueue_queues, Fin.getElem_fin]
  exact Vector.getElem_set_ne _ _ h2
@[simp] theorem modQueue_team_at (k : TeamId) : (modQueue q f s).team k = s.team k := rfl
@[simp] theorem modQueue_port_at (k : PortId) : (modQueue q f s).port k = s.port k := rfl
@[simp] theorem modQueue_tile_at (k : TileId) : (modQueue q f s).tile k = s.tile k := rfl
@[simp] theorem modQueue_tt_at (k : PortId) : (modQueue q f s).tt k = s.tt k := rfl
@[simp] theorem modQueue_grp_at (k : TileId) : (modQueue q f s).grp k = s.grp k := rfl

end

/-! ### modTt -/

section
variable (p : PortId) (f : Tt → Tt) (s : State)

@[simp] theorem modTt_tts : (modTt p f s).tts = s.tts.set p (f s.tts[p]) := rfl
@[simp] theorem modTt_acc : (modTt p f s).acc = s.acc := rfl
@[simp] theorem modTt_mbx : (modTt p f s).mbx = s.mbx := rfl
@[simp] theorem modTt_spi : (modTt p f s).spi = s.spi := rfl
@[simp] theorem modTt_ws : (modTt p f s).ws = s.ws := rfl
@[simp] theorem modTt_teams : (modTt p f s).teams = s.teams := rfl
@[simp] theorem modTt_ports : (modTt p f s).ports = s.ports := rfl
@[simp] theorem modTt_grps : (modTt p f s).grps = s.grps := rfl
@[simp] theorem modTt_ttc : (modTt p f s).ttc = s.ttc := rfl
@[simp] theorem modTt_crl : (modTt p f s).crl = s.crl := rfl
@[simp] theorem modTt_queues : (modTt p f s).queues = s.queues := rfl
@[simp] theorem modTt_bud : (modTt p f s).bud = s.bud := rfl
@[simp] theorem modTt_tim : (modTt p f s).tim = s.tim := rfl
@[simp] theorem modTt_tiles : (modTt p f s).tiles = s.tiles := rfl
@[simp] theorem modTt_sup : (modTt p f s).sup = s.sup := rfl
@[simp] theorem modTt_flt : (modTt p f s).flt = s.flt := rfl
@[simp] theorem modTt_boot : (modTt p f s).boot = s.boot := rfl
@[simp] theorem modTt_crp : (modTt p f s).crp = s.crp := rfl
@[simp] theorem modTt_pwr : (modTt p f s).pwr = s.pwr := rfl
@[simp] theorem modTt_mem : (modTt p f s).mem = s.mem := rfl
@[simp] theorem modTt_ecc : (modTt p f s).ecc = s.ecc := rfl
@[simp] theorem modTt_posts : (modTt p f s).posts = s.posts := rfl
@[simp] theorem modTt_now : (modTt p f s).now = s.now := rfl
@[simp] theorem modTt_free : (modTt p f s).free = s.free := rfl
@[simp] theorem modTt_pending : (modTt p f s).pending = s.pending := rfl
@[simp] theorem modTt_tt_self : (modTt p f s).tt p = f (s.tt p) := by simp [State.tt]
theorem modTt_tt_of_ne {j : PortId} (h : j ≠ p) : (modTt p f s).tt j = s.tt j := by
  have h2 : (p : Nat) ≠ (j : Nat) := fun e => h (Fin.ext e.symm)
  simp only [State.tt, modTt_tts, Fin.getElem_fin]
  exact Vector.getElem_set_ne _ _ h2
@[simp] theorem modTt_team_at (k : TeamId) : (modTt p f s).team k = s.team k := rfl
@[simp] theorem modTt_port_at (k : PortId) : (modTt p f s).port k = s.port k := rfl
@[simp] theorem modTt_tile_at (k : TileId) : (modTt p f s).tile k = s.tile k := rfl
@[simp] theorem modTt_queue_at (k : QueueId) : (modTt p f s).queue k = s.queue k := rfl
@[simp] theorem modTt_grp_at (k : TileId) : (modTt p f s).grp k = s.grp k := rfl

end

/-! ### modGrp -/

section
variable (g : TileId) (f : Group → Group) (s : State)

@[simp] theorem modGrp_grps : (modGrp g f s).grps = s.grps.set g (f s.grps[g]) := rfl
@[simp] theorem modGrp_acc : (modGrp g f s).acc = s.acc := rfl
@[simp] theorem modGrp_mbx : (modGrp g f s).mbx = s.mbx := rfl
@[simp] theorem modGrp_spi : (modGrp g f s).spi = s.spi := rfl
@[simp] theorem modGrp_ws : (modGrp g f s).ws = s.ws := rfl
@[simp] theorem modGrp_teams : (modGrp g f s).teams = s.teams := rfl
@[simp] theorem modGrp_ports : (modGrp g f s).ports = s.ports := rfl
@[simp] theorem modGrp_tts : (modGrp g f s).tts = s.tts := rfl
@[simp] theorem modGrp_ttc : (modGrp g f s).ttc = s.ttc := rfl
@[simp] theorem modGrp_crl : (modGrp g f s).crl = s.crl := rfl
@[simp] theorem modGrp_queues : (modGrp g f s).queues = s.queues := rfl
@[simp] theorem modGrp_bud : (modGrp g f s).bud = s.bud := rfl
@[simp] theorem modGrp_tim : (modGrp g f s).tim = s.tim := rfl
@[simp] theorem modGrp_tiles : (modGrp g f s).tiles = s.tiles := rfl
@[simp] theorem modGrp_sup : (modGrp g f s).sup = s.sup := rfl
@[simp] theorem modGrp_flt : (modGrp g f s).flt = s.flt := rfl
@[simp] theorem modGrp_boot : (modGrp g f s).boot = s.boot := rfl
@[simp] theorem modGrp_crp : (modGrp g f s).crp = s.crp := rfl
@[simp] theorem modGrp_pwr : (modGrp g f s).pwr = s.pwr := rfl
@[simp] theorem modGrp_mem : (modGrp g f s).mem = s.mem := rfl
@[simp] theorem modGrp_ecc : (modGrp g f s).ecc = s.ecc := rfl
@[simp] theorem modGrp_posts : (modGrp g f s).posts = s.posts := rfl
@[simp] theorem modGrp_now : (modGrp g f s).now = s.now := rfl
@[simp] theorem modGrp_free : (modGrp g f s).free = s.free := rfl
@[simp] theorem modGrp_pending : (modGrp g f s).pending = s.pending := rfl
@[simp] theorem modGrp_grp_self : (modGrp g f s).grp g = f (s.grp g) := by simp [State.grp]
theorem modGrp_grp_of_ne {j : TileId} (h : j ≠ g) : (modGrp g f s).grp j = s.grp j := by
  have h2 : (g : Nat) ≠ (j : Nat) := fun e => h (Fin.ext e.symm)
  simp only [State.grp, modGrp_grps, Fin.getElem_fin]
  exact Vector.getElem_set_ne _ _ h2
@[simp] theorem modGrp_team_at (k : TeamId) : (modGrp g f s).team k = s.team k := rfl
@[simp] theorem modGrp_port_at (k : PortId) : (modGrp g f s).port k = s.port k := rfl
@[simp] theorem modGrp_tile_at (k : TileId) : (modGrp g f s).tile k = s.tile k := rfl
@[simp] theorem modGrp_queue_at (k : QueueId) : (modGrp g f s).queue k = s.queue k := rfl
@[simp] theorem modGrp_tt_at (k : PortId) : (modGrp g f s).tt k = s.tt k := rfl

end

/-! ### modAcc -/

section
variable (f : Acc → Acc) (s : State)

@[simp] theorem modAcc_acc : (modAcc f s).acc = f s.acc := rfl
@[simp] theorem modAcc_mbx : (modAcc f s).mbx = s.mbx := rfl
@[simp] theorem modAcc_spi : (modAcc f s).spi = s.spi := rfl
@[simp] theorem modAcc_ws : (modAcc f s).ws = s.ws := rfl
@[simp] theorem modAcc_teams : (modAcc f s).teams = s.teams := rfl
@[simp] theorem modAcc_ports : (modAcc f s).ports = s.ports := rfl
@[simp] theorem modAcc_grps : (modAcc f s).grps = s.grps := rfl
@[simp] theorem modAcc_tts : (modAcc f s).tts = s.tts := rfl
@[simp] theorem modAcc_ttc : (modAcc f s).ttc = s.ttc := rfl
@[simp] theorem modAcc_crl : (modAcc f s).crl = s.crl := rfl
@[simp] theorem modAcc_queues : (modAcc f s).queues = s.queues := rfl
@[simp] theorem modAcc_bud : (modAcc f s).bud = s.bud := rfl
@[simp] theorem modAcc_tim : (modAcc f s).tim = s.tim := rfl
@[simp] theorem modAcc_tiles : (modAcc f s).tiles = s.tiles := rfl
@[simp] theorem modAcc_sup : (modAcc f s).sup = s.sup := rfl
@[simp] theorem modAcc_flt : (modAcc f s).flt = s.flt := rfl
@[simp] theorem modAcc_boot : (modAcc f s).boot = s.boot := rfl
@[simp] theorem modAcc_crp : (modAcc f s).crp = s.crp := rfl
@[simp] theorem modAcc_pwr : (modAcc f s).pwr = s.pwr := rfl
@[simp] theorem modAcc_mem : (modAcc f s).mem = s.mem := rfl
@[simp] theorem modAcc_ecc : (modAcc f s).ecc = s.ecc := rfl
@[simp] theorem modAcc_posts : (modAcc f s).posts = s.posts := rfl
@[simp] theorem modAcc_now : (modAcc f s).now = s.now := rfl
@[simp] theorem modAcc_free : (modAcc f s).free = s.free := rfl
@[simp] theorem modAcc_pending : (modAcc f s).pending = s.pending := rfl
@[simp] theorem modAcc_team_at (k : TeamId) : (modAcc f s).team k = s.team k := rfl
@[simp] theorem modAcc_port_at (k : PortId) : (modAcc f s).port k = s.port k := rfl
@[simp] theorem modAcc_tile_at (k : TileId) : (modAcc f s).tile k = s.tile k := rfl
@[simp] theorem modAcc_queue_at (k : QueueId) : (modAcc f s).queue k = s.queue k := rfl
@[simp] theorem modAcc_tt_at (k : PortId) : (modAcc f s).tt k = s.tt k := rfl
@[simp] theorem modAcc_grp_at (k : TileId) : (modAcc f s).grp k = s.grp k := rfl

end

/-! ### modMbx -/

section
variable (f : MbxBlock → MbxBlock) (s : State)

@[simp] theorem modMbx_mbx : (modMbx f s).mbx = f s.mbx := rfl
@[simp] theorem modMbx_acc : (modMbx f s).acc = s.acc := rfl
@[simp] theorem modMbx_spi : (modMbx f s).spi = s.spi := rfl
@[simp] theorem modMbx_ws : (modMbx f s).ws = s.ws := rfl
@[simp] theorem modMbx_teams : (modMbx f s).teams = s.teams := rfl
@[simp] theorem modMbx_ports : (modMbx f s).ports = s.ports := rfl
@[simp] theorem modMbx_grps : (modMbx f s).grps = s.grps := rfl
@[simp] theorem modMbx_tts : (modMbx f s).tts = s.tts := rfl
@[simp] theorem modMbx_ttc : (modMbx f s).ttc = s.ttc := rfl
@[simp] theorem modMbx_crl : (modMbx f s).crl = s.crl := rfl
@[simp] theorem modMbx_queues : (modMbx f s).queues = s.queues := rfl
@[simp] theorem modMbx_bud : (modMbx f s).bud = s.bud := rfl
@[simp] theorem modMbx_tim : (modMbx f s).tim = s.tim := rfl
@[simp] theorem modMbx_tiles : (modMbx f s).tiles = s.tiles := rfl
@[simp] theorem modMbx_sup : (modMbx f s).sup = s.sup := rfl
@[simp] theorem modMbx_flt : (modMbx f s).flt = s.flt := rfl
@[simp] theorem modMbx_boot : (modMbx f s).boot = s.boot := rfl
@[simp] theorem modMbx_crp : (modMbx f s).crp = s.crp := rfl
@[simp] theorem modMbx_pwr : (modMbx f s).pwr = s.pwr := rfl
@[simp] theorem modMbx_mem : (modMbx f s).mem = s.mem := rfl
@[simp] theorem modMbx_ecc : (modMbx f s).ecc = s.ecc := rfl
@[simp] theorem modMbx_posts : (modMbx f s).posts = s.posts := rfl
@[simp] theorem modMbx_now : (modMbx f s).now = s.now := rfl
@[simp] theorem modMbx_free : (modMbx f s).free = s.free := rfl
@[simp] theorem modMbx_pending : (modMbx f s).pending = s.pending := rfl
@[simp] theorem modMbx_team_at (k : TeamId) : (modMbx f s).team k = s.team k := rfl
@[simp] theorem modMbx_port_at (k : PortId) : (modMbx f s).port k = s.port k := rfl
@[simp] theorem modMbx_tile_at (k : TileId) : (modMbx f s).tile k = s.tile k := rfl
@[simp] theorem modMbx_queue_at (k : QueueId) : (modMbx f s).queue k = s.queue k := rfl
@[simp] theorem modMbx_tt_at (k : PortId) : (modMbx f s).tt k = s.tt k := rfl
@[simp] theorem modMbx_grp_at (k : TileId) : (modMbx f s).grp k = s.grp k := rfl

end

/-! ### modSpi -/

section
variable (f : Spi → Spi) (s : State)

@[simp] theorem modSpi_spi : (modSpi f s).spi = f s.spi := rfl
@[simp] theorem modSpi_acc : (modSpi f s).acc = s.acc := rfl
@[simp] theorem modSpi_mbx : (modSpi f s).mbx = s.mbx := rfl
@[simp] theorem modSpi_ws : (modSpi f s).ws = s.ws := rfl
@[simp] theorem modSpi_teams : (modSpi f s).teams = s.teams := rfl
@[simp] theorem modSpi_ports : (modSpi f s).ports = s.ports := rfl
@[simp] theorem modSpi_grps : (modSpi f s).grps = s.grps := rfl
@[simp] theorem modSpi_tts : (modSpi f s).tts = s.tts := rfl
@[simp] theorem modSpi_ttc : (modSpi f s).ttc = s.ttc := rfl
@[simp] theorem modSpi_crl : (modSpi f s).crl = s.crl := rfl
@[simp] theorem modSpi_queues : (modSpi f s).queues = s.queues := rfl
@[simp] theorem modSpi_bud : (modSpi f s).bud = s.bud := rfl
@[simp] theorem modSpi_tim : (modSpi f s).tim = s.tim := rfl
@[simp] theorem modSpi_tiles : (modSpi f s).tiles = s.tiles := rfl
@[simp] theorem modSpi_sup : (modSpi f s).sup = s.sup := rfl
@[simp] theorem modSpi_flt : (modSpi f s).flt = s.flt := rfl
@[simp] theorem modSpi_boot : (modSpi f s).boot = s.boot := rfl
@[simp] theorem modSpi_crp : (modSpi f s).crp = s.crp := rfl
@[simp] theorem modSpi_pwr : (modSpi f s).pwr = s.pwr := rfl
@[simp] theorem modSpi_mem : (modSpi f s).mem = s.mem := rfl
@[simp] theorem modSpi_ecc : (modSpi f s).ecc = s.ecc := rfl
@[simp] theorem modSpi_posts : (modSpi f s).posts = s.posts := rfl
@[simp] theorem modSpi_now : (modSpi f s).now = s.now := rfl
@[simp] theorem modSpi_free : (modSpi f s).free = s.free := rfl
@[simp] theorem modSpi_pending : (modSpi f s).pending = s.pending := rfl
@[simp] theorem modSpi_team_at (k : TeamId) : (modSpi f s).team k = s.team k := rfl
@[simp] theorem modSpi_port_at (k : PortId) : (modSpi f s).port k = s.port k := rfl
@[simp] theorem modSpi_tile_at (k : TileId) : (modSpi f s).tile k = s.tile k := rfl
@[simp] theorem modSpi_queue_at (k : QueueId) : (modSpi f s).queue k = s.queue k := rfl
@[simp] theorem modSpi_tt_at (k : PortId) : (modSpi f s).tt k = s.tt k := rfl
@[simp] theorem modSpi_grp_at (k : TileId) : (modSpi f s).grp k = s.grp k := rfl

end

/-! ### modWs -/

section
variable (f : Ws → Ws) (s : State)

@[simp] theorem modWs_ws : (modWs f s).ws = f s.ws := rfl
@[simp] theorem modWs_acc : (modWs f s).acc = s.acc := rfl
@[simp] theorem modWs_mbx : (modWs f s).mbx = s.mbx := rfl
@[simp] theorem modWs_spi : (modWs f s).spi = s.spi := rfl
@[simp] theorem modWs_teams : (modWs f s).teams = s.teams := rfl
@[simp] theorem modWs_ports : (modWs f s).ports = s.ports := rfl
@[simp] theorem modWs_grps : (modWs f s).grps = s.grps := rfl
@[simp] theorem modWs_tts : (modWs f s).tts = s.tts := rfl
@[simp] theorem modWs_ttc : (modWs f s).ttc = s.ttc := rfl
@[simp] theorem modWs_crl : (modWs f s).crl = s.crl := rfl
@[simp] theorem modWs_queues : (modWs f s).queues = s.queues := rfl
@[simp] theorem modWs_bud : (modWs f s).bud = s.bud := rfl
@[simp] theorem modWs_tim : (modWs f s).tim = s.tim := rfl
@[simp] theorem modWs_tiles : (modWs f s).tiles = s.tiles := rfl
@[simp] theorem modWs_sup : (modWs f s).sup = s.sup := rfl
@[simp] theorem modWs_flt : (modWs f s).flt = s.flt := rfl
@[simp] theorem modWs_boot : (modWs f s).boot = s.boot := rfl
@[simp] theorem modWs_crp : (modWs f s).crp = s.crp := rfl
@[simp] theorem modWs_pwr : (modWs f s).pwr = s.pwr := rfl
@[simp] theorem modWs_mem : (modWs f s).mem = s.mem := rfl
@[simp] theorem modWs_ecc : (modWs f s).ecc = s.ecc := rfl
@[simp] theorem modWs_posts : (modWs f s).posts = s.posts := rfl
@[simp] theorem modWs_now : (modWs f s).now = s.now := rfl
@[simp] theorem modWs_free : (modWs f s).free = s.free := rfl
@[simp] theorem modWs_pending : (modWs f s).pending = s.pending := rfl
@[simp] theorem modWs_team_at (k : TeamId) : (modWs f s).team k = s.team k := rfl
@[simp] theorem modWs_port_at (k : PortId) : (modWs f s).port k = s.port k := rfl
@[simp] theorem modWs_tile_at (k : TileId) : (modWs f s).tile k = s.tile k := rfl
@[simp] theorem modWs_queue_at (k : QueueId) : (modWs f s).queue k = s.queue k := rfl
@[simp] theorem modWs_tt_at (k : PortId) : (modWs f s).tt k = s.tt k := rfl
@[simp] theorem modWs_grp_at (k : TileId) : (modWs f s).grp k = s.grp k := rfl

end

/-! ### modTtc -/

section
variable (f : Ttc → Ttc) (s : State)

@[simp] theorem modTtc_ttc : (modTtc f s).ttc = f s.ttc := rfl
@[simp] theorem modTtc_acc : (modTtc f s).acc = s.acc := rfl
@[simp] theorem modTtc_mbx : (modTtc f s).mbx = s.mbx := rfl
@[simp] theorem modTtc_spi : (modTtc f s).spi = s.spi := rfl
@[simp] theorem modTtc_ws : (modTtc f s).ws = s.ws := rfl
@[simp] theorem modTtc_teams : (modTtc f s).teams = s.teams := rfl
@[simp] theorem modTtc_ports : (modTtc f s).ports = s.ports := rfl
@[simp] theorem modTtc_grps : (modTtc f s).grps = s.grps := rfl
@[simp] theorem modTtc_tts : (modTtc f s).tts = s.tts := rfl
@[simp] theorem modTtc_crl : (modTtc f s).crl = s.crl := rfl
@[simp] theorem modTtc_queues : (modTtc f s).queues = s.queues := rfl
@[simp] theorem modTtc_bud : (modTtc f s).bud = s.bud := rfl
@[simp] theorem modTtc_tim : (modTtc f s).tim = s.tim := rfl
@[simp] theorem modTtc_tiles : (modTtc f s).tiles = s.tiles := rfl
@[simp] theorem modTtc_sup : (modTtc f s).sup = s.sup := rfl
@[simp] theorem modTtc_flt : (modTtc f s).flt = s.flt := rfl
@[simp] theorem modTtc_boot : (modTtc f s).boot = s.boot := rfl
@[simp] theorem modTtc_crp : (modTtc f s).crp = s.crp := rfl
@[simp] theorem modTtc_pwr : (modTtc f s).pwr = s.pwr := rfl
@[simp] theorem modTtc_mem : (modTtc f s).mem = s.mem := rfl
@[simp] theorem modTtc_ecc : (modTtc f s).ecc = s.ecc := rfl
@[simp] theorem modTtc_posts : (modTtc f s).posts = s.posts := rfl
@[simp] theorem modTtc_now : (modTtc f s).now = s.now := rfl
@[simp] theorem modTtc_free : (modTtc f s).free = s.free := rfl
@[simp] theorem modTtc_pending : (modTtc f s).pending = s.pending := rfl
@[simp] theorem modTtc_team_at (k : TeamId) : (modTtc f s).team k = s.team k := rfl
@[simp] theorem modTtc_port_at (k : PortId) : (modTtc f s).port k = s.port k := rfl
@[simp] theorem modTtc_tile_at (k : TileId) : (modTtc f s).tile k = s.tile k := rfl
@[simp] theorem modTtc_queue_at (k : QueueId) : (modTtc f s).queue k = s.queue k := rfl
@[simp] theorem modTtc_tt_at (k : PortId) : (modTtc f s).tt k = s.tt k := rfl
@[simp] theorem modTtc_grp_at (k : TileId) : (modTtc f s).grp k = s.grp k := rfl

end

/-! ### modCrl -/

section
variable (f : Crl → Crl) (s : State)

@[simp] theorem modCrl_crl : (modCrl f s).crl = f s.crl := rfl
@[simp] theorem modCrl_acc : (modCrl f s).acc = s.acc := rfl
@[simp] theorem modCrl_mbx : (modCrl f s).mbx = s.mbx := rfl
@[simp] theorem modCrl_spi : (modCrl f s).spi = s.spi := rfl
@[simp] theorem modCrl_ws : (modCrl f s).ws = s.ws := rfl
@[simp] theorem modCrl_teams : (modCrl f s).teams = s.teams := rfl
@[simp] theorem modCrl_ports : (modCrl f s).ports = s.ports := rfl
@[simp] theorem modCrl_grps : (modCrl f s).grps = s.grps := rfl
@[simp] theorem modCrl_tts : (modCrl f s).tts = s.tts := rfl
@[simp] theorem modCrl_ttc : (modCrl f s).ttc = s.ttc := rfl
@[simp] theorem modCrl_queues : (modCrl f s).queues = s.queues := rfl
@[simp] theorem modCrl_bud : (modCrl f s).bud = s.bud := rfl
@[simp] theorem modCrl_tim : (modCrl f s).tim = s.tim := rfl
@[simp] theorem modCrl_tiles : (modCrl f s).tiles = s.tiles := rfl
@[simp] theorem modCrl_sup : (modCrl f s).sup = s.sup := rfl
@[simp] theorem modCrl_flt : (modCrl f s).flt = s.flt := rfl
@[simp] theorem modCrl_boot : (modCrl f s).boot = s.boot := rfl
@[simp] theorem modCrl_crp : (modCrl f s).crp = s.crp := rfl
@[simp] theorem modCrl_pwr : (modCrl f s).pwr = s.pwr := rfl
@[simp] theorem modCrl_mem : (modCrl f s).mem = s.mem := rfl
@[simp] theorem modCrl_ecc : (modCrl f s).ecc = s.ecc := rfl
@[simp] theorem modCrl_posts : (modCrl f s).posts = s.posts := rfl
@[simp] theorem modCrl_now : (modCrl f s).now = s.now := rfl
@[simp] theorem modCrl_free : (modCrl f s).free = s.free := rfl
@[simp] theorem modCrl_pending : (modCrl f s).pending = s.pending := rfl
@[simp] theorem modCrl_team_at (k : TeamId) : (modCrl f s).team k = s.team k := rfl
@[simp] theorem modCrl_port_at (k : PortId) : (modCrl f s).port k = s.port k := rfl
@[simp] theorem modCrl_tile_at (k : TileId) : (modCrl f s).tile k = s.tile k := rfl
@[simp] theorem modCrl_queue_at (k : QueueId) : (modCrl f s).queue k = s.queue k := rfl
@[simp] theorem modCrl_tt_at (k : PortId) : (modCrl f s).tt k = s.tt k := rfl
@[simp] theorem modCrl_grp_at (k : TileId) : (modCrl f s).grp k = s.grp k := rfl

end

/-! ### modBud -/

section
variable (f : Bud → Bud) (s : State)

@[simp] theorem modBud_bud : (modBud f s).bud = f s.bud := rfl
@[simp] theorem modBud_acc : (modBud f s).acc = s.acc := rfl
@[simp] theorem modBud_mbx : (modBud f s).mbx = s.mbx := rfl
@[simp] theorem modBud_spi : (modBud f s).spi = s.spi := rfl
@[simp] theorem modBud_ws : (modBud f s).ws = s.ws := rfl
@[simp] theorem modBud_teams : (modBud f s).teams = s.teams := rfl
@[simp] theorem modBud_ports : (modBud f s).ports = s.ports := rfl
@[simp] theorem modBud_grps : (modBud f s).grps = s.grps := rfl
@[simp] theorem modBud_tts : (modBud f s).tts = s.tts := rfl
@[simp] theorem modBud_ttc : (modBud f s).ttc = s.ttc := rfl
@[simp] theorem modBud_crl : (modBud f s).crl = s.crl := rfl
@[simp] theorem modBud_queues : (modBud f s).queues = s.queues := rfl
@[simp] theorem modBud_tim : (modBud f s).tim = s.tim := rfl
@[simp] theorem modBud_tiles : (modBud f s).tiles = s.tiles := rfl
@[simp] theorem modBud_sup : (modBud f s).sup = s.sup := rfl
@[simp] theorem modBud_flt : (modBud f s).flt = s.flt := rfl
@[simp] theorem modBud_boot : (modBud f s).boot = s.boot := rfl
@[simp] theorem modBud_crp : (modBud f s).crp = s.crp := rfl
@[simp] theorem modBud_pwr : (modBud f s).pwr = s.pwr := rfl
@[simp] theorem modBud_mem : (modBud f s).mem = s.mem := rfl
@[simp] theorem modBud_ecc : (modBud f s).ecc = s.ecc := rfl
@[simp] theorem modBud_posts : (modBud f s).posts = s.posts := rfl
@[simp] theorem modBud_now : (modBud f s).now = s.now := rfl
@[simp] theorem modBud_free : (modBud f s).free = s.free := rfl
@[simp] theorem modBud_pending : (modBud f s).pending = s.pending := rfl
@[simp] theorem modBud_team_at (k : TeamId) : (modBud f s).team k = s.team k := rfl
@[simp] theorem modBud_port_at (k : PortId) : (modBud f s).port k = s.port k := rfl
@[simp] theorem modBud_tile_at (k : TileId) : (modBud f s).tile k = s.tile k := rfl
@[simp] theorem modBud_queue_at (k : QueueId) : (modBud f s).queue k = s.queue k := rfl
@[simp] theorem modBud_tt_at (k : PortId) : (modBud f s).tt k = s.tt k := rfl
@[simp] theorem modBud_grp_at (k : TileId) : (modBud f s).grp k = s.grp k := rfl

end

/-! ### modTim -/

section
variable (f : Tim → Tim) (s : State)

@[simp] theorem modTim_tim : (modTim f s).tim = f s.tim := rfl
@[simp] theorem modTim_acc : (modTim f s).acc = s.acc := rfl
@[simp] theorem modTim_mbx : (modTim f s).mbx = s.mbx := rfl
@[simp] theorem modTim_spi : (modTim f s).spi = s.spi := rfl
@[simp] theorem modTim_ws : (modTim f s).ws = s.ws := rfl
@[simp] theorem modTim_teams : (modTim f s).teams = s.teams := rfl
@[simp] theorem modTim_ports : (modTim f s).ports = s.ports := rfl
@[simp] theorem modTim_grps : (modTim f s).grps = s.grps := rfl
@[simp] theorem modTim_tts : (modTim f s).tts = s.tts := rfl
@[simp] theorem modTim_ttc : (modTim f s).ttc = s.ttc := rfl
@[simp] theorem modTim_crl : (modTim f s).crl = s.crl := rfl
@[simp] theorem modTim_queues : (modTim f s).queues = s.queues := rfl
@[simp] theorem modTim_bud : (modTim f s).bud = s.bud := rfl
@[simp] theorem modTim_tiles : (modTim f s).tiles = s.tiles := rfl
@[simp] theorem modTim_sup : (modTim f s).sup = s.sup := rfl
@[simp] theorem modTim_flt : (modTim f s).flt = s.flt := rfl
@[simp] theorem modTim_boot : (modTim f s).boot = s.boot := rfl
@[simp] theorem modTim_crp : (modTim f s).crp = s.crp := rfl
@[simp] theorem modTim_pwr : (modTim f s).pwr = s.pwr := rfl
@[simp] theorem modTim_mem : (modTim f s).mem = s.mem := rfl
@[simp] theorem modTim_ecc : (modTim f s).ecc = s.ecc := rfl
@[simp] theorem modTim_posts : (modTim f s).posts = s.posts := rfl
@[simp] theorem modTim_now : (modTim f s).now = s.now := rfl
@[simp] theorem modTim_free : (modTim f s).free = s.free := rfl
@[simp] theorem modTim_pending : (modTim f s).pending = s.pending := rfl
@[simp] theorem modTim_team_at (k : TeamId) : (modTim f s).team k = s.team k := rfl
@[simp] theorem modTim_port_at (k : PortId) : (modTim f s).port k = s.port k := rfl
@[simp] theorem modTim_tile_at (k : TileId) : (modTim f s).tile k = s.tile k := rfl
@[simp] theorem modTim_queue_at (k : QueueId) : (modTim f s).queue k = s.queue k := rfl
@[simp] theorem modTim_tt_at (k : PortId) : (modTim f s).tt k = s.tt k := rfl
@[simp] theorem modTim_grp_at (k : TileId) : (modTim f s).grp k = s.grp k := rfl

end

/-! ### modFlt -/

section
variable (f : Flt → Flt) (s : State)

@[simp] theorem modFlt_flt : (modFlt f s).flt = f s.flt := rfl
@[simp] theorem modFlt_acc : (modFlt f s).acc = s.acc := rfl
@[simp] theorem modFlt_mbx : (modFlt f s).mbx = s.mbx := rfl
@[simp] theorem modFlt_spi : (modFlt f s).spi = s.spi := rfl
@[simp] theorem modFlt_ws : (modFlt f s).ws = s.ws := rfl
@[simp] theorem modFlt_teams : (modFlt f s).teams = s.teams := rfl
@[simp] theorem modFlt_ports : (modFlt f s).ports = s.ports := rfl
@[simp] theorem modFlt_grps : (modFlt f s).grps = s.grps := rfl
@[simp] theorem modFlt_tts : (modFlt f s).tts = s.tts := rfl
@[simp] theorem modFlt_ttc : (modFlt f s).ttc = s.ttc := rfl
@[simp] theorem modFlt_crl : (modFlt f s).crl = s.crl := rfl
@[simp] theorem modFlt_queues : (modFlt f s).queues = s.queues := rfl
@[simp] theorem modFlt_bud : (modFlt f s).bud = s.bud := rfl
@[simp] theorem modFlt_tim : (modFlt f s).tim = s.tim := rfl
@[simp] theorem modFlt_tiles : (modFlt f s).tiles = s.tiles := rfl
@[simp] theorem modFlt_sup : (modFlt f s).sup = s.sup := rfl
@[simp] theorem modFlt_boot : (modFlt f s).boot = s.boot := rfl
@[simp] theorem modFlt_crp : (modFlt f s).crp = s.crp := rfl
@[simp] theorem modFlt_pwr : (modFlt f s).pwr = s.pwr := rfl
@[simp] theorem modFlt_mem : (modFlt f s).mem = s.mem := rfl
@[simp] theorem modFlt_ecc : (modFlt f s).ecc = s.ecc := rfl
@[simp] theorem modFlt_posts : (modFlt f s).posts = s.posts := rfl
@[simp] theorem modFlt_now : (modFlt f s).now = s.now := rfl
@[simp] theorem modFlt_free : (modFlt f s).free = s.free := rfl
@[simp] theorem modFlt_pending : (modFlt f s).pending = s.pending := rfl
@[simp] theorem modFlt_team_at (k : TeamId) : (modFlt f s).team k = s.team k := rfl
@[simp] theorem modFlt_port_at (k : PortId) : (modFlt f s).port k = s.port k := rfl
@[simp] theorem modFlt_tile_at (k : TileId) : (modFlt f s).tile k = s.tile k := rfl
@[simp] theorem modFlt_queue_at (k : QueueId) : (modFlt f s).queue k = s.queue k := rfl
@[simp] theorem modFlt_tt_at (k : PortId) : (modFlt f s).tt k = s.tt k := rfl
@[simp] theorem modFlt_grp_at (k : TileId) : (modFlt f s).grp k = s.grp k := rfl

end

/-! ### modBoot -/

section
variable (f : Boot → Boot) (s : State)

@[simp] theorem modBoot_boot : (modBoot f s).boot = f s.boot := rfl
@[simp] theorem modBoot_acc : (modBoot f s).acc = s.acc := rfl
@[simp] theorem modBoot_mbx : (modBoot f s).mbx = s.mbx := rfl
@[simp] theorem modBoot_spi : (modBoot f s).spi = s.spi := rfl
@[simp] theorem modBoot_ws : (modBoot f s).ws = s.ws := rfl
@[simp] theorem modBoot_teams : (modBoot f s).teams = s.teams := rfl
@[simp] theorem modBoot_ports : (modBoot f s).ports = s.ports := rfl
@[simp] theorem modBoot_grps : (modBoot f s).grps = s.grps := rfl
@[simp] theorem modBoot_tts : (modBoot f s).tts = s.tts := rfl
@[simp] theorem modBoot_ttc : (modBoot f s).ttc = s.ttc := rfl
@[simp] theorem modBoot_crl : (modBoot f s).crl = s.crl := rfl
@[simp] theorem modBoot_queues : (modBoot f s).queues = s.queues := rfl
@[simp] theorem modBoot_bud : (modBoot f s).bud = s.bud := rfl
@[simp] theorem modBoot_tim : (modBoot f s).tim = s.tim := rfl
@[simp] theorem modBoot_tiles : (modBoot f s).tiles = s.tiles := rfl
@[simp] theorem modBoot_sup : (modBoot f s).sup = s.sup := rfl
@[simp] theorem modBoot_flt : (modBoot f s).flt = s.flt := rfl
@[simp] theorem modBoot_crp : (modBoot f s).crp = s.crp := rfl
@[simp] theorem modBoot_pwr : (modBoot f s).pwr = s.pwr := rfl
@[simp] theorem modBoot_mem : (modBoot f s).mem = s.mem := rfl
@[simp] theorem modBoot_ecc : (modBoot f s).ecc = s.ecc := rfl
@[simp] theorem modBoot_posts : (modBoot f s).posts = s.posts := rfl
@[simp] theorem modBoot_now : (modBoot f s).now = s.now := rfl
@[simp] theorem modBoot_free : (modBoot f s).free = s.free := rfl
@[simp] theorem modBoot_pending : (modBoot f s).pending = s.pending := rfl
@[simp] theorem modBoot_team_at (k : TeamId) : (modBoot f s).team k = s.team k := rfl
@[simp] theorem modBoot_port_at (k : PortId) : (modBoot f s).port k = s.port k := rfl
@[simp] theorem modBoot_tile_at (k : TileId) : (modBoot f s).tile k = s.tile k := rfl
@[simp] theorem modBoot_queue_at (k : QueueId) : (modBoot f s).queue k = s.queue k := rfl
@[simp] theorem modBoot_tt_at (k : PortId) : (modBoot f s).tt k = s.tt k := rfl
@[simp] theorem modBoot_grp_at (k : TileId) : (modBoot f s).grp k = s.grp k := rfl

end

/-! ### modCrp -/

section
variable (f : Crp → Crp) (s : State)

@[simp] theorem modCrp_crp : (modCrp f s).crp = f s.crp := rfl
@[simp] theorem modCrp_acc : (modCrp f s).acc = s.acc := rfl
@[simp] theorem modCrp_mbx : (modCrp f s).mbx = s.mbx := rfl
@[simp] theorem modCrp_spi : (modCrp f s).spi = s.spi := rfl
@[simp] theorem modCrp_ws : (modCrp f s).ws = s.ws := rfl
@[simp] theorem modCrp_teams : (modCrp f s).teams = s.teams := rfl
@[simp] theorem modCrp_ports : (modCrp f s).ports = s.ports := rfl
@[simp] theorem modCrp_grps : (modCrp f s).grps = s.grps := rfl
@[simp] theorem modCrp_tts : (modCrp f s).tts = s.tts := rfl
@[simp] theorem modCrp_ttc : (modCrp f s).ttc = s.ttc := rfl
@[simp] theorem modCrp_crl : (modCrp f s).crl = s.crl := rfl
@[simp] theorem modCrp_queues : (modCrp f s).queues = s.queues := rfl
@[simp] theorem modCrp_bud : (modCrp f s).bud = s.bud := rfl
@[simp] theorem modCrp_tim : (modCrp f s).tim = s.tim := rfl
@[simp] theorem modCrp_tiles : (modCrp f s).tiles = s.tiles := rfl
@[simp] theorem modCrp_sup : (modCrp f s).sup = s.sup := rfl
@[simp] theorem modCrp_flt : (modCrp f s).flt = s.flt := rfl
@[simp] theorem modCrp_boot : (modCrp f s).boot = s.boot := rfl
@[simp] theorem modCrp_pwr : (modCrp f s).pwr = s.pwr := rfl
@[simp] theorem modCrp_mem : (modCrp f s).mem = s.mem := rfl
@[simp] theorem modCrp_ecc : (modCrp f s).ecc = s.ecc := rfl
@[simp] theorem modCrp_posts : (modCrp f s).posts = s.posts := rfl
@[simp] theorem modCrp_now : (modCrp f s).now = s.now := rfl
@[simp] theorem modCrp_free : (modCrp f s).free = s.free := rfl
@[simp] theorem modCrp_pending : (modCrp f s).pending = s.pending := rfl
@[simp] theorem modCrp_team_at (k : TeamId) : (modCrp f s).team k = s.team k := rfl
@[simp] theorem modCrp_port_at (k : PortId) : (modCrp f s).port k = s.port k := rfl
@[simp] theorem modCrp_tile_at (k : TileId) : (modCrp f s).tile k = s.tile k := rfl
@[simp] theorem modCrp_queue_at (k : QueueId) : (modCrp f s).queue k = s.queue k := rfl
@[simp] theorem modCrp_tt_at (k : PortId) : (modCrp f s).tt k = s.tt k := rfl
@[simp] theorem modCrp_grp_at (k : TileId) : (modCrp f s).grp k = s.grp k := rfl

end

/-! ### modPwr -/

section
variable (f : Pwr → Pwr) (s : State)

@[simp] theorem modPwr_pwr : (modPwr f s).pwr = f s.pwr := rfl
@[simp] theorem modPwr_acc : (modPwr f s).acc = s.acc := rfl
@[simp] theorem modPwr_mbx : (modPwr f s).mbx = s.mbx := rfl
@[simp] theorem modPwr_spi : (modPwr f s).spi = s.spi := rfl
@[simp] theorem modPwr_ws : (modPwr f s).ws = s.ws := rfl
@[simp] theorem modPwr_teams : (modPwr f s).teams = s.teams := rfl
@[simp] theorem modPwr_ports : (modPwr f s).ports = s.ports := rfl
@[simp] theorem modPwr_grps : (modPwr f s).grps = s.grps := rfl
@[simp] theorem modPwr_tts : (modPwr f s).tts = s.tts := rfl
@[simp] theorem modPwr_ttc : (modPwr f s).ttc = s.ttc := rfl
@[simp] theorem modPwr_crl : (modPwr f s).crl = s.crl := rfl
@[simp] theorem modPwr_queues : (modPwr f s).queues = s.queues := rfl
@[simp] theorem modPwr_bud : (modPwr f s).bud = s.bud := rfl
@[simp] theorem modPwr_tim : (modPwr f s).tim = s.tim := rfl
@[simp] theorem modPwr_tiles : (modPwr f s).tiles = s.tiles := rfl
@[simp] theorem modPwr_sup : (modPwr f s).sup = s.sup := rfl
@[simp] theorem modPwr_flt : (modPwr f s).flt = s.flt := rfl
@[simp] theorem modPwr_boot : (modPwr f s).boot = s.boot := rfl
@[simp] theorem modPwr_crp : (modPwr f s).crp = s.crp := rfl
@[simp] theorem modPwr_mem : (modPwr f s).mem = s.mem := rfl
@[simp] theorem modPwr_ecc : (modPwr f s).ecc = s.ecc := rfl
@[simp] theorem modPwr_posts : (modPwr f s).posts = s.posts := rfl
@[simp] theorem modPwr_now : (modPwr f s).now = s.now := rfl
@[simp] theorem modPwr_free : (modPwr f s).free = s.free := rfl
@[simp] theorem modPwr_pending : (modPwr f s).pending = s.pending := rfl
@[simp] theorem modPwr_team_at (k : TeamId) : (modPwr f s).team k = s.team k := rfl
@[simp] theorem modPwr_port_at (k : PortId) : (modPwr f s).port k = s.port k := rfl
@[simp] theorem modPwr_tile_at (k : TileId) : (modPwr f s).tile k = s.tile k := rfl
@[simp] theorem modPwr_queue_at (k : QueueId) : (modPwr f s).queue k = s.queue k := rfl
@[simp] theorem modPwr_tt_at (k : PortId) : (modPwr f s).tt k = s.tt k := rfl
@[simp] theorem modPwr_grp_at (k : TileId) : (modPwr f s).grp k = s.grp k := rfl

end

end Sys2Proof.Machine
end

