-- ==== Sys2Proof/Laws/Events.lean ====
section
/-!
SUPPORT. Laws/Events.lean: noting the events of a change latches bits of EPEND in the cores and changes nothing else.
-/
namespace Sys2Proof.Machine

theorem SameButEvents.refl (s : State) : SameButEvents s s := rfl

theorem SameButEvents.trans {a b c : State} (h : SameButEvents a b) (k : SameButEvents b c) : SameButEvents a c := Eq.trans h k

/-- Operations that only latch events agree with the state they start from, one after another too. -/
theorem forEach_same {β : Type} {l : List β} {f : β → State → State} (hf : ∀ b t, SameButEvents (f b t) t) (s : State) :
    SameButEvents (forEach l f s) s := by
  unfold forEach
  induction l generalizing s with
  | nil => exact rfl
  | cons b bs ih => exact (ih (f b s)).trans (hf b s)

theorem latchSup_same (bits : Word) (s : State) : SameButEvents (latchSup bits s) s := rfl

theorem latchEv_same (p : PortId) (bits : Word) (s : State) : SameButEvents (latchEv p bits s) s := by
  have h : (latchEv p bits s).tiles.map (fun t => { t with thr := t.thr.map fun (c : Cpu) => { c with epend := 0 } }) =
      s.tiles.map (fun t => { t with thr := t.thr.map fun (c : Cpu) => { c with epend := 0 } }) := by
    unfold latchEv modThr modTile
    apply Vector.ext
    intro i hi
    simp only [Vector.getElem_map, Vector.getElem_set, Fin.getElem_fin]
    split
    · rename_i e
      subst e
      congr 1
      apply Vector.ext
      intro j hj
      simp only [Vector.getElem_map, Vector.getElem_set]
      split
      · rename_i e
        subst e
        rfl
      · rfl
    · rfl
  unfold SameButEvents withoutEvents
  rw [h]
  rfl

theorem notePort_same (s₀ : State) (p : PortId) (s : State) : SameButEvents (notePort s₀ p s) s := by
  unfold notePort
  split
  · exact latchEv_same p _ s
  · exact rfl

theorem noteSup_same (s₀ s : State) : SameButEvents (noteSup s₀ s) s := by
  unfold noteSup
  split
  · exact rfl
  · exact latchSup_same _ s

/-- What follows from a change by way of events is latched bits alone. -/
theorem portEv_same (p : PortId) (f : State → State) (s : State) : SameButEvents (portEv p f s) (f s) := notePort_same s p _

theorem groupEv_same (g : TileId) (f : State → State) (s : State) : SameButEvents (groupEv g f s) (f s) :=
  forEach_same (notePort_same s) _

theorem allEv_same (f : State → State) (s : State) : SameButEvents (allEv f s) (f s) :=
  (noteSup_same s _).trans (forEach_same (notePort_same s) _)

end Sys2Proof.Machine
end

