-- ==== Sys2Proof/Laws/Flags.lean ====
section
/-!
SUPPORT. Laws/Flags.lean: the results of the ALU in bit-vector terms: sums, differences and their overflow by signs.
-/
namespace Sys2Proof.Machine

/-- The carry into a sum, or the borrow into a difference, as a word. -/
theorem oneBit_toNat (b : Bool) : (if b then 1#32 else 0#32).toNat = b2n b := by cases b <;> rfl

theorem addOut_val (a b : Word) (cin : Bool) : (addOut a b cin).val = a + b + (if cin then 1#32 else 0#32) := by
  apply BitVec.eq_of_toNat_eq
  simp [addOut, oneBit_toNat]

theorem subOut_val (a b : Word) (cin : Bool) : (subOut a b cin).val = a - b - (if cin then 0#32 else 1#32) := by
  cases cin <;> rfl

/-- A sum overflows when the operands have one sign and the result the other. -/
theorem addOut_ovf (a b : Word) (cin : Bool) :
    (addOut a b cin).ovf = some (a.msb == b.msb && (addOut a b cin).val.msb != a.msb) := by
  have hv := addOut_val a b cin
  have ha := a.isLt
  have hb := b.isLt
  have hc := oneBit_toNat cin
  have hc1 : b2n cin ≤ 1 := by cases cin <;> decide
  generalize hw : (if cin then 1#32 else 0#32) = w at *
  have ho : (addOut a b cin).ovf = some (decide ((addOut a b cin).val.toInt ≠ a.toInt + b.toInt + b2n cin)) := rfl
  rw [ho, hv, Option.some.injEq, Bool.eq_iff_iff]
  simp only [decide_eq_true_eq, Bool.and_eq_true, bne_iff_ne, beq_iff_eq, ne_eq, BitVec.toInt_eq_toNat_cond, BitVec.msb_eq_decide,
    BitVec.toNat_add, hc, decide_eq_decide]
  split <;> split <;> split <;> omega

/-- A difference overflows when the operands' signs differ and the result's is not the first one's. -/
theorem subOut_ovf (a b : Word) (cin : Bool) :
    (subOut a b cin).ovf = some (a.msb != b.msb && (subOut a b cin).val.msb != a.msb) := by
  have hv := subOut_val a b cin
  have ha := a.isLt
  have hb := b.isLt
  have hc : (if cin then 0#32 else 1#32).toNat = b2n (!cin) := by cases cin <;> rfl
  have hc1 : b2n (!cin) ≤ 1 := by cases cin <;> decide
  generalize hw : (if cin then 0#32 else 1#32) = w at *
  have ho : (subOut a b cin).ovf = some (decide ((subOut a b cin).val.toInt ≠ a.toInt - b.toInt - b2n (!cin))) := rfl
  rw [ho, hv, Option.some.injEq, Bool.eq_iff_iff]
  simp only [decide_eq_true_eq, Bool.and_eq_true, bne_iff_ne, ne_eq, BitVec.toInt_eq_toNat_cond, BitVec.msb_eq_decide, BitVec.toNat_sub, hc,
    decide_eq_decide]
  split <;> split <;> split <;> omega

theorem addOut_carry (a b : Word) (cin : Bool) : (addOut a b cin).carry = some (decide (2 ^ 32 ≤ a.toNat + b.toNat + b2n cin)) := rfl

theorem subOut_carry (a b : Word) (cin : Bool) : (subOut a b cin).carry = some (decide (b.toNat + b2n (!cin) ≤ a.toNat)) := rfl

end Sys2Proof.Machine
end

