-- ==== Sys2Proof/Laws/KeepsMemory.lean ====
section
/-!
SUPPORT. Laws/KeepsMemory.lean: every operation of Machine/Memory.lean leaves the queue of commands as it is and keeps memory canonical.
-/
namespace Sys2Proof.Machine

theorem injDone_keeps {r s} (h : Keeps r s) : Keeps r (injDone s) := by
  unfold injDone; repeat' first | with_reducible assumption | with_reducible apply ite_keeps | split | (intro) | dsimp only | (refine Keeps.upd (by with_reducible assumption) ?_ ?_ <;> with_reducible rfl)

theorem eccStore_keeps {r x0 x1 s} (h : Keeps r s) : Keeps r (eccStore x0 x1 s) := by
  unfold eccStore; repeat' first | with_reducible assumption | with_reducible apply ite_keeps | with_reducible apply injDone_keeps | split | (intro) | dsimp only | (refine Keeps.upd (by with_reducible assumption) ?_ ?_ <;> with_reducible rfl)

theorem setCellWord_keeps {r x0 x1 x2 s} (h : Keeps r s) : Keeps r (setCellWord x0 x1 x2 s) := eccStore_keeps (Keeps.updMem h (memPutWord_wf _ _) rfl)

theorem qspiSend_keeps {r x0 s} (h : Keeps r s) : Keeps r (qspiSend x0 s) := by
  unfold qspiSend; repeat' first | with_reducible assumption | with_reducible apply ite_keeps | split | (intro) | dsimp only | (refine Keeps.upd (by with_reducible assumption) ?_ ?_ <;> with_reducible rfl)

theorem qspiRead_keeps {r x0 s} (h : Keeps r s) : Keeps r (qspiRead x0 s) := by
  unfold qspiRead; repeat' first | with_reducible assumption | with_reducible apply ite_keeps | with_reducible apply qspiSend_keeps | split | (intro) | dsimp only | (refine Keeps.upd (by with_reducible assumption) ?_ ?_ <;> with_reducible rfl)

theorem flashWrite_keeps {r x0 x1 s} (h : Keeps r s) : Keeps r (flashWrite x0 x1 s) := qspiSend_keeps (Keeps.updMem h (memPutBytes_wf _ _) rfl)

end Sys2Proof.Machine
end

