-- ==== Sys2Proof/Laws/KeepsOps.lean ====
section
/-!
SUPPORT. Laws/KeepsOps.lean: every operation of Machine/Ops.lean leaves the queue of commands as it is and keeps memory canonical.
-/
namespace Sys2Proof.Machine

theorem modTeam_keeps {r x0 x1 s} (h : Keeps r s) : Keeps r (modTeam x0 x1 s) := by
  unfold modTeam; repeat' first | with_reducible assumption | with_reducible apply ite_keeps | split | (intro) | dsimp only | (refine Keeps.upd (by with_reducible assumption) ?_ ?_ <;> with_reducible rfl)

theorem modPort_keeps {r x0 x1 s} (h : Keeps r s) : Keeps r (modPort x0 x1 s) := by
  unfold modPort; repeat' first | with_reducible assumption | with_reducible apply ite_keeps | split | (intro) | dsimp only | (refine Keeps.upd (by with_reducible assumption) ?_ ?_ <;> with_reducible rfl)

theorem modTile_keeps {r x0 x1 s} (h : Keeps r s) : Keeps r (modTile x0 x1 s) := by
  unfold modTile; repeat' first | with_reducible assumption | with_reducible apply ite_keeps | split | (intro) | dsimp only | (refine Keeps.upd (by with_reducible assumption) ?_ ?_ <;> with_reducible rfl)

theorem modQueue_keeps {r x0 x1 s} (h : Keeps r s) : Keeps r (modQueue x0 x1 s) := by
  unfold modQueue; repeat' first | with_reducible assumption | with_reducible apply ite_keeps | split | (intro) | dsimp only | (refine Keeps.upd (by with_reducible assumption) ?_ ?_ <;> with_reducible rfl)

theorem modTt_keeps {r x0 x1 s} (h : Keeps r s) : Keeps r (modTt x0 x1 s) := by
  unfold modTt; repeat' first | with_reducible assumption | with_reducible apply ite_keeps | split | (intro) | dsimp only | (refine Keeps.upd (by with_reducible assumption) ?_ ?_ <;> with_reducible rfl)

theorem modGrp_keeps {r x0 x1 s} (h : Keeps r s) : Keeps r (modGrp x0 x1 s) := by
  unfold modGrp; repeat' first | with_reducible assumption | with_reducible apply ite_keeps | split | (intro) | dsimp only | (refine Keeps.upd (by with_reducible assumption) ?_ ?_ <;> with_reducible rfl)

theorem modHub_keeps {r x0 x1 s} (h : Keeps r s) : Keeps r (modHub x0 x1 s) := by
  unfold modHub; repeat' first | with_reducible assumption | with_reducible apply ite_keeps | with_reducible apply modPort_keeps | split | (intro) | dsimp only | (refine Keeps.upd (by with_reducible assumption) ?_ ?_ <;> with_reducible rfl)

theorem modTc_keeps {r x0 x1 s} (h : Keeps r s) : Keeps r (modTc x0 x1 s) := by
  unfold modTc; repeat' first | with_reducible assumption | with_reducible apply ite_keeps | with_reducible apply modPort_keeps | split | (intro) | dsimp only | (refine Keeps.upd (by with_reducible assumption) ?_ ?_ <;> with_reducible rfl)

theorem modPd_keeps {r x0 x1 s} (h : Keeps r s) : Keeps r (modPd x0 x1 s) := by
  unfold modPd; repeat' first | with_reducible assumption | with_reducible apply ite_keeps | with_reducible apply modPort_keeps | split | (intro) | dsimp only | (refine Keeps.upd (by with_reducible assumption) ?_ ?_ <;> with_reducible rfl)

theorem modPhy_keeps {r x0 x1 s} (h : Keeps r s) : Keeps r (modPhy x0 x1 s) := by
  unfold modPhy; repeat' first | with_reducible assumption | with_reducible apply ite_keeps | with_reducible apply modPort_keeps | split | (intro) | dsimp only | (refine Keeps.upd (by with_reducible assumption) ?_ ?_ <;> with_reducible rfl)

theorem modPw_keeps {r x0 x1 s} (h : Keeps r s) : Keeps r (modPw x0 x1 s) := by
  unfold modPw; repeat' first | with_reducible assumption | with_reducible apply ite_keeps | with_reducible apply modPort_keeps | split | (intro) | dsimp only | (refine Keeps.upd (by with_reducible assumption) ?_ ?_ <;> with_reducible rfl)

theorem modThr_keeps {r x0 x1 s} (h : Keeps r s) : Keeps r (modThr x0 x1 s) := by
  unfold modThr; repeat' first | with_reducible assumption | with_reducible apply ite_keeps | with_reducible apply modTile_keeps | split | (intro) | dsimp only | (refine Keeps.upd (by with_reducible assumption) ?_ ?_ <;> with_reducible rfl)

theorem modAcc_keeps {r x0 s} (h : Keeps r s) : Keeps r (modAcc x0 s) := by
  unfold modAcc; repeat' first | with_reducible assumption | with_reducible apply ite_keeps | split | (intro) | dsimp only | (refine Keeps.upd (by with_reducible assumption) ?_ ?_ <;> with_reducible rfl)

theorem modMbx_keeps {r x0 s} (h : Keeps r s) : Keeps r (modMbx x0 s) := by
  unfold modMbx; repeat' first | with_reducible assumption | with_reducible apply ite_keeps | split | (intro) | dsimp only | (refine Keeps.upd (by with_reducible assumption) ?_ ?_ <;> with_reducible rfl)

theorem modBox_keeps {r x0 x1 s} (h : Keeps r s) : Keeps r (modBox x0 x1 s) := by
  unfold modBox; repeat' first | with_reducible assumption | with_reducible apply ite_keeps | with_reducible apply modMbx_keeps | split | (intro) | dsimp only | (refine Keeps.upd (by with_reducible assumption) ?_ ?_ <;> with_reducible rfl)

theorem modSpi_keeps {r x0 s} (h : Keeps r s) : Keeps r (modSpi x0 s) := by
  unfold modSpi; repeat' first | with_reducible assumption | with_reducible apply ite_keeps | split | (intro) | dsimp only | (refine Keeps.upd (by with_reducible assumption) ?_ ?_ <;> with_reducible rfl)

theorem modWs_keeps {r x0 s} (h : Keeps r s) : Keeps r (modWs x0 s) := by
  unfold modWs; repeat' first | with_reducible assumption | with_reducible apply ite_keeps | split | (intro) | dsimp only | (refine Keeps.upd (by with_reducible assumption) ?_ ?_ <;> with_reducible rfl)

theorem modTtc_keeps {r x0 s} (h : Keeps r s) : Keeps r (modTtc x0 s) := by
  unfold modTtc; repeat' first | with_reducible assumption | with_reducible apply ite_keeps | split | (intro) | dsimp only | (refine Keeps.upd (by with_reducible assumption) ?_ ?_ <;> with_reducible rfl)

theorem modCrl_keeps {r x0 s} (h : Keeps r s) : Keeps r (modCrl x0 s) := by
  unfold modCrl; repeat' first | with_reducible assumption | with_reducible apply ite_keeps | split | (intro) | dsimp only | (refine Keeps.upd (by with_reducible assumption) ?_ ?_ <;> with_reducible rfl)

theorem modBud_keeps {r x0 s} (h : Keeps r s) : Keeps r (modBud x0 s) := by
  unfold modBud; repeat' first | with_reducible assumption | with_reducible apply ite_keeps | split | (intro) | dsimp only | (refine Keeps.upd (by with_reducible assumption) ?_ ?_ <;> with_reducible rfl)

theorem modTim_keeps {r x0 s} (h : Keeps r s) : Keeps r (modTim x0 s) := by
  unfold modTim; repeat' first | with_reducible assumption | with_reducible apply ite_keeps | split | (intro) | dsimp only | (refine Keeps.upd (by with_reducible assumption) ?_ ?_ <;> with_reducible rfl)

theorem modFlt_keeps {r x0 s} (h : Keeps r s) : Keeps r (modFlt x0 s) := by
  unfold modFlt; repeat' first | with_reducible assumption | with_reducible apply ite_keeps | split | (intro) | dsimp only | (refine Keeps.upd (by with_reducible assumption) ?_ ?_ <;> with_reducible rfl)

theorem modBoot_keeps {r x0 s} (h : Keeps r s) : Keeps r (modBoot x0 s) := by
  unfold modBoot; repeat' first | with_reducible assumption | with_reducible apply ite_keeps | split | (intro) | dsimp only | (refine Keeps.upd (by with_reducible assumption) ?_ ?_ <;> with_reducible rfl)

theorem modCrp_keeps {r x0 s} (h : Keeps r s) : Keeps r (modCrp x0 s) := by
  unfold modCrp; repeat' first | with_reducible assumption | with_reducible apply ite_keeps | split | (intro) | dsimp only | (refine Keeps.upd (by with_reducible assumption) ?_ ?_ <;> with_reducible rfl)

theorem modPwr_keeps {r x0 s} (h : Keeps r s) : Keeps r (modPwr x0 s) := by
  unfold modPwr; repeat' first | with_reducible assumption | with_reducible apply ite_keeps | split | (intro) | dsimp only | (refine Keeps.upd (by with_reducible assumption) ?_ ?_ <;> with_reducible rfl)

theorem modCpu_keeps {r x0 x1 s} (h : Keeps r s) : Keeps r (modCpu x0 x1 s) := by
  unfold modCpu; repeat' first | with_reducible assumption | with_reducible apply ite_keeps | with_reducible apply modThr_keeps | split | (intro) | dsimp only | (refine Keeps.upd (by with_reducible assumption) ?_ ?_ <;> with_reducible rfl)

theorem drawNat_to {r s y0 t}  (e : drawNat s = (y0, t)) (h : Keeps r s) : Keeps r t := by
  unfold drawNat at e; (repeat' first | split at e | dsimp only at e) <;> cases e <;> repeat' first | with_reducible assumption | with_reducible apply ite_keeps | split | (intro) | dsimp only | (refine Keeps.upd (by with_reducible assumption) ?_ ?_ <;> with_reducible rfl)

theorem drawBool_to {r s y0 t}  (e : drawBool s = (y0, t)) (h : Keeps r s) : Keeps r t := by
  unfold drawBool at e; (repeat' first | split at e | dsimp only at e) <;> cases e <;> repeat' first | with_reducible assumption | with_reducible apply ite_keeps | split | (intro) | dsimp only | (refine Keeps.upd (by with_reducible assumption) ?_ ?_ <;> with_reducible rfl)

theorem drawWord_to {r s y0 t}  (e : drawWord s = (y0, t)) (h : Keeps r s) : Keeps r t := by
  unfold drawWord at e; (repeat' first | split at e | dsimp only at e) <;> cases e <;> repeat' first | with_reducible assumption | with_reducible apply ite_keeps | split | (intro) | dsimp only | (refine Keeps.upd (by with_reducible assumption) ?_ ?_ <;> with_reducible rfl)

theorem takeStamp_to {r x0 s y0 t}  (e : takeStamp x0 s = (y0, t)) (h : Keeps r s) : Keeps r t := by
  unfold takeStamp at e; (repeat' first | split at e | dsimp only at e) <;> cases e <;> repeat' first | with_reducible assumption | with_reducible apply ite_keeps | split | (intro) | dsimp only | (refine Keeps.upd (by with_reducible assumption) ?_ ?_ <;> with_reducible rfl)

theorem pushRecord_keeps {r x0 x1 s} (h : Keeps r s) : Keeps r (pushRecord x0 x1 s) := by
  unfold pushRecord; repeat' first | with_reducible assumption | with_reducible apply ite_keeps | split | (intro) | dsimp only | (refine Keeps.upd (by with_reducible assumption) ?_ ?_ <;> with_reducible rfl)

theorem postHub_keeps {r x0 x1 x2 s} (h : Keeps r s) : Keeps r (postHub x0 x1 x2 s) := by
  unfold postHub; repeat' first | with_reducible assumption | with_reducible apply ite_keeps | refine takeStamp_to (by with_reducible assumption) ?_ | with_reducible refine takeStamp_to rfl ?_ | with_reducible apply pushRecord_keeps | split | (intro) | dsimp only | (refine Keeps.upd (by with_reducible assumption) ?_ ?_ <;> with_reducible rfl)

theorem postTile_keeps {r x0 x1 x2 x3 s} (h : Keeps r s) : Keeps r (postTile x0 x1 x2 x3 s) := by
  unfold postTile; repeat' first | with_reducible assumption | with_reducible apply ite_keeps | refine takeStamp_to (by with_reducible assumption) ?_ | with_reducible refine takeStamp_to rfl ?_ | with_reducible apply pushRecord_keeps | split | (intro) | dsimp only | (refine Keeps.upd (by with_reducible assumption) ?_ ?_ <;> with_reducible rfl)

theorem postPort_keeps {r x0 x1 x2 s} (h : Keeps r s) : Keeps r (postPort x0 x1 x2 s) := by
  unfold postPort; repeat' first | with_reducible assumption | with_reducible apply ite_keeps | with_reducible apply postTile_keeps | split | (intro) | dsimp only | (refine Keeps.upd (by with_reducible assumption) ?_ ?_ <;> with_reducible rfl)

theorem postPortAt_keeps {r x0 x1 x2 x3 s} (h : Keeps r s) : Keeps r (postPortAt x0 x1 x2 x3 s) := by
  unfold postPortAt; repeat' first | with_reducible assumption | with_reducible apply ite_keeps | with_reducible apply pushRecord_keeps | split | (intro) | dsimp only | (refine Keeps.upd (by with_reducible assumption) ?_ ?_ <;> with_reducible rfl)

theorem postHubFree_keeps {r x0 x1 s} (h : Keeps r s) : Keeps r (postHubFree x0 x1 s) := by
  unfold postHubFree; repeat' first | with_reducible assumption | with_reducible apply ite_keeps | refine drawWord_to (by with_reducible assumption) ?_ | with_reducible refine drawWord_to rfl ?_ | with_reducible apply postHub_keeps | split | (intro) | dsimp only | (refine Keeps.upd (by with_reducible assumption) ?_ ?_ <;> with_reducible rfl)

theorem epost_keeps {r x0 x1 s} (h : Keeps r s) : Keeps r (epost x0 x1 s) := by
  unfold epost; repeat' first | with_reducible assumption | with_reducible apply ite_keeps | with_reducible apply pushRecord_keeps | with_reducible apply modTile_keeps | split | (intro) | dsimp only | (refine Keeps.upd (by with_reducible assumption) ?_ ?_ <;> with_reducible rfl)

theorem weaverPostAt_keeps {r x0 x1 x2 x3 s} (h : Keeps r s) : Keeps r (weaverPostAt x0 x1 x2 x3 s) := by
  unfold weaverPostAt; repeat' first | with_reducible assumption | with_reducible apply ite_keeps | with_reducible apply epost_keeps | split | (intro) | dsimp only | (refine Keeps.upd (by with_reducible assumption) ?_ ?_ <;> with_reducible rfl)

theorem weaverPost_keeps {r x0 x1 x2 s} (h : Keeps r s) : Keeps r (weaverPost x0 x1 x2 s) := by
  unfold weaverPost; repeat' first | with_reducible assumption | with_reducible apply ite_keeps | refine takeStamp_to (by with_reducible assumption) ?_ | with_reducible refine takeStamp_to rfl ?_ | with_reducible apply weaverPostAt_keeps | split | (intro) | dsimp only | (refine Keeps.upd (by with_reducible assumption) ?_ ?_ <;> with_reducible rfl)

theorem supPost_keeps {r x0 x1 x2 s} (h : Keeps r s) : Keeps r (supPost x0 x1 x2 s) := by
  unfold supPost; repeat' first | with_reducible assumption | with_reducible apply ite_keeps | refine takeStamp_to (by with_reducible assumption) ?_ | with_reducible refine takeStamp_to rfl ?_ | with_reducible apply epost_keeps | split | (intro) | dsimp only | (refine Keeps.upd (by with_reducible assumption) ?_ ?_ <;> with_reducible rfl)

theorem latchEv_keeps {r x0 x1 s} (h : Keeps r s) : Keeps r (latchEv x0 x1 s) := by
  unfold latchEv; repeat' first | with_reducible assumption | with_reducible apply ite_keeps | with_reducible apply modThr_keeps | split | (intro) | dsimp only | (refine Keeps.upd (by with_reducible assumption) ?_ ?_ <;> with_reducible rfl)

theorem orLater_keeps {r x0 x1 x2 s} (hf : ∀ s, Keeps r s → Keeps r (x2 s)) (h : Keeps r s) : Keeps r (orLater x0 x1 x2 s) := by
  unfold orLater; repeat' first | with_reducible assumption | (exact hf _ (by with_reducible assumption)) | with_reducible apply ite_keeps | with_reducible apply modPd_keeps | split | (intro) | dsimp only | (refine Keeps.upd (by with_reducible assumption) ?_ ?_ <;> with_reducible rfl)

theorem raiseLine_keeps {r x0 x1 x2 s} (h : Keeps r s) : Keeps r (raiseLine x0 x1 x2 s) := by
  unfold raiseLine; repeat' first | with_reducible assumption | with_reducible apply ite_keeps | with_reducible apply modFlt_keeps | split | (intro) | dsimp only | (refine Keeps.upd (by with_reducible assumption) ?_ ?_ <;> with_reducible rfl)

theorem raise_keeps {r x0 x1 s} (h : Keeps r s) : Keeps r (raise x0 x1 s) := by
  unfold raise; repeat' first | with_reducible assumption | with_reducible apply ite_keeps | with_reducible apply raiseLine_keeps | split | (intro) | dsimp only | (refine Keeps.upd (by with_reducible assumption) ?_ ?_ <;> with_reducible rfl)

end Sys2Proof.Machine
end

