-- ==== Sys2Proof/Laws/KeepsQueueOps.lean ====
section
/-!
SUPPORT. Laws/KeepsQueueOps.lean: every operation of Machine/QueueOps.lean leaves the queue of commands as it is and keeps memory canonical.
-/
namespace Sys2Proof.Machine

theorem eccFix_keeps {r x0 x1 s} (h : Keeps r s) : Keeps r (eccFix x0 x1 s) := by
  unfold eccFix; repeat' first | with_reducible assumption | with_reducible apply ite_keeps | with_reducible apply raise_keeps | split | (intro) | dsimp only | (refine Keeps.upd (by with_reducible assumption) ?_ ?_ <;> with_reducible rfl)

theorem fixWords_keeps {r x0 x1 s} (h : Keeps r s) : Keeps r (fixWords x0 x1 s) := by
  unfold fixWords; repeat' first | with_reducible assumption | with_reducible apply ite_keeps | with_reducible apply eccFix_keeps | with_reducible apply forEach_keeps | split | (intro) | dsimp only | (refine Keeps.upd (by with_reducible assumption) ?_ ?_ <;> with_reducible rfl)

theorem setKind_keeps {r x0 x1 x2 x3 s} (h : Keeps r s) : Keeps r (setKind x0 x1 x2 x3 s) := by
  unfold setKind; repeat' first | with_reducible assumption | with_reducible apply ite_keeps | with_reducible apply setCellWord_keeps | split | (intro) | dsimp only | (refine Keeps.upd (by with_reducible assumption) ?_ ?_ <;> with_reducible rfl)

theorem setLink_keeps {r x0 x1 x2 s} (h : Keeps r s) : Keeps r (setLink x0 x1 x2 s) := by
  unfold setLink; repeat' first | with_reducible assumption | with_reducible apply ite_keeps | with_reducible apply setCellWord_keeps | split | (intro) | dsimp only | (refine Keeps.upd (by with_reducible assumption) ?_ ?_ <;> with_reducible rfl)

theorem crlError_keeps {r x0 x1 s} (h : Keeps r s) : Keeps r (crlError x0 x1 s) := by
  unfold crlError; repeat' first | with_reducible assumption | with_reducible apply ite_keeps | with_reducible apply modCrl_keeps | with_reducible apply raise_keeps | with_reducible apply raiseLine_keeps | split | (intro) | dsimp only | (refine Keeps.upd (by with_reducible assumption) ?_ ?_ <;> with_reducible rfl)

theorem startRebuild_keeps {r s} (h : Keeps r s) : Keeps r (startRebuild s) := by
  unfold startRebuild; repeat' first | with_reducible assumption | with_reducible apply ite_keeps | with_reducible apply crlError_keeps | with_reducible apply modCrl_keeps | split | (intro) | dsimp only | (refine Keeps.upd (by with_reducible assumption) ?_ ?_ <;> with_reducible rfl)

theorem flCheck_keeps {r s} (h : Keeps r s) : Keeps r (flCheck s) := by
  unfold flCheck; repeat' first | with_reducible assumption | with_reducible apply ite_keeps | with_reducible apply startRebuild_keeps | with_reducible apply injDone_keeps | split | (intro) | dsimp only | (refine Keeps.upd (by with_reducible assumption) ?_ ?_ <;> with_reducible rfl)

theorem allocCell_to {r s y0 t}  (e : allocCell s = some (y0, t)) (h : Keeps r s) : Keeps r t := by
  unfold allocCell at e; (repeat' first | split at e | dsimp only at e) <;> cases e <;> repeat' first | with_reducible assumption | with_reducible apply ite_keeps | with_reducible apply modCrl_keeps | with_reducible apply eccFix_keeps | split | (intro) | dsimp only | (refine Keeps.upd (by with_reducible assumption) ?_ ?_ <;> with_reducible rfl)

theorem linkFree_keeps {r x0 s} (h : Keeps r s) : Keeps r (linkFree x0 s) := by
  unfold linkFree; repeat' first | with_reducible assumption | with_reducible apply ite_keeps | with_reducible apply setLink_keeps | with_reducible apply setKind_keeps | with_reducible apply modCrl_keeps | split | (intro) | dsimp only | (refine Keeps.upd (by with_reducible assumption) ?_ ?_ <;> with_reducible rfl)

theorem takeReserve_keeps {r x0 x1 s} (h : Keeps r s) : Keeps r (takeReserve x0 x1 s) := by
  unfold takeReserve; repeat' first | with_reducible assumption | with_reducible apply ite_keeps | with_reducible apply setLink_keeps | with_reducible apply setKind_keeps | with_reducible apply modQueue_keeps | split | (intro) | dsimp only | (refine Keeps.upd (by with_reducible assumption) ?_ ?_ <;> with_reducible rfl)

theorem giveCell_keeps {r x0 s} (h : Keeps r s) : Keeps r (giveCell x0 s) := by
  unfold giveCell; repeat' first | with_reducible assumption | with_reducible apply ite_keeps | with_reducible apply linkFree_keeps | with_reducible apply modCrl_keeps | with_reducible apply setKind_keeps | with_reducible apply setLink_keeps | with_reducible apply takeReserve_keeps | split | (intro) | dsimp only | (refine Keeps.upd (by with_reducible assumption) ?_ ?_ <;> with_reducible rfl)

theorem freeCell_keeps {r x0 s} (h : Keeps r s) : Keeps r (freeCell x0 s) := by
  unfold freeCell; repeat' first | with_reducible assumption | with_reducible apply ite_keeps | with_reducible apply flCheck_keeps | with_reducible apply setLink_keeps | with_reducible apply setKind_keeps | with_reducible apply modCrl_keeps | with_reducible apply takeReserve_keeps | with_reducible apply linkFree_keeps | with_reducible apply giveCell_keeps | split | (intro) | dsimp only | (refine Keeps.upd (by with_reducible assumption) ?_ ?_ <;> with_reducible rfl)

theorem freeQueueCell_keeps {r x0 x1 s} (h : Keeps r s) : Keeps r (freeQueueCell x0 x1 s) := by
  unfold freeQueueCell; repeat' first | with_reducible assumption | with_reducible apply ite_keeps | with_reducible apply takeReserve_keeps | with_reducible apply freeCell_keeps | with_reducible apply flCheck_keeps | with_reducible apply giveCell_keeps | split | (intro) | dsimp only | (refine Keeps.upd (by with_reducible assumption) ?_ ?_ <;> with_reducible rfl)

theorem linkTail_keeps {r x0 x1 s} (h : Keeps r s) : Keeps r (linkTail x0 x1 s) := by
  unfold linkTail; repeat' first | with_reducible assumption | with_reducible apply ite_keeps | with_reducible apply setLink_keeps | with_reducible apply setKind_keeps | with_reducible apply modQueue_keeps | split | (intro) | dsimp only | (refine Keeps.upd (by with_reducible assumption) ?_ ?_ <;> with_reducible rfl)

theorem putWord_keeps {r x0 x1 s} (h : Keeps r s) : Keeps r (putWord x0 x1 s) := by
  unfold putWord; repeat' first | with_reducible assumption | with_reducible apply ite_keeps | with_reducible apply setKind_keeps | with_reducible apply setCellWord_keeps | split | (intro) | dsimp only | (refine Keeps.upd (by with_reducible assumption) ?_ ?_ <;> with_reducible rfl)

theorem popWord_to {r x0 s y0 t}  (e : popWord x0 s = some (y0, t)) (h : Keeps r s) : Keeps r t := by
  unfold popWord at e; (repeat' first | split at e | dsimp only at e) <;> cases e <;> repeat' first | with_reducible assumption | with_reducible apply ite_keeps | with_reducible apply eccFix_keeps | with_reducible apply modQueue_keeps | with_reducible apply freeQueueCell_keeps | split | (intro) | dsimp only | (refine Keeps.upd (by with_reducible assumption) ?_ ?_ <;> with_reducible rfl)

theorem placeMarker_keeps {r x0 x1 x2 s} (h : Keeps r s) : Keeps r (placeMarker x0 x1 x2 s) := by
  unfold placeMarker; repeat' first | with_reducible assumption | with_reducible apply ite_keeps | with_reducible apply modQueue_keeps | with_reducible apply putWord_keeps | with_reducible apply linkTail_keeps | split | (intro) | dsimp only | (refine Keeps.upd (by with_reducible assumption) ?_ ?_ <;> with_reducible rfl)

theorem bumpMarker_keeps {r x0 s} (h : Keeps r s) : Keeps r (bumpMarker x0 s) := by
  unfold bumpMarker; repeat' first | with_reducible assumption | with_reducible apply ite_keeps | with_reducible apply setCellWord_keeps | split | (intro) | dsimp only | (refine Keeps.upd (by with_reducible assumption) ?_ ?_ <;> with_reducible rfl)

theorem dropRecord_keeps {r x0 x1 s} (h : Keeps r s) : Keeps r (dropRecord x0 x1 s) := by
  unfold dropRecord; repeat' first | with_reducible assumption | with_reducible apply ite_keeps | with_reducible apply modQueue_keeps | with_reducible apply bumpMarker_keeps | with_reducible apply placeMarker_keeps | split | (intro) | dsimp only | (refine Keeps.upd (by with_reducible assumption) ?_ ?_ <;> with_reducible rfl)

theorem putWords_keeps {r x0 x1 s} (h : Keeps r s) : Keeps r (putWords x0 x1 s) := by
  induction x1 generalizing s with
  | nil => unfold putWords; repeat' first | with_reducible assumption | with_reducible apply ite_keeps | with_reducible apply putWord_keeps | refine allocCell_to (by with_reducible assumption) ?_ | with_reducible apply setKind_keeps | with_reducible apply linkTail_keeps | with_reducible apply setCellWord_keeps | with_reducible refine allocCell_to rfl ?_ | split | (intro) | dsimp only | (refine Keeps.upd (by with_reducible assumption) ?_ ?_ <;> with_reducible rfl)
  | cons w ws ih => unfold putWords; repeat' first | with_reducible assumption | with_reducible apply ite_keeps | with_reducible apply putWord_keeps | refine allocCell_to (by with_reducible assumption) ?_ | with_reducible apply setKind_keeps | with_reducible apply linkTail_keeps | with_reducible apply setCellWord_keeps | with_reducible apply ih | split | (intro) | dsimp only | (refine Keeps.upd (by with_reducible assumption) ?_ ?_ <;> with_reducible rfl) | with_reducible apply ih

theorem enqueue_keeps {r x0 x1 s} (h : Keeps r s) : Keeps r (enqueue x0 x1 s) := by
  unfold enqueue; repeat' first | with_reducible assumption | with_reducible apply ite_keeps | with_reducible apply flCheck_keeps | with_reducible apply modQueue_keeps | with_reducible apply dropRecord_keeps | with_reducible apply putWords_keeps | split | (intro) | dsimp only | (refine Keeps.upd (by with_reducible assumption) ?_ ?_ <;> with_reducible rfl)

theorem resetList_keeps {r x0 x1 x2 s} (h : Keeps r s) : Keeps r (resetList x0 x1 x2 s) := by
  unfold resetList; repeat' first | with_reducible assumption | with_reducible apply ite_keeps | with_reducible apply modQueue_keeps | with_reducible apply putWord_keeps | with_reducible apply linkTail_keeps | split | (intro) | dsimp only | (refine Keeps.upd (by with_reducible assumption) ?_ ?_ <;> with_reducible rfl)

theorem resetQueue_keeps {r x0 x1 s} (h : Keeps r s) : Keeps r (resetQueue x0 x1 s) := by
  unfold resetQueue; repeat' first | with_reducible assumption | with_reducible apply ite_keeps | with_reducible apply crlError_keeps | with_reducible apply modQueue_keeps | with_reducible apply resetList_keeps | with_reducible apply flCheck_keeps | refine allocCell_to (by with_reducible assumption) ?_ | with_reducible refine allocCell_to rfl ?_ | split | (intro) | dsimp only | (refine Keeps.upd (by with_reducible assumption) ?_ ?_ <;> with_reducible rfl)

theorem readWordsOf_keeps {r x0 x1 s} (h : Keeps r s) : Keeps r (readWordsOf x0 x1 s) := by
  unfold readWordsOf; repeat' first | with_reducible assumption | with_reducible apply ite_keeps | with_reducible apply eccFix_keeps | with_reducible apply resetQueue_keeps | with_reducible apply forEach_keeps | split | (intro) | dsimp only | (refine Keeps.upd (by with_reducible assumption) ?_ ?_ <;> with_reducible rfl)

theorem queueCheck_keeps {r x0 s} (h : Keeps r s) : Keeps r (queueCheck x0 s) := by
  unfold queueCheck; repeat' first | with_reducible assumption | with_reducible apply ite_keeps | with_reducible apply resetQueue_keeps | with_reducible apply injDone_keeps | with_reducible apply readWordsOf_keeps | split | (intro) | dsimp only | (refine Keeps.upd (by with_reducible assumption) ?_ ?_ <;> with_reducible rfl)

theorem endHold_keeps {r x0 s} (h : Keeps r s) : Keeps r (endHold x0 s) := by
  unfold endHold; repeat' first | with_reducible assumption | with_reducible apply ite_keeps | with_reducible apply modQueue_keeps | with_reducible apply queueCheck_keeps | split | (intro) | dsimp only | (refine Keeps.upd (by with_reducible assumption) ?_ ?_ <;> with_reducible rfl)

theorem latchWords_keeps {r x0 x1 s} (h : Keeps r s) : Keeps r (latchWords x0 x1 s) := by
  induction x1 generalizing s with
  | zero => unfold latchWords; repeat' first | with_reducible assumption | with_reducible apply ite_keeps | refine popWord_to (by with_reducible assumption) ?_ | with_reducible apply modQueue_keeps | with_reducible refine popWord_to rfl ?_ | split | (intro) | dsimp only | (refine Keeps.upd (by with_reducible assumption) ?_ ?_ <;> with_reducible rfl)
  | succ n ih => unfold latchWords; repeat' first | with_reducible assumption | with_reducible apply ite_keeps | refine popWord_to (by with_reducible assumption) ?_ | with_reducible apply modQueue_keeps | with_reducible apply ih | split | (intro) | dsimp only | (refine Keeps.upd (by with_reducible assumption) ?_ ?_ <;> with_reducible rfl) | with_reducible apply ih

theorem gapAfterRead_keeps {r x0 s} (h : Keeps r s) : Keeps r (gapAfterRead x0 s) := by
  unfold gapAfterRead; repeat' first | with_reducible assumption | with_reducible apply ite_keeps | with_reducible apply modQueue_keeps | split | (intro) | dsimp only | (refine Keeps.upd (by with_reducible assumption) ?_ ?_ <;> with_reducible rfl)

theorem freeList_keeps {r x0 x1 s} (h : Keeps r s) : Keeps r (freeList x0 x1 s) := by
  induction x1 generalizing s with
  | zero => unfold freeList; repeat' first | with_reducible assumption | with_reducible apply ite_keeps | with_reducible apply freeQueueCell_keeps | with_reducible apply modQueue_keeps | split | (intro) | dsimp only | (refine Keeps.upd (by with_reducible assumption) ?_ ?_ <;> with_reducible rfl)
  | succ n ih => unfold freeList; repeat' first | with_reducible assumption | with_reducible apply ite_keeps | with_reducible apply freeQueueCell_keeps | with_reducible apply modQueue_keeps | with_reducible apply ih | split | (intro) | dsimp only | (refine Keeps.upd (by with_reducible assumption) ?_ ?_ <;> with_reducible rfl) | with_reducible apply ih

theorem flushQueue_keeps {r x0 s} (h : Keeps r s) : Keeps r (flushQueue x0 s) := by
  unfold flushQueue; repeat' first | with_reducible assumption | with_reducible apply ite_keeps | with_reducible apply modQueue_keeps | with_reducible apply freeList_keeps | with_reducible apply queueCheck_keeps | with_reducible apply readWordsOf_keeps | split | (intro) | dsimp only | (refine Keeps.upd (by with_reducible assumption) ?_ ?_ <;> with_reducible rfl)

theorem enableQueue_keeps {r x0 s} (h : Keeps r s) : Keeps r (enableQueue x0 s) := by
  unfold enableQueue; repeat' first | with_reducible assumption | with_reducible apply ite_keeps | with_reducible apply flCheck_keeps | refine allocCell_to (by with_reducible assumption) ?_ | with_reducible apply takeReserve_keeps | with_reducible apply modQueue_keeps | with_reducible refine allocCell_to rfl ?_ | split | (intro) | dsimp only | (refine Keeps.upd (by with_reducible assumption) ?_ ?_ <;> with_reducible rfl)

theorem disableQueue_keeps {r x0 s} (h : Keeps r s) : Keeps r (disableQueue x0 s) := by
  unfold disableQueue; repeat' first | with_reducible assumption | with_reducible apply ite_keeps | with_reducible apply endHold_keeps | with_reducible apply flushQueue_keeps | with_reducible apply modQueue_keeps | with_reducible apply freeCell_keeps | split | (intro) | dsimp only | (refine Keeps.upd (by with_reducible assumption) ?_ ?_ <;> with_reducible rfl)

theorem configQueue_keeps {r x0 x1 s} (h : Keeps r s) : Keeps r (configQueue x0 x1 s) := by
  unfold configQueue; repeat' first | with_reducible assumption | with_reducible apply ite_keeps | with_reducible apply enableQueue_keeps | with_reducible apply modQueue_keeps | with_reducible apply disableQueue_keeps | split | (intro) | dsimp only | (refine Keeps.upd (by with_reducible assumption) ?_ ?_ <;> with_reducible rfl)

theorem route_keeps {r x0 s} (h : Keeps r s) : Keeps r (route x0 s) := by
  unfold route; repeat' first | with_reducible assumption | with_reducible apply ite_keeps | with_reducible apply enqueue_keeps | with_reducible apply queueCheck_keeps | with_reducible apply modCrl_keeps | split | (intro) | dsimp only | (refine Keeps.upd (by with_reducible assumption) ?_ ?_ <;> with_reducible rfl)

theorem reclaimCell_keeps {r x0 x1 s} (h : Keeps r s) : Keeps r (reclaimCell x0 x1 s) := by
  unfold reclaimCell; repeat' first | with_reducible assumption | with_reducible apply ite_keeps | with_reducible apply resetList_keeps | with_reducible apply takeReserve_keeps | with_reducible apply freeCell_keeps | with_reducible apply flCheck_keeps | with_reducible apply giveCell_keeps | split | (intro) | dsimp only | (refine Keeps.upd (by with_reducible assumption) ?_ ?_ <;> with_reducible rfl)

theorem scanTo_keeps {r x0 x1 s} (h : Keeps r s) : Keeps r (scanTo x0 x1 s) := by
  unfold scanTo; repeat' first | with_reducible assumption | with_reducible apply ite_keeps | with_reducible apply fixWords_keeps | with_reducible apply modQueue_keeps | with_reducible apply reclaimCell_keeps | with_reducible apply forEach_keeps | split | (intro) | dsimp only | (refine Keeps.upd (by with_reducible assumption) ?_ ?_ <;> with_reducible rfl)

theorem scanTick_keeps {r  s} (h : Keeps r s) : Keeps r (scanTick  s) := by
  unfold scanTick; repeat' first | with_reducible assumption | with_reducible apply ite_keeps | with_reducible apply scanTo_keeps | with_reducible apply forEach_keeps | split | (intro) | dsimp only | (refine Keeps.upd (by with_reducible assumption) ?_ ?_ <;> with_reducible rfl)

theorem endReclaim_keeps {r x0 s} (h : Keeps r s) : Keeps r (endReclaim x0 s) := by
  have h1 := scanTo_keeps (x0 := x0) (x1 := 16384) h
  unfold endReclaim
  refine modQueue_keeps ?_
  dsimp only
  split
  · split
    · exact resetList_keeps (allocCell_to (by assumption) (flCheck_keeps h1))
    · exact modQueue_keeps (flCheck_keeps h1)
  · exact h1

theorem linkAll_keeps {r x0 s} (h : Keeps r s) : Keeps r (linkAll x0 s) := by
  induction x0 generalizing s with
  | nil => exact h
  | cons c cs ih =>
    cases cs with
    | nil => exact setLink_keeps h
    | cons d ds => exact ih (setLink_keeps h)

theorem endRebuild_keeps {r s} (h : Keeps r s) : Keeps r (endRebuild s) := by
  unfold endRebuild; repeat' first | with_reducible assumption | with_reducible apply ite_keeps | with_reducible apply linkAll_keeps | with_reducible apply modCrl_keeps | with_reducible apply fixWords_keeps | split | (intro) | dsimp only | (refine Keeps.upd (by with_reducible assumption) ?_ ?_ <;> with_reducible rfl)

end Sys2Proof.Machine
end

