-- ==== Sys2Proof/Laws/KeepsPhyOps.lean ====
section
/-!
SUPPORT. Laws/KeepsPhyOps.lean: every operation of Machine/PhyOps.lean leaves the queue of commands as it is and keeps memory canonical.
-/
namespace Sys2Proof.Machine

theorem teamEop_keeps {r x0 s} (h : Keeps r s) : Keeps r (teamEop x0 s) := by
  unfold teamEop; repeat' first | with_reducible assumption | with_reducible apply ite_keeps | refine drawNat_to (by with_reducible assumption) ?_ | with_reducible refine drawNat_to rfl ?_ | with_reducible apply modTeam_keeps | split | (intro) | dsimp only | (refine Keeps.upd (by with_reducible assumption) ?_ ?_ <;> with_reducible rfl)

theorem portEop_keeps {r x0 x1 s} (h : Keeps r s) : Keeps r (portEop x0 x1 s) := by
  unfold portEop; repeat' first | with_reducible assumption | with_reducible apply ite_keeps | refine drawNat_to (by with_reducible assumption) ?_ | with_reducible refine drawNat_to rfl ?_ | with_reducible apply modHub_keeps | split | (intro) | dsimp only | (refine Keeps.upd (by with_reducible assumption) ?_ ?_ <;> with_reducible rfl)

end Sys2Proof.Machine
end

