-- ==== Sys2Proof/Laws/KeepsTtOps.lean ====
section
/-!
SUPPORT. Laws/KeepsTtOps.lean: every operation of Machine/TtOps.lean leaves the queue of commands as it is and keeps memory canonical.
-/
namespace Sys2Proof.Machine

theorem writeUnits_keeps {r x0 x1 x2 s} (h : Keeps r s) : Keeps r (writeUnits x0 x1 x2 s) := by
  induction x2 generalizing x1 s with
  | nil => exact h
  | cons b bs ih =>
    exact ih (ite_keeps (eccStore_keeps (Keeps.updMem h (memPut_wf _ _) rfl)) (Keeps.updMem h (memPut_wf _ _) rfl))

theorem takeCells_to {r x0 x1 x2 s y0 t}  (e : takeCells x0 x1 x2 s = some (y0, t)) (h : Keeps r s) : Keeps r t := by
  induction x1 generalizing x2 s with
  | zero => cases e; exact h
  | succ n ih =>
    unfold takeCells at e; split at e
    · exact ih e (setKind_keeps (allocCell_to (by assumption) h))
    · cases e

theorem unitsCheck_keeps {r x0 x1 s} (h : Keeps r s) : Keeps r (unitsCheck x0 x1 s) := by
  unfold unitsCheck; repeat' first | with_reducible assumption | with_reducible apply ite_keeps | with_reducible apply flCheck_keeps | split | (intro) | dsimp only | (refine Keeps.upd (by with_reducible assumption) ?_ ?_ <;> with_reducible rfl)

theorem takeUnits_to {r x0 x1 s y0 y1 t}  (e : takeUnits x0 x1 s = some (y0, y1, t)) (h : Keeps r s) : Keeps r t := by
  unfold takeUnits at e; (repeat' first | split at e | dsimp only at e) <;> cases e <;> repeat' first | with_reducible assumption | with_reducible apply ite_keeps | with_reducible apply modTt_keeps | refine takeCells_to (by with_reducible assumption) ?_ | with_reducible apply setKind_keeps | with_reducible apply forEach_keeps | with_reducible refine takeCells_to rfl ?_ | split | (intro) | dsimp only | (refine Keeps.upd (by with_reducible assumption) ?_ ?_ <;> with_reducible rfl)

theorem modTxns_keeps {r x0 x1 x2 s} (h : Keeps r s) : Keeps r (modTxns x0 x1 x2 s) := by
  unfold modTxns; repeat' first | with_reducible assumption | with_reducible apply ite_keeps | with_reducible apply modTt_keeps | split | (intro) | dsimp only | (refine Keeps.upd (by with_reducible assumption) ?_ ?_ <;> with_reducible rfl)

theorem modFirst_keeps {r x0 x1 x2 s} (h : Keeps r s) : Keeps r (modFirst x0 x1 x2 s) := by
  unfold modFirst; repeat' first | with_reducible assumption | with_reducible apply ite_keeps | with_reducible apply modTt_keeps | split | (intro) | dsimp only | (refine Keeps.upd (by with_reducible assumption) ?_ ?_ <;> with_reducible rfl)

theorem freeCtxs_keeps {r x0 x1 s} (h : Keeps r s) : Keeps r (freeCtxs x0 x1 s) := by
  unfold freeCtxs; repeat' first | with_reducible assumption | with_reducible apply ite_keeps | with_reducible apply modTt_keeps | with_reducible apply freeCell_keeps | with_reducible apply forEach_keeps | split | (intro) | dsimp only | (refine Keeps.upd (by with_reducible assumption) ?_ ?_ <;> with_reducible rfl)

theorem ttcError_keeps {r x0 x1 s} (h : Keeps r s) : Keeps r (ttcError x0 x1 s) := by
  unfold ttcError; repeat' first | with_reducible assumption | with_reducible apply ite_keeps | with_reducible apply modTtc_keeps | with_reducible apply raise_keeps | split | (intro) | dsimp only | (refine Keeps.upd (by with_reducible assumption) ?_ ?_ <;> with_reducible rfl)

theorem pdropCount_keeps {r x0 s} (h : Keeps r s) : Keeps r (pdropCount x0 s) := by
  unfold pdropCount; repeat' first | with_reducible assumption | with_reducible apply ite_keeps | with_reducible apply modTtc_keeps | with_reducible apply pdrop_keeps | split | (intro) | dsimp only | (refine Keeps.upd (by with_reducible assumption) ?_ ?_ <;> with_reducible rfl)

theorem pdrop_keeps {r x0 s} (h : Keeps r s) : Keeps r (pdrop x0 s) := by
  unfold pdrop; repeat' first | with_reducible assumption | with_reducible apply ite_keeps | with_reducible apply pdropCount_keeps | with_reducible apply ttcError_keeps | split | (intro) | dsimp only | (refine Keeps.upd (by with_reducible assumption) ?_ ?_ <;> with_reducible rfl)

theorem npShort_keeps {r x0 s} (h : Keeps r s) : Keeps r (npShort x0 s) := by
  unfold npShort; repeat' first | with_reducible assumption | with_reducible apply ite_keeps | with_reducible apply modTtc_keeps | with_reducible apply modTt_keeps | split | (intro) | dsimp only | (refine Keeps.upd (by with_reducible assumption) ?_ ?_ <;> with_reducible rfl)

theorem retireUnstarted_keeps {r x0 s} (h : Keeps r s) : Keeps r (retireUnstarted x0 s) := by
  unfold retireUnstarted; repeat' first | with_reducible assumption | with_reducible apply ite_keeps | with_reducible apply modTxns_keeps | split | (intro) | dsimp only | (refine Keeps.upd (by with_reducible assumption) ?_ ?_ <;> with_reducible rfl)

theorem retireTt_keeps {r x0 s} (h : Keeps r s) : Keeps r (retireTt x0 s) := by
  unfold retireTt; repeat' first | with_reducible assumption | with_reducible apply ite_keeps | with_reducible apply modTt_keeps | with_reducible apply retireUnstarted_keeps | split | (intro) | dsimp only | (refine Keeps.upd (by with_reducible assumption) ?_ ?_ <;> with_reducible rfl)

theorem freeTt_keeps {r x0 s} (h : Keeps r s) : Keeps r (freeTt x0 s) := by
  unfold freeTt; repeat' first | with_reducible assumption | with_reducible apply ite_keeps | with_reducible apply modTt_keeps | with_reducible apply freeCtxs_keeps | split | (intro) | dsimp only | (refine Keeps.upd (by with_reducible assumption) ?_ ?_ <;> with_reducible rfl)

theorem eccDrop_keeps {r x0 x1 s} (h : Keeps r s) : Keeps r (eccDrop x0 x1 s) := by
  unfold eccDrop; repeat' first | with_reducible assumption | with_reducible apply ite_keeps | with_reducible apply pdropCount_keeps | with_reducible apply ttcError_keeps | with_reducible apply modTxns_keeps | with_reducible apply onlyIf_keeps | split | (intro) | dsimp only | (refine Keeps.upd (by with_reducible assumption) ?_ ?_ <;> with_reducible rfl)

theorem unitsFix_keeps {r x0 s} (h : Keeps r s) : Keeps r (unitsFix x0 s) := by
  unfold unitsFix; repeat' first | with_reducible assumption | with_reducible apply ite_keeps | with_reducible apply eccFix_keeps | with_reducible apply forEach_keeps | split | (intro) | dsimp only | (refine Keeps.upd (by with_reducible assumption) ?_ ?_ <;> with_reducible rfl)

theorem ctxFix_keeps {r x0 s} (h : Keeps r s) : Keeps r (ctxFix x0 s) := by
  unfold ctxFix; repeat' first | with_reducible assumption | with_reducible apply ite_keeps | with_reducible apply eccFix_keeps | with_reducible apply forEach_keeps | split | (intro) | dsimp only | (refine Keeps.upd (by with_reducible assumption) ?_ ?_ <;> with_reducible rfl)

theorem answer_keeps {r x0 x1 s} (h : Keeps r s) : Keeps r (answer x0 x1 s) := by
  unfold answer; repeat' first | with_reducible assumption | with_reducible apply ite_keeps | with_reducible apply modTeam_keeps | with_reducible apply teamEop_keeps | split | (intro) | dsimp only | (refine Keeps.upd (by with_reducible assumption) ?_ ?_ <;> with_reducible rfl)

theorem storeCtx_keeps {r x0 s} (h : Keeps r s) : Keeps r (storeCtx x0 s) := by
  unfold storeCtx; repeat' first | with_reducible assumption | with_reducible apply ite_keeps | with_reducible apply eccStore_keeps | with_reducible apply forEach_keeps | split | (intro) | dsimp only | (refine Keeps.upd (by with_reducible assumption) ?_ ?_ <;> with_reducible rfl)

theorem addPeriodic_keeps {r x0 x1 x2 s} (h : Keeps r s) : Keeps r (addPeriodic x0 x1 x2 s) := by
  unfold addPeriodic; repeat' first | with_reducible assumption | with_reducible apply ite_keeps | with_reducible apply modTt_keeps | with_reducible apply pdrop_keeps | with_reducible apply freeCell_keeps | with_reducible apply storeCtx_keeps | with_reducible apply forEach_keeps | split | (intro) | dsimp only | (refine Keeps.upd (by with_reducible assumption) ?_ ?_ <;> with_reducible rfl)

theorem openPeriodic_keeps {r x0 x1 x2 x3 s} (h : Keeps r s) : Keeps r (openPeriodic x0 x1 x2 x3 s) := by
  unfold openPeriodic; repeat' first | with_reducible assumption | with_reducible apply ite_keeps | with_reducible apply unitsCheck_keeps | refine takeUnits_to (by with_reducible assumption) ?_ | with_reducible apply pdrop_keeps | with_reducible apply addPeriodic_keeps | with_reducible apply writeUnits_keeps | with_reducible refine takeUnits_to rfl ?_ | split | (intro) | dsimp only | (refine Keeps.upd (by with_reducible assumption) ?_ ?_ <;> with_reducible rfl)

theorem feedOut_keeps {r x0 x1 x2 x3 x4 s} (h : Keeps r s) : Keeps r (feedOut x0 x1 x2 x3 x4 s) := by
  unfold feedOut; repeat' first | with_reducible assumption | with_reducible apply ite_keeps | with_reducible apply unitsCheck_keeps | refine takeUnits_to (by with_reducible assumption) ?_ | with_reducible apply pdrop_keeps | with_reducible apply modFirst_keeps | with_reducible apply writeUnits_keeps | with_reducible apply eccDrop_keeps | with_reducible apply unitsFix_keeps | with_reducible refine takeUnits_to rfl ?_ | split | (intro) | dsimp only | (refine Keeps.upd (by with_reducible assumption) ?_ ?_ <;> with_reducible rfl)

theorem openNonperiodic_keeps {r x0 x1 x2 x3 x4 s} (h : Keeps r s) : Keeps r (openNonperiodic x0 x1 x2 x3 x4 s) := by
  unfold openNonperiodic; repeat' first | with_reducible assumption | with_reducible apply ite_keeps | with_reducible apply answer_keeps | with_reducible apply freeCtxs_keeps | with_reducible apply npShort_keeps | with_reducible apply writeUnits_keeps | with_reducible apply storeCtx_keeps | with_reducible apply modTt_keeps | split | (intro) | dsimp only | (refine Keeps.upd (by with_reducible assumption) ?_ ?_ <;> with_reducible rfl)

theorem arrive_keeps {r x0 x1 x2 x3 s} (h : Keeps r s) : Keeps r (arrive x0 x1 x2 x3 s) := by
  unfold arrive; repeat' first | with_reducible assumption | with_reducible apply ite_keeps | with_reducible apply unitsCheck_keeps | refine takeUnits_to (by with_reducible assumption) ?_ | with_reducible apply pdrop_keeps | with_reducible apply modFirst_keeps | with_reducible apply writeUnits_keeps | with_reducible refine takeUnits_to rfl ?_ | split | (intro) | dsimp only | (refine Keeps.upd (by with_reducible assumption) ?_ ?_ <;> with_reducible rfl)

theorem busError_keeps {r x0 s} (h : Keeps r s) : Keeps r (busError x0 s) := by
  unfold busError; repeat' first | with_reducible assumption | with_reducible apply ite_keeps | with_reducible apply modTt_keeps | split | (intro) | dsimp only | (refine Keeps.upd (by with_reducible assumption) ?_ ?_ <;> with_reducible rfl)

theorem afterBus_keeps {r x0 s} (h : Keeps r s) : Keeps r (afterBus x0 s) := by
  unfold afterBus; repeat' first | with_reducible assumption | with_reducible apply ite_keeps | with_reducible apply freeCtxs_keeps | with_reducible apply modTt_keeps | split | (intro) | dsimp only | (refine Keeps.upd (by with_reducible assumption) ?_ ?_ <;> with_reducible rfl)

theorem stopTt_keeps {r x0 s} (h : Keeps r s) : Keeps r (stopTt x0 s) := by
  unfold stopTt; repeat' first | with_reducible assumption | with_reducible apply ite_keeps | with_reducible apply modTt_keeps | split | (intro) | dsimp only | (refine Keeps.upd (by with_reducible assumption) ?_ ?_ <;> with_reducible rfl)

theorem resetTt_keeps {r x0 s} (h : Keeps r s) : Keeps r (resetTt x0 s) := by
  unfold resetTt; repeat' first | with_reducible assumption | with_reducible apply ite_keeps | with_reducible apply modTt_keeps | with_reducible apply retireUnstarted_keeps | split | (intro) | dsimp only | (refine Keeps.upd (by with_reducible assumption) ?_ ?_ <;> with_reducible rfl)

theorem endResetTt_keeps {r x0 s} (h : Keeps r s) : Keeps r (endResetTt x0 s) := by
  unfold endResetTt; repeat' first | with_reducible assumption | with_reducible apply ite_keeps | with_reducible apply modTt_keeps | with_reducible apply freeCtxs_keeps | split | (intro) | dsimp only | (refine Keeps.upd (by with_reducible assumption) ?_ ?_ <;> with_reducible rfl)

theorem clearBuffer_keeps {r x0 x1 x2 x3 s} (h : Keeps r s) : Keeps r (clearBuffer x0 x1 x2 x3 s) := by
  unfold clearBuffer; repeat' first | with_reducible assumption | with_reducible apply ite_keeps | with_reducible apply modTt_keeps | with_reducible apply modTxns_keeps | with_reducible apply freeCtxs_keeps | split | (intro) | dsimp only | (refine Keeps.upd (by with_reducible assumption) ?_ ?_ <;> with_reducible rfl)

end Sys2Proof.Machine
end

