-- ==== Sys2Proof/Laws/KeepsHubOps.lean ====
section
/-!
SUPPORT. Laws/KeepsHubOps.lean: every operation of Machine/HubOps.lean leaves the queue of commands as it is and keeps memory canonical.
-/
namespace Sys2Proof.Machine

theorem setTeamSt_keeps {r x0 x1 s} (h : Keeps r s) : Keeps r (setTeamSt x0 x1 s) := by
  unfold setTeamSt; repeat' first | with_reducible assumption | with_reducible apply ite_keeps | with_reducible apply postHubFree_keeps | with_reducible apply modTeam_keeps | split | (intro) | dsimp only | (refine Keeps.upd (by with_reducible assumption) ?_ ?_ <;> with_reducible rfl)

theorem addChange_keeps {r x0 x1 x2 s} (h : Keeps r s) : Keeps r (addChange x0 x1 x2 s) := by
  unfold addChange; repeat' first | with_reducible assumption | with_reducible apply ite_keeps | with_reducible apply modTeam_keeps | split | (intro) | dsimp only | (refine Keeps.upd (by with_reducible assumption) ?_ ?_ <;> with_reducible rfl)

theorem clrChange_keeps {r x0 x1 x2 s} (h : Keeps r s) : Keeps r (clrChange x0 x1 x2 s) := by
  unfold clrChange; repeat' first | with_reducible assumption | with_reducible apply ite_keeps | with_reducible apply modTeam_keeps | split | (intro) | dsimp only | (refine Keeps.upd (by with_reducible assumption) ?_ ?_ <;> with_reducible rfl)

theorem portChange_keeps {r x0 x1 s} (h : Keeps r s) : Keeps r (portChange x0 x1 s) := by
  unfold portChange; repeat' first | with_reducible assumption | with_reducible apply ite_keeps | with_reducible apply addChange_keeps | with_reducible apply modHub_keeps | split | (intro) | dsimp only | (refine Keeps.upd (by with_reducible assumption) ?_ ?_ <;> with_reducible rfl)

theorem stopServing_keeps {r x0 s} (h : Keeps r s) : Keeps r (stopServing x0 s) := by
  unfold stopServing; repeat' first | with_reducible assumption | with_reducible apply ite_keeps | with_reducible apply modHub_keeps | with_reducible apply retireTt_keeps | split | (intro) | dsimp only | (refine Keeps.upd (by with_reducible assumption) ?_ ?_ <;> with_reducible rfl)

theorem syncConnection_keeps {r x0 s} (h : Keeps r s) : Keeps r (syncConnection x0 s) := by
  unfold syncConnection; repeat' first | with_reducible assumption | with_reducible apply ite_keeps | with_reducible apply portChange_keeps | with_reducible apply modHub_keeps | with_reducible apply postHubFree_keeps | with_reducible apply stopServing_keeps | split | (intro) | dsimp only | (refine Keeps.upd (by with_reducible assumption) ?_ ?_ <;> with_reducible rfl)

theorem syncOverCurrent_keeps {r x0 s} (h : Keeps r s) : Keeps r (syncOverCurrent x0 s) := by
  unfold syncOverCurrent; repeat' first | with_reducible assumption | with_reducible apply ite_keeps | with_reducible apply portChange_keeps | with_reducible apply modHub_keeps | with_reducible apply stopServing_keeps | with_reducible apply onlyIf_keeps | split | (intro) | dsimp only | (refine Keeps.upd (by with_reducible assumption) ?_ ?_ <;> with_reducible rfl)

theorem syncHub_keeps {r x0 s} (h : Keeps r s) : Keeps r (syncHub x0 s) := by
  unfold syncHub; repeat' first | with_reducible assumption | with_reducible apply ite_keeps | with_reducible apply syncConnection_keeps | with_reducible apply syncOverCurrent_keeps | split | (intro) | dsimp only | (refine Keeps.upd (by with_reducible assumption) ?_ ?_ <;> with_reducible rfl)

theorem setHubPower_keeps {r x0 x1 x2 s} (h : Keeps r s) : Keeps r (setHubPower x0 x1 x2 s) := by
  unfold setHubPower; repeat' first | with_reducible assumption | with_reducible apply ite_keeps | with_reducible apply modTeam_keeps | with_reducible apply syncHub_keeps | with_reducible apply addChange_keeps | with_reducible apply clrChange_keeps | with_reducible apply onlyIf_keeps | split | (intro) | dsimp only | (refine Keeps.upd (by with_reducible assumption) ?_ ?_ <;> with_reducible rfl)

theorem busResetEffects_keeps {r x0 s} (h : Keeps r s) : Keeps r (busResetEffects x0 s) := by
  unfold busResetEffects; repeat' first | with_reducible assumption | with_reducible apply ite_keeps | with_reducible apply modHub_keeps | with_reducible apply stopServing_keeps | with_reducible apply modTeam_keeps | with_reducible apply syncHub_keeps | with_reducible apply forEach_keeps | split | (intro) | dsimp only | (refine Keeps.upd (by with_reducible assumption) ?_ ?_ <;> with_reducible rfl)

theorem detachTeam_keeps {r x0 s} (h : Keeps r s) : Keeps r (detachTeam x0 s) := by
  unfold detachTeam; repeat' first | with_reducible assumption | with_reducible apply ite_keeps | with_reducible apply busResetEffects_keeps | with_reducible apply setTeamSt_keeps | with_reducible apply modTeam_keeps | split | (intro) | dsimp only | (refine Keeps.upd (by with_reducible assumption) ?_ ?_ <;> with_reducible rfl)

theorem setTeamCtl_keeps {r x0 x1 s} (h : Keeps r s) : Keeps r (setTeamCtl x0 x1 s) := by
  unfold setTeamCtl; repeat' first | with_reducible assumption | with_reducible apply ite_keeps | with_reducible apply modTeam_keeps | with_reducible apply detachTeam_keeps | split | (intro) | dsimp only | (refine Keeps.upd (by with_reducible assumption) ?_ ?_ <;> with_reducible rfl)

theorem setMstate_keeps {r x0 x1 s} (h : Keeps r s) : Keeps r (setMstate x0 x1 s) := by
  unfold setMstate; repeat' first | with_reducible assumption | with_reducible apply ite_keeps | with_reducible apply postHubFree_keeps | with_reducible apply modHub_keeps | split | (intro) | dsimp only | (refine Keeps.upd (by with_reducible assumption) ?_ ?_ <;> with_reducible rfl)

theorem writePortTeam_keeps {r x0 x1 s} (h : Keeps r s) : Keeps r (writePortTeam x0 x1 s) := by
  unfold writePortTeam; repeat' first | with_reducible assumption | with_reducible apply ite_keeps | with_reducible apply postHubFree_keeps | with_reducible apply portChange_keeps | with_reducible apply modHub_keeps | with_reducible apply addChange_keeps | with_reducible apply stopServing_keeps | with_reducible apply setMstate_keeps | with_reducible apply onlyIf_keeps | split | (intro) | dsimp only | (refine Keeps.upd (by with_reducible assumption) ?_ ?_ <;> with_reducible rfl)

theorem bootPortTeam_keeps {r x0 x1 s} (h : Keeps r s) : Keeps r (bootPortTeam x0 x1 s) := by
  unfold bootPortTeam; repeat' first | with_reducible assumption | with_reducible apply ite_keeps | with_reducible apply modHub_keeps | split | (intro) | dsimp only | (refine Keeps.upd (by with_reducible assumption) ?_ ?_ <;> with_reducible rfl)

theorem setQmask_keeps {r x0 x1 s} (h : Keeps r s) : Keeps r (setQmask x0 x1 s) := by
  unfold setQmask; repeat' first | with_reducible assumption | with_reducible apply ite_keeps | with_reducible apply modTeam_keeps | split | (intro) | dsimp only | (refine Keeps.upd (by with_reducible assumption) ?_ ?_ <;> with_reducible rfl)

theorem spreadK_keeps {r x0 s} (h : Keeps r s) : Keeps r (spreadK x0 s) :=
  forEach_keeps (fun _ _ ht => modHub_keeps ht) (modTeam_keeps h)

theorem startWake_keeps {r x0 x1 s} (h : Keeps r s) : Keeps r (startWake x0 x1 s) := by
  unfold startWake; repeat' first | with_reducible assumption | with_reducible apply ite_keeps | with_reducible apply modTeam_keeps | with_reducible apply spreadK_keeps | split | (intro) | dsimp only | (refine Keeps.upd (by with_reducible assumption) ?_ ?_ <;> with_reducible rfl)

theorem stationWake_keeps {r x0 s} (h : Keeps r s) : Keeps r (stationWake x0 s) := by
  unfold stationWake; repeat' first | with_reducible assumption | with_reducible apply ite_keeps | with_reducible apply modTeam_keeps | with_reducible apply addChange_keeps | with_reducible apply spreadK_keeps | split | (intro) | dsimp only | (refine Keeps.upd (by with_reducible assumption) ?_ ?_ <;> with_reducible rfl)

theorem resumeTeam_keeps {r x0 s} (h : Keeps r s) : Keeps r (resumeTeam x0 s) := by
  unfold resumeTeam; repeat' first | with_reducible assumption | with_reducible apply ite_keeps | with_reducible apply modTeam_keeps | with_reducible apply setTeamSt_keeps | with_reducible apply modHub_keeps | with_reducible apply forEach_keeps | split | (intro) | dsimp only | (refine Keeps.upd (by with_reducible assumption) ?_ ?_ <;> with_reducible rfl)

theorem resumeDone_keeps {r x0 s} (h : Keeps r s) : Keeps r (resumeDone x0 s) := by
  unfold resumeDone; repeat' first | with_reducible assumption | with_reducible apply ite_keeps | with_reducible apply portChange_keeps | with_reducible apply modHub_keeps | split | (intro) | dsimp only | (refine Keeps.upd (by with_reducible assumption) ?_ ?_ <;> with_reducible rfl)

theorem answerBytes_keeps {r x0 x1 x2 s} (h : Keeps r s) : Keeps r (answerBytes x0 x1 x2 s) := by
  unfold answerBytes; repeat' first | with_reducible assumption | with_reducible apply ite_keeps | with_reducible apply answer_keeps | split | (intro) | dsimp only | (refine Keeps.upd (by with_reducible assumption) ?_ ?_ <;> with_reducible rfl)

theorem accept_keeps {r x0 s} (h : Keeps r s) : Keeps r (accept x0 s) := by
  unfold accept; repeat' first | with_reducible assumption | with_reducible apply ite_keeps | with_reducible apply answer_keeps | split | (intro) | dsimp only | (refine Keeps.upd (by with_reducible assumption) ?_ ?_ <;> with_reducible rfl)

theorem onHost_keeps {r x0 x1 s} (h1 : ∀  t, Keeps r t → Keeps r (x1  t)) (h : Keeps r s) : Keeps r (onHost x0 x1 s) := by
  unfold onHost; repeat' first | with_reducible assumption | with_reducible apply ite_keeps | with_reducible apply h1 | with_reducible apply answer_keeps | split | (intro) | dsimp only | (refine Keeps.upd (by with_reducible assumption) ?_ ?_ <;> with_reducible rfl)

theorem onStation_keeps {r x0 x1 s} (h1 : ∀  t, Keeps r t → Keeps r (x1  t)) (h : Keeps r s) : Keeps r (onStation x0 x1 s) := by
  unfold onStation; repeat' first | with_reducible assumption | with_reducible apply ite_keeps | with_reducible apply h1 | with_reducible apply answer_keeps | split | (intro) | dsimp only | (refine Keeps.upd (by with_reducible assumption) ?_ ?_ <;> with_reducible rfl)

theorem classReq_keeps {r x0 x1 x2 s} (h2 : ∀  t, Keeps r t → Keeps r (x2  t)) (h : Keeps r s) : Keeps r (classReq x0 x1 x2 s) := by
  unfold classReq; repeat' first | with_reducible assumption | with_reducible apply ite_keeps | with_reducible apply h2 | with_reducible apply onHost_keeps | with_reducible apply answer_keeps | split | (intro) | dsimp only | (refine Keeps.upd (by with_reducible assumption) ?_ ?_ <;> with_reducible rfl)

theorem portReq_keeps {r x0 x1 x2 x3 s} (h3 : ∀  t, Keeps r t → Keeps r (x3  t)) (h : Keeps r s) : Keeps r (portReq x0 x1 x2 x3 s) := by
  unfold portReq; repeat' first | with_reducible assumption | with_reducible apply ite_keeps | with_reducible apply h3 | with_reducible apply classReq_keeps | with_reducible apply answer_keeps | split | (intro) | dsimp only | (refine Keeps.upd (by with_reducible assumption) ?_ ?_ <;> with_reducible rfl)

theorem stationReq_keeps {r x0 x1 s} (h1 : ∀  t, Keeps r t → Keeps r (x1  t)) (h : Keeps r s) : Keeps r (stationReq x0 x1 s) := by
  unfold stationReq; repeat' first | with_reducible assumption | with_reducible apply ite_keeps | with_reducible apply h1 | with_reducible apply onStation_keeps | with_reducible apply answer_keeps | split | (intro) | dsimp only | (refine Keeps.upd (by with_reducible assumption) ?_ ?_ <;> with_reducible rfl)

theorem sendIn_keeps {r x0 x1 s} (h : Keeps r s) : Keeps r (sendIn x0 x1 s) := by
  unfold sendIn; repeat' first | with_reducible assumption | with_reducible apply ite_keeps | refine drawBool_to (by with_reducible assumption) ?_ | with_reducible refine drawBool_to rfl ?_ | with_reducible apply answer_keeps | split | (intro) | dsimp only | (refine Keeps.upd (by with_reducible assumption) ?_ ?_ <;> with_reducible rfl)

end Sys2Proof.Machine
end

