-- ==== Sys2Proof/Laws/KeepsBudgetOps.lean ====
section
/-!
SUPPORT. Laws/KeepsBudgetOps.lean: every operation of Machine/BudgetOps.lean leaves the queue of commands as it is and keeps memory canonical.
-/
namespace Sys2Proof.Machine

theorem modBp_keeps {r x0 x1 s} (h : Keeps r s) : Keeps r (modBp x0 x1 s) := by
  unfold modBp; repeat' first | with_reducible assumption | with_reducible apply ite_keeps | with_reducible apply modBud_keeps | split | (intro) | dsimp only | (refine Keeps.upd (by with_reducible assumption) ?_ ?_ <;> with_reducible rfl)

theorem setAlloc_keeps {r x0 x1 s} (h : Keeps r s) : Keeps r (setAlloc x0 x1 s) := by
  unfold setAlloc; repeat' first | with_reducible assumption | with_reducible apply ite_keeps | with_reducible apply modBp_keeps | split | (intro) | dsimp only | (refine Keeps.upd (by with_reducible assumption) ?_ ?_ <;> with_reducible rfl)

theorem budgetRecord_keeps {r x0 x1 x2 s} (h : Keeps r s) : Keeps r (budgetRecord x0 x1 x2 s) := by
  unfold budgetRecord; repeat' first | with_reducible assumption | with_reducible apply ite_keeps | with_reducible apply supPost_keeps | split | (intro) | dsimp only | (refine Keeps.upd (by with_reducible assumption) ?_ ?_ <;> with_reducible rfl)

theorem storeBox_keeps {r x0 x1 x2 s} (h : Keeps r s) : Keeps r (storeBox x0 x1 x2 s) := by
  unfold storeBox; repeat' first | with_reducible assumption | with_reducible apply ite_keeps | with_reducible apply modBox_keeps | split | (intro) | dsimp only | (refine Keeps.upd (by with_reducible assumption) ?_ ?_ <;> with_reducible rfl)

theorem takeBox_keeps {r x0 s} (h : Keeps r s) : Keeps r (takeBox x0 s) := by
  unfold takeBox; repeat' first | with_reducible assumption | with_reducible apply ite_keeps | with_reducible apply modBox_keeps | split | (intro) | dsimp only | (refine Keeps.upd (by with_reducible assumption) ?_ ?_ <;> with_reducible rfl)

theorem followStall_keeps {r x0 s} (h : Keeps r s) : Keeps r (followStall x0 s) := by
  unfold followStall; repeat' first | with_reducible assumption | with_reducible apply ite_keeps | with_reducible apply modThr_keeps | split | (intro) | dsimp only | (refine Keeps.upd (by with_reducible assumption) ?_ ?_ <;> with_reducible rfl)

theorem pumpUp_keeps {r x0 s} (h : Keeps r s) : Keeps r (pumpUp x0 s) := by
  unfold pumpUp; repeat' first | with_reducible assumption | with_reducible apply ite_keeps | with_reducible apply storeBox_keeps | with_reducible apply modBud_keeps | with_reducible apply followStall_keeps | with_reducible apply modBox_keeps | split | (intro) | dsimp only | (refine Keeps.upd (by with_reducible assumption) ?_ ?_ <;> with_reducible rfl)

theorem pumpDown_keeps {r x0 s} (h : Keeps r s) : Keeps r (pumpDown x0 s) := by
  unfold pumpDown; repeat' first | with_reducible assumption | with_reducible apply ite_keeps | with_reducible apply storeBox_keeps | with_reducible apply modBud_keeps | split | (intro) | dsimp only | (refine Keeps.upd (by with_reducible assumption) ?_ ?_ <;> with_reducible rfl)

theorem sendUp_keeps {r x0 x1 x2 s} (h : Keeps r s) : Keeps r (sendUp x0 x1 x2 s) := by
  unfold sendUp; repeat' first | with_reducible assumption | with_reducible apply ite_keeps | refine drawNat_to (by with_reducible assumption) ?_ | with_reducible refine drawNat_to rfl ?_ | with_reducible apply pumpUp_keeps | with_reducible apply modBud_keeps | with_reducible apply followStall_keeps | split | (intro) | dsimp only | (refine Keeps.upd (by with_reducible assumption) ?_ ?_ <;> with_reducible rfl)

theorem sendDown_keeps {r x0 x1 x2 x3 s} (h : Keeps r s) : Keeps r (sendDown x0 x1 x2 x3 s) := by
  unfold sendDown; repeat' first | with_reducible assumption | with_reducible apply ite_keeps | with_reducible apply pumpDown_keeps | with_reducible apply modBud_keeps | split | (intro) | dsimp only | (refine Keeps.upd (by with_reducible assumption) ?_ ?_ <;> with_reducible rfl)

theorem arriveUp_keeps {r x0 x1 s} (h : Keeps r s) : Keeps r (arriveUp x0 x1 s) := by
  unfold arriveUp; repeat' first | with_reducible assumption | with_reducible apply ite_keeps | with_reducible apply pumpUp_keeps | with_reducible apply takeBox_keeps | split | (intro) | dsimp only | (refine Keeps.upd (by with_reducible assumption) ?_ ?_ <;> with_reducible rfl)

theorem arriveDown_keeps {r x0 x1 s} (h : Keeps r s) : Keeps r (arriveDown x0 x1 s) := by
  unfold arriveDown; repeat' first | with_reducible assumption | with_reducible apply ite_keeps | with_reducible apply pumpDown_keeps | with_reducible apply takeBox_keeps | split | (intro) | dsimp only | (refine Keeps.upd (by with_reducible assumption) ?_ ?_ <;> with_reducible rfl)

theorem raiseTo_keeps {r x0 x1 s} (h : Keeps r s) : Keeps r (raiseTo x0 x1 s) := by
  unfold raiseTo; repeat' first | with_reducible assumption | with_reducible apply ite_keeps | with_reducible apply modBp_keeps | with_reducible apply setAlloc_keeps | split | (intro) | dsimp only | (refine Keeps.upd (by with_reducible assumption) ?_ ?_ <;> with_reducible rfl)

theorem offerPort_keeps {r x0 s} (h : Keeps r s) : Keeps r (offerPort x0 s) := by
  unfold offerPort; repeat' first | with_reducible assumption | with_reducible apply ite_keeps | with_reducible apply modBp_keeps | with_reducible apply setAlloc_keeps | with_reducible apply budgetRecord_keeps | with_reducible apply sendDown_keeps | split | (intro) | dsimp only | (refine Keeps.upd (by with_reducible assumption) ?_ ?_ <;> with_reducible rfl)

theorem offerAll_keeps {r s} (h : Keeps r s) : Keeps r (offerAll s) := by
  unfold offerAll; repeat' first | with_reducible assumption | with_reducible apply ite_keeps | with_reducible apply offerPort_keeps | with_reducible apply forEach_keeps | split | (intro) | dsimp only | (refine Keeps.upd (by with_reducible assumption) ?_ ?_ <;> with_reducible rfl)

theorem reclaimPort_keeps {r x0 x1 s} (h : Keeps r s) : Keeps r (reclaimPort x0 x1 s) := by
  unfold reclaimPort; repeat' first | with_reducible assumption | with_reducible apply ite_keeps | with_reducible apply budgetRecord_keeps | with_reducible apply sendDown_keeps | with_reducible apply modBp_keeps | with_reducible apply setAlloc_keeps | split | (intro) | dsimp only | (refine Keeps.upd (by with_reducible assumption) ?_ ?_ <;> with_reducible rfl)

theorem reclaimAll_keeps {r s} (h : Keeps r s) : Keeps r (reclaimAll s) := by
  unfold reclaimAll; repeat' first | with_reducible assumption | with_reducible apply ite_keeps | with_reducible apply reclaimPort_keeps | with_reducible apply forEach_keeps | split | (intro) | dsimp only | (refine Keeps.upd (by with_reducible assumption) ?_ ?_ <;> with_reducible rfl)

theorem settle_keeps {r s} (h : Keeps r s) : Keeps r (settle s) := by
  unfold settle; repeat' first | with_reducible assumption | with_reducible apply ite_keeps | with_reducible apply offerAll_keeps | with_reducible apply reclaimAll_keeps | with_reducible apply modBud_keeps | split | (intro) | dsimp only | (refine Keeps.upd (by with_reducible assumption) ?_ ?_ <;> with_reducible rfl)

theorem fallToBase_keeps {r x0 s} (h : Keeps r s) : Keeps r (fallToBase x0 s) := by
  unfold fallToBase; repeat' first | with_reducible assumption | with_reducible apply ite_keeps | with_reducible apply settle_keeps | with_reducible apply modBp_keeps | with_reducible apply setAlloc_keeps | split | (intro) | dsimp only | (refine Keeps.upd (by with_reducible assumption) ?_ ?_ <;> with_reducible rfl)

theorem fallToZero_keeps {r x0 s} (h : Keeps r s) : Keeps r (fallToZero x0 s) := by
  unfold fallToZero; repeat' first | with_reducible assumption | with_reducible apply ite_keeps | with_reducible apply settle_keeps | with_reducible apply modBp_keeps | with_reducible apply setAlloc_keeps | split | (intro) | dsimp only | (refine Keeps.upd (by with_reducible assumption) ?_ ?_ <;> with_reducible rfl)

theorem groupDown_keeps {r x0 s} (h : Keeps r s) : Keeps r (groupDown x0 s) := by
  unfold groupDown; repeat' first | with_reducible assumption | with_reducible apply ite_keeps | with_reducible apply settle_keeps | with_reducible apply modBp_keeps | with_reducible apply setAlloc_keeps | with_reducible apply forEach_keeps | split | (intro) | dsimp only | (refine Keeps.upd (by with_reducible assumption) ?_ ?_ <;> with_reducible rfl)

theorem decideWord_keeps {r x0 x1 s} (h : Keeps r s) : Keeps r (decideWord x0 x1 s) := by
  unfold decideWord; repeat' first | with_reducible assumption | with_reducible apply ite_keeps | with_reducible apply modBp_keeps | with_reducible apply setAlloc_keeps | with_reducible apply sendDown_keeps | with_reducible apply budgetRecord_keeps | with_reducible apply modBud_keeps | with_reducible apply raiseTo_keeps | with_reducible apply settle_keeps | split | (intro) | dsimp only | (refine Keeps.upd (by with_reducible assumption) ?_ ?_ <;> with_reducible rfl)

end Sys2Proof.Machine
end

