-- ==== Sys2Proof/Laws/KeepsPowerOps.lean ====
section
/-!
SUPPORT. Laws/KeepsPowerOps.lean: every operation of Machine/PowerOps.lean leaves the queue of commands as it is and keeps memory canonical.
-/
namespace Sys2Proof.Machine

theorem postPgood_keeps {r x0 x1 x2 s} (h : Keeps r s) : Keeps r (postPgood x0 x1 x2 s) := by
  unfold postPgood; repeat' first | with_reducible assumption | with_reducible apply ite_keeps | with_reducible apply postPort_keeps | split | (intro) | dsimp only | (refine Keeps.upd (by with_reducible assumption) ?_ ?_ <;> with_reducible rfl)

theorem postTrip_keeps {r x0 x1 x2 x3 x4 x5 s} (h : Keeps r s) : Keeps r (postTrip x0 x1 x2 x3 x4 x5 s) := by
  unfold postTrip; repeat' first | with_reducible assumption | with_reducible apply ite_keeps | with_reducible apply postPort_keeps | split | (intro) | dsimp only | (refine Keeps.upd (by with_reducible assumption) ?_ ?_ <;> with_reducible rfl)

theorem postContract_keeps {r x0 x1 x2 x3 x4 s} (h : Keeps r s) : Keeps r (postContract x0 x1 x2 x3 x4 s) := by
  unfold postContract; repeat' first | with_reducible assumption | with_reducible apply ite_keeps | with_reducible apply postPort_keeps | split | (intro) | dsimp only | (refine Keeps.upd (by with_reducible assumption) ?_ ?_ <;> with_reducible rfl)

theorem endContract_keeps {r x0 s} (h : Keeps r s) : Keeps r (endContract x0 s) := by
  unfold endContract; repeat' first | with_reducible assumption | with_reducible apply ite_keeps | with_reducible apply postContract_keeps | with_reducible apply modPd_keeps | with_reducible apply onlyIf_keeps | split | (intro) | dsimp only | (refine Keeps.upd (by with_reducible assumption) ?_ ?_ <;> with_reducible rfl)

theorem pathsOff_keeps {r x0 s} (h : Keeps r s) : Keeps r (pathsOff x0 s) := by
  unfold pathsOff; repeat' first | with_reducible assumption | with_reducible apply ite_keeps | with_reducible apply modPw_keeps | with_reducible apply postPgood_keeps | with_reducible apply syncHub_keeps | with_reducible apply onlyIf_keeps | split | (intro) | dsimp only | (refine Keeps.upd (by with_reducible assumption) ?_ ?_ <;> with_reducible rfl)

theorem keeperNone_keeps {r x0 x1 s} (h : Keeps r s) : Keeps r (keeperNone x0 x1 s) := by
  unfold keeperNone; repeat' first | with_reducible assumption | with_reducible apply ite_keeps | with_reducible apply endContract_keeps | with_reducible apply modPw_keeps | with_reducible apply pathsOff_keeps | split | (intro) | dsimp only | (refine Keeps.upd (by with_reducible assumption) ?_ ?_ <;> with_reducible rfl)

theorem tripPort_keeps {r x0 x1 x2 x3 x4 s} (h : Keeps r s) : Keeps r (tripPort x0 x1 x2 x3 x4 s) := by
  unfold tripPort; repeat' first | with_reducible assumption | with_reducible apply ite_keeps | with_reducible apply modPw_keeps | with_reducible apply postTrip_keeps | with_reducible apply endContract_keeps | with_reducible apply fallToBase_keeps | with_reducible apply pathsOff_keeps | with_reducible apply latchEv_keeps | split | (intro) | dsimp only | (refine Keeps.upd (by with_reducible assumption) ?_ ?_ <;> with_reducible rfl)

theorem latchPfet_keeps {r x0 x1 x2 s} (h : Keeps r s) : Keeps r (latchPfet x0 x1 x2 s) := by
  unfold latchPfet; repeat' first | with_reducible assumption | with_reducible apply ite_keeps | with_reducible apply modPw_keeps | split | (intro) | dsimp only | (refine Keeps.upd (by with_reducible assumption) ?_ ?_ <;> with_reducible rfl)

theorem refuseKeeper_keeps {r x0 x1 s} (h : Keeps r s) : Keeps r (refuseKeeper x0 x1 s) := by
  unfold refuseKeeper; repeat' first | with_reducible assumption | with_reducible apply ite_keeps | with_reducible apply modPw_keeps | with_reducible apply latchEv_keeps | split | (intro) | dsimp only | (refine Keeps.upd (by with_reducible assumption) ?_ ?_ <;> with_reducible rfl)

theorem startSetting_keeps {r x0 x1 s} (h : Keeps r s) : Keeps r (startSetting x0 x1 s) := by
  unfold startSetting; repeat' first | with_reducible assumption | with_reducible apply ite_keeps | with_reducible apply modPw_keeps | split | (intro) | dsimp only | (refine Keeps.upd (by with_reducible assumption) ?_ ?_ <;> with_reducible rfl)

theorem latchPwrCfg_keeps {r x0 s} (h : Keeps r s) : Keeps r (latchPwrCfg x0 s) := by
  unfold latchPwrCfg; repeat' first | with_reducible assumption | with_reducible apply ite_keeps | with_reducible apply modPw_keeps | split | (intro) | dsimp only | (refine Keeps.upd (by with_reducible assumption) ?_ ?_ <;> with_reducible rfl)

theorem setContract_keeps {r x0 x1 x2 s} (h : Keeps r s) : Keeps r (setContract x0 x1 x2 s) := by
  unfold setContract; repeat' first | with_reducible assumption | with_reducible apply ite_keeps | with_reducible apply postContract_keeps | with_reducible apply modPd_keeps | with_reducible apply endContract_keeps | split | (intro) | dsimp only | (refine Keeps.upd (by with_reducible assumption) ?_ ?_ <;> with_reducible rfl)

theorem writeKeeper_keeps {r x0 x1 x2 s} (h : Keeps r s) : Keeps r (writeKeeper x0 x1 x2 s) := by
  unfold writeKeeper; repeat' first | with_reducible assumption | with_reducible apply ite_keeps | with_reducible apply latchPwrCfg_keeps | with_reducible apply refuseKeeper_keeps | with_reducible apply keeperNone_keeps | with_reducible apply modPw_keeps | with_reducible apply setContract_keeps | with_reducible apply startSetting_keeps | with_reducible apply latchEv_keeps | split | (intro) | dsimp only | (refine Keeps.upd (by with_reducible assumption) ?_ ?_ <;> with_reducible rfl)

theorem startHeld_keeps {r x0 s} (h : Keeps r s) : Keeps r (startHeld x0 s) := by
  unfold startHeld; repeat' first | with_reducible assumption | with_reducible apply ite_keeps | with_reducible apply startSetting_keeps | with_reducible apply refuseKeeper_keeps | with_reducible apply modPw_keeps | split | (intro) | dsimp only | (refine Keeps.upd (by with_reducible assumption) ?_ ?_ <;> with_reducible rfl)

theorem endTransition_keeps {r x0 s} (h : Keeps r s) : Keeps r (endTransition x0 s) := by
  unfold endTransition; repeat' first | with_reducible assumption | with_reducible apply ite_keeps | with_reducible apply modPw_keeps | with_reducible apply startHeld_keeps | split | (intro) | dsimp only | (refine Keeps.upd (by with_reducible assumption) ?_ ?_ <;> with_reducible rfl)

theorem startRamp_keeps {r x0 s} (h : Keeps r s) : Keeps r (startRamp x0 s) := by
  unfold startRamp; repeat' first | with_reducible assumption | with_reducible apply ite_keeps | with_reducible apply latchPwrCfg_keeps | with_reducible apply modPw_keeps | split | (intro) | dsimp only | (refine Keeps.upd (by with_reducible assumption) ?_ ?_ <;> with_reducible rfl)

theorem setFeed_keeps {r x0 x1 s} (h : Keeps r s) : Keeps r (setFeed x0 x1 s) := by
  unfold setFeed; repeat' first | with_reducible assumption | with_reducible apply ite_keeps | with_reducible apply modGrp_keeps | with_reducible apply postTile_keeps | split | (intro) | dsimp only | (refine Keeps.upd (by with_reducible assumption) ?_ ?_ <;> with_reducible rfl)

theorem putFeedPg_keeps {r x0 x1 x2 s} (h : Keeps r s) : Keeps r (putFeedPg x0 x1 x2 s) := by
  unfold putFeedPg; repeat' first | with_reducible assumption | with_reducible apply ite_keeps | with_reducible apply modGrp_keeps | with_reducible apply postTile_keeps | split | (intro) | dsimp only | (refine Keeps.upd (by with_reducible assumption) ?_ ?_ <;> with_reducible rfl)

theorem setFeedPg_keeps {r x0 x1 x2 s} (h : Keeps r s) : Keeps r (setFeedPg x0 x1 x2 s) := by
  unfold setFeedPg; repeat' first | with_reducible assumption | with_reducible apply ite_keeps | with_reducible apply modGrp_keeps | with_reducible apply postTile_keeps | with_reducible apply putFeedPg_keeps | split | (intro) | dsimp only | (refine Keeps.upd (by with_reducible assumption) ?_ ?_ <;> with_reducible rfl)

theorem feedDownPorts_keeps {r x0 s} (h : Keeps r s) : Keeps r (feedDownPorts x0 s) := by
  unfold feedDownPorts; repeat' first | with_reducible assumption | with_reducible apply ite_keeps | with_reducible apply modGrp_keeps | with_reducible apply keeperNone_keeps | with_reducible apply groupDown_keeps | with_reducible apply forEach_keeps | split | (intro) | dsimp only | (refine Keeps.upd (by with_reducible assumption) ?_ ?_ <;> with_reducible rfl)

theorem feedTrip_keeps {r x0 x1 x2 x3 s} (h : Keeps r s) : Keeps r (feedTrip x0 x1 x2 x3 s) := by
  unfold feedTrip; repeat' first | with_reducible assumption | with_reducible apply ite_keeps | with_reducible apply modGrp_keeps | with_reducible apply postTile_keeps | with_reducible apply setFeed_keeps | with_reducible apply setFeedPg_keeps | with_reducible apply feedDownPorts_keeps | with_reducible apply putFeedPg_keeps | split | (intro) | dsimp only | (refine Keeps.upd (by with_reducible assumption) ?_ ?_ <;> with_reducible rfl)

theorem feedDisable_keeps {r x0 s} (h : Keeps r s) : Keeps r (feedDisable x0 s) := by
  unfold feedDisable; repeat' first | with_reducible assumption | with_reducible apply ite_keeps | with_reducible apply feedDownPorts_keeps | with_reducible apply setFeed_keeps | with_reducible apply setFeedPg_keeps | with_reducible apply putFeedPg_keeps | split | (intro) | dsimp only | (refine Keeps.upd (by with_reducible assumption) ?_ ?_ <;> with_reducible rfl)

theorem feedRelease_keeps {r x0 s} (h : Keeps r s) : Keeps r (feedRelease x0 s) := by
  unfold feedRelease; repeat' first | with_reducible assumption | with_reducible apply ite_keeps | with_reducible apply setFeed_keeps | split | (intro) | dsimp only | (refine Keeps.upd (by with_reducible assumption) ?_ ?_ <;> with_reducible rfl)

theorem writeGrpCfg_keeps {r x0 x1 s} (h : Keeps r s) : Keeps r (writeGrpCfg x0 x1 s) := by
  unfold writeGrpCfg; repeat' first | with_reducible assumption | with_reducible apply ite_keeps | with_reducible apply modGrp_keeps | with_reducible apply feedDisable_keeps | with_reducible apply feedRelease_keeps | with_reducible apply onlyIf_keeps | split | (intro) | dsimp only | (refine Keeps.upd (by with_reducible assumption) ?_ ?_ <;> with_reducible rfl)

theorem clearLatch_keeps {r x0 s} (h : Keeps r s) : Keeps r (clearLatch x0 s) := by
  unfold clearLatch; repeat' first | with_reducible assumption | with_reducible apply ite_keeps | with_reducible apply modPw_keeps | with_reducible apply syncHub_keeps | split | (intro) | dsimp only | (refine Keeps.upd (by with_reducible assumption) ?_ ?_ <;> with_reducible rfl)

theorem clearPfet_keeps {r x0 s} (h : Keeps r s) : Keeps r (clearPfet x0 s) := by
  unfold clearPfet; repeat' first | with_reducible assumption | with_reducible apply ite_keeps | with_reducible apply modPw_keeps | with_reducible apply modTc_keeps | with_reducible apply syncHub_keeps | with_reducible apply feedRelease_keeps | with_reducible apply onlyIf_keeps | split | (intro) | dsimp only | (refine Keeps.upd (by with_reducible assumption) ?_ ?_ <;> with_reducible rfl)

theorem fwOffOn_keeps {r x0 s} (h : Keeps r s) : Keeps r (fwOffOn x0 s) := by
  unfold fwOffOn; repeat' first | with_reducible assumption | with_reducible apply ite_keeps | with_reducible apply modPw_keeps | with_reducible apply keeperNone_keeps | split | (intro) | dsimp only | (refine Keeps.upd (by with_reducible assumption) ?_ ?_ <;> with_reducible rfl)

theorem fwOffClear_keeps {r x0 s} (h : Keeps r s) : Keeps r (fwOffClear x0 s) := by
  unfold fwOffClear; repeat' first | with_reducible assumption | with_reducible apply ite_keeps | with_reducible apply modPw_keeps | split | (intro) | dsimp only | (refine Keeps.upd (by with_reducible assumption) ?_ ?_ <;> with_reducible rfl)

end Sys2Proof.Machine
end

