-- ==== Sys2Proof/Laws/KeepsEvents.lean ====
section
/-!
SUPPORT. Laws/KeepsEvents.lean: every operation of Machine/Events.lean leaves the queue of commands as it is and keeps memory canonical.
-/
namespace Sys2Proof.Machine

theorem latchSup_keeps {r x0 s} (h : Keeps r s) : Keeps r (latchSup x0 s) := by
  unfold latchSup; repeat' first | with_reducible assumption | with_reducible apply ite_keeps | with_reducible apply modCpu_keeps | split | (intro) | dsimp only | (refine Keeps.upd (by with_reducible assumption) ?_ ?_ <;> with_reducible rfl)

theorem notePort_keeps {r x0 x1 s} (h : Keeps r s) : Keeps r (notePort x0 x1 s) := by
  unfold notePort; repeat' first | with_reducible assumption | with_reducible apply ite_keeps | with_reducible apply latchEv_keeps | split | (intro) | dsimp only | (refine Keeps.upd (by with_reducible assumption) ?_ ?_ <;> with_reducible rfl)

theorem noteSup_keeps {r x0 s} (h : Keeps r s) : Keeps r (noteSup x0 s) := by
  unfold noteSup; repeat' first | with_reducible assumption | with_reducible apply ite_keeps | with_reducible apply latchSup_keeps | split | (intro) | dsimp only | (refine Keeps.upd (by with_reducible assumption) ?_ ?_ <;> with_reducible rfl)

theorem portEv_keeps {r x0 x1 s} (h1 : ∀  t, Keeps r t → Keeps r (x1  t)) (h : Keeps r s) : Keeps r (portEv x0 x1 s) := by
  unfold portEv; repeat' first | with_reducible assumption | with_reducible apply ite_keeps | with_reducible apply h1 | with_reducible apply notePort_keeps | split | (intro) | dsimp only | (refine Keeps.upd (by with_reducible assumption) ?_ ?_ <;> with_reducible rfl)

theorem groupEv_keeps {r x0 x1 s} (h1 : ∀  t, Keeps r t → Keeps r (x1  t)) (h : Keeps r s) : Keeps r (groupEv x0 x1 s) := by
  unfold groupEv; repeat' first | with_reducible assumption | with_reducible apply ite_keeps | with_reducible apply h1 | with_reducible apply notePort_keeps | with_reducible apply forEach_keeps | split | (intro) | dsimp only | (refine Keeps.upd (by with_reducible assumption) ?_ ?_ <;> with_reducible rfl)

theorem allEv_keeps {r x0 s} (h0 : ∀  t, Keeps r t → Keeps r (x0  t)) (h : Keeps r s) : Keeps r (allEv x0 s) := by
  unfold allEv; repeat' first | with_reducible assumption | with_reducible apply ite_keeps | with_reducible apply h0 | with_reducible apply noteSup_keeps | with_reducible apply notePort_keeps | with_reducible apply forEach_keeps | split | (intro) | dsimp only | (refine Keeps.upd (by with_reducible assumption) ?_ ?_ <;> with_reducible rfl)

end Sys2Proof.Machine
end

