-- ==== Sys2Proof/Laws/KeepsTypecOps.lean ====
section
/-!
SUPPORT. Laws/KeepsTypecOps.lean: every operation of Machine/TypecOps.lean leaves the queue of commands as it is and keeps memory canonical.
-/
namespace Sys2Proof.Machine

theorem tOff_keeps {r x0 x1 s} (h : Keeps r s) : Keeps r (tOff x0 x1 s) := by
  unfold tOff; repeat' first | with_reducible assumption | with_reducible apply ite_keeps | with_reducible apply modPd_keeps | split | (intro) | dsimp only | (refine Keeps.upd (by with_reducible assumption) ?_ ?_ <;> with_reducible rfl)

theorem tOn_keeps {r x0 x1 s} (h : Keeps r s) : Keeps r (tOn x0 x1 s) := by
  unfold tOn; repeat' first | with_reducible assumption | with_reducible apply ite_keeps | with_reducible apply modPd_keeps | split | (intro) | dsimp only | (refine Keeps.upd (by with_reducible assumption) ?_ ?_ <;> with_reducible rfl)

theorem setRp_keeps {r x0 x1 s} (h : Keeps r s) : Keeps r (setRp x0 x1 s) := by
  unfold setRp; repeat' first | with_reducible assumption | with_reducible apply ite_keeps | with_reducible apply modTc_keeps | split | (intro) | dsimp only | (refine Keeps.upd (by with_reducible assumption) ?_ ?_ <;> with_reducible rfl)

theorem latchTcCfg_keeps {r x0 s} (h : Keeps r s) : Keeps r (latchTcCfg x0 s) := by
  unfold latchTcCfg; repeat' first | with_reducible assumption | with_reducible apply ite_keeps | with_reducible apply modPd_keeps | with_reducible apply modTc_keeps | split | (intro) | dsimp only | (refine Keeps.upd (by with_reducible assumption) ?_ ?_ <;> with_reducible rfl)

theorem startBaseline_keeps {r x0 s} (h : Keeps r s) : Keeps r (startBaseline x0 s) := by
  unfold startBaseline; repeat' first | with_reducible assumption | with_reducible apply ite_keeps | with_reducible apply modTc_keeps | split | (intro) | dsimp only | (refine Keeps.upd (by with_reducible assumption) ?_ ?_ <;> with_reducible rfl)

theorem baselineSample_keeps {r x0 x1 s} (h : Keeps r s) : Keeps r (baselineSample x0 x1 s) := by
  unfold baselineSample; repeat' first | with_reducible assumption | with_reducible apply ite_keeps | with_reducible apply modTc_keeps | split | (intro) | dsimp only | (refine Keeps.upd (by with_reducible assumption) ?_ ?_ <;> with_reducible rfl)

theorem postVconn_keeps {r x0 x1 s} (h : Keeps r s) : Keeps r (postVconn x0 x1 s) := by
  unfold postVconn; repeat' first | with_reducible assumption | with_reducible apply ite_keeps | with_reducible apply weaverPost_keeps | split | (intro) | dsimp only | (refine Keeps.upd (by with_reducible assumption) ?_ ?_ <;> with_reducible rfl)

theorem setVconn_keeps {r x0 x1 x2 s} (h : Keeps r s) : Keeps r (setVconn x0 x1 x2 s) := by
  unfold setVconn; repeat' first | with_reducible assumption | with_reducible apply ite_keeps | with_reducible apply postVconn_keeps | with_reducible apply modTc_keeps | split | (intro) | dsimp only | (refine Keeps.upd (by with_reducible assumption) ?_ ?_ <;> with_reducible rfl)

theorem holdVconn_keeps {r x0 s} (h : Keeps r s) : Keeps r (holdVconn x0 s) := by
  unfold holdVconn; repeat' first | with_reducible assumption | with_reducible apply ite_keeps | with_reducible apply latchEv_keeps | with_reducible apply modTc_keeps | split | (intro) | dsimp only | (refine Keeps.upd (by with_reducible assumption) ?_ ?_ <;> with_reducible rfl)

theorem openSbu_keeps {r x0 s} (h : Keeps r s) : Keeps r (openSbu x0 s) := by
  unfold openSbu; repeat' first | with_reducible assumption | with_reducible apply ite_keeps | with_reducible apply modTc_keeps | split | (intro) | dsimp only | (refine Keeps.upd (by with_reducible assumption) ?_ ?_ <;> with_reducible rfl)

theorem closeSbu_keeps {r x0 s} (h : Keeps r s) : Keeps r (closeSbu x0 s) := by
  unfold closeSbu; repeat' first | with_reducible assumption | with_reducible apply ite_keeps | with_reducible apply modTc_keeps | split | (intro) | dsimp only | (refine Keeps.upd (by with_reducible assumption) ?_ ?_ <;> with_reducible rfl)

theorem postAlt_keeps {r x0 x1 x2 s} (h : Keeps r s) : Keeps r (postAlt x0 x1 x2 s) := by
  unfold postAlt; repeat' first | with_reducible assumption | with_reducible apply ite_keeps | with_reducible apply weaverPost_keeps | split | (intro) | dsimp only | (refine Keeps.upd (by with_reducible assumption) ?_ ?_ <;> with_reducible rfl)

theorem postAltAt_keeps {r x0 x1 x2 x3 s} (h : Keeps r s) : Keeps r (postAltAt x0 x1 x2 x3 s) := by
  unfold postAltAt; repeat' first | with_reducible assumption | with_reducible apply ite_keeps | with_reducible apply postAlt_keeps | with_reducible apply weaverPostAt_keeps | split | (intro) | dsimp only | (refine Keeps.upd (by with_reducible assumption) ?_ ?_ <;> with_reducible rfl)

theorem phyOpts_keeps {r x0 x1 x2 s} (h : Keeps r s) : Keeps r (phyOpts x0 x1 x2 s) := by
  unfold phyOpts; repeat' first | (intro) | with_reducible assumption | with_reducible apply ite_keeps | with_reducible apply modPhy_keeps | split | dsimp only | (refine Keeps.upd (by with_reducible assumption) ?_ ?_ <;> with_reducible rfl)

theorem restTc_keeps {r x0 s} (h : Keeps r s) : Keeps r (restTc x0 s) := by
  unfold restTc; repeat' first | with_reducible assumption | with_reducible apply ite_keeps | with_reducible apply modTc_keeps | split | (intro) | dsimp only | (refine Keeps.upd (by with_reducible assumption) ?_ ?_ <;> with_reducible rfl)

theorem detach_keeps {r x0 x1 x2 x3 s} (h : Keeps r s) : Keeps r (detach x0 x1 x2 x3 s) := by
  unfold detach; repeat' first | with_reducible assumption | with_reducible apply ite_keeps | with_reducible apply weaverPost_keeps | with_reducible apply postAlt_keeps | with_reducible apply keeperNone_keeps | with_reducible apply setVconn_keeps | with_reducible apply modTc_keeps | with_reducible apply modPhy_keeps | with_reducible apply modPd_keeps | with_reducible apply clearLatch_keeps | with_reducible apply syncHub_keeps | with_reducible apply sendUp_keeps | with_reducible apply fallToZero_keeps | with_reducible apply restTc_keeps | with_reducible apply modPw_keeps | with_reducible apply phyOpts_keeps | with_reducible apply onlyIf_keeps | split | (intro) | dsimp only | (refine Keeps.upd (by with_reducible assumption) ?_ ?_ <;> with_reducible rfl)

theorem hwDetach_keeps {r x0 x1 x2 x3 s} (h : Keeps r s) : Keeps r (hwDetach x0 x1 x2 x3 s) := by
  unfold hwDetach; repeat' first | with_reducible assumption | with_reducible apply ite_keeps | with_reducible apply fallToZero_keeps | with_reducible apply keeperNone_keeps | with_reducible apply modPd_keeps | with_reducible apply modPhy_keeps | with_reducible apply modPw_keeps | with_reducible apply modTc_keeps | with_reducible apply postPort_keeps | with_reducible apply syncHub_keeps | with_reducible apply clearLatch_keeps | with_reducible apply phyOpts_keeps | with_reducible apply restTc_keeps | with_reducible apply onlyIf_keeps | split | (intro) | dsimp only | (refine Keeps.upd (by with_reducible assumption) ?_ ?_ <;> with_reducible rfl)

theorem enterRecovery_keeps {r x0 s} (h : Keeps r s) : Keeps r (enterRecovery x0 s) := by
  unfold enterRecovery; repeat' first | with_reducible assumption | with_reducible apply keeperNone_keeps | with_reducible apply ite_keeps | with_reducible apply detach_keeps | with_reducible apply tOn_keeps | with_reducible apply modTc_keeps | split | (intro) | dsimp only | (refine Keeps.upd (by with_reducible assumption) ?_ ?_ <;> with_reducible rfl)

theorem followPower_keeps {r x0 s} (h : Keeps r s) : Keeps r (followPower x0 s) := by
  unfold followPower; repeat' first | with_reducible assumption | with_reducible apply ite_keeps | with_reducible apply syncHub_keeps | with_reducible apply keeperNone_keeps | with_reducible apply detach_keeps | with_reducible apply modTc_keeps | with_reducible apply setRp_keeps | with_reducible apply hwDetach_keeps | with_reducible apply onlyIf_keeps | split | (intro) | dsimp only | (refine Keeps.upd (by with_reducible assumption) ?_ ?_ <;> with_reducible rfl)

theorem setTcEn_keeps {r x0 s} (h : Keeps r s) : Keeps r (setTcEn x0 s) := by
  unfold setTcEn; repeat' first | with_reducible assumption | with_reducible apply ite_keeps | with_reducible apply detach_keeps | with_reducible apply modTc_keeps | with_reducible apply restTc_keeps | with_reducible apply latchTcCfg_keeps | split | (intro) | dsimp only | (refine Keeps.upd (by with_reducible assumption) ?_ ?_ <;> with_reducible rfl)

theorem disableTc_keeps {r x0 s} (h : Keeps r s) : Keeps r (disableTc x0 s) := by
  unfold disableTc; repeat' first | with_reducible assumption | with_reducible apply ite_keeps | with_reducible apply detach_keeps | with_reducible apply modTc_keeps | with_reducible apply hwDetach_keeps | split | (intro) | dsimp only | (refine Keeps.upd (by with_reducible assumption) ?_ ?_ <;> with_reducible rfl)

end Sys2Proof.Machine
end

