-- ==== Sys2Proof/Laws/KeepsPdOps.lean ====
section
/-!
SUPPORT. Laws/KeepsPdOps.lean: every operation of Machine/PdOps.lean leaves the queue of commands as it is and keeps memory canonical.
-/
namespace Sys2Proof.Machine

theorem postPd_keeps {r x0 x1 x2 x3 x4 x5 s} (h : Keeps r s) : Keeps r (postPd x0 x1 x2 x3 x4 x5 s) := by
  unfold postPd; repeat' first | with_reducible assumption | with_reducible apply ite_keeps | with_reducible apply weaverPostAt_keeps | (refine orLater_keeps (fun _ h => ?_) ?_) | with_reducible apply orLater_keeps | split | (intro) | dsimp only | (refine Keeps.upd (by with_reducible assumption) ?_ ?_ <;> with_reducible rfl)

theorem setLastRx_keeps {r x0 x1 x2 s} (h : Keeps r s) : Keeps r (setLastRx x0 x1 x2 s) := by
  unfold setLastRx; repeat' first | with_reducible assumption | with_reducible apply ite_keeps | with_reducible apply modPhy_keeps | split | (intro) | dsimp only | (refine Keeps.upd (by with_reducible assumption) ?_ ?_ <;> with_reducible rfl)

theorem fillSlot_keeps {r x0 x1 s} (h : Keeps r s) : Keeps r (fillSlot x0 x1 s) := by
  unfold fillSlot; repeat' first | with_reducible assumption | with_reducible apply ite_keeps | refine takeStamp_to (by with_reducible assumption) ?_ | with_reducible refine takeStamp_to rfl ?_ | with_reducible apply postPd_keeps | with_reducible apply modPhy_keeps | with_reducible apply latchEv_keeps | split | (intro) | dsimp only | (refine Keeps.upd (by with_reducible assumption) ?_ ?_ <;> with_reducible rfl)

theorem phyReceive_keeps {r x0 x1 s} (h : Keeps r s) : Keeps r (phyReceive x0 x1 s) := by
  unfold phyReceive; repeat' first | with_reducible assumption | with_reducible apply ite_keeps | with_reducible apply fillSlot_keeps | with_reducible apply setLastRx_keeps | with_reducible apply modPhy_keeps | split | (intro) | dsimp only | (refine Keeps.upd (by with_reducible assumption) ?_ ?_ <;> with_reducible rfl)

theorem hearAsleep_keeps {r x0 s} (h : Keeps r s) : Keeps r (hearAsleep x0 s) := by
  unfold hearAsleep; repeat' first | with_reducible assumption | with_reducible apply ite_keeps | with_reducible apply latchEv_keeps | with_reducible apply modPhy_keeps | split | (intro) | dsimp only | (refine Keeps.upd (by with_reducible assumption) ?_ ?_ <;> with_reducible rfl)

theorem putTx_keeps {r x0 x1 s} (h : Keeps r s) : Keeps r (putTx x0 x1 s) := by
  unfold putTx; repeat' first | with_reducible assumption | with_reducible apply ite_keeps | with_reducible apply modPhy_keeps | with_reducible apply modPd_keeps | split | (intro) | dsimp only | (refine Keeps.upd (by with_reducible assumption) ?_ ?_ <;> with_reducible rfl)

theorem nextTx_keeps {r x0 s} (h : Keeps r s) : Keeps r (nextTx x0 s) := by
  unfold nextTx; repeat' first | with_reducible assumption | with_reducible apply ite_keeps | with_reducible apply modPhy_keeps | with_reducible apply modPd_keeps | split | (intro) | dsimp only | (refine Keeps.upd (by with_reducible assumption) ?_ ?_ <;> with_reducible rfl)

theorem stepTxId_keeps {r x0 x1 s} (h : Keeps r s) : Keeps r (stepTxId x0 x1 s) := by
  unfold stepTxId; repeat' first | with_reducible assumption | with_reducible apply ite_keeps | with_reducible apply modPhy_keeps | split | (intro) | dsimp only | (refine Keeps.upd (by with_reducible assumption) ?_ ?_ <;> with_reducible rfl)

theorem phyHardReset_keeps {r x0 s} (h : Keeps r s) : Keeps r (phyHardReset x0 s) := by
  unfold phyHardReset; repeat' first | with_reducible assumption | with_reducible apply ite_keeps | with_reducible apply modPd_keeps | with_reducible apply modPhy_keeps | split | (intro) | dsimp only | (refine Keeps.upd (by with_reducible assumption) ?_ ?_ <;> with_reducible rfl)

theorem countWaits_keeps {r s} (h : Keeps r s) : Keeps r (countWaits s) := by
  unfold countWaits; repeat' first | with_reducible assumption | with_reducible apply ite_keeps | with_reducible apply modBud_keeps | split | (intro) | dsimp only | (refine Keeps.upd (by with_reducible assumption) ?_ ?_ <;> with_reducible rfl)

theorem countReduced_keeps {r s} (h : Keeps r s) : Keeps r (countReduced s) := by
  unfold countReduced; repeat' first | with_reducible assumption | with_reducible apply ite_keeps | with_reducible apply modBud_keeps | split | (intro) | dsimp only | (refine Keeps.upd (by with_reducible assumption) ?_ ?_ <;> with_reducible rfl)

theorem ask_keeps {r x0 x1 x2 s} (h : Keeps r s) : Keeps r (ask x0 x1 x2 s) := by
  unfold ask; repeat' first | with_reducible assumption | with_reducible apply ite_keeps | with_reducible apply sendUp_keeps | with_reducible apply modPd_keeps | split | (intro) | dsimp only | (refine Keeps.upd (by with_reducible assumption) ?_ ?_ <;> with_reducible rfl)

theorem askHold_keeps {r x0 s} (h : Keeps r s) : Keeps r (askHold x0 s) := by
  unfold askHold; repeat' first | with_reducible assumption | with_reducible apply ite_keeps | with_reducible apply ask_keeps | split | (intro) | dsimp only | (refine Keeps.upd (by with_reducible assumption) ?_ ?_ <;> with_reducible rfl)

theorem askBase_keeps {r x0 s} (h : Keeps r s) : Keeps r (askBase x0 s) := by
  unfold askBase; repeat' first | with_reducible assumption | with_reducible apply ite_keeps | with_reducible apply ask_keeps | split | (intro) | dsimp only | (refine Keeps.upd (by with_reducible assumption) ?_ ?_ <;> with_reducible rfl)

theorem vconnFollow_keeps {r x0 s} (h : Keeps r s) : Keeps r (vconnFollow x0 s) := by
  unfold vconnFollow; repeat' first | with_reducible assumption | with_reducible apply ite_keeps | with_reducible apply setVconn_keeps | with_reducible apply tOn_keeps | split | (intro) | dsimp only | (refine Keeps.upd (by with_reducible assumption) ?_ ?_ <;> with_reducible rfl)

theorem takeCfg_keeps {r x0 s} (h : Keeps r s) : Keeps r (takeCfg x0 s) := by
  unfold takeCfg; repeat' first | with_reducible assumption | with_reducible apply ite_keeps | with_reducible apply latchTcCfg_keeps | with_reducible apply setRp_keeps | with_reducible apply askBase_keeps | with_reducible apply setVconn_keeps | with_reducible apply vconnFollow_keeps | with_reducible apply askHold_keeps | with_reducible apply sendUp_keeps | with_reducible apply modPd_keeps | (refine onlyIf_keeps (fun _ h => ?_) ?_) | split | (intro) | dsimp only | (refine Keeps.upd (by with_reducible assumption) ?_ ?_ <;> with_reducible rfl)

theorem sendCaps_keeps {r x0 x1 s} (h : Keeps r s) : Keeps r (sendCaps x0 x1 s) := by
  unfold sendCaps; repeat' first | with_reducible apply takeCfg_keeps | with_reducible assumption | with_reducible apply ite_keeps | with_reducible apply modPd_keeps | with_reducible apply countReduced_keeps | with_reducible apply budgetRecord_keeps | with_reducible apply tOff_keeps | with_reducible apply putTx_keeps | with_reducible apply onlyIf_keeps | with_reducible apply latchTcCfg_keeps | split | (intro) | dsimp only | (refine Keeps.upd (by with_reducible assumption) ?_ ?_ <;> with_reducible rfl)

theorem launch_keeps {r x0 x1 s} (h : Keeps r s) : Keeps r (launch x0 x1 s) := by
  unfold launch; repeat' first | with_reducible assumption | with_reducible apply ite_keeps | with_reducible apply sendCaps_keeps | with_reducible apply modPd_keeps | with_reducible apply tOn_keeps | with_reducible apply putTx_keeps | with_reducible apply modPhy_keeps | with_reducible apply openSbu_keeps | with_reducible apply postAlt_keeps | with_reducible apply phyOpts_keeps | with_reducible apply softReset_keeps | split | (intro) | dsimp only | (refine Keeps.upd (by with_reducible assumption) ?_ ?_ <;> with_reducible rfl)

theorem beginNg_keeps {r x0 s} (h : Keeps r s) : Keeps r (beginNg x0 s) := by
  unfold beginNg; repeat' first | with_reducible assumption | with_reducible apply ite_keeps | with_reducible apply tOn_keeps | with_reducible apply setRp_keeps | with_reducible apply modPd_keeps | split | (intro) | dsimp only | (refine Keeps.upd (by with_reducible assumption) ?_ ?_ <;> with_reducible rfl)

theorem launchOwn_keeps {r x0 s} (h : Keeps r s) : Keeps r (launchOwn x0 s) := by
  unfold launchOwn; repeat' first | with_reducible assumption | with_reducible apply ite_keeps | with_reducible apply launch_keeps | with_reducible apply modPd_keeps | split | (intro) | dsimp only | (refine Keeps.upd (by with_reducible assumption) ?_ ?_ <;> with_reducible rfl)

theorem startOwn_keeps {r x0 x1 s} (h : Keeps r s) : Keeps r (startOwn x0 x1 s) := by
  unfold startOwn; repeat' first | with_reducible assumption | with_reducible apply ite_keeps | with_reducible apply modPd_keeps | with_reducible apply beginNg_keeps | with_reducible apply launch_keeps | split | (intro) | dsimp only | (refine Keeps.upd (by with_reducible assumption) ?_ ?_ <;> with_reducible rfl)

theorem endSeq_keeps {r x0 s} (h : Keeps r s) : Keeps r (endSeq x0 s) := by
  unfold endSeq; repeat' first | with_reducible assumption | with_reducible apply ite_keeps | with_reducible apply modPd_keeps | with_reducible apply launchOwn_keeps | with_reducible apply setRp_keeps | with_reducible apply beginNg_keeps | split | (intro) | dsimp only | (refine Keeps.upd (by with_reducible assumption) ?_ ?_ <;> with_reducible rfl)

theorem resumeOwn_keeps {r x0 s} (h : Keeps r s) : Keeps r (resumeOwn x0 s) := by
  unfold resumeOwn; repeat' first | with_reducible assumption | with_reducible apply ite_keeps | with_reducible apply launchOwn_keeps | split | (intro) | dsimp only | (refine Keeps.upd (by with_reducible assumption) ?_ ?_ <;> with_reducible rfl)

theorem stCut_keeps {r x0 s} (h : Keeps r s) : Keeps r (stCut x0 s) := by
  unfold stCut; repeat' first | with_reducible assumption | with_reducible apply ite_keeps | with_reducible apply postAlt_keeps | split | (intro) | dsimp only | (refine Keeps.upd (by with_reducible assumption) ?_ ?_ <;> with_reducible rfl)

theorem abortSeq_keeps {r x0 s} (h : Keeps r s) : Keeps r (abortSeq x0 s) := by
  unfold abortSeq; repeat' first | with_reducible assumption | with_reducible apply ite_keeps | with_reducible apply modPd_keeps | split | (intro) | dsimp only | (refine Keeps.upd (by with_reducible assumption) ?_ ?_ <;> with_reducible rfl)

theorem softReset_keeps {r x0 s} (h : Keeps r s) : Keeps r (softReset x0 s) := by
  unfold softReset; repeat' first | with_reducible assumption | with_reducible apply ite_keeps | with_reducible apply abortSeq_keeps | with_reducible apply launch_keeps | with_reducible apply startOwn_keeps | with_reducible apply stCut_keeps | split | (intro) | dsimp only | (refine Keeps.upd (by with_reducible assumption) ?_ ?_ <;> with_reducible rfl)

theorem hardResetSeq_keeps {r x0 x1 s} (h : Keeps r s) : Keeps r (hardResetSeq x0 x1 s) := by
  unfold hardResetSeq; repeat' first | with_reducible assumption | with_reducible apply ite_keeps | with_reducible apply postAlt_keeps | with_reducible apply openSbu_keeps | with_reducible apply phyHardReset_keeps | with_reducible apply modPd_keeps | with_reducible apply setRp_keeps | with_reducible apply putTx_keeps | with_reducible apply sendUp_keeps | with_reducible apply fallToBase_keeps | with_reducible apply phyOpts_keeps | split | (intro) | dsimp only | (refine Keeps.upd (by with_reducible assumption) ?_ ?_ <;> with_reducible rfl)

theorem sendHardReset_keeps {r x0 s} (h : Keeps r s) : Keeps r (sendHardReset x0 s) := by
  unfold sendHardReset; repeat' first | with_reducible assumption | with_reducible apply ite_keeps | with_reducible apply hardResetSeq_keeps | split | (intro) | dsimp only | (refine Keeps.upd (by with_reducible assumption) ?_ ?_ <;> with_reducible rfl)

theorem disablePd_keeps {r x0 s} (h : Keeps r s) : Keeps r (disablePd x0 s) := by
  unfold disablePd; repeat' first | with_reducible assumption | with_reducible apply ite_keeps | with_reducible apply modPd_keeps | split | (intro) | dsimp only | (refine Keeps.upd (by with_reducible assumption) ?_ ?_ <;> with_reducible rfl)

theorem vbusOn_keeps {r x0 s} (h : Keeps r s) : Keeps r (vbusOn x0 s) := by
  unfold vbusOn; repeat' first | with_reducible assumption | with_reducible apply ite_keeps | with_reducible apply latchEv_keeps | with_reducible apply writeKeeper_keeps | split | (intro) | dsimp only | (refine Keeps.upd (by with_reducible assumption) ?_ ?_ <;> with_reducible rfl)

theorem vbusAgain_keeps {r x0 s} (h : Keeps r s) : Keeps r (vbusAgain x0 s) := by
  unfold vbusAgain; repeat' first | with_reducible assumption | with_reducible apply ite_keeps | with_reducible apply vbusOn_keeps | (refine orLater_keeps (fun _ h => ?_) ?_) | with_reducible apply orLater_keeps | split | (intro) | dsimp only | (refine Keeps.upd (by with_reducible assumption) ?_ ?_ <;> with_reducible rfl)

theorem reserveBase_keeps {r x0 s} (h : Keeps r s) : Keeps r (reserveBase x0 s) := by
  unfold reserveBase; repeat' first | with_reducible assumption | with_reducible apply ite_keeps | with_reducible apply budgetRecord_keeps | with_reducible apply modBp_keeps | with_reducible apply modBud_keeps | with_reducible apply setAlloc_keeps | split | (intro) | dsimp only | (refine Keeps.upd (by with_reducible assumption) ?_ ?_ <;> with_reducible rfl)

theorem askAgain_keeps {r x0 s} (h : Keeps r s) : Keeps r (askAgain x0 s) := by
  unfold askAgain; repeat' first | with_reducible assumption | with_reducible apply ite_keeps | with_reducible apply askBase_keeps | with_reducible apply reserveBase_keeps | with_reducible apply vbusOn_keeps | split | (intro) | dsimp only | (refine Keeps.upd (by with_reducible assumption) ?_ ?_ <;> with_reducible rfl)

theorem endLatch_keeps {r x0 s} (h : Keeps r s) : Keeps r (endLatch x0 s) := by
  unfold endLatch; repeat' first | with_reducible assumption | with_reducible apply ite_keeps | with_reducible apply clearLatch_keeps | with_reducible apply vbusAgain_keeps | split | (intro) | dsimp only | (refine Keeps.upd (by with_reducible assumption) ?_ ?_ <;> with_reducible rfl)

theorem firstCaps_keeps {r x0 s} (h : Keeps r s) : Keeps r (firstCaps x0 s) := by
  unfold firstCaps; repeat' first | with_reducible assumption | with_reducible apply ite_keeps | with_reducible apply sendCaps_keeps | split | (intro) | dsimp only | (refine Keeps.upd (by with_reducible assumption) ?_ ?_ <;> with_reducible rfl)

theorem holdKnown_keeps {r x0 s} (h : Keeps r s) : Keeps r (holdKnown x0 s) := by
  unfold holdKnown; repeat' first | with_reducible assumption | with_reducible apply ite_keeps | with_reducible apply firstCaps_keeps | with_reducible apply modPd_keeps | with_reducible apply startOwn_keeps | split | (intro) | dsimp only | (refine Keeps.upd (by with_reducible assumption) ?_ ?_ <;> with_reducible rfl)

theorem askWant_keeps {r x0 s} (h : Keeps r s) : Keeps r (askWant x0 s) := by
  unfold askWant; repeat' first | with_reducible assumption | with_reducible apply ite_keeps | with_reducible apply askHold_keeps | with_reducible apply holdKnown_keeps | with_reducible apply modPd_keeps | with_reducible apply sendUp_keeps | split | (intro) | dsimp only | (refine Keeps.upd (by with_reducible assumption) ?_ ?_ <;> with_reducible rfl)

theorem rewant_keeps {r x0 s} (h : Keeps r s) : Keeps r (rewant x0 s) := by
  unfold rewant; repeat' first | with_reducible assumption | with_reducible apply ite_keeps | with_reducible apply askHold_keeps | with_reducible apply holdKnown_keeps | with_reducible apply sendUp_keeps | with_reducible apply modPd_keeps | with_reducible apply askWant_keeps | (refine orLater_keeps (fun _ h => ?_) ?_) | with_reducible apply orLater_keeps | split | (intro) | dsimp only | (refine Keeps.upd (by with_reducible assumption) ?_ ?_ <;> with_reducible rfl)

theorem vbusGood_keeps {r x0 s} (h : Keeps r s) : Keeps r (vbusGood x0 s) := by
  unfold vbusGood; repeat' first | with_reducible assumption | with_reducible apply ite_keeps | with_reducible apply setVconn_keeps | with_reducible apply tOn_keeps | with_reducible apply modPd_keeps | with_reducible apply askHold_keeps | with_reducible apply vconnFollow_keeps | with_reducible apply holdVconn_keeps | split | (intro) | dsimp only | (refine Keeps.upd (by with_reducible assumption) ?_ ?_ <;> with_reducible rfl)

theorem pdRestart_keeps {r x0 s} (h : Keeps r s) : Keeps r (pdRestart x0 s) := by
  unfold pdRestart; repeat' first | with_reducible assumption | with_reducible apply ite_keeps | with_reducible apply modPd_keeps | with_reducible apply openSbu_keeps | with_reducible apply phyOpts_keeps | with_reducible apply postAlt_keeps | with_reducible apply setRp_keeps | split | (intro) | dsimp only | (refine Keeps.upd (by with_reducible assumption) ?_ ?_ <;> with_reducible rfl)

theorem pdLost_keeps {r x0 s} (h : Keeps r s) : Keeps r (pdLost x0 s) := by
  unfold pdLost; repeat' first | with_reducible assumption | with_reducible apply ite_keeps | with_reducible apply postAlt_keeps | with_reducible apply openSbu_keeps | with_reducible apply modPhy_keeps | with_reducible apply modPd_keeps | with_reducible apply phyOpts_keeps | with_reducible apply setRp_keeps | with_reducible apply pdRestart_keeps | split | (intro) | dsimp only | (refine Keeps.upd (by with_reducible assumption) ?_ ?_ <;> with_reducible rfl)

theorem vbusLost_keeps {r x0 s} (h : Keeps r s) : Keeps r (vbusLost x0 s) := by
  unfold vbusLost; repeat' first | with_reducible assumption | with_reducible apply ite_keeps | (refine orLater_keeps (fun _ h => ?_) ?_) | with_reducible apply pdLost_keeps | with_reducible apply orLater_keeps | split | (intro) | dsimp only | (refine Keeps.upd (by with_reducible assumption) ?_ ?_ <;> with_reducible rfl)

theorem feedLost_keeps {r x0 s} (h : Keeps r s) : Keeps r (feedLost x0 s) := by
  unfold feedLost; repeat' first | (intro) | with_reducible assumption | with_reducible apply ite_keeps | with_reducible apply forEach_keeps | with_reducible apply pdLost_keeps | with_reducible apply vbusLost_keeps | split | dsimp only | (refine Keeps.upd (by with_reducible assumption) ?_ ?_ <;> with_reducible rfl)

theorem sendReject_keeps {r x0 s} (h : Keeps r s) : Keeps r (sendReject x0 s) := by
  unfold sendReject; repeat' first | with_reducible assumption | with_reducible apply ite_keeps | with_reducible apply putTx_keeps | split | (intro) | dsimp only | (refine Keeps.upd (by with_reducible assumption) ?_ ?_ <;> with_reducible rfl)

theorem answerWait_keeps {r x0 s} (h : Keeps r s) : Keeps r (answerWait x0 s) := by
  unfold answerWait; repeat' first | with_reducible assumption | with_reducible apply ite_keeps | with_reducible apply tOff_keeps | with_reducible apply modPd_keeps | with_reducible apply modBp_keeps | with_reducible apply countWaits_keeps | with_reducible apply putTx_keeps | with_reducible apply budgetRecord_keeps | split | (intro) | dsimp only | (refine Keeps.upd (by with_reducible assumption) ?_ ?_ <;> with_reducible rfl)

theorem answerAccept_keeps {r x0 s} (h : Keeps r s) : Keeps r (answerAccept x0 s) := by
  unfold answerAccept; repeat' first | with_reducible assumption | with_reducible apply ite_keeps | with_reducible apply tOff_keeps | with_reducible apply modPd_keeps | with_reducible apply putTx_keeps | with_reducible apply modBp_keeps | split | (intro) | dsimp only | (refine Keeps.upd (by with_reducible assumption) ?_ ?_ <;> with_reducible rfl)

theorem contractMade_keeps {r x0 s} (h : Keeps r s) : Keeps r (contractMade x0 s) := by
  unfold contractMade; repeat' first | with_reducible assumption | with_reducible apply ite_keeps | with_reducible apply putTx_keeps | with_reducible apply tOff_keeps | split | (intro) | dsimp only | (refine Keeps.upd (by with_reducible assumption) ?_ ?_ <;> with_reducible rfl)

theorem takeContract_keeps {r x0 s} (h : Keeps r s) : Keeps r (takeContract x0 s) := by
  unfold takeContract; repeat' first | with_reducible assumption | with_reducible apply ite_keeps | with_reducible apply modPd_keeps | with_reducible apply writeKeeper_keeps | with_reducible apply tOn_keeps | with_reducible apply latchEv_keeps | with_reducible apply sendHardReset_keeps | with_reducible apply putTx_keeps | with_reducible apply tOff_keeps | with_reducible apply contractMade_keeps | split | (intro) | dsimp only | (refine Keeps.upd (by with_reducible assumption) ?_ ?_ <;> with_reducible rfl)

theorem startSt_keeps {r x0 s} (h : Keeps r s) : Keeps r (startSt x0 s) := by
  unfold startSt; repeat' first | with_reducible assumption | with_reducible apply ite_keeps | with_reducible apply startOwn_keeps | with_reducible apply modPd_keeps | split | (intro) | dsimp only | (refine Keeps.upd (by with_reducible assumption) ?_ ?_ <;> with_reducible rfl)

theorem exitMode_keeps {r x0 s} (h : Keeps r s) : Keeps r (exitMode x0 s) := by
  unfold exitMode; repeat' first | with_reducible assumption | with_reducible apply ite_keeps | with_reducible apply startOwn_keeps | with_reducible apply openSbu_keeps | split | (intro) | dsimp only | (refine Keeps.upd (by with_reducible assumption) ?_ ?_ <;> with_reducible rfl)

theorem moreDiscovery_keeps {r x0 s} (h : Keeps r s) : Keeps r (moreDiscovery x0 s) := by
  unfold moreDiscovery; repeat' first | with_reducible assumption | with_reducible apply ite_keeps | with_reducible apply startOwn_keeps | split | (intro) | dsimp only | (refine Keeps.upd (by with_reducible assumption) ?_ ?_ <;> with_reducible rfl)

theorem sendStStatus_keeps {r x0 s} (h : Keeps r s) : Keeps r (sendStStatus x0 s) := by
  unfold sendStStatus; repeat' first | with_reducible assumption | with_reducible apply ite_keeps | with_reducible apply startOwn_keeps | (refine orLater_keeps (fun _ h => ?_) ?_) | with_reducible apply orLater_keeps | split | (intro) | dsimp only | (refine Keeps.upd (by with_reducible assumption) ?_ ?_ <;> with_reducible rfl)

theorem stStatusAll_keeps {r s} (h : Keeps r s) : Keeps r (stStatusAll s) := by
  unfold stStatusAll; repeat' first | with_reducible assumption | with_reducible apply ite_keeps | with_reducible apply sendStStatus_keeps | with_reducible apply forEach_keeps | split | (intro) | dsimp only | (refine Keeps.upd (by with_reducible assumption) ?_ ?_ <;> with_reducible rfl)

theorem contractReady_keeps {r x0 s} (h : Keeps r s) : Keeps r (contractReady x0 s) := by
  unfold contractReady; repeat' first | with_reducible assumption | with_reducible apply ite_keeps | with_reducible apply tOff_keeps | with_reducible apply modPd_keeps | with_reducible apply endSeq_keeps | with_reducible apply setRp_keeps | with_reducible apply moreDiscovery_keeps | with_reducible apply startSt_keeps | split | (intro) | dsimp only | (refine Keeps.upd (by with_reducible assumption) ?_ ?_ <;> with_reducible rfl)

theorem afterWait_keeps {r x0 s} (h : Keeps r s) : Keeps r (afterWait x0 s) := by
  unfold afterWait; repeat' first | with_reducible assumption | with_reducible apply ite_keeps | with_reducible apply tOn_keeps | with_reducible apply endSeq_keeps | with_reducible apply startOwn_keeps | with_reducible apply modPd_keeps | split | (intro) | dsimp only | (refine Keeps.upd (by with_reducible assumption) ?_ ?_ <;> with_reducible rfl)

theorem onSent_keeps {r x0 x1 s} (h : Keeps r s) : Keeps r (onSent x0 x1 s) := by
  unfold onSent; repeat' first | with_reducible assumption | with_reducible apply ite_keeps | with_reducible apply tOn_keeps | with_reducible apply contractReady_keeps | with_reducible apply endSeq_keeps | with_reducible apply modPd_keeps | with_reducible apply afterWait_keeps | with_reducible apply tOff_keeps | split | (intro) | dsimp only | (refine Keeps.upd (by with_reducible assumption) ?_ ?_ <;> with_reducible rfl)

theorem onFailed_keeps {r x0 x1 s} (h : Keeps r s) : Keeps r (onFailed x0 x1 s) := by
  unfold onFailed; repeat' first | with_reducible assumption | with_reducible apply ite_keeps | with_reducible apply modPd_keeps | with_reducible apply disablePd_keeps | with_reducible apply tOn_keeps | with_reducible apply sendHardReset_keeps | with_reducible apply softReset_keeps | split | (intro) | dsimp only | (refine Keeps.upd (by with_reducible assumption) ?_ ?_ <;> with_reducible rfl)

theorem takeMsg_keeps {r x0 x1 s} (h : Keeps r s) : Keeps r (takeMsg x0 x1 s) := by
  unfold takeMsg; repeat' first | with_reducible assumption | with_reducible apply ite_keeps | with_reducible apply fillSlot_keeps | with_reducible apply setLastRx_keeps | with_reducible apply modPhy_keeps | split | (intro) | dsimp only | (refine Keeps.upd (by with_reducible assumption) ?_ ?_ <;> with_reducible rfl)

theorem overflowed_keeps {r x0 s} (h : Keeps r s) : Keeps r (overflowed x0 s) := by
  unfold overflowed; repeat' first | with_reducible assumption | with_reducible apply ite_keeps | with_reducible apply softReset_keeps | (refine orLater_keeps (fun _ h => ?_) ?_) | with_reducible apply orLater_keeps | split | (intro) | dsimp only | (refine Keeps.upd (by with_reducible assumption) ?_ ?_ <;> with_reducible rfl)

theorem openSample_keeps {r x0 s} (h : Keeps r s) : Keeps r (openSample x0 s) := by
  unfold openSample; repeat' first | with_reducible assumption | with_reducible apply ite_keeps | with_reducible apply baselineSample_keeps | split | (intro) | dsimp only | (refine Keeps.upd (by with_reducible assumption) ?_ ?_ <;> with_reducible rfl)

theorem heardMsg_to {r x0 s y0 t} (e : heardMsg x0 s = (y0, t)) (h : Keeps r s) : Keeps r t := by
  unfold heardMsg at e; split at e <;> cases e
  · exact Keeps.upd h rfl rfl
  · exact h

theorem hearMsg_keeps {r x0 x1 s} (h : Keeps r s) : Keeps r (hearMsg x0 x1 s) := by
  unfold hearMsg; repeat' first | with_reducible assumption | with_reducible refine heardMsg_to rfl ?_ | with_reducible apply ite_keeps | with_reducible apply openSample_keeps | with_reducible apply phyReceive_keeps | split | (intro) | dsimp only | (refine Keeps.upd (by with_reducible assumption) ?_ ?_ <;> with_reducible rfl)

theorem onMsg_keeps {r x0 x1 x2 s} (h2 : ∀  t, Keeps r t → Keeps r (x2  t)) (h : Keeps r s) : Keeps r (onMsg x0 x1 x2 s) := by
  unfold onMsg; repeat' first | with_reducible assumption | with_reducible apply ite_keeps | with_reducible apply hearAsleep_keeps | with_reducible apply h2 | with_reducible apply takeMsg_keeps | with_reducible apply tOff_keeps | with_reducible apply modPd_keeps | with_reducible apply phyOpts_keeps | with_reducible apply phyReceive_keeps | with_reducible apply overflowed_keeps | with_reducible apply openSample_keeps | with_reducible apply hearMsg_keeps | split | (intro) | dsimp only | (refine Keeps.upd (by with_reducible assumption) ?_ ?_ <;> with_reducible rfl)

theorem unsupported_keeps {r x0 s} (h : Keeps r s) : Keeps r (unsupported x0 s) := by
  unfold unsupported; repeat' first | with_reducible assumption | with_reducible apply ite_keeps | with_reducible apply softReset_keeps | with_reducible apply putTx_keeps | split | (intro) | dsimp only | (refine Keeps.upd (by with_reducible assumption) ?_ ?_ <;> with_reducible rfl)

theorem vconnToPort_keeps {r x0 x1 s} (h : Keeps r s) : Keeps r (vconnToPort x0 x1 s) := by
  unfold vconnToPort; repeat' first | with_reducible assumption | with_reducible apply ite_keeps | with_reducible apply sendHardReset_keeps | with_reducible apply setVconn_keeps | with_reducible apply modPd_keeps | with_reducible apply putTx_keeps | split | (intro) | dsimp only | (refine Keeps.upd (by with_reducible assumption) ?_ ?_ <;> with_reducible rfl)

theorem vconnToPartner_keeps {r x0 s} (h : Keeps r s) : Keeps r (vconnToPartner x0 s) := by
  unfold vconnToPartner; repeat' first | with_reducible assumption | with_reducible apply ite_keeps | with_reducible apply modTc_keeps | with_reducible apply setVconn_keeps | split | (intro) | dsimp only | (refine Keeps.upd (by with_reducible assumption) ?_ ?_ <;> with_reducible rfl)

theorem enablePd_keeps {r x0 s} (h : Keeps r s) : Keeps r (enablePd x0 s) := by
  unfold enablePd; repeat' first | with_reducible assumption | with_reducible apply ite_keeps | with_reducible apply modPd_keeps | with_reducible apply softReset_keeps | with_reducible apply startOwn_keeps | with_reducible apply vbusGood_keeps | split | (intro) | dsimp only | (refine Keeps.upd (by with_reducible assumption) ?_ ?_ <;> with_reducible rfl)

theorem followSt_keeps {r x0 s} (h : Keeps r s) : Keeps r (followSt x0 s) := by
  unfold followSt; repeat' first | with_reducible assumption | with_reducible apply ite_keeps | with_reducible apply exitMode_keeps | with_reducible apply startSt_keeps | split | (intro) | dsimp only | (refine Keeps.upd (by with_reducible assumption) ?_ ?_ <;> with_reducible rfl)

theorem lateAct_keeps {r x0 x1 s} (h : Keeps r s) : Keeps r (lateAct x0 x1 s) := by
  unfold lateAct; repeat' first | with_reducible assumption | with_reducible apply ite_keeps | with_reducible apply askAgain_keeps | with_reducible apply askWant_keeps | with_reducible apply enablePd_keeps | with_reducible apply followSt_keeps | with_reducible apply hardResetSeq_keeps | with_reducible apply onFailed_keeps | with_reducible apply onSent_keeps | with_reducible apply pdLost_keeps | with_reducible apply sendHardReset_keeps | with_reducible apply softReset_keeps | with_reducible apply startOwn_keeps | with_reducible apply vbusAgain_keeps | with_reducible apply vbusLost_keeps | with_reducible apply vbusOn_keeps | with_reducible apply weaverPostAt_keeps | split | (intro) | dsimp only | (refine Keeps.upd (by with_reducible assumption) ?_ ?_ <;> with_reducible rfl)

theorem onLate_keeps {r x0 x1 s} (h : Keeps r s) : Keeps r (onLate x0 x1 s) := by
  unfold onLate; repeat' first | with_reducible assumption | with_reducible apply ite_keeps | with_reducible apply lateAct_keeps | (refine orLater_keeps (fun _ h => ?_) ?_) | with_reducible apply orLater_keeps | split | (intro) | dsimp only | (refine Keeps.upd (by with_reducible assumption) ?_ ?_ <;> with_reducible rfl)

theorem runLate_keeps {r x0 s} (h : Keeps r s) : Keeps r (runLate x0 s) := by
  unfold runLate; repeat' first | with_reducible assumption | with_reducible apply ite_keeps | with_reducible apply modPd_keeps | with_reducible apply onLate_keeps | (refine forEach_keeps (fun _ _ h => ?_) ?_) | split | (intro) | dsimp only | (refine Keeps.upd (by with_reducible assumption) ?_ ?_ <;> with_reducible rfl)

theorem catchUp_keeps {r x0 s} (h : Keeps r s) : Keeps r (catchUp x0 s) := by
  unfold catchUp; repeat' first | with_reducible assumption | with_reducible apply ite_keeps | with_reducible apply followPower_keeps | with_reducible apply modTc_keeps | with_reducible apply vbusGood_keeps | with_reducible apply contractMade_keeps | with_reducible apply firstCaps_keeps | with_reducible apply postVconn_keeps | with_reducible apply runLate_keeps | with_reducible apply setTcEn_keeps | with_reducible apply onlyIf_keeps | split | (intro) | dsimp only | (refine Keeps.upd (by with_reducible assumption) ?_ ?_ <;> with_reducible rfl)

theorem dropOwn_keeps {r x0 s} (h : Keeps r s) : Keeps r (dropOwn x0 s) := by
  unfold dropOwn; repeat' first | with_reducible assumption | with_reducible apply ite_keeps | with_reducible apply modPd_keeps | with_reducible apply postAlt_keeps | (refine onlyIf_keeps (fun _ h => ?_) ?_) | split | (intro) | dsimp only | (refine Keeps.upd (by with_reducible assumption) ?_ ?_ <;> with_reducible rfl)

theorem startPolicy_keeps {r x0 s} (h : Keeps r s) : Keeps r (startPolicy x0 s) := by
  unfold startPolicy; repeat' first | with_reducible assumption | with_reducible apply ite_keeps | with_reducible apply modPd_keeps | with_reducible apply abortSeq_keeps | with_reducible apply startOwn_keeps | with_reducible apply askBase_keeps | with_reducible apply restTc_keeps | with_reducible apply latchTcCfg_keeps | with_reducible apply pdLost_keeps | with_reducible apply softReset_keeps | with_reducible apply followPower_keeps | with_reducible apply catchUp_keeps | with_reducible apply pdRestart_keeps | with_reducible apply dropOwn_keeps | with_reducible apply enablePd_keeps | with_reducible apply runLate_keeps | with_reducible apply setTcEn_keeps | split | (intro) | dsimp only | (refine Keeps.upd (by with_reducible assumption) ?_ ?_ <;> with_reducible rfl)

theorem wakePort_keeps {r x0 s} (h : Keeps r s) : Keeps r (wakePort x0 s) := by
  unfold wakePort; repeat' first | with_reducible assumption | with_reducible apply ite_keeps | with_reducible apply catchUp_keeps | with_reducible apply overflowed_keeps | with_reducible apply modPhy_keeps | with_reducible apply modTc_keeps | split | (intro) | dsimp only | (refine Keeps.upd (by with_reducible assumption) ?_ ?_ <;> with_reducible rfl)

end Sys2Proof.Machine
end

