-- ==== Sys2Proof/Laws/KeepsTimeOps.lean ====
section
/-!
SUPPORT. Laws/KeepsTimeOps.lean: every operation of Machine/TimeOps.lean leaves the queue of commands as it is and keeps memory canonical.
-/
namespace Sys2Proof.Machine

theorem timeRecord_keeps {r x0 x1 x2 x3 s} (h : Keeps r s) : Keeps r (timeRecord x0 x1 x2 x3 s) := by
  unfold timeRecord; repeat' first | with_reducible assumption | with_reducible apply ite_keeps | with_reducible apply postHub_keeps | split | (intro) | dsimp only | (refine Keeps.upd (by with_reducible assumption) ?_ ?_ <;> with_reducible rfl)

theorem refRecordDue_keeps {r x0 x1 s} (h : Keeps r s) : Keeps r (refRecordDue x0 x1 s) := by
  unfold refRecordDue; repeat' first | with_reducible assumption | with_reducible apply ite_keeps | with_reducible apply modTim_keeps | split | (intro) | dsimp only | (refine Keeps.upd (by with_reducible assumption) ?_ ?_ <;> with_reducible rfl)

theorem postDue_keeps {r s} (h : Keeps r s) : Keeps r (postDue s) := by
  unfold postDue
  have h1 : Keeps r (modTim (fun t => { t with due := [] }) s) := modTim_keeps h
  revert h1
  generalize modTim (fun t => { t with due := [] }) s = x
  intro h1
  generalize s.tim.due = l
  induction l generalizing x with
  | nil => exact h1
  | cons w ws ih => exact ih _ (postHub_keeps h1)

theorem refRecord_keeps {r x0 x1 s} (h : Keeps r s) : Keeps r (refRecord x0 x1 s) := by
  unfold refRecord; repeat' first | with_reducible assumption | with_reducible apply ite_keeps | with_reducible apply timeRecord_keeps | split | (intro) | dsimp only | (refine Keeps.upd (by with_reducible assumption) ?_ ?_ <;> with_reducible rfl)

theorem timEvt_keeps {r x0 s} (h : Keeps r s) : Keeps r (timEvt x0 s) := by
  unfold timEvt; repeat' first | with_reducible assumption | with_reducible apply ite_keeps | with_reducible apply modTim_keeps | with_reducible apply raise_keeps | split | (intro) | dsimp only | (refine Keeps.upd (by with_reducible assumption) ?_ ?_ <;> with_reducible rfl)

theorem setServo_keeps {r x0 s} (h : Keeps r s) : Keeps r (setServo x0 s) := by
  unfold setServo; repeat' first | with_reducible assumption | with_reducible apply ite_keeps | with_reducible apply modTim_keeps | with_reducible apply stStatusAll_keeps | with_reducible apply timeRecord_keeps | split | (intro) | dsimp only | (refine Keeps.upd (by with_reducible assumption) ?_ ?_ <;> with_reducible rfl)

theorem replicaWaits_keeps {r x0 x1 s} (h : Keeps r s) : Keeps r (replicaWaits x0 x1 s) := by
  unfold replicaWaits; repeat' first | with_reducible assumption | with_reducible apply ite_keeps | with_reducible apply modTile_keeps | with_reducible refine drawNat_to rfl ?_ | split | (intro) | dsimp only | (refine Keeps.upd (by with_reducible assumption) ?_ ?_ <;> with_reducible rfl)

theorem loadCounter_keeps {r x0 x1 s} (h : Keeps r s) : Keeps r (loadCounter x0 x1 s) := by
  unfold loadCounter; repeat' first | with_reducible assumption | with_reducible apply ite_keeps | with_reducible apply modTim_keeps | with_reducible apply modTile_keeps | with_reducible apply modTeam_keeps | with_reducible apply forEach_keeps | with_reducible apply modTc_keeps | with_reducible apply replicaWaits_keeps | split | (intro) | dsimp only | (refine Keeps.upd (by with_reducible assumption) ?_ ?_ <;> with_reducible rfl)

theorem setCounter_keeps {r x0 x1 s} (h : Keeps r s) : Keeps r (setCounter x0 x1 s) := by
  unfold setCounter; repeat' first | with_reducible assumption | with_reducible apply ite_keeps | with_reducible apply loadCounter_keeps | with_reducible apply modTim_keeps | with_reducible apply timeRecord_keeps | with_reducible apply stStatusAll_keeps | split | (intro) | dsimp only | (refine Keeps.upd (by with_reducible assumption) ?_ ?_ <;> with_reducible rfl)

theorem refuseSet_keeps {r s} (h : Keeps r s) : Keeps r (refuseSet s) := by
  unfold refuseSet; repeat' first | with_reducible assumption | with_reducible apply ite_keeps | with_reducible apply timEvt_keeps | split | (intro) | dsimp only | (refine Keeps.upd (by with_reducible assumption) ?_ ?_ <;> with_reducible rfl)

theorem setCommand_keeps {r x0 s} (h : Keeps r s) : Keeps r (setCommand x0 s) := by
  unfold setCommand; repeat' first | with_reducible assumption | with_reducible apply ite_keeps | with_reducible apply refuseSet_keeps | with_reducible apply setCounter_keeps | with_reducible apply modTim_keeps | split | (intro) | dsimp only | (refine Keeps.upd (by with_reducible assumption) ?_ ?_ <;> with_reducible rfl)

theorem writeFreq_keeps {r x0 s} (h : Keeps r s) : Keeps r (writeFreq x0 s) := by
  unfold writeFreq; repeat' first | with_reducible assumption | with_reducible apply ite_keeps | with_reducible apply modTim_keeps | with_reducible apply refuseSet_keeps | split | (intro) | dsimp only | (refine Keeps.upd (by with_reducible assumption) ?_ ?_ <;> with_reducible rfl)

theorem modPps_keeps {r x0 x1 s} (h : Keeps r s) : Keeps r (modPps x0 x1 s) := by
  unfold modPps; repeat' first | with_reducible assumption | with_reducible apply ite_keeps | with_reducible apply modTim_keeps | split | (intro) | dsimp only | (refine Keeps.upd (by with_reducible assumption) ?_ ?_ <;> with_reducible rfl)

theorem losePps_keeps {r x0 s} (h : Keeps r s) : Keeps r (losePps x0 s) := by
  unfold losePps; repeat' first | with_reducible assumption | with_reducible apply ite_keeps | with_reducible apply modPps_keeps | with_reducible apply modTim_keeps | with_reducible apply refRecord_keeps | with_reducible apply timEvt_keeps | with_reducible apply refRecordDue_keeps | split | (intro) | dsimp only | (refine Keeps.upd (by with_reducible assumption) ?_ ?_ <;> with_reducible rfl)

theorem loseIrig_keeps {r s} (h : Keeps r s) : Keeps r (loseIrig s) := by
  unfold loseIrig; repeat' first | with_reducible assumption | with_reducible apply ite_keeps | with_reducible apply modTim_keeps | with_reducible apply refRecord_keeps | with_reducible apply timEvt_keeps | with_reducible apply refRecordDue_keeps | split | (intro) | dsimp only | (refine Keeps.upd (by with_reducible assumption) ?_ ?_ <;> with_reducible rfl)

theorem loseRef10m_keeps {r s} (h : Keeps r s) : Keeps r (loseRef10m s) := by
  unfold loseRef10m; repeat' first | with_reducible assumption | with_reducible apply ite_keeps | with_reducible apply modTim_keeps | with_reducible apply refRecord_keeps | with_reducible apply timEvt_keeps | with_reducible apply refRecordDue_keeps | split | (intro) | dsimp only | (refine Keeps.upd (by with_reducible assumption) ?_ ?_ <;> with_reducible rfl)

theorem writeRefCfg_keeps {r x0 s} (h : Keeps r s) : Keeps r (writeRefCfg x0 s) := by
  unfold writeRefCfg; repeat' first | with_reducible assumption | with_reducible apply ite_keeps | with_reducible apply modTim_keeps | with_reducible apply losePps_keeps | with_reducible apply loseIrig_keeps | with_reducible apply loseRef10m_keeps | split | (intro) | dsimp only | (refine Keeps.upd (by with_reducible assumption) ?_ ?_ <;> with_reducible rfl)

theorem enterAcquire_keeps {r s} (h : Keeps r s) : Keeps r (enterAcquire s) := by
  unfold enterAcquire; repeat' first | with_reducible assumption | with_reducible apply ite_keeps | with_reducible apply modTim_keeps | with_reducible apply setServo_keeps | split | (intro) | dsimp only | (refine Keeps.upd (by with_reducible assumption) ?_ ?_ <;> with_reducible rfl)

theorem firstSample_keeps {r x0 x1 s} (h : Keeps r s) : Keeps r (firstSample x0 x1 s) := by
  unfold firstSample; repeat' first | with_reducible assumption | with_reducible apply ite_keeps | with_reducible apply modTim_keeps | split | (intro) | dsimp only | (refine Keeps.upd (by with_reducible assumption) ?_ ?_ <;> with_reducible rfl)

theorem endFreeze_keeps {r s} (h : Keeps r s) : Keeps r (endFreeze s) := by
  unfold endFreeze; repeat' first | with_reducible assumption | with_reducible apply ite_keeps | with_reducible apply modTim_keeps | split | (intro) | dsimp only | (refine Keeps.upd (by with_reducible assumption) ?_ ?_ <;> with_reducible rfl)

theorem loopSample_keeps {r x0 x1 s} (h : Keeps r s) : Keeps r (loopSample x0 x1 s) := by
  unfold loopSample; repeat' first | with_reducible assumption | with_reducible apply ite_keeps | with_reducible apply modTim_keeps | with_reducible apply endFreeze_keeps | split | (intro) | dsimp only | (refine Keeps.upd (by with_reducible assumption) ?_ ?_ <;> with_reducible rfl)

theorem refSample_keeps {r x0 x1 s} (h : Keeps r s) : Keeps r (refSample x0 x1 s) := by
  unfold refSample; repeat' first | with_reducible assumption | with_reducible apply ite_keeps | with_reducible apply firstSample_keeps | with_reducible apply loopSample_keeps | with_reducible apply modTim_keeps | split | (intro) | dsimp only | (refine Keeps.upd (by with_reducible assumption) ?_ ?_ <;> with_reducible rfl)

theorem refEdge_keeps {r x0 x1 s} (h : Keeps r s) : Keeps r (refEdge x0 x1 s) := by
  unfold refEdge; repeat' first | with_reducible assumption | with_reducible apply ite_keeps | with_reducible apply setCounter_keeps | with_reducible apply refSample_keeps | with_reducible apply modTim_keeps | split | (intro) | dsimp only | (refine Keeps.upd (by with_reducible assumption) ?_ ?_ <;> with_reducible rfl)

theorem measureDiff_keeps {r s} (h : Keeps r s) : Keeps r (measureDiff s) := by
  unfold measureDiff; repeat' first | with_reducible assumption | with_reducible apply ite_keeps | with_reducible apply modTim_keeps | with_reducible apply refRecord_keeps | with_reducible apply timEvt_keeps | with_reducible apply refRecordDue_keeps | split | (intro) | dsimp only | (refine Keeps.upd (by with_reducible assumption) ?_ ?_ <;> with_reducible rfl)

theorem badFrame_keeps {r s} (h : Keeps r s) : Keeps r (badFrame s) := by
  unfold badFrame; repeat' first | with_reducible assumption | with_reducible apply ite_keeps | with_reducible apply refRecord_keeps | with_reducible apply timEvt_keeps | with_reducible apply modTim_keeps | with_reducible apply loseIrig_keeps | with_reducible apply refRecordDue_keeps | split | (intro) | dsimp only | (refine Keeps.upd (by with_reducible assumption) ?_ ?_ <;> with_reducible rfl)

theorem goodFrame_keeps {r x0 x1 x2 s} (h : Keeps r s) : Keeps r (goodFrame x0 x1 x2 s) := by
  unfold goodFrame; repeat' first | with_reducible assumption | with_reducible apply ite_keeps | with_reducible apply modTim_keeps | with_reducible apply refRecord_keeps | with_reducible apply refEdge_keeps | with_reducible apply refRecordDue_keeps | split | (intro) | dsimp only | (refine Keeps.upd (by with_reducible assumption) ?_ ?_ <;> with_reducible rfl)

theorem applyStep_keeps {r s} (h : Keeps r s) : Keeps r (applyStep s) := by
  unfold applyStep; repeat' first | with_reducible assumption | with_reducible apply ite_keeps | with_reducible apply loadCounter_keeps | with_reducible apply modTim_keeps | with_reducible apply timeRecord_keeps | with_reducible apply timEvt_keeps | split | (intro) | dsimp only | (refine Keeps.upd (by with_reducible assumption) ?_ ?_ <;> with_reducible rfl)

theorem takeLeap_keeps {r x0 s} (h : Keeps r s) : Keeps r (takeLeap x0 s) := by
  unfold takeLeap; repeat' first | (intro) | with_reducible assumption | with_reducible apply ite_keeps | with_reducible apply refRecord_keeps | with_reducible apply timEvt_keeps | with_reducible apply modTim_keeps | split | dsimp only | (refine Keeps.upd (by with_reducible assumption) ?_ ?_ <;> with_reducible rfl)

theorem fwLeap_keeps {r s} (h : Keeps r s) : Keeps r (fwLeap s) := by
  unfold fwLeap; repeat' first | (intro) | with_reducible assumption | with_reducible apply ite_keeps | with_reducible apply modTim_keeps | split | dsimp only | (refine Keeps.upd (by with_reducible assumption) ?_ ?_ <;> with_reducible rfl)

theorem applyLeap_keeps {r s} (h : Keeps r s) : Keeps r (applyLeap s) := by
  unfold applyLeap; repeat' first | with_reducible assumption | with_reducible apply ite_keeps | with_reducible apply refRecord_keeps | with_reducible apply timEvt_keeps | with_reducible apply modTim_keeps | with_reducible apply fwLeap_keeps | with_reducible apply takeLeap_keeps | split | (intro) | dsimp only | (refine Keeps.upd (by with_reducible assumption) ?_ ?_ <;> with_reducible rfl)

theorem switchRef_keeps {r s} (h : Keeps r s) : Keeps r (switchRef s) := by
  unfold switchRef; repeat' first | with_reducible assumption | with_reducible apply ite_keeps | with_reducible apply modTim_keeps | with_reducible apply refRecord_keeps | split | (intro) | dsimp only | (refine Keeps.upd (by with_reducible assumption) ?_ ?_ <;> with_reducible rfl)

theorem toFree_keeps {r s} (h : Keeps r s) : Keeps r (toFree s) := by
  unfold toFree; repeat' first | with_reducible assumption | with_reducible apply ite_keeps | with_reducible apply setServo_keeps | with_reducible apply modTim_keeps | split | (intro) | dsimp only | (refine Keeps.upd (by with_reducible assumption) ?_ ?_ <;> with_reducible rfl)

theorem toFreqOrFree_keeps {r s} (h : Keeps r s) : Keeps r (toFreqOrFree s) := by
  unfold toFreqOrFree; repeat' first | with_reducible assumption | with_reducible apply ite_keeps | with_reducible apply setServo_keeps | with_reducible apply modTim_keeps | with_reducible apply toFree_keeps | split | (intro) | dsimp only | (refine Keeps.upd (by with_reducible assumption) ?_ ?_ <;> with_reducible rfl)

theorem endHoldover_keeps {r s} (h : Keeps r s) : Keeps r (endHoldover s) := by
  unfold endHoldover; repeat' first | (intro) | with_reducible assumption | with_reducible apply ite_keeps | with_reducible apply toFreqOrFree_keeps | with_reducible apply setServo_keeps | split | dsimp only | (refine Keeps.upd (by with_reducible assumption) ?_ ?_ <;> with_reducible rfl)

theorem enterHoldover_keeps {r s} (h : Keeps r s) : Keeps r (enterHoldover s) := by
  unfold enterHoldover; repeat' first | with_reducible assumption | with_reducible apply ite_keeps | with_reducible apply setServo_keeps | with_reducible apply modTim_keeps | split | (intro) | dsimp only | (refine Keeps.upd (by with_reducible assumption) ?_ ?_ <;> with_reducible rfl)

theorem servoRules_keeps {r s} (h : Keeps r s) : Keeps r (servoRules s) := by
  unfold servoRules; repeat' first | with_reducible assumption | with_reducible apply ite_keeps | with_reducible apply enterAcquire_keeps | with_reducible apply toFree_keeps | with_reducible apply setServo_keeps | with_reducible apply modTim_keeps | with_reducible apply toFreqOrFree_keeps | with_reducible apply enterHoldover_keeps | split | (intro) | dsimp only | (refine Keeps.upd (by with_reducible assumption) ?_ ?_ <;> with_reducible rfl)

theorem startPps_keeps {r s} (h : Keeps r s) : Keeps r (startPps s) := by
  unfold startPps; repeat' first | with_reducible assumption | with_reducible apply ite_keeps | with_reducible apply modTim_keeps | split | (intro) | dsimp only | (refine Keeps.upd (by with_reducible assumption) ?_ ?_ <;> with_reducible rfl)

theorem startSbu_keeps {r x0 s} (h : Keeps r s) : Keeps r (startSbu x0 s) := by
  unfold startSbu; repeat' first | with_reducible assumption | with_reducible apply ite_keeps | with_reducible apply modTc_keeps | split | (intro) | dsimp only | (refine Keeps.upd (by with_reducible assumption) ?_ ?_ <;> with_reducible rfl)

theorem boundaryEffects_keeps {r s} (h : Keeps r s) : Keeps r (boundaryEffects s) := by
  unfold boundaryEffects; repeat' first | with_reducible assumption | with_reducible apply ite_keeps | with_reducible apply applyStep_keeps | with_reducible apply applyLeap_keeps | with_reducible apply servoRules_keeps | with_reducible apply switchRef_keeps | with_reducible apply startPps_keeps | with_reducible apply startSbu_keeps | with_reducible apply latchEv_keeps | with_reducible apply latchSup_keeps | with_reducible apply forEach_keeps | with_reducible apply postDue_keeps | split | (intro) | dsimp only | (refine Keeps.upd (by with_reducible assumption) ?_ ?_ <;> with_reducible rfl)

theorem secondTurn_keeps {r s} (h : Keeps r s) : Keeps r (secondTurn s) := by
  unfold secondTurn; repeat' first | with_reducible assumption | with_reducible apply ite_keeps | with_reducible apply boundaryEffects_keeps | with_reducible apply modTim_keeps | split | (intro) | dsimp only | (refine Keeps.upd (by with_reducible assumption) ?_ ?_ <;> with_reducible rfl)

end Sys2Proof.Machine
end

