-- ==== Sys2Proof/Laws/KeepsCpuOps.lean ====
section
/-!
SUPPORT. Laws/KeepsCpuOps.lean: every operation of Machine/CpuOps.lean leaves the queue of commands as it is and keeps memory canonical.
-/
namespace Sys2Proof.Machine

theorem eccLocal_to {r x0 s y0 t}  (e : eccLocal x0 s = (y0, t)) (h : Keeps r s) : Keeps r t := by
  unfold eccLocal at e; (repeat' first | split at e | dsimp only at e) <;> cases e <;> repeat' first | (intro) | with_reducible assumption | with_reducible apply ite_keeps | with_reducible apply raise_keeps | with_reducible apply eccFix_keeps | split | dsimp only | (refine Keeps.upd (by with_reducible assumption) ?_ ?_ <;> with_reducible rfl)

theorem reportBox_keeps {r x0 s} (h : Keeps r s) : Keeps r (reportBox x0 s) := by
  unfold reportBox; repeat' first | (intro) | with_reducible assumption | with_reducible apply ite_keeps | with_reducible apply raise_keeps | split | dsimp only | (refine Keeps.upd (by with_reducible assumption) ?_ ?_ <;> with_reducible rfl)

theorem receiverReset_keeps {r x0 s} (h : Keeps r s) : Keeps r (receiverReset x0 s) := by
  unfold receiverReset; repeat' first | (intro) | with_reducible assumption | with_reducible apply ite_keeps | with_reducible apply reportBox_keeps | with_reducible apply modBox_keeps | with_reducible apply latchEv_keeps | split | dsimp only | (refine Keeps.upd (by with_reducible assumption) ?_ ?_ <;> with_reducible rfl)

theorem senderReset_keeps {r x0 s} (h : Keeps r s) : Keeps r (senderReset x0 s) := by
  unfold senderReset; repeat' first | (intro) | with_reducible assumption | with_reducible apply ite_keeps | with_reducible apply reportBox_keeps | with_reducible apply modBox_keeps | split | dsimp only | (refine Keeps.upd (by with_reducible assumption) ?_ ?_ <;> with_reducible rfl)

theorem resendUp_keeps {r x0 s} (h : Keeps r s) : Keeps r (resendUp x0 s) := by
  unfold resendUp; repeat' first | (intro) | with_reducible assumption | with_reducible apply ite_keeps | with_reducible apply receiverReset_keeps | with_reducible apply modBud_keeps | with_reducible apply followStall_keeps | split | dsimp only | (refine Keeps.upd (by with_reducible assumption) ?_ ?_ <;> with_reducible rfl)

theorem supMailReset_keeps {r s} (h : Keeps r s) : Keeps r (supMailReset s) := by
  unfold supMailReset; repeat' first | (intro) | with_reducible assumption | with_reducible apply ite_keeps | with_reducible apply senderReset_keeps | with_reducible apply receiverReset_keeps | with_reducible apply resendUp_keeps | with_reducible apply pumpUp_keeps | with_reducible apply modBud_keeps | with_reducible apply forEach_keeps | split | dsimp only | (refine Keeps.upd (by with_reducible assumption) ?_ ?_ <;> with_reducible rfl)

theorem tileMailReset_keeps {r x0 s} (h : Keeps r s) : Keeps r (tileMailReset x0 s) := by
  unfold tileMailReset; repeat' first | (intro) | with_reducible assumption | with_reducible apply ite_keeps | with_reducible apply pumpDown_keeps | with_reducible apply senderReset_keeps | with_reducible apply receiverReset_keeps | split | dsimp only | (refine Keeps.upd (by with_reducible assumption) ?_ ?_ <;> with_reducible rfl)

theorem modSem_keeps {r x0 x1 s} (h : Keeps r s) : Keeps r (modSem x0 x1 s) := by
  unfold modSem; repeat' first | (intro) | with_reducible assumption | with_reducible apply ite_keeps | with_reducible apply modAcc_keeps | split | dsimp only | (refine Keeps.upd (by with_reducible assumption) ?_ ?_ <;> with_reducible rfl)

theorem semRead_to {r x0 x1 s y0 t}  (e : semRead x0 x1 s = (y0, t)) (h : Keeps r s) : Keeps r t := by
  unfold semRead at e; (repeat' first | split at e | dsimp only at e) <;> cases e <;> repeat' first | (intro) | with_reducible assumption | with_reducible apply ite_keeps | with_reducible apply modSem_keeps | split | dsimp only | (refine Keeps.upd (by with_reducible assumption) ?_ ?_ <;> with_reducible rfl)

theorem semWrite_keeps {r x0 x1 x2 s} (h : Keeps r s) : Keeps r (semWrite x0 x1 x2 s) := by
  unfold semWrite; repeat' first | (intro) | with_reducible assumption | with_reducible apply ite_keeps | with_reducible apply modSem_keeps | split | dsimp only | (refine Keeps.upd (by with_reducible assumption) ?_ ?_ <;> with_reducible rfl)

theorem semForce_keeps {r x0 s} (h : Keeps r s) : Keeps r (semForce x0 s) := by
  unfold semForce; repeat' first | (intro) | with_reducible assumption | with_reducible apply ite_keeps | with_reducible apply modSem_keeps | split | dsimp only | (refine Keeps.upd (by with_reducible assumption) ?_ ?_ <;> with_reducible rfl)

theorem supSemReset_keeps {r s} (h : Keeps r s) : Keeps r (supSemReset s) := by
  unfold supSemReset; repeat' first | (intro) | with_reducible assumption | with_reducible apply ite_keeps | with_reducible apply modSem_keeps | with_reducible apply forEach_keeps | split | dsimp only | (refine Keeps.upd (by with_reducible assumption) ?_ ?_ <;> with_reducible rfl)

theorem endWait_keeps {r x0 x1 x2 s} (h : Keeps r s) : Keeps r (endWait x0 x1 x2 s) := by
  unfold endWait; repeat' first | (intro) | with_reducible assumption | with_reducible apply ite_keeps | with_reducible apply modCpu_keeps | split | dsimp only | (refine Keeps.upd (by with_reducible assumption) ?_ ?_ <;> with_reducible rfl)

theorem endSupWait_keeps {r s} (h : Keeps r s) : Keeps r (endSupWait s) := by
  unfold endSupWait; repeat' first | (intro) | with_reducible assumption | with_reducible apply ite_keeps | with_reducible apply latchSup_keeps | with_reducible apply endWait_keeps | split | dsimp only | (refine Keeps.upd (by with_reducible assumption) ?_ ?_ <;> with_reducible rfl)

theorem modTimer_keeps {r x0 x1 x2 s} (h : Keeps r s) : Keeps r (modTimer x0 x1 x2 s) := by
  unfold modTimer; repeat' first | (intro) | with_reducible assumption | with_reducible apply ite_keeps | with_reducible apply modCpu_keeps | split | dsimp only | (refine Keeps.upd (by with_reducible assumption) ?_ ?_ <;> with_reducible rfl)

theorem timerDone_keeps {r x0 x1 s} (h : Keeps r s) : Keeps r (timerDone x0 x1 s) := by
  unfold timerDone; repeat' first | (intro) | with_reducible assumption | with_reducible apply ite_keeps | refine takeStamp_to (by with_reducible assumption) ?_ | with_reducible refine takeStamp_to rfl ?_ | with_reducible apply modCpu_keeps | with_reducible apply modTimer_keeps | split | dsimp only | (refine Keeps.upd (by with_reducible assumption) ?_ ?_ <;> with_reducible rfl)

theorem timerWins_keeps {r x0 x1 s} (h : Keeps r s) : Keeps r (timerWins x0 x1 s) := by
  unfold timerWins; repeat' first | with_reducible assumption | with_reducible apply ite_keeps | with_reducible apply modCpu_keeps | with_reducible apply modTimer_keeps | split | (intro) | dsimp only | (refine Keeps.upd (by with_reducible assumption) ?_ ?_ <;> with_reducible rfl)

theorem timerStart_keeps {r x0 x1 x2 s} (h : Keeps r s) : Keeps r (timerStart x0 x1 x2 s) := by
  unfold timerStart; repeat' first | (intro) | with_reducible assumption | with_reducible apply ite_keeps | with_reducible apply timerDone_keeps | with_reducible apply modTimer_keeps | with_reducible apply timerWins_keeps | split | dsimp only | (refine Keeps.upd (by with_reducible assumption) ?_ ?_ <;> with_reducible rfl)

theorem timerStop_keeps {r x0 x1 s} (h : Keeps r s) : Keeps r (timerStop x0 x1 s) := by
  unfold timerStop; repeat' first | with_reducible assumption | with_reducible apply ite_keeps | with_reducible apply modTimer_keeps | with_reducible apply timerWins_keeps | split | (intro) | dsimp only | (refine Keeps.upd (by with_reducible assumption) ?_ ?_ <;> with_reducible rfl)

theorem dropWords_keeps {r x0 s} (h : Keeps r s) : Keeps r (dropWords x0 s) := by
  unfold dropWords; repeat' first | (intro) | with_reducible assumption | with_reducible apply ite_keeps | with_reducible apply modBud_keeps | split | dsimp only | (refine Keeps.upd (by with_reducible assumption) ?_ ?_ <;> with_reducible rfl)

theorem restartThread_keeps {r x0 s} (h : Keeps r s) : Keeps r (restartThread x0 s) := by
  unfold restartThread; repeat' first | (intro) | with_reducible assumption | with_reducible apply ite_keeps | with_reducible apply modThr_keeps | with_reducible apply modTile_keeps | with_reducible apply dropWords_keeps | with_reducible apply startPolicy_keeps | split | dsimp only | (refine Keeps.upd (by with_reducible assumption) ?_ ?_ <;> with_reducible rfl)

theorem runThread_keeps {r x0 s} (h : Keeps r s) : Keeps r (runThread x0 s) := by
  unfold runThread; repeat' first | with_reducible assumption | with_reducible apply ite_keeps | with_reducible apply catchUp_keeps | with_reducible apply followStall_keeps | with_reducible apply modThr_keeps | with_reducible apply pumpUp_keeps | with_reducible apply startPolicy_keeps | split | (intro) | dsimp only | (refine Keeps.upd (by with_reducible assumption) ?_ ?_ <;> with_reducible rfl)

theorem setRun_keeps {r x0 x1 s} (h : Keeps r s) : Keeps r (setRun x0 x1 s) := by
  unfold setRun; repeat' first | (intro) | with_reducible assumption | with_reducible apply ite_keeps | with_reducible apply startPolicy_keeps | with_reducible apply modThr_keeps | with_reducible apply dropWords_keeps | with_reducible apply runThread_keeps | split | dsimp only | (refine Keeps.upd (by with_reducible assumption) ?_ ?_ <;> with_reducible rfl)

theorem threadCtl_keeps {r x0 x1 x2 s} (h : Keeps r s) : Keeps r (threadCtl x0 x1 x2 s) := by
  unfold threadCtl; repeat' first | with_reducible assumption | with_reducible apply ite_keeps | with_reducible apply restartThread_keeps | with_reducible apply setRun_keeps | (refine onlyIf_keeps (fun _ h => ?_) ?_) | split | (intro) | dsimp only | (refine Keeps.upd (by with_reducible assumption) ?_ ?_ <;> with_reducible rfl)

theorem writeTileCtl_keeps {r x0 x1 s} (h : Keeps r s) : Keeps r (writeTileCtl x0 x1 s) := by
  unfold writeTileCtl; repeat' first | (intro) | with_reducible assumption | with_reducible apply ite_keeps | with_reducible apply restartThread_keeps | with_reducible apply setRun_keeps | with_reducible apply forEach_keeps | with_reducible apply threadCtl_keeps | split | dsimp only | (refine Keeps.upd (by with_reducible assumption) ?_ ?_ <;> with_reducible rfl)

theorem hwRestart_keeps {r x0 s} (h : Keeps r s) : Keeps r (hwRestart x0 s) := by
  unfold hwRestart; repeat' first | (intro) | with_reducible assumption | with_reducible apply ite_keeps | with_reducible apply raiseLine_keeps | with_reducible apply dropWords_keeps | with_reducible apply modThr_keeps | with_reducible apply restartThread_keeps | split | dsimp only | (refine Keeps.upd (by with_reducible assumption) ?_ ?_ <;> with_reducible rfl)

end Sys2Proof.Machine
end

