-- ==== Sys2Proof/Laws/KeepsPowerStateOps.lean ====
section
/-!
SUPPORT. Laws/KeepsPowerStateOps.lean: every operation of Machine/PowerStateOps.lean leaves the queue of commands as it is and keeps memory canonical.
-/
namespace Sys2Proof.Machine

theorem setRetWord_keeps {r x0 x1 s} (h : Keeps r s) : Keeps r (setRetWord x0 x1 s) := by
  unfold setRetWord; repeat' first | (intro) | with_reducible assumption | with_reducible apply ite_keeps | with_reducible apply eccStore_keeps | split | dsimp only | (refine Keeps.upd (by with_reducible assumption) ?_ ?_ <;> with_reducible rfl) | (refine Keeps.updMem (by with_reducible assumption) ?_ ?_ <;> first | exact memPutWord_wf _ _ | exact memPutBytes_wf _ _ | exact memPut_wf _ _ | exact memClear_wf _ | with_reducible rfl)

theorem setRetWords_keeps {r x0 x1 s} (h : Keeps r s) : Keeps r (setRetWords x0 x1 s) := by
  induction x1 generalizing x0 s with
  | nil => exact h
  | cons v vs ih => exact ih (setRetWord_keeps h)

theorem countRefusal_keeps {r x0 x1 s} (h : Keeps r s) : Keeps r (countRefusal x0 x1 s) := by
  unfold countRefusal; repeat' first | (intro) | with_reducible assumption | with_reducible apply ite_keeps | with_reducible apply modCrp_keeps | split | dsimp only | (refine Keeps.upd (by with_reducible assumption) ?_ ?_ <;> with_reducible rfl) | (refine Keeps.updMem (by with_reducible assumption) ?_ ?_ <;> first | exact memPutWord_wf _ _ | exact memPutBytes_wf _ _ | exact memPut_wf _ _ | exact memClear_wf _ | with_reducible rfl)

theorem refuseEntry_keeps {r x0 x1 x2 s} (h : Keeps r s) : Keeps r (refuseEntry x0 x1 x2 s) := by
  unfold refuseEntry; repeat' first | (intro) | with_reducible assumption | with_reducible apply ite_keeps | with_reducible apply endSupWait_keeps | with_reducible apply postHub_keeps | with_reducible apply countRefusal_keeps | split | dsimp only | (refine Keeps.upd (by with_reducible assumption) ?_ ?_ <;> with_reducible rfl) | (refine Keeps.updMem (by with_reducible assumption) ?_ ?_ <;> first | exact memPutWord_wf _ _ | exact memPutBytes_wf _ _ | exact memPut_wf _ _ | exact memClear_wf _ | with_reducible rfl)

theorem saveImage_keeps {r x0 s} (h : Keeps r s) : Keeps r (saveImage x0 s) := by
  unfold saveImage; repeat' first | (intro) | with_reducible assumption | with_reducible apply ite_keeps | with_reducible apply freeTt_keeps | with_reducible apply setRetWords_keeps | with_reducible apply forEach_keeps | split | dsimp only | (refine Keeps.upd (by with_reducible assumption) ?_ ?_ <;> with_reducible rfl) | (refine Keeps.updMem (by with_reducible assumption) ?_ ?_ <;> first | exact memPutWord_wf _ _ | exact memPutBytes_wf _ _ | exact memPut_wf _ _ | exact memClear_wf _ | with_reducible rfl)

theorem sinkTx_keeps {r x0 s} (h : Keeps r s) : Keeps r (sinkTx x0 s) := by
  unfold sinkTx; repeat' first | (intro) | with_reducible assumption | with_reducible apply ite_keeps | with_reducible apply setRp_keeps | with_reducible apply forEach_keeps | split | dsimp only | (refine Keeps.upd (by with_reducible assumption) ?_ ?_ <;> with_reducible rfl) | (refine Keeps.updMem (by with_reducible assumption) ?_ ?_ <;> first | exact memPutWord_wf _ _ | exact memPutBytes_wf _ _ | exact memPut_wf _ _ | exact memClear_wf _ | with_reducible rfl)

theorem feedOff_keeps {r x0 s} (h : Keeps r s) : Keeps r (feedOff x0 s) := by
  unfold feedOff; repeat' first | with_reducible assumption | with_reducible apply ite_keeps | with_reducible apply feedDisable_keeps | (refine onlyIf_keeps (fun _ h => ?_) ?_) | split | (intro) | dsimp only | (refine Keeps.upd (by with_reducible assumption) ?_ ?_ <;> with_reducible rfl)

theorem commitEntry_keeps {r x0 s} (h : Keeps r s) : Keeps r (commitEntry x0 s) := by
  have h' {c : Bool} {f : Pwr → Pwr} {g : Crp → Crp} : Keeps r (modCrp g (onlyIf c (modPwr f) (takeStamp none s).2)) :=
    modCrp_keeps (onlyIf_keeps (fun _ h => modPwr_keeps h) (takeStamp_to (x0 := none) rfl h))
  unfold commitEntry
  dsimp only
  split
  · exact route_keeps (sinkTx_keeps h')
  · exact saveImage_keeps (sinkTx_keeps h')
  · refine forEach_keeps (fun _ t ht => ite_keeps (detachTeam_keeps ht) ht) ?_
    refine forEach_keeps (fun _ t ht => feedOff_keeps ht) ?_
    exact forEach_keeps (fun _ t ht => modTc_keeps (keeperNone_keeps ht)) (route_keeps h')

theorem requestEntry_keeps {r x0 x1 s} (h : Keeps r s) : Keeps r (requestEntry x0 x1 s) := by
  unfold requestEntry; repeat' first | (intro) | with_reducible assumption | with_reducible apply ite_keeps | with_reducible apply refuseEntry_keeps | (refine allEv_keeps (fun _ h => commitEntry_keeps h) ?_) | split | dsimp only | (refine Keeps.upd (by with_reducible assumption) ?_ ?_ <;> with_reducible rfl) | (refine Keeps.updMem (by with_reducible assumption) ?_ ?_ <;> first | exact memPutWord_wf _ _ | exact memPutBytes_wf _ _ | exact memPut_wf _ _ | exact memClear_wf _ | with_reducible rfl)

theorem abortEntry_keeps {r x0 s} (h : Keeps r s) : Keeps r (abortEntry x0 s) := by
  unfold abortEntry; repeat' first | (intro) | with_reducible assumption | with_reducible apply ite_keeps | with_reducible apply countRefusal_keeps | with_reducible apply modCrp_keeps | with_reducible apply sinkTx_keeps | with_reducible apply endSupWait_keeps | with_reducible apply postHub_keeps | with_reducible apply modPwr_keeps | split | dsimp only | (refine Keeps.upd (by with_reducible assumption) ?_ ?_ <;> with_reducible rfl) | (refine Keeps.updMem (by with_reducible assumption) ?_ ?_ <;> first | exact memPutWord_wf _ _ | exact memPutBytes_wf _ _ | exact memPut_wf _ _ | exact memClear_wf _ | with_reducible rfl)

theorem latchWake_keeps {r x0 s} (h : Keeps r s) : Keeps r (latchWake x0 s) := by
  unfold latchWake; repeat' first | (intro) | with_reducible assumption | with_reducible apply ite_keeps | with_reducible apply modCrp_keeps | split | dsimp only | (refine Keeps.upd (by with_reducible assumption) ?_ ?_ <;> with_reducible rfl) | (refine Keeps.updMem (by with_reducible assumption) ?_ ?_ <;> first | exact memPutWord_wf _ _ | exact memPutBytes_wf _ _ | exact memPut_wf _ _ | exact memClear_wf _ | with_reducible rfl)

theorem actWake_keeps {r x0 s} (h : Keeps r s) : Keeps r (actWake x0 s) := by
  unfold actWake; repeat' first | (intro) | with_reducible assumption | with_reducible apply ite_keeps | with_reducible apply startWake_keeps | split | dsimp only | (refine Keeps.upd (by with_reducible assumption) ?_ ?_ <;> with_reducible rfl) | (refine Keeps.updMem (by with_reducible assumption) ?_ ?_ <;> first | exact memPutWord_wf _ _ | exact memPutBytes_wf _ _ | exact memPut_wf _ _ | exact memClear_wf _ | with_reducible rfl)

theorem raiseCore_keeps {r s} (h : Keeps r s) : Keeps r (raiseCore s) := by
  unfold raiseCore; repeat' first | (intro) | with_reducible assumption | with_reducible apply ite_keeps | with_reducible apply modPwr_keeps | with_reducible apply modCrp_keeps | split | dsimp only | (refine Keeps.upd (by with_reducible assumption) ?_ ?_ <;> with_reducible rfl) | (refine Keeps.updMem (by with_reducible assumption) ?_ ?_ <;> first | exact memPutWord_wf _ _ | exact memPutBytes_wf _ _ | exact memPut_wf _ _ | exact memClear_wf _ | with_reducible rfl)

theorem completeWake_keeps {r x0 s} (h : Keeps r s) : Keeps r (completeWake x0 s) := by
  unfold completeWake; repeat' first | (intro) | with_reducible assumption | with_reducible apply ite_keeps | with_reducible apply modCrp_keeps | with_reducible apply sinkTx_keeps | with_reducible apply postHub_keeps | split | dsimp only | (refine Keeps.upd (by with_reducible assumption) ?_ ?_ <;> with_reducible rfl) | (refine Keeps.updMem (by with_reducible assumption) ?_ ?_ <;> first | exact memPutWord_wf _ _ | exact memPutBytes_wf _ _ | exact memPut_wf _ _ | exact memClear_wf _ | with_reducible rfl)

theorem restoreTeam_keeps {r x0 s} (h : Keeps r s) : Keeps r (restoreTeam x0 s) := by
  unfold restoreTeam; repeat' first | (intro) | with_reducible assumption | with_reducible apply ite_keeps | with_reducible apply modTeam_keeps | with_reducible apply modHub_keeps | with_reducible apply forEach_keeps | with_reducible apply detachTeam_keeps | split | dsimp only | (refine Keeps.upd (by with_reducible assumption) ?_ ?_ <;> with_reducible rfl) | (refine Keeps.updMem (by with_reducible assumption) ?_ ?_ <;> first | exact memPutWord_wf _ _ | exact memPutBytes_wf _ _ | exact memPut_wf _ _ | exact memClear_wf _ | with_reducible rfl)

theorem restoreImage_keeps {r s} (h : Keeps r s) : Keeps r (restoreImage s) := by
  unfold restoreImage; repeat' first | (intro) | with_reducible assumption | with_reducible apply ite_keeps | with_reducible apply bootPortTeam_keeps | with_reducible apply modBp_keeps | with_reducible apply modBud_keeps | with_reducible apply modTim_keeps | with_reducible apply modAcc_keeps | with_reducible apply modBoot_keeps | with_reducible apply restoreTeam_keeps | with_reducible apply forEach_keeps | split | dsimp only | (refine Keeps.upd (by with_reducible assumption) ?_ ?_ <;> with_reducible rfl) | (refine Keeps.updMem (by with_reducible assumption) ?_ ?_ <;> first | exact memPutWord_wf _ _ | exact memPutBytes_wf _ _ | exact memPut_wf _ _ | exact memClear_wf _ | with_reducible rfl)

theorem checkBanks_keeps {r s} (h : Keeps r s) : Keeps r (checkBanks s) := by
  unfold checkBanks; repeat' first | (intro) | with_reducible assumption | with_reducible apply ite_keeps | with_reducible apply modCrp_keeps | with_reducible apply postHub_keeps | with_reducible apply raise_keeps | with_reducible apply forEach_keeps | with_reducible apply fixWords_keeps | split | dsimp only | (refine Keeps.upd (by with_reducible assumption) ?_ ?_ <;> with_reducible rfl) | (refine Keeps.updMem (by with_reducible assumption) ?_ ?_ <;> first | exact memPutWord_wf _ _ | exact memPutBytes_wf _ _ | exact memPut_wf _ _ | exact memClear_wf _ | with_reducible rfl)

theorem postImage_keeps {r s} (h : Keeps r s) : Keeps r (postImage s) := by
  unfold postImage; repeat' first | (intro) | with_reducible assumption | with_reducible apply ite_keeps | with_reducible apply pushRecord_keeps | with_reducible apply postPortAt_keeps | with_reducible apply forEach_keeps | split | dsimp only | (refine Keeps.upd (by with_reducible assumption) ?_ ?_ <;> with_reducible rfl) | (refine Keeps.updMem (by with_reducible assumption) ?_ ?_ <;> first | exact memPutWord_wf _ _ | exact memPutBytes_wf _ _ | exact memPut_wf _ _ | exact memClear_wf _ | with_reducible rfl)

end Sys2Proof.Machine
end

