-- ==== Sys2Proof/Laws/KeepsSlotOps.lean ====
section
/-!
SUPPORT. Laws/KeepsSlotOps.lean: every operation of Machine/SlotOps.lean leaves the queue of commands as it is and keeps memory canonical.
-/
namespace Sys2Proof.Machine

theorem tornEntry_keeps {r x0 s} (h : Keeps r s) : Keeps r (tornEntry x0 s) := by
  unfold tornEntry
  split
  · exact h
  · exact flashWrite_keeps (drawNat_to rfl h)

theorem writeEntry_to {r x0 x1 s y0 t} (e : writeEntry x0 x1 s = (y0, t)) (h : Keeps r s) : Keeps r t := by
  unfold writeEntry at e
  split at e
  · cases e
    exact tornEntry_keeps h
  · split at e <;> cases e
    · exact h
    · exact modBoot_keeps (flashWrite_keeps h)

theorem tearCommit_keeps {r  s} (h : Keeps r s) : Keeps r (tearCommit  s) := by
  unfold tearCommit
  exact ite_keeps (tornEntry_keeps h) h

end Sys2Proof.Machine
end

