-- ==== Sys2Proof/Laws/KeepsResetOps.lean ====
section
/-!
SUPPORT. Laws/KeepsResetOps.lean: every operation of Machine/ResetOps.lean leaves the queue of commands as it is and keeps memory canonical.
-/
namespace Sys2Proof.Machine

theorem resetDie_keeps {r x0 x1 s} (h : Keeps r s) : Keeps r (resetDie x0 x1 s) := by
  unfold resetDie
  refine Keeps.updMem h (fun w => ?_) rfl
  dsimp only
  exact memClear_wf _ w

theorem recordCause_keeps {r x0 s} (h : Keeps r s) : Keeps r (recordCause x0 s) := by
  unfold recordCause; repeat' first | (intro) | with_reducible assumption | with_reducible apply ite_keeps | with_reducible apply modCrp_keeps | split | dsimp only | (refine Keeps.upd (by with_reducible assumption) ?_ ?_ <;> with_reducible rfl) | (refine Keeps.updMem (by with_reducible assumption) ?_ ?_ <;> first | exact memPutWord_wf _ _ | exact memPutBytes_wf _ _ | exact memPut_wf _ _ | exact memClear_wf _ | with_reducible rfl)

theorem countReset_keeps {r s} (h : Keeps r s) : Keeps r (countReset s) := by
  unfold countReset; repeat' first | (intro) | with_reducible assumption | with_reducible apply ite_keeps | with_reducible apply modCrp_keeps | split | dsimp only | (refine Keeps.upd (by with_reducible assumption) ?_ ?_ <;> with_reducible rfl) | (refine Keeps.updMem (by with_reducible assumption) ?_ ?_ <;> first | exact memPutWord_wf _ _ | exact memPutBytes_wf _ _ | exact memPut_wf _ _ | exact memClear_wf _ | with_reducible rfl)

theorem doChipReset_keeps {r x0 x1 s} (h : Keeps r s) : Keeps r (doChipReset x0 x1 s) := by
  unfold doChipReset; repeat' first | (intro) | with_reducible assumption | with_reducible apply ite_keeps | with_reducible apply countReset_keeps | with_reducible apply resetDie_keeps | with_reducible apply modPwr_keeps | with_reducible apply modCrp_keeps | with_reducible apply tearCommit_keeps | split | dsimp only | (refine Keeps.upd (by with_reducible assumption) ?_ ?_ <;> with_reducible rfl) | (refine Keeps.updMem (by with_reducible assumption) ?_ ?_ <;> first | exact memPutWord_wf _ _ | exact memPutBytes_wf _ _ | exact memPut_wf _ _ | exact memClear_wf _ | with_reducible rfl)

theorem chipReset_keeps {r x0 s} (h : Keeps r s) : Keeps r (chipReset x0 s) := by
  unfold chipReset; repeat' first | (intro) | with_reducible assumption | with_reducible apply ite_keeps | with_reducible apply recordCause_keeps | with_reducible apply doChipReset_keeps | split | dsimp only | (refine Keeps.upd (by with_reducible assumption) ?_ ?_ <;> with_reducible rfl) | (refine Keeps.updMem (by with_reducible assumption) ?_ ?_ <;> first | exact memPutWord_wf _ _ | exact memPutBytes_wf _ _ | exact memPut_wf _ _ | exact memClear_wf _ | with_reducible rfl)

theorem vrimReset_keeps {r s} (h : Keeps r s) : Keeps r (vrimReset s) := by
  unfold vrimReset
  refine Keeps.updMem (tearCommit_keeps h) (fun w => ?_) rfl
  dsimp only
  exact memClear_wf _ w

theorem resetOff_keeps {r s} (h : Keeps r s) : Keeps r (resetOff s) := Keeps.upd (resetDie_keeps (x0 := false) (x1 := false) h) rfl rfl

theorem cutPorts_keeps {r x0 s} (h : Keeps r s) : Keeps r (cutPorts x0 s) := by
  unfold cutPorts; repeat' first | (intro) | with_reducible assumption | with_reducible apply ite_keeps | with_reducible apply syncHub_keeps | with_reducible apply stopServing_keeps | with_reducible apply modHub_keeps | with_reducible apply forEach_keeps | split | dsimp only | (refine Keeps.upd (by with_reducible assumption) ?_ ?_ <;> with_reducible rfl) | (refine Keeps.updMem (by with_reducible assumption) ?_ ?_ <;> first | exact memPutWord_wf _ _ | exact memPutBytes_wf _ _ | exact memPut_wf _ _ | exact memClear_wf _ | with_reducible rfl)

theorem joinPorts_keeps {r x0 s} (h : Keeps r s) : Keeps r (joinPorts x0 s) := by
  unfold joinPorts; repeat' first | (intro) | with_reducible assumption | with_reducible apply ite_keeps | with_reducible apply syncHub_keeps | with_reducible apply modHub_keeps | with_reducible apply forEach_keeps | split | dsimp only | (refine Keeps.upd (by with_reducible assumption) ?_ ?_ <;> with_reducible rfl) | (refine Keeps.updMem (by with_reducible assumption) ?_ ?_ <;> first | exact memPutWord_wf _ _ | exact memPutBytes_wf _ _ | exact memPut_wf _ _ | exact memClear_wf _ | with_reducible rfl)

theorem tileReset_keeps {r x0 s} (h : Keeps r s) : Keeps r (tileReset x0 s) := by
  unfold tileReset
  dsimp only
  refine tileMailReset_keeps ?_
  generalize hs : forEach (portsOf x0) _ _ = y
  have h1 : Keeps r y := hs ▸ forEach_keeps (fun _ _ ht => dropWords_keeps (abortSeq_keeps (modPort_keeps ht)))
    (modTile_keeps (cutPorts_keeps h))
  exact ⟨h1.1, h1.2⟩

theorem trainedLane_keeps {r x0 s} (h : Keeps r s) : Keeps r (trainedLane x0 s).2 := by
  unfold trainedLane drawNat
  dsimp only
  split
  · exact h
  · exact Keeps.upd h rfl rfl

theorem tileReadyNow_keeps {r x0 s} (h : Keeps r s) : Keeps r (tileReadyNow x0 s) := by
  unfold tileReadyNow; repeat' first | with_reducible apply trainedLane_keeps | (intro) | with_reducible assumption | with_reducible apply ite_keeps | with_reducible apply joinPorts_keeps | with_reducible apply modTile_keeps | with_reducible refine drawNat_to rfl ?_ | split | dsimp only | (refine Keeps.upd (by with_reducible assumption) ?_ ?_ <;> with_reducible rfl) | (refine Keeps.updMem (by with_reducible assumption) ?_ ?_ <;> first | exact memPutWord_wf _ _ | exact memPutBytes_wf _ _ | exact memPut_wf _ _ | exact memClear_wf _ | with_reducible rfl)

theorem isolateTile_keeps {r x0 s} (h : Keeps r s) : Keeps r (isolateTile x0 s) := by
  unfold isolateTile; repeat' first | (intro) | with_reducible assumption | with_reducible apply ite_keeps | with_reducible apply modTile_keeps | with_reducible apply cutPorts_keeps | with_reducible apply modAcc_keeps | split | dsimp only | (refine Keeps.upd (by with_reducible assumption) ?_ ?_ <;> with_reducible rfl) | (refine Keeps.updMem (by with_reducible assumption) ?_ ?_ <;> first | exact memPutWord_wf _ _ | exact memPutBytes_wf _ _ | exact memPut_wf _ _ | exact memClear_wf _ | with_reducible rfl)

end Sys2Proof.Machine
end

