-- ==== Sys2Proof/Laws/KeepsFaultOps.lean ====
section
/-!
SUPPORT. Laws/KeepsFaultOps.lean: every operation of Machine/FaultOps.lean leaves the queue of commands as it is and keeps memory canonical.
-/
namespace Sys2Proof.Machine

theorem readEntry_keeps {r x0 s} (h : Keeps r s) : Keeps r (readEntry x0 s) := by
  unfold readEntry; repeat' first | with_reducible assumption | with_reducible apply ite_keeps | with_reducible apply modFlt_keeps | split | (intro) | dsimp only | (refine Keeps.upd (by with_reducible assumption) ?_ ?_ <;> with_reducible rfl)

theorem drawWords_to {r x0 s y0 t}  (e : drawWords x0 s = (y0, t)) (h : Keeps r s) : Keeps r t := by
  induction x0 generalizing s y0 with
  | zero => cases e; exact h
  | succ n ih =>
    cases e
    exact ih rfl (drawWord_to rfl h)

theorem readDump_keeps {r  s} (h : Keeps r s) : Keeps r (readDump  s) := by
  unfold readDump; repeat' first | with_reducible assumption | with_reducible apply ite_keeps | with_reducible apply fixWords_keeps | split | (intro) | dsimp only | (refine Keeps.upd (by with_reducible assumption) ?_ ?_ <;> with_reducible rfl)

theorem coreBWords_to {r x0 s y0 t} (e : coreBWords x0 s = (y0, t)) (h : Keeps r s) : Keeps r t := by
  unfold coreBWords at e
  split at e
  · exact drawWords_to e h
  · cases e
    exact h

theorem hwDump_keeps {r x0 x1 x2 x3 s} (h : Keeps r s) : Keeps r (hwDump x0 x1 x2 x3 s) := by
  have h' := readDump_keeps h
  unfold hwDump
  dsimp only
  split
  · exact setRetWord_keeps (setRetWord_keeps h')
  · exact setRetWord_keeps (setRetWord_keeps (setRetWords_keeps
      (coreBWords_to rfl (forEach_keeps (fun _ _ h => readEntry_keeps h) (modCrp_keeps h')))))

theorem stopWindow_keeps {r s} (h : Keeps r s) : Keeps r (stopWindow s) := by
  unfold stopWindow; repeat' first | (intro) | with_reducible assumption | with_reducible apply ite_keeps | with_reducible apply modBoot_keeps | split | dsimp only | (refine Keeps.upd (by with_reducible assumption) ?_ ?_ <;> with_reducible rfl) | (refine Keeps.updMem (by with_reducible assumption) ?_ ?_ <;> first | exact memPutWord_wf _ _ | exact memPutBytes_wf _ _ | exact memPut_wf _ _ | exact memClear_wf _ | with_reducible rfl)

theorem supPartyReset_keeps {r s} (h : Keeps r s) : Keeps r (supPartyReset s) := by
  unfold supPartyReset; repeat' first | (intro) | with_reducible assumption | with_reducible apply ite_keeps | with_reducible apply supSemReset_keeps | with_reducible apply supMailReset_keeps | with_reducible apply endHold_keeps | with_reducible apply forEach_keeps | split | dsimp only | (refine Keeps.upd (by with_reducible assumption) ?_ ?_ <;> with_reducible rfl) | (refine Keeps.updMem (by with_reducible assumption) ?_ ?_ <;> first | exact memPutWord_wf _ _ | exact memPutBytes_wf _ _ | exact memPut_wf _ _ | exact memClear_wf _ | with_reducible rfl)

theorem coldSup_keeps {r s} (h : Keeps r s) : Keeps r (coldSup s) :=
  Keeps.upd (modBoot_keeps (x0 := fun b => { b with act := none }) h) rfl rfl

theorem enterSafe_keeps {r x0 x1 s} (h : Keeps r s) : Keeps r (enterSafe x0 x1 s) := by
  unfold enterSafe; repeat' first | (intro) | with_reducible assumption | with_reducible apply ite_keeps | with_reducible apply modFlt_keeps | with_reducible apply coldSup_keeps | with_reducible apply supPartyReset_keeps | with_reducible apply hwDump_keeps | with_reducible apply setRun_keeps | with_reducible apply stopWindow_keeps | with_reducible apply forEach_keeps | split | dsimp only | (refine Keeps.upd (by with_reducible assumption) ?_ ?_ <;> with_reducible rfl) | (refine Keeps.updMem (by with_reducible assumption) ?_ ?_ <;> first | exact memPutWord_wf _ _ | exact memPutBytes_wf _ _ | exact memPut_wf _ _ | exact memClear_wf _ | with_reducible rfl)

theorem warmRestart_keeps {r x0 x1 s} (h : Keeps r s) : Keeps r (warmRestart x0 x1 s) := by
  unfold warmRestart; repeat' first | (intro) | with_reducible assumption | with_reducible apply ite_keeps | with_reducible apply enterSafe_keeps | with_reducible apply modFlt_keeps | with_reducible apply hwDump_keeps | with_reducible apply coldSup_keeps | with_reducible apply supPartyReset_keeps | with_reducible apply modBoot_keeps | split | dsimp only | (refine Keeps.upd (by with_reducible assumption) ?_ ?_ <;> with_reducible rfl) | (refine Keeps.updMem (by with_reducible assumption) ?_ ?_ <;> first | exact memPutWord_wf _ _ | exact memPutBytes_wf _ _ | exact memPut_wf _ _ | exact memClear_wf _ | with_reducible rfl)

theorem blockReset_keeps {r x0 x1 s} (h : Keeps r s) : Keeps r (blockReset x0 x1 s) := by
  unfold blockReset; repeat' first | (intro) | with_reducible assumption | with_reducible apply ite_keeps | with_reducible apply tileReset_keeps | with_reducible apply restartThread_keeps | with_reducible apply resetTt_keeps | with_reducible apply flushQueue_keeps | with_reducible apply warmRestart_keeps | split | dsimp only | (refine Keeps.upd (by with_reducible assumption) ?_ ?_ <;> with_reducible rfl) | (refine Keeps.updMem (by with_reducible assumption) ?_ ?_ <;> first | exact memPutWord_wf _ _ | exact memPutBytes_wf _ _ | exact memPut_wf _ _ | exact memClear_wf _ | with_reducible rfl)

theorem engineTake_keeps {r s} (h : Keeps r s) : Keeps r (engineTake s) := by
  unfold engineTake; repeat' first | (intro) | with_reducible assumption | with_reducible apply ite_keeps | with_reducible apply modFlt_keeps | split | dsimp only | (refine Keeps.upd (by with_reducible assumption) ?_ ?_ <;> with_reducible rfl) | (refine Keeps.updMem (by with_reducible assumption) ?_ ?_ <;> first | exact memPutWord_wf _ _ | exact memPutBytes_wf _ _ | exact memPut_wf _ _ | exact memClear_wf _ | with_reducible rfl)

theorem loseReport_keeps {r x0 x1 s} (h : Keeps r s) : Keeps r (loseReport x0 x1 s) := by
  unfold loseReport; repeat' first | (intro) | with_reducible assumption | with_reducible apply ite_keeps | with_reducible apply modFlt_keeps | with_reducible apply pushRecord_keeps | split | dsimp only | (refine Keeps.upd (by with_reducible assumption) ?_ ?_ <;> with_reducible rfl) | (refine Keeps.updMem (by with_reducible assumption) ?_ ?_ <;> first | exact memPutWord_wf _ _ | exact memPutBytes_wf _ _ | exact memPut_wf _ _ | exact memClear_wf _ | with_reducible rfl)

theorem intakeReport_keeps {r x0 x1 x2 s} (h : Keeps r s) : Keeps r (intakeReport x0 x1 x2 s) := by
  have w : ∀ f t, Keeps r t → Keeps r (intakeReport.waiting x0 x1 x2 f t) := by
    intro f t h
    unfold intakeReport.waiting
    repeat' first | with_reducible assumption | with_reducible apply modFlt_keeps | with_reducible apply engineTake_keeps | with_reducible apply loseReport_keeps | split | dsimp only
  unfold intakeReport
  dsimp only
  repeat' first | with_reducible assumption | with_reducible apply w | with_reducible apply modFlt_keeps | split | dsimp only

theorem intakeReport.waiting_keeps {r x0 x1 x2 x3 s} (h : Keeps r s) : Keeps r (intakeReport.waiting x0 x1 x2 x3 s) := by
  unfold intakeReport.waiting; repeat' first | (intro) | with_reducible assumption | with_reducible apply ite_keeps | with_reducible apply modFlt_keeps | with_reducible apply engineTake_keeps | with_reducible apply loseReport_keeps | split | dsimp only | (refine Keeps.upd (by with_reducible assumption) ?_ ?_ <;> with_reducible rfl) | (refine Keeps.updMem (by with_reducible assumption) ?_ ?_ <;> first | exact memPutWord_wf _ _ | exact memPutBytes_wf _ _ | exact memPut_wf _ _ | exact memClear_wf _ | with_reducible rfl)

theorem recordEntry_keeps {r s} (h : Keeps r s) : Keeps r (recordEntry s) := by
  unfold recordEntry; repeat' first | (intro) | with_reducible assumption | with_reducible apply ite_keeps | with_reducible apply modFlt_keeps | with_reducible apply engineTake_keeps | with_reducible apply pushRecord_keeps | split | dsimp only | (refine Keeps.upd (by with_reducible assumption) ?_ ?_ <;> with_reducible rfl) | (refine Keeps.updMem (by with_reducible assumption) ?_ ?_ <;> first | exact memPutWord_wf _ _ | exact memPutBytes_wf _ _ | exact memPut_wf _ _ | exact memClear_wf _ | with_reducible rfl)

theorem fixedReaction_keeps {r x0 x1 s} (h : Keeps r s) : Keeps r (fixedReaction x0 x1 s) := by
  unfold fixedReaction; repeat' first | (intro) | with_reducible assumption | with_reducible apply ite_keeps | with_reducible apply hwRestart_keeps | with_reducible apply warmRestart_keeps | with_reducible apply enterSafe_keeps | split | dsimp only | (refine Keeps.upd (by with_reducible assumption) ?_ ?_ <;> with_reducible rfl) | (refine Keeps.updMem (by with_reducible assumption) ?_ ?_ <;> first | exact memPutWord_wf _ _ | exact memPutBytes_wf _ _ | exact memPut_wf _ _ | exact memClear_wf _ | with_reducible rfl)

theorem oneShots_keeps {r x0 x1 x2 s} (h : Keeps r s) : Keeps r (oneShots x0 x1 x2 s) := by
  unfold oneShots; repeat' first | (intro) | with_reducible assumption | with_reducible apply ite_keeps | with_reducible apply modFlt_keeps | with_reducible apply blockReset_keeps | with_reducible apply chipReset_keeps | with_reducible apply hwDump_keeps | with_reducible apply onlyIf_keeps | split | dsimp only | (refine Keeps.upd (by with_reducible assumption) ?_ ?_ <;> with_reducible rfl) | (refine Keeps.updMem (by with_reducible assumption) ?_ ?_ <;> first | exact memPutWord_wf _ _ | exact memPutBytes_wf _ _ | exact memPut_wf _ _ | exact memClear_wf _ | with_reducible rfl)

theorem latchReport_keeps {r x0 x1 x2 s} (h : Keeps r s) : Keeps r (latchReport x0 x1 x2 s) := by
  unfold latchReport
  dsimp only
  refine onlyIf_keeps (fun _ a => oneShots_keeps a) (onlyIf_keeps (fun _ a => fixedReaction_keeps a) (onlyIf_keeps (fun _ a => abortEntry_keeps a) ?_))
  exact intakeReport_keeps (modFlt_keeps (takeStamp_to (x0 := none) rfl h))

theorem collectorCheck_keeps {r  s} (h : Keeps r s) : Keeps r (collectorCheck  s) := by
  unfold collectorCheck; repeat' first | with_reducible assumption | with_reducible apply ite_keeps | with_reducible apply latchReport_keeps | split | (intro) | dsimp only | (refine Keeps.upd (by with_reducible assumption) ?_ ?_ <;> with_reducible rfl)

theorem spoilCopy_keeps {r x0 s} (h : Keeps r s) : Keeps r (spoilCopy x0 s) := by
  unfold spoilCopy; repeat' first | with_reducible assumption | with_reducible apply ite_keeps | with_reducible apply modFlt_keeps | split | (intro) | dsimp only | (refine Keeps.upd (by with_reducible assumption) ?_ ?_ <;> with_reducible rfl)

theorem doubleException_keeps {r x0 x1 s} (h : Keeps r s) : Keeps r (doubleException x0 x1 s) := by
  unfold doubleException; repeat' first | (intro) | with_reducible assumption | with_reducible apply ite_keeps | with_reducible apply raise_keeps | with_reducible apply modThr_keeps | with_reducible apply latchReport_keeps | split | dsimp only | (refine Keeps.upd (by with_reducible assumption) ?_ ?_ <;> with_reducible rfl) | (refine Keeps.updMem (by with_reducible assumption) ?_ ?_ <;> first | exact memPutWord_wf _ _ | exact memPutBytes_wf _ _ | exact memPut_wf _ _ | exact memClear_wf _ | with_reducible rfl)

theorem takeException_keeps {r x0 x1 x2 x3 s} (h : Keeps r s) : Keeps r (takeException x0 x1 x2 x3 s) := by
  unfold takeException; repeat' first | (intro) | with_reducible assumption | with_reducible apply ite_keeps | with_reducible apply doubleException_keeps | with_reducible apply modCpu_keeps | split | dsimp only | (refine Keeps.upd (by with_reducible assumption) ?_ ?_ <;> with_reducible rfl) | (refine Keeps.updMem (by with_reducible assumption) ?_ ?_ <;> first | exact memPutWord_wf _ _ | exact memPutBytes_wf _ _ | exact memPut_wf _ _ | exact memClear_wf _ | with_reducible rfl)

theorem illegal_keeps {r x0 s} (h : Keeps r s) : Keeps r (illegal x0 s) := by
  unfold illegal; repeat' first | (intro) | with_reducible assumption | with_reducible apply ite_keeps | with_reducible apply takeException_keeps | split | dsimp only | (refine Keeps.upd (by with_reducible assumption) ?_ ?_ <;> with_reducible rfl) | (refine Keeps.updMem (by with_reducible assumption) ?_ ?_ <;> first | exact memPutWord_wf _ _ | exact memPutBytes_wf _ _ | exact memPut_wf _ _ | exact memClear_wf _ | with_reducible rfl)

theorem busError'_keeps {r x0 x1 s} (h : Keeps r s) : Keeps r (busError' x0 x1 s) := by
  unfold busError'; repeat' first | (intro) | with_reducible assumption | with_reducible apply ite_keeps | with_reducible apply takeException_keeps | split | dsimp only | (refine Keeps.upd (by with_reducible assumption) ?_ ?_ <;> with_reducible rfl) | (refine Keeps.updMem (by with_reducible assumption) ?_ ?_ <;> first | exact memPutWord_wf _ _ | exact memPutBytes_wf _ _ | exact memPut_wf _ _ | exact memClear_wf _ | with_reducible rfl)

theorem memError_keeps {r x0 x1 s} (h : Keeps r s) : Keeps r (memError x0 x1 s) := by
  unfold memError; repeat' first | (intro) | with_reducible assumption | with_reducible apply ite_keeps | with_reducible apply takeException_keeps | split | dsimp only | (refine Keeps.upd (by with_reducible assumption) ?_ ?_ <;> with_reducible rfl) | (refine Keeps.updMem (by with_reducible assumption) ?_ ?_ <;> first | exact memPutWord_wf _ _ | exact memPutBytes_wf _ _ | exact memPut_wf _ _ | exact memClear_wf _ | with_reducible rfl)

theorem returnException_keeps {r x0 s} (h : Keeps r s) : Keeps r (returnException x0 s) := by
  unfold returnException; repeat' first | (intro) | with_reducible assumption | with_reducible apply ite_keeps | with_reducible apply modCpu_keeps | with_reducible apply illegal_keeps | split | dsimp only | (refine Keeps.upd (by with_reducible assumption) ?_ ?_ <;> with_reducible rfl) | (refine Keeps.updMem (by with_reducible assumption) ?_ ?_ <;> first | exact memPutWord_wf _ _ | exact memPutBytes_wf _ _ | exact memPut_wf _ _ | exact memClear_wf _ | with_reducible rfl)

end Sys2Proof.Machine
end

