-- ==== Sys2Proof/Laws/KeepsUpdateOps.lean ====
section
/-!
SUPPORT. Laws/KeepsUpdateOps.lean: every operation of Machine/UpdateOps.lean leaves the queue of commands as it is and keeps memory canonical.
-/
namespace Sys2Proof.Machine

theorem eraseFlash_keeps {r x0 x1 s} (h : Keeps r s) : Keeps r (eraseFlash x0 x1 s) :=
  qspiSend_keeps (Keeps.updMem h (fun w => by dsimp only; exact memClear_wf _ w) rfl)

theorem tidySectors_keeps {r s} (h : Keeps r s) : Keeps r (tidySectors s) := by
  unfold tidySectors; repeat' first | (intro) | with_reducible assumption | with_reducible apply ite_keeps | with_reducible apply eraseFlash_keeps | split | dsimp only | (refine Keeps.upd (by with_reducible assumption) ?_ ?_ <;> with_reducible rfl) | (refine Keeps.updMem (by with_reducible assumption) ?_ ?_ <;> first | exact memPutWord_wf _ _ | exact memPutBytes_wf _ _ | exact memPut_wf _ _ | exact memClear_wf _ | with_reducible rfl)

theorem copyDump_keeps {r s} (h : Keeps r s) : Keeps r (copyDump s) := by
  unfold copyDump
  dsimp only
  split
  · exact readDump_keeps h
  · exact setRetWord_keeps (flashWrite_keeps (eraseFlash_keeps (readDump_keeps h)))

theorem updRecord_keeps {r x0 x1 x2 x3 x4 s} (h : Keeps r s) : Keeps r (updRecord x0 x1 x2 x3 x4 s) := by
  unfold updRecord; repeat' first | (intro) | with_reducible assumption | with_reducible apply ite_keeps | with_reducible apply postHub_keeps | split | dsimp only | (refine Keeps.upd (by with_reducible assumption) ?_ ?_ <;> with_reducible rfl) | (refine Keeps.updMem (by with_reducible assumption) ?_ ?_ <;> first | exact memPutWord_wf _ _ | exact memPutBytes_wf _ _ | exact memPut_wf _ _ | exact memClear_wf _ | with_reducible rfl)

theorem updRefuse_keeps {r x0 s} (h : Keeps r s) : Keeps r (updRefuse x0 s) := by
  unfold updRefuse; repeat' first | (intro) | with_reducible assumption | with_reducible apply ite_keeps | with_reducible apply modBoot_keeps | split | dsimp only | (refine Keeps.upd (by with_reducible assumption) ?_ ?_ <;> with_reducible rfl) | (refine Keeps.updMem (by with_reducible assumption) ?_ ?_ <;> first | exact memPutWord_wf _ _ | exact memPutBytes_wf _ _ | exact memPut_wf _ _ | exact memClear_wf _ | with_reducible rfl)

theorem updClose_keeps {r x0 x1 s} (h : Keeps r s) : Keeps r (updClose x0 x1 s) := by
  unfold updClose; repeat' first | (intro) | with_reducible assumption | with_reducible apply ite_keeps | with_reducible apply modBoot_keeps | split | dsimp only | (refine Keeps.upd (by with_reducible assumption) ?_ ?_ <;> with_reducible rfl) | (refine Keeps.updMem (by with_reducible assumption) ?_ ?_ <;> first | exact memPutWord_wf _ _ | exact memPutBytes_wf _ _ | exact memPut_wf _ _ | exact memClear_wf _ | with_reducible rfl)

theorem updEnd_keeps {r x0 x1 s} (h : Keeps r s) : Keeps r (updEnd x0 x1 s) := by
  unfold updEnd; repeat' first | (intro) | with_reducible assumption | with_reducible apply ite_keeps | with_reducible apply updClose_keeps | with_reducible apply updRecord_keeps | split | dsimp only | (refine Keeps.upd (by with_reducible assumption) ?_ ?_ <;> with_reducible rfl) | (refine Keeps.updMem (by with_reducible assumption) ?_ ?_ <;> first | exact memPutWord_wf _ _ | exact memPutBytes_wf _ _ | exact memPut_wf _ _ | exact memClear_wf _ | with_reducible rfl)

theorem updBegin_keeps {r x0 x1 s} (h : Keeps r s) : Keeps r (updBegin x0 x1 s) := by
  unfold updBegin; repeat' first | (intro) | with_reducible assumption | with_reducible apply ite_keeps | with_reducible apply updRefuse_keeps | with_reducible apply modBoot_keeps | with_reducible apply updRecord_keeps | split | dsimp only | (refine Keeps.upd (by with_reducible assumption) ?_ ?_ <;> with_reducible rfl) | (refine Keeps.updMem (by with_reducible assumption) ?_ ?_ <;> first | exact memPutWord_wf _ _ | exact memPutBytes_wf _ _ | exact memPut_wf _ _ | exact memClear_wf _ | with_reducible rfl)

theorem updWrite_keeps {r x0 x1 x2 s} (h : Keeps r s) : Keeps r (updWrite x0 x1 x2 s) := by
  unfold updWrite; repeat' first | (intro) | with_reducible assumption | with_reducible apply ite_keeps | with_reducible apply updRefuse_keeps | with_reducible apply updEnd_keeps | with_reducible apply modBoot_keeps | split | dsimp only | (refine Keeps.upd (by with_reducible assumption) ?_ ?_ <;> with_reducible rfl) | (refine Keeps.updMem (by with_reducible assumption) ?_ ?_ <;> first | exact memPutWord_wf _ _ | exact memPutBytes_wf _ _ | exact memPut_wf _ _ | exact memClear_wf _ | with_reducible rfl)

theorem updWritten_keeps {r x0 x1 s} (h : Keeps r s) : Keeps r (updWritten x0 x1 s) := by
  unfold updWritten; repeat' first | (intro) | with_reducible assumption | with_reducible apply ite_keeps | with_reducible apply updEnd_keeps | with_reducible apply eraseFlash_keeps | with_reducible apply modBoot_keeps | with_reducible apply flashWrite_keeps | with_reducible apply onlyIf_keeps | split | dsimp only | (refine Keeps.upd (by with_reducible assumption) ?_ ?_ <;> with_reducible rfl) | (refine Keeps.updMem (by with_reducible assumption) ?_ ?_ <;> first | exact memPutWord_wf _ _ | exact memPutBytes_wf _ _ | exact memPut_wf _ _ | exact memClear_wf _ | with_reducible rfl)

theorem updVerify_keeps {r x0 s} (h : Keeps r s) : Keeps r (updVerify x0 s) := by
  unfold updVerify; repeat' first | (intro) | with_reducible assumption | with_reducible apply ite_keeps | with_reducible apply updRefuse_keeps | with_reducible apply modBoot_keeps | split | dsimp only | (refine Keeps.upd (by with_reducible assumption) ?_ ?_ <;> with_reducible rfl) | (refine Keeps.updMem (by with_reducible assumption) ?_ ?_ <;> first | exact memPutWord_wf _ _ | exact memPutBytes_wf _ _ | exact memPut_wf _ _ | exact memClear_wf _ | with_reducible rfl)

theorem updVerified_keeps {r s} (h : Keeps r s) : Keeps r (updVerified s) := by
  unfold updVerified; repeat' first | (intro) | with_reducible assumption | with_reducible apply ite_keeps | with_reducible apply updRecord_keeps | with_reducible apply modBoot_keeps | with_reducible apply updEnd_keeps | with_reducible apply qspiRead_keeps | split | dsimp only | (refine Keeps.upd (by with_reducible assumption) ?_ ?_ <;> with_reducible rfl) | (refine Keeps.updMem (by with_reducible assumption) ?_ ?_ <;> first | exact memPutWord_wf _ _ | exact memPutBytes_wf _ _ | exact memPut_wf _ _ | exact memClear_wf _ | with_reducible rfl)

theorem updActivate_keeps {r x0 x1 s} (h : Keeps r s) : Keeps r (updActivate x0 x1 s) := by
  unfold updActivate; repeat' first | (intro) | with_reducible assumption | with_reducible apply ite_keeps | with_reducible apply updRefuse_keeps | with_reducible apply modBoot_keeps | split | dsimp only | (refine Keeps.upd (by with_reducible assumption) ?_ ?_ <;> with_reducible rfl) | (refine Keeps.updMem (by with_reducible assumption) ?_ ?_ <;> first | exact memPutWord_wf _ _ | exact memPutBytes_wf _ _ | exact memPut_wf _ _ | exact memClear_wf _ | with_reducible rfl)

theorem updAbort_keeps {r x0 s} (h : Keeps r s) : Keeps r (updAbort x0 s) := by
  unfold updAbort; repeat' first | (intro) | with_reducible assumption | with_reducible apply ite_keeps | with_reducible apply updRefuse_keeps | with_reducible apply updEnd_keeps | split | dsimp only | (refine Keeps.upd (by with_reducible assumption) ?_ ?_ <;> with_reducible rfl) | (refine Keeps.updMem (by with_reducible assumption) ?_ ?_ <;> first | exact memPutWord_wf _ _ | exact memPutBytes_wf _ _ | exact memPut_wf _ _ | exact memClear_wf _ | with_reducible rfl)

theorem updBusReset_keeps {r x0 s} (h : Keeps r s) : Keeps r (updBusReset x0 s) := by
  unfold updBusReset; repeat' first | (intro) | with_reducible assumption | with_reducible apply ite_keeps | with_reducible apply updEnd_keeps | split | dsimp only | (refine Keeps.upd (by with_reducible assumption) ?_ ?_ <;> with_reducible rfl) | (refine Keeps.updMem (by with_reducible assumption) ?_ ?_ <;> first | exact memPutWord_wf _ _ | exact memPutBytes_wf _ _ | exact memPut_wf _ _ | exact memClear_wf _ | with_reducible rfl)

theorem updCommand_keeps {r x0 x1 s} (h : Keeps r s) : Keeps r (updCommand x0 x1 s) := by
  unfold updCommand; repeat' first | (intro) | with_reducible assumption | with_reducible apply ite_keeps | with_reducible apply updRefuse_keeps | with_reducible apply updBegin_keeps | with_reducible apply updWrite_keeps | with_reducible apply updVerify_keeps | with_reducible apply updActivate_keeps | with_reducible apply updAbort_keeps | split | dsimp only | (refine Keeps.upd (by with_reducible assumption) ?_ ?_ <;> with_reducible rfl) | (refine Keeps.updMem (by with_reducible assumption) ?_ ?_ <;> first | exact memPutWord_wf _ _ | exact memPutBytes_wf _ _ | exact memPut_wf _ _ | exact memClear_wf _ | with_reducible rfl)

theorem writeConfirmed_keeps {r  s} (h : Keeps r s) : Keeps r (writeConfirmed  s) := by
  unfold writeConfirmed; repeat' first | with_reducible assumption | with_reducible apply ite_keeps | with_reducible apply modBoot_keeps | with_reducible apply tidySectors_keeps | with_reducible apply updRecord_keeps | with_reducible refine writeEntry_to rfl ?_ | split | (intro) | dsimp only | (refine Keeps.upd (by with_reducible assumption) ?_ ?_ <;> with_reducible rfl)

theorem confirmRelease_keeps {r s} (h : Keeps r s) : Keeps r (confirmRelease s) := by
  unfold confirmRelease; repeat' first | (intro) | with_reducible assumption | with_reducible apply ite_keeps | with_reducible apply stopWindow_keeps | with_reducible refine writeEntry_to rfl ?_ | with_reducible apply updRecord_keeps | with_reducible apply modBoot_keeps | with_reducible apply tidySectors_keeps | with_reducible apply writeConfirmed_keeps | split | dsimp only | (refine Keeps.upd (by with_reducible assumption) ?_ ?_ <;> with_reducible rfl) | (refine Keeps.updMem (by with_reducible assumption) ?_ ?_ <;> first | exact memPutWord_wf _ _ | exact memPutBytes_wf _ _ | exact memPut_wf _ _ | exact memClear_wf _ | with_reducible rfl)

theorem firmwareConfirm_keeps {r  s} (h : Keeps r s) : Keeps r (firmwareConfirm  s) := by
  unfold firmwareConfirm; repeat' first | with_reducible assumption | with_reducible apply ite_keeps | with_reducible apply confirmRelease_keeps | split | (intro) | dsimp only | (refine Keeps.upd (by with_reducible assumption) ?_ ?_ <;> with_reducible rfl)

end Sys2Proof.Machine
end

