-- ==== Sys2Proof/Laws/Psi.lean ====
section
/-!
SUPPORT. Laws/Psi.lean: the issue of an instruction by a core that executes, and what a change of one core leaves as it is.
-/
namespace Sys2Proof.Machine

theorem eccFix_of_sound {m : EccMem} {w : Nat} {s : State} (h : (eccAt s m w).isNone = true) : eccFix m w s = s := by
  unfold eccFix
  cases hx : eccAt s m w <;> simp_all

theorem eccLocal_of_clean {x : LocalPlace} {s : State} (h : cleanPlace s x = true) : eccLocal x s = (false, s) := by
  cases x with
  | rom off => rfl
  | ram key m w =>
    have hn : eccAt s m w = none := by simpa [cleanPlace] using h
    simp [eccLocal, hn, eccFix]

/-- A core that executes carries the instruction out. -/
theorem issue_of_issues {k : Core} {s : State} (f : State → State) (h : issues k s = true) : issue k f s = .next (f s) := by
  simp only [issues, Bool.and_eq_true, Bool.not_eq_true', Bool.and_eq_false_iff] at h
  obtain ⟨⟨he, hf⟩, hl⟩ := h
  have hl' : ¬(k = .sup ∧ bitOf s.flt.inj 31 = true ∧ fld s.flt.inj 26 24 = 3) := by
    rintro ⟨rfl, h1, h2⟩
    simp [lockstepArmed, h1, h2] at hl
  unfold issue
  simp only [he, not_true_eq_false, if_false, if_neg hl']
  simp only [fetches] at hf
  split at hf
  · rename_i x hx
    rw [Bool.and_eq_true] at hf
    have hd : (decodePsi (wordAt s x)).isNone = false := by simpa [Option.isNone_eq_false_iff] using hf.2
    simp only [hx, eccLocal_of_clean hf.1, Bool.false_eq_true, if_false, hd]
  · simp at hf

theorem setCpu_sup (c : Cpu) (s : State) : setCpu .sup c s = { s with sup := c } := rfl

/-- A change of a core puts the changed core in its place. -/
theorem modCpu_eq_setCpu (k : Core) (f : Cpu → Cpu) (s : State) : modCpu k f s = setCpu k (f (cpuOf s k)) s := by
  cases k <;> rfl

@[simp] theorem cpuOf_setCpu (k : Core) (c : Cpu) (s : State) : cpuOf (setCpu k c s) k = c := by
  cases k <;> simp [cpuOf, setCpu, State.tile]

@[simp] theorem setCpu_setCpu (k : Core) (c d : Cpu) (s : State) : setCpu k c (setCpu k d s) = setCpu k c s := by
  cases k <;> simp [setCpu]

@[simp] theorem setCpu_mem (k : Core) (c : Cpu) (s : State) : (setCpu k c s).mem = s.mem := by cases k <;> rfl
@[simp] theorem setCpu_free (k : Core) (c : Cpu) (s : State) : (setCpu k c s).free = s.free := by cases k <;> rfl
@[simp] theorem setCpu_ports (k : Core) (c : Cpu) (s : State) : (setCpu k c s).ports = s.ports := by cases k <;> rfl
@[simp] theorem setCpu_mbx (k : Core) (c : Cpu) (s : State) : (setCpu k c s).mbx = s.mbx := by cases k <;> rfl
@[simp] theorem setCpu_acc (k : Core) (c : Cpu) (s : State) : (setCpu k c s).acc = s.acc := by cases k <;> rfl
@[simp] theorem setCpu_posts (k : Core) (c : Cpu) (s : State) : (setCpu k c s).posts = s.posts := by cases k <;> rfl
@[simp] theorem setCpu_ecc (k : Core) (c : Cpu) (s : State) : (setCpu k c s).ecc = s.ecc := by cases k <;> rfl
@[simp] theorem setCpu_flt (k : Core) (c : Cpu) (s : State) : (setCpu k c s).flt = s.flt := by cases k <;> rfl

/-- An instruction that ends with `finish` gives the core its new value. -/
theorem finish_eq (k : Core) (f : Cpu → Cpu) (s : State) : finish k f s = setCpu k (advance (f (cpuOf s k))) s :=
  modCpu_eq_setCpu k _ s

theorem advance_setReg (rd : Reg) (v : Word) (c : Cpu) : advance (setReg rd v c) = coreWith c rd v := by
  unfold advance setReg coreWith regsWith
  split <;> rfl

theorem advance_eq (c : Cpu) : advance c = coreOn c := rfl

theorem advance_setFlags (r : AluOut) (c : Cpu) : advance (setFlags r c) = setFlags r (advance c) := rfl

theorem advance_onlyIf (f : Bool) (g : Cpu → Cpu) (hg : ∀ c, advance (g c) = g (advance c)) (c : Cpu) : advance (onlyIf f g c) = onlyIf f g (advance c) := by
  unfold onlyIf
  split
  · exact hg c
  · rfl

theorem setReg_setFlags (rd : Reg) (v : Word) (r : AluOut) (c : Cpu) : setReg rd v (setFlags r c) = setFlags r (setReg rd v c) := by
  unfold setReg
  split <;> rfl

/-- An ALU result: rd, and with S = 1 the flags. -/
theorem advance_alu (rd : Reg) (v : Word) (f : Bool) (r : AluOut) (c : Cpu) :
    advance (setReg rd v (onlyIf f (setFlags r) c)) = onlyIf f (setFlags r) (coreWith c rd v) := by
  cases f
  · exact advance_setReg rd v c
  · exact (congrArg advance (setReg_setFlags rd v r c)).trans (congrArg (setFlags r) (advance_setReg rd v c))

/-- An ALU instruction of a core that executes. -/
theorem alu_next {k : Core} {s : State} (rd : Reg) (f : Bool) (r : Cpu → AluOut) (h : issues k s = true) :
    alu k rd f r s = .next (setCpu k (onlyIf f (setFlags (r (cpuOf s k))) (coreWith (cpuOf s k) rd (r (cpuOf s k)).val)) s) := by
  simp only [alu, issue_of_issues _ h, finish_eq, advance_alu]

/-- A comparison of a core that executes. -/
theorem aluTest_next {k : Core} {s : State} (r : Cpu → AluOut) (h : issues k s = true) :
    aluTest k 0 r s = .next (setCpu k (setFlags (r (cpuOf s k)) (coreOn (cpuOf s k))) s) := by
  simp only [aluTest, issue_of_issues _ h, legal, BEq.rfl, if_true, finish_eq]
  rfl

/-- An ALU instruction of one operand, of a core that executes. -/
theorem aluOne_next {k : Core} {s : State} (rd : Reg) (f : Bool) (r : Cpu → AluOut) (h : issues k s = true) :
    aluOne k rd 0 f r s = .next (setCpu k (onlyIf f (setFlags (r (cpuOf s k))) (coreWith (cpuOf s k) rd (r (cpuOf s k)).val)) s) := by
  simp only [aluOne, issue_of_issues _ h, legal, BEq.rfl, if_true, finish_eq, advance_alu]

end Sys2Proof.Machine
end

