-- ==== Sys2Proof/WellFormed.lean ====
section
/-!
DEFINITION. WellFormed.lean: the operands that a command's fields can carry on the wire: USB request and token fields (04 R118,
R126), Power Delivery objects (06 R179), address bytes of a wake-serial transaction (02 R43), a decoded IRIG-B frame (08 R262).
-/
namespace Sys2Proof

/-- wValue, wIndex and wLength of a USB request have 16 bits. -/
def reqField (n : Nat) : Bool := decide (n < 65536)

/-- A device address has seven bits, an endpoint number four. -/
def endpoint (dev ep : Nat) : Bool := decide (dev < 128) && decide (ep < 16)

/-- The hub port of a split token has seven bits. -/
def splitPort (n : Nat) : Bool := decide (n < 128)

/-- A string index has eight bits. -/
def DescKind.wf : DescKind → Bool
  | .string i => decide (i < 256)
  | .device | .configuration | .qualifier | .otherSpeed | .bos => true

/-- A full-speed packet carries at most 1023 data bytes. -/
def BusResult.wf : BusResult → Bool
  | .data _ bytes | .moreData bytes => decide (bytes.length ≤ 1023)
  | .ack | .nak | .stall | .err => true

/-- The time fields of a frame that is well formed. -/
def IrigFrame.wf (f : IrigFrame) : Bool :=
  decide (f.widths.length ≤ 100) && f.widths.all (fun n => decide (n < 10000))

/-- The operands of a command are within their fields. -/
def Instr.wf : Instr → Bool
  | .wsWrite addrBytes _ _ _ => decide (addrBytes ≤ 3)
  | .wsRead addrBytes _ _ => decide (addrBytes ≤ 3)
  | .getDescriptor _ _ k len => reqField len && k.wf
  | .setInterface _ alt => reqField alt
  | .clearHubFeature _ sel => reqField sel
  | .clearPortEnable _ port => reqField port
  | .setPortSuspend _ port => reqField port
  | .clearPortSuspend _ port => reqField port
  | .setPortReset _ port => reqField port
  | .clearPortL1 _ port => reqField port
  | .setPortPower _ port => reqField port
  | .clearPortPower _ port => reqField port
  | .setPortTest _ port _ => reqField port
  | .clearPortChange _ port _ => reqField port
  | .clearTtBuffer _ port dev ep _ _ => reqField port && endpoint dev ep
  | .getHubDescriptor _ len => reqField len
  | .getPortStatus _ port => reqField port
  | .getTtState _ port => reqField port
  | .resetTt _ port => reqField port
  | .stopTt _ port => reqField port
  | .setHubFeature _ sel => reqField sel
  | .setAndTestPortL1 _ port _ _ dev _ _ _ => reqField port && decide (dev < 128)
  | .ufpSof _ frame => decide (frame < 2048)
  | .startSplitPeriodic _ port dev ep _ _ _ _ data => splitPort port && endpoint dev ep && decide (data.length ≤ 188)
  | .startSplitNonperiodic _ port dev ep _ _ _ _ _ data => splitPort port && endpoint dev ep && decide (data.length ≤ 64)
  | .completeSplit _ port dev ep _ _ => splitPort port && endpoint dev ep
  | .ttResult _ r => r.wf
  | .npHoldExpire _ dev ep _ => endpoint dev ep
  | .pdMessageRx _ _ _ objs _ _ => decide (objs.length ≤ 7)
  | .vdmResponse _ _ _ _ vdos => decide (vdos.length ≤ 6)
  | .ppsEdge _ sec qns => decide (sec < 2 ^ 32 ∧ qns < 4000000000)
  | .irigFrame f => f.wf
  | .dfuDnload _ block _ => reqField block
  | .setConfiguration _ _ cfg => reqField cfg
  | .registerWrite .. | .spiWrite .. | .spiGuardedWrite .. | .spiRead .. | .readResult | .spiStatus | .badcmd ..
  | .frameErr .. | .spiReadComplete | .wsGuardedWrite .. | .wsReadTimeout .. | .mgmtPathLost .. | .postedWriteComplete ..
  | .guardWindowExpire .. | .accLockWrite .. | .semAcquire .. | .semRelease .. | .semForce .. | .mbxDataWrite ..
  | .mbxDataRead .. | .mbxTimeout .. | .ttcPdropCntRead .. | .ttcTtCntRead .. | .crlNorouteCntRead .. | .crlQDropRead ..
  | .portPdCntRead .. | .budCntRead .. | .tileCntRead .. | .crpPsRefuseRead .. | .teamAttach .. | .teamDetach ..
  | .teamEnable .. | .teamDisable .. | .busReset .. | .teamSuspend .. | .hostResume .. | .remoteWakeK ..
  | .remoteWakeDriveEnd .. | .lpmToken .. | .l1Exit .. | .portResumeComplete .. | .portResetComplete .. | .getBusState ..
  | .getHubStatus .. | .setHubDescriptor .. | .hubRequestUnsupported .. | .statusChangeIn .. | .deviceConnect ..
  | .deviceDisconnect .. | .portBabble .. | .portContextFree .. | .getInfo .. | .setQueues .. | .teamQmaskWrite ..
  | .eventEndpointIn .. | .correlationEndpointIn .. | .dfuDetach .. | .portMove .. | .moveRetireEnd .. | .moveGapExpire ..
  | .microframeTimeout .. | .ttDescriptor .. | .microframeMarker .. | .portBusTxnStart .. | .ttResultLost .. | .lateDrop ..
  | .periodicContextExpire .. | .ttStop .. | .ttReset .. | .ttResetEnd .. | .recordEnqueue .. | .queueRead ..
  | .holdTimeout .. | .queueFlush .. | .queuePtrMismatch .. | .queueReclaimEnd .. | .freelistRebuild | .freelistRebuildEnd
  | .queueEnable .. | .queueDisable .. | .queueCapChange .. | .debugWindowWrite .. | .scrubWord .. | .attachWait ..
  | .tCcDebounce .. | .ccUnsupported .. | .tPdDebounce .. | .errorRecoveryEnd .. | .transitionDetach .. | .pdTxStart ..
  | .tReceive .. | .goodcrc .. | .request .. | .softReset .. | .hardReset .. | .getSourceCap .. | .getSourceCapExtended ..
  | .getStatus .. | .getSourceInfo .. | .getRevision .. | .drSwap .. | .prSwap .. | .vconnSwap .. | .psRdy .. | .pdAccept ..
  | .pdReject .. | .notSupported .. | .bist .. | .alert .. | .unsupportedMessage .. | .extendedMessage ..
  | .tChunkingNotSupported .. | .discoverIdentity .. | .discoverSvids .. | .discoverModes .. | .enterMode ..
  | .unstructuredVdm .. | .attention .. | .tVdmSenderResponse .. | .tSourceCapability .. | .tSenderResponse ..
  | .commitLate .. | .tSrcTransition .. | .tSrcSettle .. | .tPsHardReset .. | .tSrcRecover .. | .tNoResponse ..
  | .tSinkTx .. | .tVconnStable .. | .tDiscoverIdentity .. | .tVconnSourceTimeout .. | .vconnPinWaitTimeout .. | .vconnOc ..
  | .ccOvervoltHold .. | .tcEnWrite .. | .pdEnWrite .. | .stEnWrite .. | .base .. | .hold .. | .commit .. | .release ..
  | .grant .. | .short .. | .offer .. | .reclaim .. | .budHoldWrite .. | .feedQualify .. | .feedRampStart .. | .feedOn ..
  | .feedPgood .. | .feedWarn .. | .feedLimit .. | .feedFaultTimer .. | .feedFastTrip .. | .feedUv .. | .feedOv ..
  | .feedGateRiseFail .. | .feedEnWrite .. | .feedCooldownEnd .. | .feedStageReset .. | .railUp .. | .railLost ..
  | .railChange .. | .keeperWrite .. | .relayGrant | .rampProbeEnd .. | .rampCheck .. | .gateLoopTick .. | .breakersArm ..
  | .rampComplete .. | .rampTimeout .. | .transitionEnd .. | .pgoodRise .. | .pgoodFall .. | .fastTrip .. | .reverseTrip ..
  | .ovTrip .. | .classATrip .. | .curveTrip .. | .gateRiseFail .. | .fetShort .. | .fetOpen .. | .portCooldownEnd ..
  | .portStageReset .. | .dischargeEnd .. | .clrPfet .. | .clrLatch .. | .fwOffSet .. | .fwOffClear .. | .ppsLost ..
  | .irigLost | .ref10mGate .. | .ref10mLost | .secondBoundary | .holdoverExpire | .immediate .. | .atEdge ..
  | .atEdgeTimeout | .timFreqWrite .. | .replicaSync .. | .ppsOutPulseEnd | .add .. | .adc .. | .sub .. | .sbc .. | .and ..
  | .or .. | .xor .. | .andn .. | .shl .. | .shr .. | .sar .. | .ror .. | .mul .. | .mulhu .. | .min .. | .max .. | .minu ..
  | .maxu .. | .clz .. | .popc .. | .cmp .. | .tst .. | .addi .. | .andi .. | .ori .. | .xori .. | .cmpi .. | .tsti ..
  | .shi .. | .lui .. | .addpc .. | .crc .. | .ldw .. | .ldh .. | .ldhu .. | .ldb .. | .ldbu .. | .ldd .. | .stw ..
  | .sth .. | .stb .. | .std .. | .rld .. | .rldComplete .. | .rldTimeout | .rst .. | .b .. | .bl .. | .jlr .. | .ewait ..
  | .ewaitResume .. | .wait .. | .srd .. | .swr .. | .trap .. | .eret .. | .fence .. | .fenceComplete .. | .wdog ..
  | .sig .. | .tset .. | .tseti .. | .tclr .. | .trd .. | .timerExpire .. | .tstamp .. | .epost .. | .msend ..
  | .msendComplete .. | .mtry .. | .mrecv .. | .mstat .. | .mclr .. | .pdrd .. | .pdwr .. | .pdsend .. | .pdrel ..
  | .pdstat .. | .pdcfg .. | .pctlRp .. | .pctlCcsel .. | .pctlVconn .. | .pctlSbu .. | .pctlState .. | .pctlBase ..
  | .pstat .. | .portb .. | .sema .. | .semr .. | .interrupt | .nmi | .tileRun .. | .tileRestart .. | .programWindowWrite ..
  | .vrimPor | .rimPorRelease | .pwrOkAssert | .pwrOkLoss | .pwrTimeout | .oscReady | .oscTimeout | .coreEnOffExpire
  | .coreResetRelease | .bootStart .. | .bootStepTimeout .. | .tileSwitchOn .. | .tileReady .. | .resetPin
  | .resetPinRelease | .chip .. | .sup .. | .tile .. | .tapReset | .phyCfgWrite .. | .begin .. | .write ..
  | .writeComplete .. | .verify .. | .verifyComplete | .activate .. | .activationCommit .. | .abort .. | .sessionTimeout
  | .dfuManifest .. | .dfuUpload .. | .dfuGetstatus .. | .dfuClrstatus .. | .dfuAbort .. | .confirm ..
  | .confirmWindowExpire .. | .offDischargeDone | .wakeSource .. | .sleepWakeComplete | .wakeMinOffExpire
  | .deepWakeHandover | .retry .. | .retDataAccess .. | .faultReport .. | .scorecardRecord | .fltStatClear ..
  | .fltLostClear .. | .fltSrcWrite .. | .swFault .. | .faultInject .. | .collectorMismatch .. | .lockstepMismatch
  | .supWatchdog | .warmScrubEnd .. | .done .. | .doneTimeout | .weaverWatchdog .. | .rimDetach .. | .controlFrame ..
  | .linkLaneFault .. | .spareLaneSwitchDone .. | .linkSecondFailure .. | .uuVbusValid .. | .ccPatternChange ..
  | .l1ResumeEnd .. | .setAddress .. | .deviceRemoteWakeup .. | .repeatPathPacket .. | .feedQualifyBreak ..
  | .feedLimitEnd .. | .breakerCurrentCrossing .. | .waitSourceCapTimeout .. | .sbuSignalElement .. | .bistCarrierModeEnd ..
  | .entryResident | .linkTrainingFailed .. => true

end Sys2Proof
end

