-- ==== Sys2Proof/Tests/Slice0.lean ====
section
/-!
SUPPORT. Tests/Slice0.lean: ill-formed commands are refused; single steps against the spec's worked examples and tables; for each statement of
Certificates/Slice0/Obligations.lean that has hypotheses, a witness: states and operands that meet the hypotheses of each of its clauses. The
one clause without a witness is that of O49 on a release that verifies: it needs one of the boot ROM's public keys, which are open (log 5).
-/
set_option Elab.async false

namespace Sys2Proof.Tests
open Sys2Proof.Machine

/-! ### Well-formed commands: an ill-formed term for each check of WellFormed.lean -/

theorem test_wf_accepts : (Instr.getDescriptor 3 .hub (.string 255) 65535).wf = true ∧ (Instr.wsWrite 3 ⟨0x4E, 0x4840⟩ [1] true).wf = true := by decide +kernel
theorem test_wf_address_bytes : (Instr.wsWrite 4 ⟨0x4E, 0⟩ [] true).wf = false ∧ (Instr.wsRead 4 ⟨0x4E, 0⟩ 0).wf = false := by decide +kernel
theorem test_wf_string_index : (Instr.getDescriptor 0 .hub (.string 256) 0).wf = false := by decide +kernel
theorem test_wf_request_fields :
    (Instr.getDescriptor 0 .hub .device 65536).wf = false ∧ (Instr.setInterface 0 65536).wf = false ∧
    (Instr.clearHubFeature 0 65536).wf = false ∧ (Instr.clearPortEnable 0 65536).wf = false ∧ (Instr.setPortSuspend 0 65536).wf = false ∧
    (Instr.clearPortSuspend 0 65536).wf = false ∧ (Instr.setPortReset 0 65536).wf = false ∧ (Instr.clearPortL1 0 65536).wf = false ∧
    (Instr.setPortPower 0 65536).wf = false ∧ (Instr.clearPortPower 0 65536).wf = false ∧ (Instr.setPortTest 0 65536 .testJ).wf = false ∧
    (Instr.clearPortChange 0 65536 .reset).wf = false ∧ (Instr.getHubDescriptor 0 65536).wf = false ∧ (Instr.getPortStatus 0 65536).wf = false ∧
    (Instr.getTtState 0 65536).wf = false ∧ (Instr.resetTt 0 65536).wf = false ∧ (Instr.stopTt 0 65536).wf = false ∧
    (Instr.setHubFeature 0 65536).wf = false := by decide +kernel
theorem test_wf_endpoints :
    (∀ d ∈ [128, 255], (Instr.npHoldExpire 0 d 0 true).wf = false) ∧ (Instr.npHoldExpire 0 127 16 true).wf = false ∧
    (Instr.npHoldExpire 0 127 15 true).wf = true := by decide +kernel
theorem test_wf_splits :
    (Instr.completeSplit 0 128 0 0 true .bulk).wf = false ∧ (Instr.startSplitPeriodic 0 1 0 0 false .iso false .whole (List.replicate 189 0)).wf = false ∧
    (Instr.startSplitNonperiodic 0 1 0 0 false false .bulk false true (List.replicate 65 0)).wf = false ∧
    (Instr.ttResult 0 (.data true (List.replicate 1024 0))).wf = false ∧ (Instr.ufpSof 0 2048).wf = false := by decide +kernel
theorem test_wf_objects : (Instr.pdMessageRx 0 .sop 0 (List.replicate 8 0) true 0).wf = false ∧
    (Instr.vdmResponse 0 .sop 0 0 (List.replicate 7 0)).wf = false ∧ (Instr.setConfiguration 0 .hub 65536).wf = false ∧
    (Instr.dfuDnload 0 65536 []).wf = false ∧ (Instr.setAndTestPortL1 0 1 0 true 128 .ack .ack .ack).wf = false ∧
    (Instr.clearTtBuffer 0 1 0 16 .bulk true).wf = false := by decide +kernel
theorem test_wf_time :
    (Instr.ppsEdge .a (2 ^ 32) 0).wf = false ∧ (Instr.ppsEdge .a 0 4000000000).wf = false ∧
    (Instr.irigFrame { widths := List.replicate 101 2000, phase := 0 }).wf = false ∧ (Instr.irigFrame { widths := [10000], phase := 0 }).wf = false := by
  decide +kernel

/-! ### States -/

abbrev lastPort : PortId := 63
abbrev lastTile : TileId := 7
abbrev lastTeam : TeamId := 3
abbrev lastQueue : QueueId := 15

def runningTile : Tile :=
  { on := true, ready := true, replicaOut := false, thr := Vector.replicate 8 { st := .running, run := true, pc := 0x100 },
    link := { trained := true, spare := some 8 } }

def running : State :=
  { State.reset with
    tiles := Vector.replicate 8 runningTile
    sup := { st := .running, run := true, pc := 0x20000, evec := 0x20000 }
    tim := { freq := 0, start := 0, running := true }
    boot := { State.reset.boot with step := 15 }
    pwr := { State.reset.pwr with phase := .run, coreEn := true, bootDone := true, tapHeld := false }
    now := 1000000 }

def busyTeam : Team :=
  { ctl := 0xF, lpmEn := true, vbusOk := true, pullUp := true, speed := some .high, st := .configured, under := .configured, multiTt := true,
    power := Vector.replicate 65 true, station := { st := .configured, enabled := true, addr := 5 } }

def busyPort (u : Nat) : Port :=
  { hub := { owner := u, dev := some .high, conn := true, enable := true, highSpeed := true }
    tc := { st := .attached, cc1 := .vRd, cc2 := .vOpen, orient := .cc1, rp := .a30, ccsel := .cc1, vconnPartner := true }
    pd := { pe := .ready, rev := 2, objpos := 1, volt := 100, opCur := 150, caps := [⟨100, 300⟩, ⟨180, 300⟩], hold := 600, capsSent := 1,
            cableId := true, discDone := true }
    pw := { keeper := 0x4640012C, inForce := 0x4640012C, pathNow := .five, pstate := .on, pgood := true, armed := true, vbus := 5100,
            gateLearn := 100, granted := true } }

def busy : State :=
  { running with
    teams := Vector.replicate 4 busyTeam
    ports := Vector.ofFn fun i => busyPort (i.val / 16)
    grps := Vector.replicate 8 { st := .good, pg := true, railUp := true, feedV := 5200, railV := 20000, released := true } }

def onPort (f : Port → Port) (s : State) : State := setPort lastPort (f (s.port lastPort)) s
def onHub (f : HubPort → HubPort) : State → State := onPort fun o => { o with hub := f o.hub }
def onTc (f : PortTc → PortTc) : State → State := onPort fun o => { o with tc := f o.tc }
def onPd (f : PortPd → PortPd) : State → State := onPort fun o => { o with pd := f o.pd }
def onPhy (f : PdPhy → PdPhy) : State → State := onPort fun o => { o with phy := f o.phy }
def onPw (f : PortPwr → PortPwr) : State → State := onPort fun o => { o with pw := f o.pw }
def onTeam (f : Team → Team) (s : State) : State := { s with teams := s.teams.set 3 (f (s.team lastTeam)) }
def onGrp (f : Group → Group) (s : State) : State := { s with grps := s.grps.set 7 (f (s.grp lastTile)) }
def onTt (f : Tt → Tt) (s : State) : State := { s with tts := s.tts.set 63 (f (s.tt lastPort)) }
def onQueue (f : Queue → Queue) (s : State) : State := { s with queues := s.queues.set 15 (f (s.queue lastQueue)) }
def setTile (g : TileId) (x : Tile) (s : State) : State := { s with tiles := s.tiles.set g x }
def onTile (f : Tile → Tile) (s : State) : State := setTile lastTile (f (s.tile lastTile)) s
def onCpu (k : Core) (f : Cpu → Cpu) (s : State) : State := setCpu k (f (cpuOf s k)) s
def onAcc (f : Acc → Acc) (s : State) : State := { s with acc := f s.acc }
def onSpi (f : Spi → Spi) (s : State) : State := { s with spi := f s.spi }
def onTim (f : Tim → Tim) (s : State) : State := { s with tim := f s.tim }
def onBoot (f : Boot → Boot) (s : State) : State := { s with boot := f s.boot }
def onCrp (f : Crp → Crp) (s : State) : State := { s with crp := f s.crp }
def onFlt (f : Flt → Flt) (s : State) : State := { s with flt := f s.flt }
def onPwr (f : Pwr → Pwr) (s : State) : State := { s with pwr := f s.pwr }
def goodFlash : FlashStatus := { answers := true, writes := true }
def goodFrame : IrigFrame :=
  { widths := (irigB004 { year := 99, day := 365, sod := 86400 }).map fun x => 1000 * symHighMs x, phase := 0 }
def aRecord : Record := { cls := 62, src := 127, stamp := {}, payload := 0 }
def aTxn : Txn := { dev := 127, ep := 15, dirIn := true, setup := false, ty := .bulk }
def nonperiodic (x : Txn) : Ctx := { periodic := false, shared := false, slot := 0, txns := [x] }
def periodic (x : Txn) : Ctx := { periodic := true, shared := false, slot := 0, txns := [x] }
def partEntry (ty tile off len : Nat) : List Byte :=
  toBytes 1 ty ++ toBytes 1 tile ++ toBytes 2 0 ++ toBytes 4 off ++ toBytes 4 len ++ List.replicate 52 0
def manifestBytes : List Byte :=
  toBytes 4 0x464D5A4E ++ toBytes 2 1 ++ toBytes 2 11 ++ toBytes 2 0x0064 ++ toBytes 1 0x0B ++ List.replicate 53 0 ++
    partEntry 1 0 0x1000 1 ++ partEntry 3 0 0x2000 0x4000 ++ partEntry 4 0 0x6000 1 ++
    ((List.range 8).map fun t => partEntry 2 t (0x7000 + 0x1000 * t) 1).flatten ++ List.replicate 3328 0


/-! ### Instruction words (09 Tables 9.4 to 9.6, 9.14) -/

/-- R299: the word of zeros is ADD, erased flash is illegal; a word of R format with bit 6 set is illegal. -/
theorem test_word_zero : decodePsi 0 = some .add ∧ decodePsi 0xFFFFFFFF = none ∧ decodePsi 0x00000040 = none := by decide +kernel

/-- OP 0x01 is ADDI, OP 0x00 with FN 0x0C is MUL, OP 0x22 is JLR; OP 0x0A and OP 0x3F are not listed. -/
theorem test_word_opcodes : decodePsi 0x04480005 = some .addi ∧ decodePsi 0x0000000C = some .mul ∧ decodePsi 0x88000000 = some .jlr ∧
    decodePsi 0x28000000 = none ∧ decodePsi 0xFC000000 = none := by decide +kernel

/-! ### IRIG-B (08 R262, R286) -/

/-- Day 001, second 1 of 2024: the units of seconds and of days read 1, the year 24, straight binary seconds 1; markers at Pr and P1 to P0. -/
theorem test_irig_frame : let l := irigB004 { year := 24, day := 1, sod := 1 }
    l.length = 100 ∧ l[1]? = some .one ∧ l[30]? = some .one ∧ l[52]? = some .one ∧ l[56]? = some .one ∧ l[80]? = some .one ∧
    l[0]? = some .mark ∧ l[9]? = some .mark ∧ l[99]? = some .mark ∧ l[2]? = some .zero := by decide +kernel

/-- A frame read back from its pulses gives its time; a pulse of 3.8 ms is no element. -/
theorem test_irig_read : readFrame 4 { widths := (irigB004 { year := 24, day := 366, sod := 86400 }).map fun x => 1000 * symHighMs x, phase := 0 } =
    some { year := 24, day := 366, sod := 86400 } ∧ irigSym 3800 = none := by decide +kernel

/-- 2024-12-31 23:59:60 UTC, and the second after it (unix second 1735689600 is 2025-01-01 00:00:00). -/
theorem test_irig_leap : sendTime 1735689600 true = { year := 24, day := 366, sod := 86400 } ∧ sendTime 1735689600 false = { year := 25, day := 1, sod := 0 } ∧
    followsOne 4 { year := 24, day := 366, sod := 86400 } { year := 25, day := 1, sod := 0 } = true := by decide +kernel

/-! ### Single steps -/

/-- What a command answers, as plain data. -/
def after (c : Instr) (s : State) : State := match exec c s with | .next t => t | .fault _ | .refused _ => s

/-- Table 16.15: PORT_CURVE1 of port 45, TILE_THR1_STAT of tile 5, CRL_Q2_DROP, an unmapped word. -/
theorem test_addresses :
    regAt 0x12D244 = some (.portCurve 45 1) ∧ regAt 0x2B8108 = some (.thrStat 5 1) ∧ regAt 0x021094 = some (.qDrop 2) ∧ regAt 0x008428 = none ∧
    placeAt 0x003234 = .comp (.fltSrc 6) ∧ busyOf 0x12D244 = some 5 := by decide +kernel

/-- 03: physical port 45 is hub port 46, and 00: it is port 5 of tile 5. -/
theorem test_ports : hubPortOf 45 = 46 ∧ tileOf 45 = 5 ∧ laneOf 45 = 5 := by decide

/-- 13 Table 13.1: WEAVER_3 is bit 40 of FLT_STAT: its source number. -/
theorem test_weaver_source : fWeaver 3 = 40 := by decide

/-- The worked example of 02 R50: semaphore 2 is released by force with a guarded write; the status is OK. -/
theorem test_forced_release :
    let s := onAcc (fun x => { x with sems := x.sems.set 2 { owner := some .ws } }) running
    let t := after (.spiGuardedWrite 0x1020 0x12 0xFFFFFFED) s
    t.acc.sems[2].owner = none ∧ t.spi.status = 0 := by decide +kernel

/-- The worked example of 02 R68: the receiver's restart discards the word of H2S1, and the status register reads 0x8. -/
theorem test_receiver_reset :
    let s := { running with mbx := { running.mbx with box := running.mbx.box.set 1 { data := 0x00010003, full := true } } }
    let t := receiverReset 1 s
    t.mbx.box[1].full = false ∧ t.mbx.box[1].rcvReset = true ∧ (regRead .spi (.mbxStat 1) t).1 = 8 := by decide +kernel

/-- FIPS 180-4: the digest of the one-block message "abc". -/
theorem test_sha256_abc :
    sha256 [0x61, 0x62, 0x63] = toBytesHigh 32 0xBA7816BF8F01CFEA414140DE5DAE2223B00361A396177A9CB410FF61F20015AD := by decide +kernel

/-- IEEE 802.3 names the check value of its CRC-32 over the digits 1 to 9. -/
theorem test_crc32 : crc32 [0x31, 0x32, 0x33, 0x34, 0x35, 0x36, 0x37, 0x38, 0x39] = 0xCBF43926 := by decide +kernel

/-- R277, Table 9.6: 0x7FFFFFFF + 1 sets N and V, not C and Z; rd 0 discards. -/
theorem test_add_overflow :
    let s := onCpu .sup (fun c => { c with regs := (c.regs.set 1 0x7FFFFFFF).set 2 1 }) running
    let t := after (.add .sup 0 1 2 true) s
    (t.sup.n, t.sup.z, t.sup.c, t.sup.v, getReg t.sup 0, t.sup.pc) = (true, false, false, true, 0, 0x20004) := by decide +kernel

/-- An idle block: no command waits, and a step runs the one in front (log 1). -/
theorem test_front_command :
    step { running with pending := [.readResult, .spiStatus] } = exec .readResult { running with pending := [.spiStatus] } := rfl

/-- No row of the table gives a word of bits. -/
theorem test_words : decodeTableWord 32 0 = none ∧ State.reset.withFetchWord 32 0 = State.reset := ⟨rfl, rfl⟩

/-! ### Witnesses -/

/-- O1. -/
theorem witness_PsiAddAndSubtract :
    (issues (Core.weaver lastPort) running = true) := by
  decide +kernel

/-- O2. -/
theorem witness_PsiLogicAndMultiply :
    (issues (Core.weaver lastPort) running = true) := by
  decide +kernel

/-- O3. -/
theorem witness_PsiShiftAndCount :
    (issues Core.sup running = true) := by
  decide +kernel

/-- O4. -/
theorem witness_PsiConstantsCrcAndBranches :
    (issues (Core.weaver lastPort) running = true ∧ (getReg (cpuOf running (Core.weaver lastPort)) (0 : Reg)).toNat < 2 ^ 16) ∧
    (issues (Core.weaver lastPort) running = true ∧ (14 : Fin 16) ≠ 15) ∧
    (issues (Core.weaver lastPort) running = true ∧ ((getReg (cpuOf running (Core.weaver lastPort)) (0 : Reg)) +
      (0x100 : BitVec 18).signExtend 32).toNat % 4 = 0) ∧
    (issues (Core.weaver lastPort) running = true ∧ ((getReg (cpuOf running (Core.weaver lastPort)) (0 : Reg)) +
      (0x102 : BitVec 18).signExtend 32).toNat % 4 ≠ 0 ∧ (cpuOf running (Core.weaver lastPort)).ex = false) := by
  refine ⟨?_, ?_, ?_, ?_⟩ <;> decide +kernel

/-- O5. -/
theorem witness_PsiLocalLoads :
    (let x : LocalPlace := LocalPlace.ram (addrTile lastTile 0x7FFC) (.tileProg lastTile) 0x1FFF; issues (Core.weaver lastPort) running = true ∧
      localPlace (Core.weaver lastPort) .load ((getReg (cpuOf running (Core.weaver lastPort)) (0 : Reg) +
      (0x7FFC : BitVec 18).signExtend 32).toNat) = some x ∧ ((getReg (cpuOf running (Core.weaver lastPort)) (0 : Reg) +
      (0x7FFC : BitVec 18).signExtend 32).toNat) % 4 = 0 ∧ soundPlace running 4 x = true) ∧
    (let x : LocalPlace := LocalPlace.ram 0x41FFFE .codeTcm 0x7FFF; issues Core.sup running = true ∧ localPlace Core.sup .load ((getReg
      (cpuOf running Core.sup) (0 : Reg) + (0x1FFFE : BitVec 18).signExtend 32).toNat) = some x ∧ ((getReg (cpuOf running Core.sup) (0 : Reg) +
      (0x1FFFE : BitVec 18).signExtend 32).toNat) % 2 = 0 ∧ soundPlace running 2 x = true) ∧
    (let s : State := onCpu Core.sup ({ · with regs := Vector.replicate 16 0xF1FFFF#32 }) running; let x : LocalPlace := LocalPlace.rom 0x1FFFF;
      issues Core.sup s = true ∧ localPlace Core.sup .load ((getReg (cpuOf s Core.sup) (15 : Reg) +
      (0 : BitVec 18).signExtend 32).toNat) = some x ∧ soundPlace s 1 x = true) ∧
    (let x : LocalPlace := LocalPlace.ram (addrTile lastTile 0x7FF8) (.tileProg lastTile) 0x1FFE; issues (Core.weaver lastPort) running = true ∧
      localPlace (Core.weaver lastPort) .load ((getReg (cpuOf running (Core.weaver lastPort)) (0 : Reg) +
      (0x7FF8 : BitVec 18).signExtend 32).toNat) = some x ∧ ((getReg (cpuOf running (Core.weaver lastPort)) (0 : Reg) +
      (0x7FF8 : BitVec 18).signExtend 32).toNat) % 8 = 0 ∧ (14 : Reg).val % 2 = 0 ∧ soundPlace running 8 x = true) := by
  refine ⟨?_, ?_, ?_, ?_⟩ <;> decide +kernel

/-- O6. -/
theorem witness_PsiLocalStores :
    (issues (Core.weaver lastPort) running = true ∧ localPlace (Core.weaver lastPort) .store ((getReg (cpuOf running (Core.weaver lastPort))
      (0 : Reg) + (0x107F8 : BitVec 18).signExtend 32).toNat) = some (.ram (addrTile lastTile 0x13FF8) (EccMem.tileData lastTile) 0xFFE) ∧
      (eccAt running (EccMem.tileData lastTile) 0xFFE).isNone = true ∧ (eccAt running (EccMem.tileData lastTile) (0xFFE + 1)).isNone = true ∧
      injArmed running 0 1 (injTarget (EccMem.tileData lastTile)) = false ∧ (14 : Reg).val % 2 = 0) := by
  decide +kernel

/-- O7. -/
theorem witness_PsiDeviceAccess :
    ((getReg (cpuOf running Core.sup) (0 : Reg) + (0x1010 : BitVec 16).setWidth 32).toNat = 0x1010 ∧ 0x1010 < 2 ^ 24 ∧ 0x1010 % 4 = 0 ∧
      issues Core.sup running = true ∧ readStalls Core.sup 0x1010 running = false ∧ readable
      (masterOf Core.sup) Rg.accLock 0x1010 running = true ∧ regRead (masterOf Core.sup) Rg.accLock running = ((0#32), running)) ∧
    ((getReg (cpuOf running (Core.weaver lastPort)) (0 : Reg) + (0x1010 : BitVec 16).setWidth 32).toNat = 0x1010 ∧ 0x1010 < 2 ^ 24 ∧
      0x1010 % 4 = 0 ∧ issues (Core.weaver lastPort) running = true ∧ readStalls (Core.weaver lastPort) 0x1010 running = true) ∧
    ((getReg (cpuOf running Core.sup) (0 : Reg) + (0x2000 : BitVec 16).setWidth 32).toNat = 0x2000 ∧ 0x2000 < 2 ^ 24 ∧ 0x2000 % 4 = 0 ∧
      issues Core.sup running = true ∧ writable (masterOf Core.sup) Rg.mbxTimeout 0x2000 (getReg (cpuOf running Core.sup)
      (14 : Reg)) running = true) ∧
    (let s : State := onCpu Core.sup ({ · with st := .stallRld, stall := .rld 14 0x1010 .word }) running; (cpuOf s Core.sup).st = .stallRld ∧
      (cpuOf s Core.sup).stall = .rld (14 : Reg) 0x1010 .word ∧ clocksRun s = true ∧ 0x1010 < 2 ^ 24 ∧ readable
      (masterOf Core.sup) Rg.accLock 0x1010 s = true ∧ regRead (masterOf Core.sup) Rg.accLock s = ((0#32), s)) ∧
    (let s : State := onCpu Core.sup ({ · with st := .stallRld, stall := .rld 14 0x30000 .word }) running; s.sup.st = .stallRld ∧
      s.sup.stall = .rld (14 : Reg) 0x30000 .word ∧ (tileOfAddr 0x30000).isSome = true) ∧
    (issues Core.sup running = true ∧ fenceWaits Core.sup running = false) ∧
    (let s : State := { running with acc := { running.acc with busy := running.acc.busy.set 9 (some { addr := 0x483C, value := 0, master := .sup }) } };
      issues Core.sup s = true ∧ fenceWaits Core.sup s = true) ∧
    (let s : State := onCpu Core.sup ({ · with st := .stallFence }) running; (cpuOf s Core.sup).st = .stallFence ∧ fenceWaits Core.sup s = false) := by
  refine ⟨?_, ?_, ?_, ?_, ?_, ?_, ?_, ?_⟩ <;> decide +kernel

/-- O8. -/
theorem witness_PsiSpecialRegisters :
    (issues Core.sup running = true ∧ Core.sup = .sup) ∧
    (issues Core.sup running = true ∧ (11 ≤ (11 : BitVec 12).toNat ∨ ((11 : BitVec 12).toNat = 10 ∧ Core.sup ≠ .sup))) := by
  refine ⟨?_, ?_⟩ <;> decide +kernel

/-- O9. -/
theorem witness_PsiTrapsInterruptsAndReturn :
    (issues (Core.weaver lastPort) running = true ∧ (cpuOf running (Core.weaver lastPort)).ex = false) ∧
    (let s : State := onCpu (Core.weaver lastPort) ({ · with ex := true }) running; issues (Core.weaver lastPort) s = true ∧ (cpuOf s
      (Core.weaver lastPort)).ex = true) ∧
    (let s : State := onCpu Core.sup ({ · with ie := true, ien := 1, epend := 1 }) running; supUp s = true ∧ clocksRun s = true ∧
      s.crp.st = .run ∧ ((s.sup.st = .running ∨ s.sup.st = .ewait ∨ s.sup.st = .wait)) ∧ s.sup.ie = true ∧ s.sup.ex = false ∧
      ependOf s .sup &&& s.sup.ien ≠ 0) ∧
    (let s : State := { running with flt := { running.flt with nmi := true } }; s.flt.nmi = true ∧ supUp s = true ∧ clocksRun s = true ∧
      ((s.crp.st = .run ∨ s.crp.st = .idle)) ∧ s.sup.ex = false) := by
  refine ⟨?_, ?_, ?_, ?_⟩ <;> decide +kernel

/-- O10. -/
theorem witness_PsiEventsAndWaiting :
    (let s : State := onCpu (Core.weaver lastPort) ({ · with emask := 1, epend := 1 }) running; issues (Core.weaver lastPort) s = true ∧ ependOf s
      (Core.weaver lastPort) &&& (if (0 : Reg) = 0 then (cpuOf s (Core.weaver lastPort)).emask else getReg (cpuOf s (Core.weaver lastPort))
      (0 : Reg)) ≠ 0 ∧ ((Core.weaver lastPort) = .weaver lastPort ∨ fld s.crp.mode 2 0 < 2)) ∧
    (issues (Core.weaver lastPort) running = true ∧ ependOf running (Core.weaver lastPort) &&& (if (0 : Reg) = 0 then (cpuOf running
      (Core.weaver lastPort)).emask else getReg (cpuOf running (Core.weaver lastPort)) (0 : Reg)) = 0 ∧ (Core.weaver lastPort) = .weaver lastPort) ∧
    (issues Core.sup running = true ∧ ependOf running Core.sup &&& (if (0 : Reg) = 0 then (cpuOf running Core.sup).emask else getReg
      (cpuOf running Core.sup) (0 : Reg)) = 0 ∧ Core.sup = .sup ∧ fld running.crp.mode 2 0 = 0) ∧
    (let s : State := { running with crp := { running.crp with mode := 1 } }; issues Core.sup s = true ∧ ependOf s Core.sup &&& (if
      (0 : Reg) = 0 then (cpuOf s Core.sup).emask else getReg (cpuOf s Core.sup) (0 : Reg)) = 0 ∧ Core.sup = .sup ∧ fld s.crp.mode 2 0 = 1) ∧
    (let s : State := onCpu (Core.weaver lastPort) ({ · with st := .ewait, waitMask := 1, epend := 1 }) running;
      (Core.weaver lastPort) = .weaver lastPort ∧ (((cpuOf s (Core.weaver lastPort)).st = .ewait ∨ (cpuOf s (Core.weaver lastPort)).st = .wait)) ∧
      weaverUp s lastPort = true ∧ clocksRun s = true ∧ ependOf s (Core.weaver lastPort) &&& (cpuOf s (Core.weaver lastPort)).waitMask ≠ 0) ∧
    (let s : State := onCpu Core.sup ({ · with st := .wait, waitMask := 1, epend := 1 }) running; Core.sup = .sup ∧
      (((cpuOf s Core.sup).st = .ewait ∨ (cpuOf s Core.sup).st = .wait)) ∧ supUp s = true ∧ ((s.crp.st = .run ∨ s.crp.st = .idle)) ∧
      clocksRun s = true ∧ ependOf s Core.sup &&& (cpuOf s Core.sup).waitMask ≠ 0) ∧
    ((Core.weaver lastPort) = .weaver lastPort ∧ issues (Core.weaver lastPort) running = true ∧ 8 ≤ (8 : BitVec 12).toNat) := by
  refine ⟨?_, ?_, ?_, ?_, ?_, ?_, ?_⟩ <;> decide +kernel

/-- O11. -/
theorem witness_PsiTimersAndStamps :
    (let s : State := onCpu (Core.weaver lastPort) ({ · with timers := Vector.replicate 4 { start := 1000000 } }) running; (cpuOf s
      (Core.weaver lastPort)).timers[(3 : Fin 4)].start = s.now) ∧
    (let s : State := onCpu (Core.weaver lastPort) ({ · with regs := Vector.replicate 16 0xFFFFFFF#32 }) running; issues
      (Core.weaver lastPort) s = true ∧ ((getReg (cpuOf s (Core.weaver lastPort)) (15 : Reg)).toNat % 2 ^ 28) ≠ 0) ∧
    (issues (Core.weaver lastPort) running = true ∧ ((getReg (cpuOf running (Core.weaver lastPort)) (15 : Reg)).toNat % 2 ^ 28) = 0) ∧
    (issues (Core.weaver lastPort) running = true ∧ (if true then (0x1FFFF : BitVec 17).toNat * 1000 else (0x1FFFF : BitVec 17).toNat) ≠ 0) ∧
    (issues (Core.weaver lastPort) running = true ∧ (if true then (0 : BitVec 17).toNat * 1000 else (0 : BitVec 17).toNat) = 0) ∧
    (issues (Core.weaver lastPort) running = true ∧ (3 : BitVec 12).toNat % 4 = (3 : Fin 4).val) ∧
    (issues (Core.weaver lastPort) running = true ∧ (14 : Reg).val % 2 = 0 ∧ (4 : BitVec 12).toNat % 8 = (3 : Fin 4).val + 1) ∧
    (issues (Core.weaver lastPort) running = true ∧ (14 : Reg).val % 2 = 0 ∧ (8 : BitVec 12).toNat % 8 = 0) ∧
    (issues (Core.weaver lastPort) running = true ∧ (Core.weaver lastPort) = .weaver lastPort ∧ (14 : Reg).val % 2 = 0 ∧
      (5 : BitVec 12).toNat % 8 = 5) ∧
    (issues (Core.weaver lastPort) running = true ∧ (Core.weaver lastPort) = .weaver lastPort ∧ (14 : Reg).val % 2 = 0 ∧
      (6 : BitVec 12).toNat % 8 = 6) ∧
    (issues (Core.weaver lastPort) running = true ∧ (Core.weaver lastPort) = .weaver lastPort ∧ (14 : Reg).val % 2 = 0 ∧
      (7 : BitVec 12).toNat % 8 = 7) := by
  refine ⟨?_, ?_, ?_, ?_, ?_, ?_, ?_, ?_, ?_, ?_, ?_⟩ <;> decide +kernel

/-- O12. -/
theorem witness_PsiRecordsAndMailboxes :
    (issues (Core.weaver lastPort) running = true ∧ (0x2F : BitVec 12).toNat < 64 ∧ postSource (Core.weaver lastPort)
      (0x2F : BitVec 12).toNat = some (srcTile lastTile) ∧ (14 : Reg).val % 2 = 0 ∧ (14 : Reg) ≠ 0 ∧ ((running.posts.filter fun x => x.1 == (match
      (Core.weaver lastPort) with | .weaver p => .tilePost (tileOf p) | .sup => .supPost : PostSource)).length) < (match
      (Core.weaver lastPort) with | .weaver _ => 16 | .sup => 8 : Nat)) ∧
    (issues (Core.weaver lastPort) running = true ∧ (0x0B : BitVec 12).toNat < 64 ∧ postSource (Core.weaver lastPort)
      (0x0B : BitVec 12).toNat = some (srcPort lastPort) ∧ ((running.posts.filter fun x => x.1 == (match
      (Core.weaver lastPort) with | .weaver p => .tilePost (tileOf p) | .sup => .supPost : PostSource)).length) < (match
      (Core.weaver lastPort) with | .weaver _ => 16 | .sup => 8 : Nat)) ∧
    (issues (Core.weaver lastPort) { running with posts := List.replicate 16 (PostSource.tilePost lastTile, aRecord) } = true ∧ postSource
      (Core.weaver lastPort) 0x2F = some (srcTile lastTile) ∧ 16 ≤
      (({ running with posts := List.replicate 16 (PostSource.tilePost lastTile, aRecord) }).posts.filter fun x : PostSource × Record => x.1 == PostSource.tilePost lastTile).length) ∧
    (issues (Core.weaver lastPort) running = true ∧ (0 : BitVec 12).toNat < 16 ∧ sendBox (Core.weaver lastPort) ((getReg (cpuOf running
      (Core.weaver lastPort)) (0 : Reg) + (0 : BitVec 12).setWidth 32).toNat % 16) = some (23 : Fin 24) ∧
      (running.mbx.box[(23 : Fin 24)]).full = false) ∧
    (let s : State := { running with mbx := { running.mbx with box := Vector.replicate 24 { full := true } } }; issues
      (Core.weaver lastPort) s = true ∧ (0 : BitVec 12).toNat < 16 ∧ sendBox (Core.weaver lastPort) ((getReg (cpuOf s (Core.weaver lastPort))
      (0 : Reg) + (0 : BitVec 12).setWidth 32).toNat % 16) = some (23 : Fin 24) ∧ (s.mbx.box[(23 : Fin 24)]).full = true) ∧
    (let s : State := onCpu (Core.weaver lastPort) ({ · with st := .stallSend, stall := .send 0 1#32 }) running; (cpuOf s
      (Core.weaver lastPort)).st = .stallSend ∧ (cpuOf s (Core.weaver lastPort)).stall = .send (0 : Fin 24) (1#32) ∧ clocksRun s = true ∧
      (s.mbx.box[(0 : Fin 24)]).full = false ∧ ((∀ p, (Core.weaver lastPort) = .weaver p → (s.port p).tc.st = .unattached ∧
      (s.port p).tc.ocDue = false ∧ (s.port p).pd.late = [] ∧ tcEn s p = true ∧ withdrawn s p = false))) ∧
    (let s : State := { running with mbx := { running.mbx with box := Vector.replicate 24 { full := true } } }; issues Core.sup s = true ∧
      (15 : BitVec 12).toNat < 16 ∧ recvBox Core.sup ((getReg (cpuOf s Core.sup) (0 : Reg) + (15 : BitVec 12).setWidth 32).toNat % 16) = some
      (23 : Fin 24) ∧ wordWaits s Core.sup (23 : Fin 24) = true ∧ s.bud.up = [] ∧ s.bud.down = []) ∧
    (issues Core.sup running = true ∧ (3 : BitVec 12).toNat < 16 ∧ recvBox Core.sup ((getReg (cpuOf running Core.sup) (0 : Reg) +
      (3 : BitVec 12).setWidth 32).toNat % 16) = some (3 : Fin 24) ∧ wordWaits running Core.sup (3 : Fin 24) = false) ∧
    (issues Core.sup running = true ∧ (3 : BitVec 12).toNat < 16 ∧ (sendBox Core.sup ((getReg (cpuOf running Core.sup) (0 : Reg) +
      (3 : BitVec 12).setWidth 32).toNat % 16)).isSome = true) := by
  refine ⟨?_, ?_, ?_, ?_, ?_, ?_, ?_, ?_, ?_⟩ <;> decide +kernel

/-- O13. -/
theorem witness_PsiPortInstructions :
    (let s : State := onPhy ({ · with slots := [{ msg := {}, stamp := {} }] }) running; issues (.weaver lastPort : Core) s = true ∧
      (s.port lastPort).phy.slots = ({ msg := {}, stamp := {} } : Slot) :: ([] : List Slot)) ∧
    (issues (.weaver lastPort : Core) running = true ∧ (running.port lastPort).phy.slots = [] ∧ ((10 : BitVec 12).toNat % 16) = 10) ∧
    (issues (.weaver lastPort : Core) running = true ∧ (15 : BitVec 12).toNat % 8 = 7 ∧ (((7 = 0 ∧ Frame.hardReset = Frame.sop) ∨ (7 = 1 ∧
      Frame.hardReset = .sop1) ∨ (7 = 7 ∧ Frame.hardReset = .hardReset))) ∧ (running.port lastPort).phy.tx = none) ∧
    (let s : State := onPhy ({ · with tx := some { msg := {} } }) running; issues (.weaver lastPort : Core) s = true ∧
      (15 : BitVec 12).toNat % 8 = 7 ∧ (((7 = 0 ∧ Frame.hardReset = Frame.sop) ∨ (7 = 1 ∧ Frame.hardReset = .sop1) ∨ (7 = 7 ∧
      Frame.hardReset = .hardReset))) ∧ ((s.port lastPort).phy.tx.isSome = true ∨ false = true)) ∧
    (issues (.weaver lastPort : Core) running = true ∧ (3 : Byte).toNat < 4) ∧
    (issues (.weaver lastPort : Core) running = true ∧ (2 : Byte).toNat < 3) ∧
    (issues (.weaver lastPort : Core) running = true ∧ (0 : Byte) = 0) ∧
    (issues (.weaver lastPort : Core) busy = true ∧ (1 : Byte) = 1 ∧ (busy.port lastPort).tc.ccsel ≠ .none ∧
      (busy.port lastPort).tc.vconnOc = false ∧ false = false) ∧
    (issues (.weaver lastPort : Core) running = true ∧ (1 : Byte) = 1 ∧ (((running.port lastPort).tc.ccsel = .none ∨
      (running.port lastPort).tc.vconnOc = true ∨ true = true))) ∧
    (issues (.weaver lastPort : Core) running = true ∧ (5 : Byte).toNat < 6 ∧ (5 : Byte) ≠ 4) ∧
    (issues (.weaver lastPort : Core) running = true ∧ (4 : Byte) = 4) := by
  refine ⟨?_, ?_, ?_, ?_, ?_, ?_, ?_, ?_, ?_, ?_, ?_⟩ <;> decide +kernel

/-- O14. -/
theorem witness_PsiIllegalInstructions :
    (issues (Core.weaver lastPort) running = true ∧ (15 : Reg) ≠ 0) ∧
    (issues (Core.weaver lastPort) running = true ∧ 256 ≤ (256 : BitVec 18).toNat) ∧
    (issues (Core.weaver lastPort) running = true ∧ (8 ≤ (8 : BitVec 6).toNat ∨ true = true)) ∧
    (issues (Core.weaver lastPort) running = true ∧ (15 : Reg).val % 2 = 1 ∧ (0x3FFFF : BitVec 18).toNat / 2 ^ 16 = 3) ∧
    (issues (Core.weaver lastPort) running = true ∧ (11 ≤ (64 : BitVec 12).toNat ∨ ((64 : BitVec 12).toNat = 10 ∧ (Core.weaver lastPort) ≠ .sup))) ∧
    (issues (Core.weaver lastPort) running = true ∧ 4 ≤ (15 : Reg).val) ∧
    (issues (Core.weaver lastPort) running = true ∧ (64 ≤ (64 : BitVec 12).toNat ∨ postSource (Core.weaver lastPort)
      (64 : BitVec 12).toNat = none)) ∧
    (issues (Core.weaver lastPort) running = true ∧ (16 ≤ (64 : BitVec 12).toNat ∨ sendBox (Core.weaver lastPort) ((getReg (cpuOf running
      (Core.weaver lastPort)) (15 : Reg) + (64 : BitVec 12).setWidth 32).toNat % 16) = none)) ∧
    (issues (Core.weaver lastPort) running = true ∧ (16 ≤ (64 : BitVec 12).toNat ∨ recvBox (Core.weaver lastPort) ((getReg (cpuOf running
      (Core.weaver lastPort)) (15 : Reg) + (64 : BitVec 12).setWidth 32).toNat % 16) = none)) ∧
    (issues Core.sup running = true ∧ Core.sup = .sup ∧ 5 ≤ (5 : BitVec 12).toNat % 8 ∧ (14 : Reg).val % 2 = 0) ∧
    (issues (Core.weaver lastPort) running = true ∧ (Core.weaver lastPort) ≠ .sup ∧ 8 ≤ (64 : BitVec 12).toNat) ∧
    (issues (Core.weaver lastPort) running = true ∧ (Core.weaver lastPort) ≠ .sup ∧ (2 : BitVec 12).toNat % 8 ≠ 0 ∧
      (2 : BitVec 12).toNat % 8 ≠ 1 ∧ (2 : BitVec 12).toNat % 8 ≠ 7) ∧
    (issues (Core.weaver lastPort) running = true ∧ (Core.weaver lastPort) ≠ .sup ∧ 4 ≤ (6 : Byte).toNat) ∧
    (issues (Core.weaver lastPort) running = true ∧ (Core.weaver lastPort) ≠ .sup ∧ 3 ≤ (6 : Byte).toNat) ∧
    (issues (Core.weaver lastPort) running = true ∧ (Core.weaver lastPort) ≠ .sup ∧ 2 ≤ (6 : Byte).toNat) ∧
    (issues (Core.weaver lastPort) running = true ∧ (Core.weaver lastPort) ≠ .sup ∧ 6 ≤ (6 : Byte).toNat) ∧
    (issues Core.sup running = true ∧ Core.sup = .sup ∧ 16 ≤ (16 : BitVec 12).toNat) ∧
    (issues Core.sup running = true ∧ Core.sup = .sup ∧ (15 : Reg) ≠ 0) ∧
    (issues (Core.weaver lastPort) running = true ∧ (cpuOf running (Core.weaver lastPort)).ex = false) := by
  refine ⟨?_, ?_, ?_, ?_, ?_, ?_, ?_, ?_, ?_, ?_, ?_, ?_, ?_, ?_, ?_, ?_, ?_, ?_, ?_⟩ <;> decide +kernel

/-- O15. -/
theorem witness_PsiExceptionEntry :
    (issues (Core.weaver lastPort) running = true ∧ ((getReg (cpuOf running (Core.weaver lastPort)) (0 : Reg) +
      (0x1FFFF : BitVec 18).signExtend 32).toNat % 4 ≠ 0 ∨ localPlace (Core.weaver lastPort) .load (getReg (cpuOf running (Core.weaver lastPort))
      (0 : Reg) + (0x1FFFF : BitVec 18).signExtend 32).toNat = none)) ∧
    (issues (Core.weaver lastPort) running = true ∧ ((getReg (cpuOf running (Core.weaver lastPort)) (0 : Reg) +
      (0x1FFFF : BitVec 18).signExtend 32).toNat % 2 ≠ 0 ∨ localPlace (Core.weaver lastPort) .load (getReg (cpuOf running (Core.weaver lastPort))
      (0 : Reg) + (0x1FFFF : BitVec 18).signExtend 32).toNat = none)) ∧
    (issues (Core.weaver lastPort) running = true ∧ ((getReg (cpuOf running (Core.weaver lastPort)) (0 : Reg) +
      (0x1FFFF : BitVec 18).signExtend 32).toNat % 1 ≠ 0 ∨ localPlace (Core.weaver lastPort) .load (getReg (cpuOf running (Core.weaver lastPort))
      (0 : Reg) + (0x1FFFF : BitVec 18).signExtend 32).toNat = none)) ∧
    (issues (Core.weaver lastPort) running = true ∧ ((getReg (cpuOf running (Core.weaver lastPort)) (0 : Reg) +
      (0x1FFFF : BitVec 18).signExtend 32).toNat % 8 ≠ 0 ∨ localPlace (Core.weaver lastPort) .load (getReg (cpuOf running (Core.weaver lastPort))
      (0 : Reg) + (0x1FFFF : BitVec 18).signExtend 32).toNat = none) ∧ (14 : Reg).val % 2 = 0) ∧
    (issues (Core.weaver lastPort) running = true ∧ ((getReg (cpuOf running (Core.weaver lastPort)) (0 : Reg) +
      (0x1FFFF : BitVec 18).signExtend 32).toNat % 4 ≠ 0 ∨ localPlace (Core.weaver lastPort) .store (getReg (cpuOf running (Core.weaver lastPort))
      (0 : Reg) + (0x1FFFF : BitVec 18).signExtend 32).toNat = none)) ∧
    (issues (Core.weaver lastPort) running = true ∧ ((getReg (cpuOf running (Core.weaver lastPort)) (0 : Reg) +
      (0x1FFFF : BitVec 18).signExtend 32).toNat % 2 ≠ 0 ∨ localPlace (Core.weaver lastPort) .store (getReg (cpuOf running (Core.weaver lastPort))
      (0 : Reg) + (0x1FFFF : BitVec 18).signExtend 32).toNat = none)) ∧
    (issues (Core.weaver lastPort) running = true ∧ ((getReg (cpuOf running (Core.weaver lastPort)) (0 : Reg) +
      (0x1FFFF : BitVec 18).signExtend 32).toNat % 1 ≠ 0 ∨ localPlace (Core.weaver lastPort) .store (getReg (cpuOf running (Core.weaver lastPort))
      (0 : Reg) + (0x1FFFF : BitVec 18).signExtend 32).toNat = none)) ∧
    (issues (Core.weaver lastPort) running = true ∧ ((getReg (cpuOf running (Core.weaver lastPort)) (0 : Reg) +
      (0x1FFFF : BitVec 18).signExtend 32).toNat % 8 ≠ 0 ∨ localPlace (Core.weaver lastPort) .store (getReg (cpuOf running (Core.weaver lastPort))
      (0 : Reg) + (0x1FFFF : BitVec 18).signExtend 32).toNat = none) ∧ (14 : Reg).val % 2 = 0) ∧
    (issues (Core.weaver lastPort) running = true ∧ (getReg (cpuOf running (Core.weaver lastPort)) (0 : Reg) +
      (0x1FFFF : BitVec 18).signExtend 32).toNat % 4 ≠ 0) ∧
    (let s : State := { running with ecc := [⟨.codeTcm, 0, true⟩] }; issues Core.sup s = true ∧ (cpuOf s Core.sup).ex = false ∧ (getReg
      (cpuOf s Core.sup) (0 : Reg) + (0 : BitVec 18).signExtend 32).toNat % 4 = 0 ∧ localPlace Core.sup .load (getReg (cpuOf s Core.sup)
      (0 : Reg) + (0 : BitVec 18).signExtend 32).toNat = some (.ram 0x400000 EccMem.codeTcm 0) ∧ eccAt s EccMem.codeTcm 0 = some true) ∧
    (let s : State := onCpu (Core.weaver lastPort) ({ · with pc := 0x8000 }) running; executes s (Core.weaver lastPort) = true ∧
      lockstepArmed s = false ∧ (((cpuOf s (Core.weaver lastPort)).pc.toNat % 4 ≠ 0 ∨ localPlace (Core.weaver lastPort) .fetch (cpuOf s
      (Core.weaver lastPort)).pc.toNat = none))) ∧
    (let s : State := { running with mem := memPutWord [] (addrTile lastTile 0x100) 0xFFFFFFFF#32 }; executes s (Core.weaver lastPort) = true ∧
      lockstepArmed s = false ∧ (cpuOf s (Core.weaver lastPort)).pc.toNat % 4 = 0 ∧ localPlace (Core.weaver lastPort) .fetch (cpuOf s
      (Core.weaver lastPort)).pc.toNat = some (.ram (addrTile lastTile 0x100) (.tileProg lastTile) 0x40) ∧ cleanPlace s (.ram
      (addrTile lastTile 0x100) (.tileProg lastTile) 0x40) = true ∧ decodePsi (wordAt s (.ram (addrTile lastTile 0x100)
      (.tileProg lastTile) 0x40)) = none) ∧
    (((0xFFFFFFFF#32) = 0xFFFFFFFF#32 ∨ ((10 ≤ ((0xFFFFFFFF#32).toNat / 2 ^ 26) ∧ ((0xFFFFFFFF#32).toNat / 2 ^ 26) ≤ 14) ∨
      ((0xFFFFFFFF#32).toNat / 2 ^ 26) = 26 ∨ ((0xFFFFFFFF#32).toNat / 2 ^ 26) = 27 ∨ ((0xFFFFFFFF#32).toNat / 2 ^ 26) = 30 ∨
      ((0xFFFFFFFF#32).toNat / 2 ^ 26) = 31 ∨ (35 ≤ ((0xFFFFFFFF#32).toNat / 2 ^ 26) ∧ ((0xFFFFFFFF#32).toNat / 2 ^ 26) ≤ 39) ∨ 47 ≤
      ((0xFFFFFFFF#32).toNat / 2 ^ 26)) ∨ ((0xFFFFFFFF#32).toNat / 2 ^ 26 = 0 ∧ (0xFFFFFFFF#32).toNat / 64 % 128 ≠ 0))) ∧
    ((cpuOf running (Core.weaver lastPort)).ex = false) ∧
    (let s : State := onCpu (Core.weaver lastPort) ({ · with ex := true }) running; (Core.weaver lastPort) = .weaver lastPort ∧ (cpuOf s
      (Core.weaver lastPort)).ex = true) := by
  refine ⟨?_, ?_, ?_, ?_, ?_, ?_, ?_, ?_, ?_, ?_, ?_, ?_, ?_, ?_, ?_⟩ <;> decide +kernel

/-- O16. -/
theorem witness_RegisterWriteChecks :
    (((Master.sup = .sup ∨ ∃ t, Master.sup = .weaver t)) ∧ writable Master.sup (Rg.teamQmask 0) ((0x800C : Addr).toNat) (0#32) running = true) ∧
    (((Master.sup = .sup ∨ ∃ t, Master.sup = .weaver t)) ∧ placeFor Master.sup true ((0x483C : Addr).toNat) running = .reg Rg.crpRetData ∧
      ((0x483C : Addr).toNat) % 4 = 0 ∧ openAt running ((0x483C : Addr).toNat) = true ∧ Rg.crpRetData.guarded = false ∧
      isLocked running Rg.crpRetData = false ∧ barred running Rg.crpRetData (0#32) = false ∧ isPosted Master.sup Rg.crpRetData
      ((0x483C : Addr).toNat) = true ∧ busyOf ((0x483C : Addr).toNat) = some (9 : Fin 10)) ∧
    (((Master.sup = .sup ∨ ∃ t, Master.sup = .weaver t)) ∧ clocksRun running = true ∧ ((0x10 : Addr).toNat) % 4 = 0 ∧ placeFor Master.sup true
      ((0x10 : Addr).toNat) running = .none) ∧
    (let s : State := onAcc ({ · with lock := 0x7FF }) running; ((Master.sup = .sup ∨ ∃ t, Master.sup = .weaver t)) ∧ clocksRun s = true ∧
      ((0x8000 : Addr).toNat) % 4 = 0 ∧ placeFor Master.sup true ((0x8000 : Addr).toNat) s = .reg (Rg.teamCtl 0) ∧
      (Rg.teamCtl 0).guarded = false ∧ (s.acc.held.all fun h => blockOf h.addr != blockOf ((0x8000 : Addr).toNat)) = true ∧ isLocked s
      (Rg.teamCtl 0) = true) ∧
    (let s : State := { running with acc := { running.acc with busy := running.acc.busy.set 9 (some { addr := 0x483C, value := 0, master := .sup }) } };
      ((Master.sup = .sup ∨ ∃ t, Master.sup = .weaver t)) ∧ clocksRun s = true ∧ ((0x483C : Addr).toNat) % 4 = 0 ∧ placeFor Master.sup true
      ((0x483C : Addr).toNat) s = .reg Rg.crpRetData ∧ Rg.crpRetData.guarded = false ∧ (s.acc.held.all fun h => blockOf h.addr != blockOf
      ((0x483C : Addr).toNat)) = true ∧ isLocked s Rg.crpRetData = false ∧ barred s Rg.crpRetData (0#32) = false ∧ busyAt s (some Rg.crpRetData)
      ((0x483C : Addr).toNat) = true) ∧
    (((Master.sup = .sup ∨ ∃ t, Master.sup = .weaver t)) ∧ clocksRun running = true ∧ placeFor Master.sup true
      ((0x800C : Addr).toNat) running = .reg (Rg.teamQmask 0) ∧ (running.acc.held.all fun h => blockOf h.addr != blockOf
      ((0x800C : Addr).toNat)) = true) ∧
    (((Master.sup = .sup ∨ ∃ t, Master.sup = .weaver t)) ∧ clocksRun running = true ∧ ((0x1 : Addr).toNat) % 4 ≠ 0) ∧
    ((Master.sup = .sup ∨ ∃ t, Master.sup = .weaver t) ∧ capHeld running.acc = false ∧ 7 < 8) := by
  refine ⟨?_, ?_, ?_, ?_, ?_, ?_, ?_, ?_⟩ <;> decide +kernel

/-- O17. -/
theorem witness_SpiTransactions :
    (spiIdle running = true ∧ writable .spi Rg.mbxTimeout ((0x2000 : Addr).toNat) (0#32) running = true) ∧
    (spiIdle running = true ∧ guardOpen .spi Rg.accLock ((0x1010 : Addr).toNat) (0#32) running = true ∧ (0#32) ≠ ~~~(0#32)) ∧
    (spiIdle running = true ∧ readable .spi Rg.accLock ((0x1010 : Addr).toNat) running = true ∧ Rg.accLock.slow = false ∧
      regRead .spi Rg.accLock running = ((0#32), running)) ∧
    (let s : State := onTile ({ · with ready := false }) running; spiIdle s = true ∧ readable .spi (Rg.grpCfg lastTile)
      ((0x31C00 : Addr).toNat) s = true ∧ (Rg.grpCfg lastTile).slow = true ∧ ((∃ x, tileOfAddr ((0x31C00 : Addr).toNat) = some x ∧
      (s.tile x).ready = false))) ∧
    (spiIdle running = true ∧ spiBits (0x0E : Byte) = none) ∧
    (spiIdle running = true ∧ spiBits (0x0D : Byte) = some 56 ∧ 64 ≠ 56 ∧ 8 ≤ 64) ∧
    (let s : State := onSpi ({ · with pending := some 0x1010 }) running; spiUp s = true ∧ s.spi.pending = some (0x1010 : Addr) ∧
      readable .spi Rg.accLock ((0x1010 : Addr).toNat) s = true ∧ regRead .spi Rg.accLock s = ((0#32), (onSpi
      ({ · with pending := some 0x1010 }) running))) := by
  refine ⟨?_, ?_, ?_, ?_, ?_, ?_, ?_⟩ <;> decide +kernel

/-- O18. -/
theorem witness_WakeSerialTransactions :
    ((0x4F : BitVec 7) ≠ running.crp.wsAddr) ∧
    ((0x4E : BitVec 7) = running.crp.wsAddr ∧ wsIdle running = true ∧ domainUp ((0x2000 : Addr).toNat) running = true ∧ writable .ws Rg.mbxTimeout
      ((0x2000 : Addr).toNat) (0#32) running = true) ∧
    ((0x4E : BitVec 7) = running.crp.wsAddr ∧ wsIdle running = true ∧ domainUp ((0x1010 : Addr).toNat) running = true ∧ guardOpen .ws Rg.accLock
      ((0x1010 : Addr).toNat) (0#32) running = true) ∧
    ((0x4E : BitVec 7) = running.crp.wsAddr ∧ wsIdle running = true ∧ domainUp ((0x1010 : Addr).toNat) running = true ∧ readable .ws Rg.accLock
      ((0x1010 : Addr).toNat) running = true ∧ regRead .ws Rg.accLock running = ((0#32), running)) ∧
    ((0x4E : BitVec 7) = running.crp.wsAddr ∧ wsIdle running = true ∧ domainUp ((0x400000 : Addr).toNat) running = true ∧ coreUp running = true ∧
      placeFor .ws true ((0x400000 : Addr).toNat) running = .none) ∧
    ((0x4E : BitVec 7) = running.crp.wsAddr ∧ wsIdle running = true ∧ domainUp ((0x2000 : Addr).toNat) running = true ∧ placeFor .ws true
      ((0x2000 : Addr).toNat) running = .reg Rg.mbxTimeout ∧ ((0x2000 : Addr).toNat) % 4 = 0 ∧ Rg.mbxTimeout.guarded = false) ∧
    (clocksRun running = true ∧ (if true then running.ws.lost else running.spi.lost) = false) := by
  refine ⟨?_, ?_, ?_, ?_, ?_, ?_, ?_⟩ <;> decide +kernel

/-- O19. -/
theorem witness_LocksSemaphoresAndMailboxes :
    (holderOf Master.sup = some Holder.sup ∧ (running.acc.sems[(15 : Fin 16)]).owner = none) ∧
    (let s : State := onAcc (fun x => { x with sems := Vector.replicate 16 { owner := some .spi } }) running;
      holderOf Master.sup = some Holder.sup ∧ (s.acc.sems[(15 : Fin 16)]).owner ≠ none ∧ (s.acc.sems[(15 : Fin 16)]).owner ≠ some Holder.sup) ∧
    (let s : State := onAcc (fun x => { x with sems := Vector.replicate 16 { owner := some .sup } }) running;
      holderOf Master.sup = some Holder.sup ∧ (s.acc.sems[(15 : Fin 16)]).owner = some Holder.sup ∧ (0#32).getLsbD 0 = false) ∧
    (let s : State := onAcc (fun x => { x with sems := Vector.replicate 16 { owner := some .ws } }) running;
      holderOf Master.sup = some Holder.sup ∧ (s.acc.sems[(15 : Fin 16)]).owner ≠ some Holder.sup) ∧
    (let s : State := onAcc (fun x => { x with busy := x.busy.set 9 (some { addr := 0x483C, value := 0, master := .sup }) }) running;
      let w : PostedWrite := { addr := 0x483C, value := 0, master := .sup }; clocksRun s = true ∧ s.acc.busy[(9 : Fin 10)] = some w ∧
      ((∀ t : TileId, t.val = (9 : Fin 10).val → (s.tile t).link.switching = false)) ∧ regAt w.addr = some Rg.crpRetData ∧
      writeRefused w.master Rg.crpRetData w.value s = false) ∧
    (let s : State := onAcc (fun x => { x with held := [{ addr := 0x1020, value := 0, master := .spi }] }) running;
      let h : HeldWord := { addr := 0x1020, value := 0, master := .spi }; s.acc.held = [h] ∧ h.addr = (0x1020 : Addr).toNat ∧ h.refused = false) ∧
    (openAt running 0x1010 = true) ∧
    (let s : State := onAcc (fun x => { x with sems := Vector.replicate 16 { owner := some .ws } }) running; openAt s 0x1020 = true ∧
      (0x1F#32).getLsbD 4 = true ∧ (0x1F#32).toNat % 16 = (15 : Fin 16).val ∧ s.acc.sems[(15 : Fin 16)].owner.isSome = true) ∧
    (openAt running (0x1100 + 4 * (15 : Fin 16).val) = true ∧ running.acc.sems[(15 : Fin 16)].owner = none) ∧
    (let s : State := onAcc (fun x => { x with sems := Vector.replicate 16 { owner := some .spi } }) running; openAt s (0x1100 + 4 *
      (15 : Fin 16).val) = true ∧ s.acc.sems[(15 : Fin 16)].owner = some .spi) ∧
    (let s : State := onAcc (fun x => { x with sems := Vector.replicate 16 { owner := some .sup } }) running; openAt s (0x1100 + 4 *
      (15 : Fin 16).val) = true ∧ s.acc.sems[(15 : Fin 16)].owner = some .sup) ∧
    (openAt running (0x1100 + 4 * (15 : Fin 16).val) = true ∧ running.acc.sems[(15 : Fin 16)].owner ≠ some .sup) ∧
    (openAt running (addrMbx (15 : Fin 24)) = true ∧ sendsTo .sup (15 : Fin 24) = true ∧ (running.mbx.box[(15 : Fin 24)]).full = false) ∧
    (let s : State := { running with mbx := { running.mbx with box := Vector.replicate 24 { full := true } } }; openAt s (addrMbx
      (15 : Fin 24)) = true ∧ sendsTo .sup (15 : Fin 24) = true ∧ (s.mbx.box[(15 : Fin 24)]).full = true) ∧
    (let s : State := { running with mbx := { running.mbx with box := Vector.replicate 24 { full := true } } }; openAt s (addrMbx
      (23 : Fin 24)) = true ∧ takesFrom .sup (23 : Fin 24) = true ∧ s.bud.up = [] ∧ s.bud.down = [] ∧ (s.mbx.box[(23 : Fin 24)]).full = true) ∧
    (openAt running (addrMbx (0 : Fin 24)) = true ∧ takesFrom .sup (0 : Fin 24) = true ∧ running.bud.up = [] ∧ running.bud.down = [] ∧
      (running.mbx.box[(0 : Fin 24)]).full = false) ∧
    (let s : State := { running with mbx := { running.mbx with box := Vector.replicate 24 { full := true } } };
      (s.mbx.box[(23 : Fin 24)]).full = true ∧ (s.mbx.box[(23 : Fin 24)]).timedOut = false) := by
  refine ⟨?_, ?_, ?_, ?_, ?_, ?_, ?_, ?_, ?_, ?_, ?_, ?_, ?_, ?_, ?_, ?_, ?_⟩ <;> decide +kernel

/-- O20. -/
theorem witness_CounterReadsClear :
    (running.acc.held = [] ∧ clocksRun running = true ∧ (running.tile (tileOf lastPort)).link.isolated = false ∧ laneSwitching running
      (tileOf lastPort) laneControl = false) ∧
    (running.acc.held = [] ∧ clocksRun running = true ∧ (running.tile lastTile).link.isolated = false ∧
      laneSwitching running lastTile laneControl = false) := by
  refine ⟨?_, ?_⟩ <;> decide +kernel

/-- O21. -/
theorem witness_TeamUpstream :
    (let s : State := onTeam ({ · with st := .detached }) busy; clocksRun s = true ∧ teamEn s lastTeam = true ∧ (s.team lastTeam).vbusOk = true ∧
      (s.team lastTeam).st = .detached) ∧
    (coreUp busy = true ∧ (busy.team lastTeam).pullUp = true) ∧
    ((running.team lastTeam).pullUp = false) ∧
    (let s : State := { busy with pwr := { busy.pwr with phase := .asleep } }; coreUp s = false ∧ (s.team lastTeam).pullUp = true) ∧
    ((unlocked running 4 && openAt running (0x8000 + 0x800 * lastTeam.val)) = true ∧ (running.team lastTeam).ctl.getLsbD 0 = false ∧
      (1#32).getLsbD 0 = true) ∧
    ((unlocked busy 4 && openAt busy (0x8000 + 0x800 * lastTeam.val)) = true ∧ (busy.team lastTeam).ctl.getLsbD 0 = true ∧
      (0#32).getLsbD 0 = false) ∧
    (clocksRun busy = true ∧ (busy.team lastTeam).pullUp = true) ∧
    (clocksRun busy = true ∧ ((awake busy lastTeam = true ∨ (busy.team lastTeam).st = .attached))) ∧
    (let s : State := onTeam ({ · with st := .suspended }) busy; clocksRun s = true ∧ (s.team lastTeam).st = .suspended) ∧
    (let s : State := onTeam ({ · with st := .suspended, rwakeEn := true }) busy; clocksRun s = true ∧ servedBy s lastPort = some lastTeam ∧
      (s.port lastPort).hub.enable = true ∧ (s.team lastTeam).st = .suspended ∧ (s.team lastTeam).rwakeEn = true) ∧
    (let s : State := onHub ({ · with l1 := true }) busy; clocksRun s = true ∧ servedBy s lastPort = some lastTeam ∧
      (s.port lastPort).hub.enable = true ∧ awake s lastTeam = true ∧ (s.port lastPort).hub.l1 = true ∧ (s.port lastPort).hub.l1Resuming = false) ∧
    (let s : State := onHub ({ · with suspend := true }) busy; clocksRun s = true ∧ servedBy s lastPort = some lastTeam ∧
      (s.port lastPort).hub.enable = true ∧ awake s lastTeam = true ∧ (s.port lastPort).hub.l1 = false ∧ (s.port lastPort).hub.suspend = true ∧
      (s.port lastPort).hub.resuming = false) ∧
    (let s : State := onTeam ({ · with drivingK := true }) busy; clocksRun s = true ∧ (s.team lastTeam).drivingK = true ∧
      (s.team lastTeam).st ≠ .l1) ∧
    (let s : State := onTeam ({ · with st := .l1, drivingK := true }) busy; clocksRun s = true ∧ (s.team lastTeam).drivingK = true ∧
      (s.team lastTeam).st = .l1) ∧
    (let s : State := onTeam ({ · with station := { l1 := true } }) { busy with ports := Vector.replicate 64 {} }; awake s lastTeam = true ∧
      (s.team lastTeam).lpmEn = true ∧ 2 ≤ (2 : Fin 16).val ∧ l1Busy s lastTeam = false) ∧
    (awake busy lastTeam = true ∧ (busy.team lastTeam).lpmEn = true ∧ (((1 : Fin 16).val < 2 ∨ l1Busy busy lastTeam = true))) ∧
    (let s : State := onTeam ({ · with lpmEn := false }) busy; awake s lastTeam = true ∧ (s.team lastTeam).lpmEn = false) ∧
    (let s : State := onTeam ({ · with st := .l1 }) busy; clocksRun s = true ∧ (s.team lastTeam).st = .l1) := by
  refine ⟨?_, ?_, ?_, ?_, ?_, ?_, ?_, ?_, ?_, ?_, ?_, ?_, ?_, ?_, ?_, ?_, ?_, ?_⟩ <;> decide +kernel

/-- O22. -/
theorem witness_TeamRequestsAndEndpoints :
    (let s : State := onTeam ({ · with lpmEn := false }) busy; awake s lastTeam = true ∧ (s.team lastTeam).lpmEn = false) ∧
    (awake busy lastTeam = true ∧ (busy.team lastTeam).st = .configured ∧ ((0 = 0 ∨ (0 = 1 ∧ ((busy.team lastTeam).speed == some .high) = true)))) ∧
    (awake busy lastTeam = true ∧ ((busy.team lastTeam).st ≠ .configured ∨ 1 < 2 ∨ (2 = 1 ∧ ((busy.team lastTeam).speed == some .high) = false))) ∧
    (let s : State := onTeam ({ · with st := .address }) busy; awake s lastTeam = true ∧ (s.team lastTeam).st ≠ .configured) ∧
    (awake busy lastTeam = true ∧ (busy.team lastTeam).st ≠ .default ∧ 0 ≤ 1) ∧
    (awake busy lastTeam = true ∧ ((busy.team lastTeam).st = .default ∨ 1 < 2)) ∧
    (awake (onTeam ({ · with change := Vector.replicate 65 1 }) busy) lastTeam = true ∧ ((onTeam
      ({ · with change := Vector.replicate 65 1 }) busy).team lastTeam).st = .configured ∧ wPortChange (onTeam
      ({ · with change := Vector.replicate 65 1 }) busy) lastTeam 65 ≠ 0) ∧
    (awake busy lastTeam = true ∧ (busy.team lastTeam).st = .configured ∧
      ((List.range 66).all fun n => n == 0 || wPortChange busy lastTeam n == 0) = true) ∧
    (stationUp busy lastTeam = true) ∧
    (stationRuns busy lastTeam = true ∧ ((0 : Byte) ≠ 1 ∨ (0 : BitVec 16) ≠ 0)) ∧
    (stationRuns busy lastTeam = true ∧ (0 : Byte) ≠ 2) ∧
    (stationRuns busy lastTeam = true ∧ (busy.team lastTeam).corr.unsent = 0) ∧
    (let s : State := onTeam ({ · with corr := { (busyTeam).corr with unsent := 1 } }) busy; stationRuns s lastTeam = true ∧ 0 <
      (s.team lastTeam).corr.unsent) ∧
    (let s : State := onTeam ({ · with evBuf := [1] }) busy; stationRuns s lastTeam = true ∧ (s.team lastTeam).evBuf ≠ []) ∧
    (stationRuns busy lastTeam = true ∧ (busy.team lastTeam).evBuf = [] ∧ ((∀ q, qOwner busy q = some lastTeam → listEmpty busy q = true))) ∧
    (let s : State := { busy with teams := busy.teams.set 3 { busyTeam with qmask := 0x8000 }, queues := busy.queues.set 15 { cells := 2, head := 4096, tail := 4097, rd := 1 } };
      stationRuns s lastTeam = true ∧ (s.team lastTeam).evBuf = [] ∧ s.ecc = [] ∧ bitOf s.flt.inj 31 = false ∧ ((∃ q, qOwner s q = some lastTeam ∧
      listEmpty s q = false ∧ checkFails s q = false)) ∧ ((∀ q, qOwner s q = some lastTeam → checkFails s q = false))) ∧
    (openAt busy (0x800C + 0x800 * lastTeam.val) = true) := by
  refine ⟨?_, ?_, ?_, ?_, ?_, ?_, ?_, ?_, ?_, ?_, ?_, ?_, ?_, ?_, ?_, ?_, ?_⟩ <;> decide +kernel

/-- O23. -/
theorem witness_HubClassRequests :
    (classUp busy lastTeam = true ∧ 1 < 2) ∧
    (classUp busy lastTeam = true ∧ 2 ≤ 2) ∧
    (classUp busy lastTeam = true ∧ 1 ≤ 65 ∧ 65 ≤ 65) ∧
    (classUp busy lastTeam = true ∧ (66 = 0 ∨ 65 < 66)) ∧
    (classUp busy lastTeam = true ∧ servedBy busy lastPort = some lastTeam ∧ (busy.tt lastPort).resetting = false ∧
      busBusy busy lastPort = false ∧ (busy.tt lastPort).stopNext = false) ∧
    (let s : State := onTt ({ · with ctxs := [(nonperiodic { aTxn with phase := .running, ty := .bulk })] }) busy; classUp s lastTeam = true ∧
      servedBy s lastPort = some lastTeam ∧ busBusy s lastPort = true) ∧
    (classUp busy lastTeam = true ∧ servedBy busy lastPort = some lastTeam ∧ (busy.team lastTeam).multiTt = true ∧ busBusy busy lastPort = false ∧
      (busy.tt lastPort).statusPending = false) := by
  refine ⟨?_, ?_, ?_, ?_, ?_, ?_, ?_⟩ <;> decide +kernel

/-- O24. -/
theorem witness_HubPortFeatures :
    (servedBy busy lastPort = some lastTeam ∧ classUp busy lastTeam = true ∧ ((busy.port lastPort).hub).conn = true) ∧
    (let s : State := onHub ({ · with conn := false }) busy; servedBy s lastPort = some lastTeam ∧ classUp s lastTeam = true ∧
      ((s.port lastPort).hub).conn = false) ∧
    (let s : State := { busy with ports := Vector.ofFn fun i => { busyPort (i.val / 16) with hub := { owner := i.val / 16 } } };
      servedBy s lastPort = some lastTeam ∧ classUp s lastTeam = true ∧ othersIdle s lastTeam (hubPortOf lastPort) = true) ∧
    (servedBy busy lastPort = some lastTeam ∧ classUp busy lastTeam = true ∧ othersIdle busy lastTeam (hubPortOf lastPort) = false) ∧
    (servedBy busy lastPort = some lastTeam ∧ classUp busy lastTeam = true ∧ ((busy.port lastPort).hub).enable = true ∧
      ((busy.port lastPort).hub).lowSpeed = false) ∧
    (let s : State := onHub ({ · with lowSpeed := true, highSpeed := false }) busy; servedBy s lastPort = some lastTeam ∧
      classUp s lastTeam = true ∧ ((s.port lastPort).hub).enable = true ∧ ((s.port lastPort).hub).lowSpeed = true) ∧
    (let s : State := onHub ({ · with enable := false }) busy; servedBy s lastPort = some lastTeam ∧ classUp s lastTeam = true ∧
      ((s.port lastPort).hub).enable = false) ∧
    (let s : State := onHub ({ · with suspend := true, resuming := true }) busy; servedBy s lastPort = some lastTeam ∧ clocksRun s = true ∧
      ((s.port lastPort).hub).resuming = true ∧ ((s.port lastPort).hub).suspend = true) ∧
    (let s : State := onHub ({ · with reset := true }) busy; servedBy s lastPort = some lastTeam ∧ clocksRun s = true ∧
      ((s.port lastPort).hub).reset = true ∧ ((s.port lastPort).hub).conn = true ∧ ((s.port lastPort).hub).oc = false ∧ (s.tile
      (tileOf lastPort)).link.second = none) ∧
    (let s : State := onHub ({ · with l1Resuming := true }) busy; servedBy s lastPort = some lastTeam ∧ clocksRun s = true ∧
      ((s.port lastPort).hub).l1Resuming = true) := by
  refine ⟨?_, ?_, ?_, ?_, ?_, ?_, ?_, ?_, ?_, ?_⟩ <;> decide +kernel

/-- O25. -/
theorem witness_DevicesAndPortMoves :
    (clocksRun busy = true ∧ servedBy busy lastPort = some lastTeam ∧ ((busy.port lastPort).hub).enable = true) ∧
    (let s : State := onTt ({ · with retiring := true }) busy; clocksRun s = true ∧ (s.tt lastPort).retiring = true) ∧
    (awake busy lastTeam = true ∧ repeatReaches busy lastTeam Speed.high lastPort = true ∧ laneSwitching busy (tileOf lastPort)
      (laneUp lastTeam) = false) ∧
    (let s : State := onTile ({ · with link := { trained := true, spare := some 7, switching := true } }) busy; awake s lastTeam = true ∧
      laneSwitching s (tileOf lastPort) (laneUp lastTeam) = true) ∧
    (unlocked running 9 = true ∧ openAt running (0x100000 + 0x1000 * lastPort.val) = true ∧ (running.tile
      (tileOf lastPort)).link.isolated = false ∧ ((running.port lastPort).hub).mstate = 0) ∧
    (let s : State := onHub ({ · with mstate := 1 }) busy; unlocked s 9 = true ∧ openAt s (0x100000 + 0x1000 * lastPort.val) = true ∧ (s.tile
      (tileOf lastPort)).link.isolated = false ∧ ((s.port lastPort).hub).mstate ≠ 0) ∧
    (let s : State := onHub ({ · with mstate := 1 }) busy; clocksRun s = true ∧ ((s.port lastPort).hub).mstate = 1 ∧
      ((s.port lastPort).hub).owner < 4) ∧
    (let s : State := onHub ({ · with mstate := 1, owner := 4 }) busy; clocksRun s = true ∧ ((s.port lastPort).hub).mstate = 1 ∧ 4 ≤
      ((s.port lastPort).hub).owner) ∧
    (let s : State := onHub ({ · with mstate := 2 }) busy; clocksRun s = true ∧ ((s.port lastPort).hub).mstate = 2 ∧
      ((s.port lastPort).hub).owner = lastTeam.val) := by
  refine ⟨?_, ?_, ?_, ?_, ?_, ?_, ?_, ?_, ?_⟩ <;> decide +kernel

/-- O26. -/
theorem witness_SplitTransactions :
    (let s : State := onTeam ({ · with counting := false }) busy; awake s lastTeam = true ∧ (s.team lastTeam).speed = some .high ∧
      (s.team lastTeam).counting = false) ∧
    (let s : State := onTeam ({ · with counting := true }) busy; awake s lastTeam = true ∧ (s.team lastTeam).speed = some .high ∧
      (s.team lastTeam).counting = true) ∧
    (let s : State := onTeam ({ · with speed := some .full }) busy; awake s lastTeam = true ∧ (s.team lastTeam).speed = some .full) ∧
    (let s : State := onTile ({ · with link := { trained := true, spare := some 8, switching := true } }) running;
      laneSwitching s lastTile laneControl = true) ∧
    (let s : State := onHub ({ · with dev := some .full, highSpeed := false }) busy; laneSwitching s lastTile laneControl = false) ∧
    (let s : State := onHub ({ · with dev := some .full, highSpeed := false }) busy; Machine.splitPort s lastTeam 64 = some lastPort ∧
      speedAgrees s lastPort false XferType.intr = true ∧ ttOpen s lastPort = true ∧ (XferType.intr == .iso || XferType.intr == .intr) = true ∧
      ((∀ c ∈ (s.tt lastPort).ctxs, c.periodic = true → c.y ≠ (s.team lastTeam).count + 1)) ∧ grantCtx s lastPort true = some false ∧
      (([] : List Byte).length + 7) / 8 ≤ ringFree s lastPort) ∧
    (let s : State := { (onHub ({ · with dev := some .full, highSpeed := false }) busy) with tts := Vector.replicate 64 { ctxs := List.replicate 2 { periodic := true, shared := false, slot := 0, txns := [] } ++ List.replicate 4 { periodic := true, shared := true, slot := 0, txns := [] } } };
      Machine.splitPort s lastTeam 64 = some lastPort ∧ speedAgrees s lastPort false XferType.intr = true ∧ ttOpen s lastPort = true ∧
      (XferType.intr == .iso || XferType.intr == .intr) = true ∧ ((∀ c ∈ (s.tt lastPort).ctxs, c.periodic = true → c.y ≠
      (s.team lastTeam).count + 1)) ∧ grantCtx s lastPort true = none) ∧
    (let s : State := onHub ({ · with dev := some .full, highSpeed := false }) busy; Machine.splitPort s lastTeam 64 = some lastPort ∧
      (speedAgrees s lastPort true XferType.intr = false ∨ (XferType.intr == .iso || XferType.intr == .intr) = false)) ∧
    (let s : State := onHub ({ · with dev := some .full, highSpeed := false }) busy; Machine.splitPort s lastTeam 64 = some lastPort ∧
      speedAgrees s lastPort false XferType.bulk = true ∧ ttOpen s lastPort = true ∧ (XferType.bulk == .iso || XferType.bulk == .intr) = false ∧
      ((∀ c ∈ (s.tt lastPort).ctxs, c.periodic = true ∨ ∀ z ∈ c.txns, sameEp z 127 15 true = false)) ∧ grantCtx s lastPort false = some false) ∧
    (let s : State := onTt ({ · with ctxs := List.replicate 16 { periodic := false, shared := false, slot := 0, txns := [] } }) (onHub
      ({ · with dev := some .full, highSpeed := false }) busy); Machine.splitPort s lastTeam 64 = some lastPort ∧
      speedAgrees s lastPort false XferType.bulk = true ∧ ttOpen s lastPort = true ∧ (XferType.bulk == .iso || XferType.bulk == .intr) = false ∧
      ((∀ c ∈ (s.tt lastPort).ctxs, c.periodic = true ∨ ∀ z ∈ c.txns, sameEp z 127 15 true = false)) ∧ grantCtx s lastPort false = none) ∧
    (let s : State := onTt ({ · with ctxs := [(nonperiodic { aTxn with phase := .waiting, ty := .bulk })] }) (onHub
      ({ · with dev := some .full, highSpeed := false }) busy); let c := nonperiodic { aTxn with phase := .waiting, ty := .bulk };
      let z := { aTxn with phase := .waiting, ty := .bulk }; awake s lastTeam = true ∧ (s.team lastTeam).speed = some .high ∧
      csPort s lastTeam 64 = some lastPort ∧ s.ecc = [] ∧ (s.tt lastPort).ctxs = c :: ([] : List Ctx) ∧ c.txns = z :: ([] : List Txn) ∧
      sameEp z 127 15 true = true ∧ z.ty = XferType.bulk ∧ (z.phase = .waiting ∨ z.phase = .ready)) ∧
    (let s : State := onTt ({ · with ctxs := [(nonperiodic { aTxn with phase := .complete .ack, ty := .bulk })] }) (onHub
      ({ · with dev := some .full, highSpeed := false }) busy); let c := nonperiodic { aTxn with phase := .complete .ack, ty := .bulk };
      let z := { aTxn with phase := .complete .ack, ty := .bulk }; awake s lastTeam = true ∧ (s.team lastTeam).speed = some .high ∧
      csPort s lastTeam 64 = some lastPort ∧ s.ecc = [] ∧ (s.tt lastPort).ctxs = c :: ([] : List Ctx) ∧ c.txns = z :: ([] : List Txn) ∧
      sameEp z 127 15 true = true ∧ z.ty = XferType.bulk ∧ z.phase = .complete .ack) ∧
    (let s : State := onTt ({ · with ctxs := [(nonperiodic { aTxn with phase := .complete .stall, ty := .bulk })] }) (onHub
      ({ · with dev := some .full, highSpeed := false }) busy); let c := nonperiodic { aTxn with phase := .complete .stall, ty := .bulk };
      let z := { aTxn with phase := .complete .stall, ty := .bulk }; awake s lastTeam = true ∧ (s.team lastTeam).speed = some .high ∧
      csPort s lastTeam 64 = some lastPort ∧ s.ecc = [] ∧ (s.tt lastPort).ctxs = c :: ([] : List Ctx) ∧ c.txns = z :: ([] : List Txn) ∧
      sameEp z 127 15 true = true ∧ z.ty = XferType.bulk ∧ z.phase = .complete .stall) ∧
    (let s : State := onTt ({ · with ctxs := [(nonperiodic { aTxn with phase := .failed, ty := .bulk })] }) (onHub
      ({ · with dev := some .full, highSpeed := false }) busy); let c := nonperiodic { aTxn with phase := .failed, ty := .bulk };
      let z := { aTxn with phase := .failed, ty := .bulk }; awake s lastTeam = true ∧ (s.team lastTeam).speed = some .high ∧
      csPort s lastTeam 64 = some lastPort ∧ s.ecc = [] ∧ (s.tt lastPort).ctxs = c :: ([] : List Ctx) ∧ c.txns = z :: ([] : List Txn) ∧
      sameEp z 127 15 true = true ∧ z.ty = XferType.bulk ∧ z.phase = .failed) ∧
    (let s : State := onHub ({ · with dev := some .full, highSpeed := false }) busy; awake s lastTeam = true ∧
      (s.team lastTeam).speed = some .high ∧ csPort s lastTeam 64 = some lastPort ∧ s.ecc = [] ∧ ((∀ c ∈ (s.tt lastPort).ctxs, ∀ z ∈ c.txns,
      (sameEp z 127 15 true && z.ty == XferType.intr) = false))) := by
  refine ⟨?_, ?_, ?_, ?_, ?_, ?_, ?_, ?_, ?_, ?_, ?_, ?_, ?_, ?_, ?_⟩ <;> decide +kernel

/-- O27. -/
theorem witness_PortBusTransactions :
    (let s : State := onTt ({ · with ctxs := [(nonperiodic { aTxn with phase := .waiting, ty := .bulk })] }) (onHub
      ({ · with dev := some .full, highSpeed := false }) busy); let c : Ctx := nonperiodic { aTxn with phase := .waiting, ty := .bulk };
      let x : Txn := { aTxn with phase := .waiting, ty := .bulk }; clocksRun s = true ∧ (s.tt lastPort).ctxs = c :: ([] : List Ctx) ∧
      c.txns = x :: ([] : List Txn) ∧ s.ecc = [] ∧ x.phase = .waiting) ∧
    (let s : State := onTt ({ · with ctxs := [(periodic { aTxn with phase := .ready, ty := .intr })] }) (onHub
      ({ · with dev := some .full, highSpeed := false }) busy); let c : Ctx := periodic { aTxn with phase := .ready, ty := .intr };
      let x : Txn := { aTxn with phase := .ready, ty := .intr }; clocksRun s = true ∧ (s.tt lastPort).ctxs = c :: ([] : List Ctx) ∧ c.txns = x ::
      ([] : List Txn) ∧ s.ecc = [] ∧ busOpen s lastPort = true ∧ c.periodic = true ∧ periodicReady s lastPort c x = true) ∧
    (let s : State := onTt ({ · with ctxs := [(nonperiodic { aTxn with phase := .ready, ty := .bulk })] }) (onHub
      ({ · with dev := some .full, highSpeed := false }) busy); let c : Ctx := nonperiodic { aTxn with phase := .ready, ty := .bulk };
      let x : Txn := { aTxn with phase := .ready, ty := .bulk }; clocksRun s = true ∧ (s.tt lastPort).ctxs = c :: ([] : List Ctx) ∧ c.txns = x ::
      ([] : List Txn) ∧ s.ecc = [] ∧ busOpen s lastPort = true ∧ findTxn (s.tt lastPort) (periodicReady s lastPort) = none ∧ c.periodic = false ∧
      x.phase = .ready ∧ x.lost = false) ∧
    (let s : State := onTt ({ · with ctxs := [(nonperiodic { aTxn with phase := .running, ty := .bulk })] }) (onHub
      ({ · with dev := some .full, highSpeed := false }) busy); let c : Ctx := nonperiodic { aTxn with phase := .running, ty := .bulk };
      let x : Txn := { aTxn with phase := .running, ty := .bulk }; clocksRun s = true ∧ (s.tt lastPort).ctxs = c :: ([] : List Ctx) ∧
      c.txns = x :: ([] : List Txn) ∧ (laneSwitching s (tileOf lastPort) laneControl = false) ∧ x.phase = .running ∧ x.whole = true ∧ (∀ d ∈
      (s.tt lastPort).ctxs, ∀ z ∈ d.txns, z.discard = false) ∧ ((BusResult.nak = .ack ∨ BusResult.nak = .nak ∨ BusResult.nak = .stall))) ∧
    (let s : State := onTt ({ · with ctxs := [(nonperiodic { aTxn with phase := .running, ty := .bulk })] }) (onHub
      ({ · with dev := some .full, highSpeed := false }) busy); let c : Ctx := nonperiodic { aTxn with phase := .running, ty := .bulk };
      let x : Txn := { aTxn with phase := .running, ty := .bulk }; clocksRun s = true ∧ (s.tt lastPort).ctxs = c :: ([] : List Ctx) ∧
      c.txns = x :: ([] : List Txn) ∧ (x.phase = .running ∧ (∀ d ∈
      (s.tt lastPort).ctxs, ∀ z ∈ d.txns, z.phase = .ready → z.lost = false) ∨ x.phase = .ready ∧ x.lost = true) ∧ (∀ d ∈
      (s.tt lastPort).ctxs, ∀ z ∈ d.txns, z.discard = false) ∧ ((∀ d ∈ ([] : List Ctx), d.slot ≠ c.slot))) ∧
    (let s : State := onTeam ({ · with count := 9 }) (onTt ({ · with ctxs := [(periodic { aTxn with phase := .ready, ty := .intr })] }) (onHub
      ({ · with dev := some .full, highSpeed := false }) busy)); let c : Ctx := periodic { aTxn with phase := .ready, ty := .intr };
      let x : Txn := { aTxn with phase := .ready, ty := .intr }; clocksRun s = true ∧ (s.tt lastPort).ctxs = c :: ([] : List Ctx) ∧ c.txns = x ::
      ([] : List Txn) ∧ isLate s lastPort c x = true) ∧
    (servedBy busy lastPort = some lastTeam ∧ awake busy lastTeam = true) ∧
    (openAt busy (0x11000 + 16 * lastPort.val) = true ∧ (busy.tt lastPort).resetting = false ∧ busBusy busy lastPort = false) ∧
    (let s : State := onTt ({ · with resetting := true }) busy; clocksRun s = true ∧ (s.tt lastPort).resetting = true) := by
  refine ⟨?_, ?_, ?_, ?_, ?_, ?_, ?_, ?_, ?_⟩ <;> decide +kernel

/-- O28. -/
theorem witness_EventQueues :
    (let s : State := { ({ running with crl := { running.crl with croute := Vector.replicate 63 0 } }) with posts := [(.supPost, aRecord)] };
      clocksRun s = true ∧ mayAbort s = false ∧ firstPost s PostSource.supPost = some (PostSource.supPost, aRecord) ∧
      frameHeld s PostSource.supPost = false ∧ (bitOf s.flt.inj 31 = false) ∧ routeOf s aRecord = none) ∧
    (let s : State := { (onQueue ({ · with cfg := 0x80000280#32, cells := 1, head := 4096, tail := 4096 }) ({ running with crl := { running.crl with croute := Vector.replicate 63 0x10F } })) with posts := [(.supPost, aRecord)] };
      clocksRun s = true ∧ mayAbort s = false ∧ firstPost s PostSource.supPost = some (PostSource.supPost, aRecord) ∧
      frameHeld s PostSource.supPost = false ∧ (bitOf s.flt.inj 31 = false) ∧ routeOf s aRecord = some lastQueue ∧
      checkFails s lastQueue = false ∧ dropCause s lastQueue = none ∧ 4 ≤ tailFree s lastQueue ∧ aRecord.cls < 64 ∧ aRecord.src < 128 ∧
      aRecord.stamp.ns < 2 ^ 30) ∧
    (let s : State := { (onQueue ({ · with cfg := 0x80000280#32, scanning := true }) ({ running with crl := { running.crl with croute := Vector.replicate 63 0x10F } })) with posts := [(.supPost, aRecord)] };
      clocksRun s = true ∧ mayAbort s = false ∧ firstPost s PostSource.supPost = some (PostSource.supPost, aRecord) ∧
      frameHeld s PostSource.supPost = false ∧ (bitOf s.flt.inj 31 = false) ∧ routeOf s aRecord = some lastQueue ∧
      checkFails s lastQueue = false ∧ (s.queue lastQueue).scanning = true) ∧
    (openAt running ((0x21000 + 64 * lastQueue.val) + 4) = true ∧ qOwner running lastQueue = none ∧ (bitOf running.flt.inj 31 = false) ∧
      running.ecc = [] ∧ (running.queue lastQueue).latch = [] ∧ listEmpty running lastQueue = true) ∧
    (let s : State := onQueue ({ · with cells := 2, head := 4096, tail := 4097, rd := 9 }) running; openAt s
      ((0x21000 + 64 * lastQueue.val) + 4) = true ∧ qOwner s lastQueue = none ∧ (bitOf s.flt.inj 31 = false) ∧ s.ecc = [] ∧
      (s.queue lastQueue).latch = [] ∧ listEmpty s lastQueue = false ∧ bitOf (cellWord s (s.queue lastQueue).head
      (s.queue lastQueue).rd) 30 = false ∧ (s.queue lastQueue).rd + 4 < 14 ∧ (((s.queue lastQueue).rd + 4 ≤ cellFill s
      (s.queue lastQueue).head ∨ 1 < (s.queue lastQueue).cells))) ∧
    (let s : State := onQueue ({ · with latch := [1#32], holder := some .sup }) running; openAt s ((0x21000 + 64 * lastQueue.val) + 4) = true ∧
      qOwner s lastQueue = none ∧ (bitOf s.flt.inj 31 = false) ∧ s.ecc = [] ∧ (s.queue lastQueue).latch = (1#32) :: ([] : List Word) ∧
      (s.queue lastQueue).holder = some .sup) ∧
    (let s : State := onQueue ({ · with latch := [1#32] }) running; openAt s ((0x21000 + 64 * lastQueue.val) + 4) = true ∧
      qOwner s lastQueue = none ∧ (bitOf s.flt.inj 31 = false) ∧ s.ecc = [] ∧ (s.queue lastQueue).latch = (1#32) :: ([] : List Word) ∧
      (s.queue lastQueue).holder ≠ some .sup) ∧
    (let s : State := onQueue ({ · with latch := [1#32] }) running; clocksRun s = true ∧ (s.queue lastQueue).latch ≠ [] ∧
      (bitOf s.flt.inj 31 = false) ∧ s.ecc = []) ∧
    (let s : State := { running with crl := { running.crl with freeCount := 1, rebuild := none } }; openAt s
      (0x21000 + 64 * lastQueue.val) = true ∧ unlocked s 6 = true ∧ (bitOf s.flt.inj 31 = false) ∧ s.ecc = [] ∧ bitOf
      (s.queue lastQueue).cfg 31 = false ∧ bitOf (0x80000280#32) 31 = true ∧ s.crl.freeCount ≠ 0 ∧ s.crl.rebuild = none) ∧
    (let s : State := onQueue ({ · with cfg := 0x80000280#32 }) running; openAt s (0x21000 + 64 * lastQueue.val) = true ∧ unlocked s 6 = true ∧
      (bitOf s.flt.inj 31 = false) ∧ s.ecc = [] ∧ bitOf (s.queue lastQueue).cfg 31 = true ∧ bitOf (0#32) 31 = false) ∧
    (openAt running (0x21000 + 64 * lastQueue.val) = true ∧ unlocked running 6 = true ∧ (bitOf running.flt.inj 31 = false) ∧ running.ecc = [] ∧
      bitOf (running.queue lastQueue).cfg 31 = bitOf (0#32) 31) ∧
    (let s : State := onQueue ({ · with scanning := true }) running; clocksRun s = true ∧ (s.queue lastQueue).scanning = true) ∧
    (let s : State := { running with crl := { running.crl with rebuild := some 0 } }; clocksRun s = true ∧ s.crl.rebuild.isSome = true) := by
  refine ⟨?_, ?_, ?_, ?_, ?_, ?_, ?_, ?_, ?_, ?_, ?_, ?_, ?_⟩ <;> decide +kernel

/-- O29. -/
theorem witness_MemoryWindowsAndScrubbing :
    (let s : State := { running with crl := { running.crl with ctl := 0x101 } }; placeFor .sup true
      ((0x8FFFFC : Addr).toNat) s = .win Window.creel ∧ ((0x8FFFFC : Addr).toNat) % 4 = 0 ∧ openAt s ((0x8FFFFC : Addr).toNat) = true ∧
      windowRefused Window.creel s = false ∧ Window.creel = .creel) ∧
    (let s : State := onTile ({ · with thr := Vector.replicate 8 {} }) running; let w : Window := Window.tileProg lastTile; placeFor .sup true
      ((0x2E7FFC : Addr).toNat) s = .win w ∧ ((0x2E7FFC : Addr).toNat) % 4 = 0 ∧ openAt s ((0x2E7FFC : Addr).toNat) = true ∧
      windowRefused w s = false ∧ w = .tileProg lastTile) ∧
    (let w : Window := Window.tileProg lastTile; placeFor .sup true ((0x2E7FFC : Addr).toNat) running = .win w ∧
      ((0x2E7FFC : Addr).toNat) % 4 = 0 ∧ openAt running ((0x2E7FFC : Addr).toNat) = true ∧ windowRefused w running = true) ∧
    (15359 < memWords EccMem.retention ∧ scrubs running EccMem.retention = true ∧ eccAt running EccMem.retention 15359 = none) ∧
    (let s : State := { running with ecc := [⟨.retention, 15359, false⟩] }; 15359 < memWords EccMem.retention ∧ scrubs s EccMem.retention = true ∧
      eccAt s EccMem.retention 15359 = some false) := by
  refine ⟨?_, ?_, ?_, ?_, ?_⟩ <;> decide +kernel

/-- O30. -/
theorem witness_TypecAttachAndDetach :
    (((busy.port lastPort).tc).cc1 = Cc.vRd ∧ ((busy.port lastPort).tc).cc2 = Cc.vOpen) ∧
    (let s : State := onTc ({ · with st := .attachWait }) busy; (((s.port lastPort).tc).cc1 ≠ Cc.vRa ∨ ((s.port lastPort).tc).cc2 ≠ Cc.vOpen) ∧
      weaverActs s lastPort = true ∧ ((s.port lastPort).tc).st = .attachWait ∧ (attachPin
      ((s.port lastPort).tc) = .none ∨ attachPin { ((s.port lastPort).tc) with cc1 := Cc.vRa, cc2 := Cc.vOpen } ≠ attachPin
      ((s.port lastPort).tc))) ∧
    (let s : State := onTc ({ · with st := .attachWait }) busy; (((s.port lastPort).tc).cc1 ≠ Cc.vRd ∨ ((s.port lastPort).tc).cc2 ≠ Cc.vRa) ∧
      ((s.port lastPort).tc).st = .attachWait ∧ attachPin ((s.port lastPort).tc) ≠ .none ∧
      attachPin { ((s.port lastPort).tc) with cc1 := Cc.vRd, cc2 := Cc.vRa } = attachPin ((s.port lastPort).tc)) ∧
    ((((busy.port lastPort).tc).cc1 ≠ Cc.vRa ∨ ((busy.port lastPort).tc).cc2 ≠ Cc.vOpen) ∧ weaverActs busy lastPort = true ∧
      ((busy.port lastPort).tc).st = .attached) ∧
    (let s : State := onTc ({ · with st := .unattached }) busy; weaverActs s lastPort = true ∧ ((s.port lastPort).tc).st = .unattached ∧
      ((s.port lastPort).tc).rp ≠ .none ∧ attachPin ((s.port lastPort).tc) ≠ .none) ∧
    (let s : State := onTc ({ · with st := .attachWait, cc1 := .vOpen, cc2 := .vOpen }) busy; weaverActs s lastPort = true ∧
      ((s.port lastPort).tc).st = .attachWait ∧ attachPin ((s.port lastPort).tc) = .none) ∧
    (let s : State := onTc ({ · with st := .attachWait, ccDebounce := true }) busy; weaverActs s lastPort = true ∧
      ((s.port lastPort).tc).st = .attachWait ∧ ((s.port lastPort).tc).ccDebounce = true ∧ attachPin ((s.port lastPort).tc) ≠ .none) ∧
    (let s : State := onTc ({ · with st := .unattached, cc1 := .vRa, cc2 := .vRa }) busy; weaverActs s lastPort = true ∧
      (((s.port lastPort).tc).st = .unattached ∨ ((s.port lastPort).tc).st = .attachWait) ∧ ((s.port lastPort).tc).rp ≠ .none ∧ unsupportedPins
      ((s.port lastPort).tc) = true) ∧
    (let s : State := onTc ({ · with pdDebounce := true, cc1 := .vOpen }) busy; weaverActs s lastPort = true ∧
      ((s.port lastPort).tc).st = .attached ∧ ((s.port lastPort).tc).pdDebounce = true ∧ attachedCc ((s.port lastPort).tc) = .vOpen) ∧
    (let s : State := onPd ({ · with transMon := true }) (onTc ({ · with cc1 := .vOpen }) busy); weaverActs s lastPort = true ∧
      (s.port lastPort).pd.transMon = true ∧ attachedCc ((s.port lastPort).tc) = .vOpen ∧ (s.port lastPort).pw.cur < noloadOf
      (s.port lastPort).pw.effProt) ∧
    (let s : State := onPd ({ · with timers := [.errorRecovery] }) (onTc ({ · with st := .errorRecovery }) busy); weaverActs s lastPort = true ∧
      tHas s lastPort .errorRecovery = true ∧ ((s.port lastPort).tc).st = .errorRecovery) := by
  refine ⟨?_, ?_, ?_, ?_, ?_, ?_, ?_, ?_, ?_, ?_, ?_⟩ <;> decide +kernel

/-- O31. -/
theorem witness_PdMessagesOnTheWire :
    (let s : State := onPhy ({ · with optSop1 := true }) busy; Frame.sop1 ≠ .hardReset ∧ phyHears s lastPort Frame.sop1 = true ∧ lastRx
      ((s.port lastPort).phy) Frame.sop1 ≠ some (mId (0x1161 : BitVec 16)) ∧ ((s.port lastPort).phy).slots.length < 3) ∧
    (let s : State := onPhy ({ · with optSop1 := true, slots := List.replicate 3 { msg := {}, stamp := {} } }) busy; Frame.sop1 ≠ .hardReset ∧
      phyHears s lastPort Frame.sop1 = true ∧ lastRx ((s.port lastPort).phy) Frame.sop1 ≠ some (mId (0x1161 : BitVec 16)) ∧
      ((s.port lastPort).phy).slots.length = 3) ∧
    (let s : State := onPhy ({ · with rxId := some 0 }) busy; Frame.sop ≠ .hardReset ∧ phyHears s lastPort Frame.sop = true ∧ lastRx
      ((s.port lastPort).phy) Frame.sop = some (mId (0x1161 : BitVec 16)) ∧ ((s.port lastPort).phy).slots.length < 3 ∧ ¬(mType
      (0x1161 : BitVec 16) = 13 ∧ mObjs (0x1161 : BitVec 16) = 0)) ∧
    (phyHears busy lastPort .hardReset = true ∧ weaverActs busy lastPort = true ∧ (busy.port lastPort).tc.st = .attached ∧
      pdEn busy lastPort = true) ∧
    (let s : State := onPhy
      ({ · with tx := some ({ msg := { frame := .sop, header := 0x11A1 }, started := false, retries := 0, bySend := true } : Tx) }) busy;
      let x : Tx := { msg := { frame := .sop, header := 0x11A1 }, started := false, retries := 0, bySend := true }; clocksRun s = true ∧
      ((s.port lastPort).phy).tx = some x ∧ x.started = false ∧ ((s.port lastPort).phy).bist = false ∧ (s.port lastPort).tc.ccsel ≠ .none ∧
      x.msg.frame ≠ .hardReset ∧ txId ((s.port lastPort).phy) x.msg.frame < 8) ∧
    (let s : State := onPhy
      ({ · with tx := some ({ msg := { frame := .hardReset, header := 0 }, started := false, retries := 0, bySend := true } : Tx) }) busy;
      let x : Tx := { msg := { frame := .hardReset, header := 0 }, started := false, retries := 0, bySend := true }; clocksRun s = true ∧
      ((s.port lastPort).phy).tx = some x ∧ x.started = false ∧ ((s.port lastPort).phy).bist = false ∧ (s.port lastPort).tc.ccsel ≠ .none ∧
      x.msg.frame = .hardReset ∧ ((s.port lastPort).pd).outq = []) ∧
    (let s : State := onPhy
      ({ · with tx := some ({ msg := { frame := .sop, header := 0x11A1 }, started := true, retries := 1, bySend := true } : Tx) }) busy;
      let x : Tx := { msg := { frame := .sop, header := 0x11A1 }, started := true, retries := 1, bySend := true }; clocksRun s = true ∧
      ((s.port lastPort).phy).tx = some x ∧ x.started = true ∧ x.retries < (if ((s.port lastPort).phy).optRev2 then 3 else 2)) ∧
    (let s : State := onPhy
      ({ · with tx := some ({ msg := { frame := .sop, header := 0x11A1 }, started := true, retries := 2, bySend := true } : Tx) }) busy;
      let x : Tx := { msg := { frame := .sop, header := 0x11A1 }, started := true, retries := 2, bySend := true }; clocksRun s = true ∧
      ((s.port lastPort).phy).tx = some x ∧ x.started = true ∧ (if ((s.port lastPort).phy).optRev2 then 3 else 2) ≤ x.retries) ∧
    (let s : State := onPhy
      ({ · with tx := some ({ msg := { frame := .sop, header := 0x11A1 }, started := true, retries := 0, bySend := true } : Tx) }) busy;
      let x : Tx := { msg := { frame := .sop, header := 0x11A1 }, started := true, retries := 0, bySend := true }; clocksRun s = true ∧
      ((s.port lastPort).phy).tx = some x ∧ x.started = true ∧ (weaverActs s lastPort && pdLive s lastPort && !x.bySend) = false ∧
      ((s.port lastPort).pd).outq = []) ∧
    (let s : State := onPhy
      ({ · with tx := some ({ msg := { frame := .sop, header := 0x11A1 }, started := true, retries := 0, bySend := false } : Tx) }) busy;
      let x : Tx := { msg := { frame := .sop, header := 0x11A1 }, started := true, retries := 0, bySend := false }; clocksRun s = true ∧
      ((s.port lastPort).phy).tx = some x ∧ x.started = true ∧ (weaverActs s lastPort && pdLive s lastPort && !x.bySend) = true ∧
      x.msg.frame = .sop ∧ mExt x.msg.header = false ∧ mObjs x.msg.header ≠ 0 ∧ mType x.msg.header = 1) ∧
    (let s : State := onPd ({ · with pe := .transition }) (onPhy
      ({ · with tx := some ({ msg := { frame := .sop, header := 0x01A3 }, started := true, retries := 0, bySend := false } : Tx) }) busy);
      let x : Tx := { msg := { frame := .sop, header := 0x01A3 }, started := true, retries := 0, bySend := false }; clocksRun s = true ∧
      ((s.port lastPort).phy).tx = some x ∧ x.started = true ∧ (weaverActs s lastPort && pdLive s lastPort && !x.bySend) = true ∧
      x.msg.frame = .sop ∧ mExt x.msg.header = false ∧ mObjs x.msg.header = 0 ∧ mType x.msg.header = 3 ∧ ((s.port lastPort).pd).pe = .transition) ∧
    (let s : State := onPd ({ · with pe := .transition }) (onPhy
      ({ · with tx := some ({ msg := { frame := .sop, header := 0x01A6 }, started := true, retries := 0, bySend := false } : Tx) }) busy);
      let x : Tx := { msg := { frame := .sop, header := 0x01A6 }, started := true, retries := 0, bySend := false }; clocksRun s = true ∧
      ((s.port lastPort).phy).tx = some x ∧ x.started = true ∧ (weaverActs s lastPort && pdLive s lastPort && !x.bySend) = true ∧
      x.msg.frame = .sop ∧ mExt x.msg.header = false ∧ mObjs x.msg.header = 0 ∧ mType x.msg.header = 6 ∧ ((s.port lastPort).pd).pe = .transition) ∧
    (let s : State := { busy with crp := { busy.crp with st := .sleep, target := .sleep } }; coreUp s = true ∧ clocksRun s = false ∧
      (s.port lastPort).tc.ccsel ≠ .none) := by
  refine ⟨?_, ?_, ?_, ?_, ?_, ?_, ?_, ?_, ?_, ?_, ?_, ?_, ?_⟩ <;> decide +kernel

/-- O32. -/
theorem witness_PdMessagesOfThePartner :
    (policyHears lastPort .sop (0x1042 : BitVec 16) busy = true ∧ (busy.port lastPort).phy.tx = none ∧ (((busy.port lastPort).pd).seq = .none ∧
      ((busy.port lastPort).pd).pe ≠ .transition ∧ ((busy.port lastPort).pd).swapToPort = false ∧ ((busy.port lastPort).pd).after = .none)) ∧
    (policyHears lastPort .sop (0x0048 : BitVec 16) busy = true ∧ (busy.port lastPort).phy.tx = none ∧ tableUnsupported
      (0x0048 : BitVec 16) = true) ∧
    (let s : State := onPd ({ · with seq := .vconnSwap }) busy; policyHears lastPort .sop (0x1042 : BitVec 16) s = true ∧
      (s.port lastPort).phy.tx = none ∧ (((s.port lastPort).pd).seq ≠ .none ∨ ((s.port lastPort).pd).pe = .transition ∨
      ((s.port lastPort).pd).swapToPort = true) ∧ tableUnsupported (0x1042 : BitVec 16) = false ∧ ¬(mType (0x1042 : BitVec 16) = 12 ∧ mObjs
      (0x1042 : BitVec 16) = 0 ∧ mExt (0x1042 : BitVec 16) = false)) ∧
    (policyHears lastPort .sop (0x1042 : BitVec 16) busy = true ∧ (busy.port lastPort).phy.tx = none ∧ ((busy.port lastPort).pd).rev = 2) ∧
    (let s : State := onPd ({ · with rev := 1 }) busy; policyHears lastPort .sop (0x1042 : BitVec 16) s = true ∧ (s.port lastPort).phy.tx = none ∧
      ((s.port lastPort).pd).rev = 1 ∧ (((s.port lastPort).pd).seq = .none ∧ ((s.port lastPort).pd).pe ≠ .transition ∧
      ((s.port lastPort).pd).swapToPort = false ∧ ((s.port lastPort).pd).after = .none)) ∧
    (let x : Pdo := { volt := 180, cur := 300 }; policyHears lastPort .sop (0x1042 : BitVec 16) busy = true ∧ (busy.port lastPort).phy.tx = none ∧
      ((busy.port lastPort).pd).req = none ∧ ((busy.port lastPort).pd).pe ≠ .transition ∧ ¬(((busy.port lastPort).pd).seq = .softReset ∨
      ((busy.port lastPort).pd).after = .softReset) ∧ 1 ≤ (fld (0x2004B12C#32) 31 28) ∧ ((busy.port lastPort).pd).caps[(fld
      (0x2004B12C#32) 31 28) - 1]? = some x ∧ fld (0x2004B12C#32) 19 10 ≤ x.cur ∧ ((fld (0x2004B12C#32) 9 0 ≤ x.cur ∨ bitOf
      (0x2004B12C#32) 26 = true))) ∧
    (policyHears lastPort .sop (0x1042 : BitVec 16) busy = true ∧ (busy.port lastPort).phy.tx = none ∧ ((busy.port lastPort).pd).req = none ∧
      ((busy.port lastPort).pd).pe ≠ .transition ∧ ¬(((busy.port lastPort).pd).seq = .softReset ∨ ((busy.port lastPort).pd).after = .softReset) ∧
      ((fld (0x30000000#32) 31 28) = 0 ∨ ((busy.port lastPort).pd).caps.length < (fld (0x30000000#32) 31 28))) ∧
    (let s : State := onPd ({ · with pe := .transition }) busy; policyHears lastPort .sop (0x1042 : BitVec 16) s = true ∧
      (s.port lastPort).phy.tx = none ∧ ((s.port lastPort).pd).pe = .transition ∧ ¬(((s.port lastPort).pd).seq = .softReset ∨
      ((s.port lastPort).pd).after = .softReset)) ∧
    (let s : State := onPd ({ · with after := .softReset }) busy; policyHears lastPort .sop (0x1042 : BitVec 16) s = true ∧
      (s.port lastPort).phy.tx = none ∧ (((s.port lastPort).pd).seq = .softReset ∨ ((s.port lastPort).pd).after = .softReset)) ∧
    (let s : State := onPd ({ · with seq := .softReset }) busy; policyHears lastPort .sop (0x1042 : BitVec 16) s = true ∧
      (s.port lastPort).phy.tx = none ∧ ((s.port lastPort).pd).seq = .softReset) ∧
    (let s : State := onPd ({ · with eff := 0 }) (onTc ({ · with vconnPartner := false }) busy); policyHears lastPort .sop
      (0x1042 : BitVec 16) s = true ∧ (s.port lastPort).phy.tx = none ∧ ((s.port lastPort).tc).vconnPartner = false ∧
      cableDisc s lastPort = false) ∧
    (let s : State := onPd ({ · with eff := 0x20000000#32 }) (onTc ({ · with vconnPartner := false }) busy); policyHears lastPort .sop
      (0x1042 : BitVec 16) s = true ∧ (s.port lastPort).phy.tx = none ∧ ((s.port lastPort).tc).vconnPartner = false ∧ vswapAcc s lastPort = true ∧
      discEnded s lastPort = true) ∧
    (let s : State := onPd ({ · with eff := 0x10000000#32 }) (onTc ({ · with vconnPartner := false }) busy); policyHears lastPort .sop
      (0x1042 : BitVec 16) s = true ∧ (s.port lastPort).phy.tx = none ∧ ((s.port lastPort).tc).vconnPartner = false ∧
      cableDisc s lastPort = true ∧ (vswapAcc s lastPort = false ∨ discEnded s lastPort = false)) ∧
    (let s : State := onPd ({ · with eff := 0x20000000#32 }) busy; policyHears lastPort .sop (0x1042 : BitVec 16) s = true ∧
      (s.port lastPort).phy.tx = none ∧ ((s.port lastPort).tc).vconnPartner = true ∧ vswapAcc s lastPort = true ∧
      ((s.port lastPort).tc).vconnOc = false ∧ ((s.port lastPort).tc).ccHold = false) ∧
    (let s : State := onPd ({ · with timers := [.vconnSource] }) busy; policyHears lastPort .sop (0x1042 : BitVec 16) s = true ∧
      (s.port lastPort).phy.tx = none ∧ tHas s lastPort .vconnSource = true) ∧
    (policyHears lastPort .sop (0x1042 : BitVec 16) busy = true ∧ (busy.port lastPort).phy.tx = none ∧ tHas busy lastPort .vconnSource = false ∧
      (((busy.port lastPort).pd).seq = .none ∧ ((busy.port lastPort).pd).pe ≠ .transition ∧ ((busy.port lastPort).pd).swapToPort = false ∧
      ((busy.port lastPort).pd).after = .none)) ∧
    (let s : State := onPd ({ · with seq := .vconnSwap }) (onTc ({ · with vconnPartner := false }) busy); policyHears lastPort .sop
      (0x1042 : BitVec 16) s = true ∧ (s.port lastPort).phy.tx = none ∧ ((s.port lastPort).pd).seq = .vconnSwap ∧
      ((s.port lastPort).pd).after = .none ∧ ((s.port lastPort).tc).vconnPartner = false) ∧
    (let s : State := onPd ({ · with seq := .vconnSwap }) busy; policyHears lastPort .sop (0x004C : BitVec 16) s = true ∧
      (s.port lastPort).phy.tx = none ∧ ((s.port lastPort).pd).seq ≠ .none ∧ ((s.port lastPort).pd).seq ≠ .request ∧
      ((s.port lastPort).pd).seq ≠ .softReset ∧ ((s.port lastPort).pd).own = [] ∧ ((s.port lastPort).pd).after = .none ∧ (mType
      (0x004C : BitVec 16) = 12 ∧ mObjs (0x004C : BitVec 16) = 0 ∧ mExt (0x004C : BitVec 16) = false)) ∧
    (policyHears lastPort .sop (0x1042 : BitVec 16) busy = true ∧ (busy.port lastPort).phy.tx = none ∧ ((busy.port lastPort).pd).objpos ≠ 0 ∧
      ((busy.port lastPort).pd).volt = 100 ∧ fld (0x50000000#32) 31 28 = 5) ∧
    (policyHears lastPort .sop (0x1042 : BitVec 16) busy = true ∧ (busy.port lastPort).phy.tx = none ∧ ((busy.port lastPort).pd).objpos ≠ 0 ∧
      ((busy.port lastPort).pd).volt = 100 ∧ fld (0x80000000#32) 31 28 = 8) ∧
    (let s : State := onPd ({ · with volt := 180 }) busy; policyHears lastPort .sop (0x1042 : BitVec 16) s = true ∧
      (s.port lastPort).phy.tx = none ∧ (((s.port lastPort).pd).objpos = 0 ∨ ((s.port lastPort).pd).volt ≠ 100)) := by
  refine ⟨?_, ?_, ?_, ?_, ?_, ?_, ?_, ?_, ?_, ?_, ?_, ?_, ?_, ?_, ?_, ?_, ?_, ?_, ?_, ?_, ?_⟩ <;> decide +kernel

/-- O33. -/
theorem witness_PdVendorMessages :
    (policyHears lastPort .sop (0x1042 : BitVec 16) busy = true ∧ (busy.port lastPort).phy.tx = none ∧ ((busy.port lastPort).pd).alt = false) ∧
    (let s : State := onPd ({ · with alt := true, rev := 1 }) busy; policyHears lastPort .sop (0x1042 : BitVec 16) s = true ∧
      (s.port lastPort).phy.tx = none ∧ ((s.port lastPort).pd).alt = true ∧ ((s.port lastPort).pd).rev = 1 ∧ ((s.port lastPort).pd).seq = .none ∧
      ((s.port lastPort).pd).pe ≠ .transition ∧ ((s.port lastPort).pd).swapToPort = false) ∧
    (let s : State := onPd ({ · with alt := true }) busy; policyHears lastPort .sop (0x1042 : BitVec 16) s = true ∧
      (s.port lastPort).phy.tx = none ∧ ((s.port lastPort).pd).alt = true ∧ ((s.port lastPort).pd).rev = 2 ∧ ((s.port lastPort).pd).objpos ≠ 0) ∧
    (let s : State := onPd ({ · with alt := true, sinkNg := true, own := [.stStatus], timers := [.sinkTx] }) busy;
      expires .sinkTx lastPort s = true ∧ ((s.port lastPort).pd).sinkNg = true ∧ ((s.port lastPort).pd).ownRun = false ∧
      seqRuns s lastPort = false ∧ (s.port lastPort).phy.tx = none ∧ ((s.port lastPort).pd).own = .stStatus :: ([] : List Seq)) ∧
    (let s : State := onPd ({ · with discDone := false, discCount := 1 }) busy; policyHears lastPort .sop1 (0x1042 : BitVec 16) s = true ∧
      ((s.port lastPort).pd).discDone = false ∧ ((s.port lastPort).pd).discCount ≠ 0 ∧ (fld (0x40#32) 7 6 == 1) = true) ∧
    (let s : State := onPd ({ · with discDone := false, discCount := 1 }) busy; policyHears lastPort .sop1 (0x1042 : BitVec 16) s = true ∧
      ((s.port lastPort).pd).discDone = false ∧ ((s.port lastPort).pd).discCount ≠ 0 ∧ fld (0x80#32) 7 6 = 2) ∧
    (let s : State := onPd ({ · with seq := .stConfig }) busy; policyHears lastPort .sop (0x1042 : BitVec 16) s = true ∧
      ((s.port lastPort).pd).own = [] ∧ ((s.port lastPort).pd).after = .none ∧ stStep ((s.port lastPort).pd).seq = true ∧ (fld
      (0#32) 7 6 == 1) = false ∧ fld (0#32) 7 6 ≠ 2) ∧
    (let s : State := onPd ({ · with cfg := 0x40000000#32 }) busy; policyHears lastPort .sop (0x1042 : BitVec 16) s = true ∧ (fld
      (0x40#32) 7 6 == 1) = true ∧ stEn s lastPort = true ∧ ((s.port lastPort).pd).own = [] ∧ ((s.port lastPort).pd).after = .none ∧
      ((s.port lastPort).pd).rev = 2 ∧ ((s.port lastPort).pd).objpos ≠ 0 ∧ (svidsOf ([0x31C70003] : List Word)).contains 0x31C7 = true) ∧
    (let s : State := onPd ({ · with cfg := 0x40000000#32 }) busy; policyHears lastPort .sop (0x1042 : BitVec 16) s = true ∧ (fld
      (0x40#32) 7 6 == 1) = true ∧ stEn s lastPort = true ∧ ((s.port lastPort).pd).own = [] ∧ ((s.port lastPort).pd).after = .none ∧
      ((s.port lastPort).pd).rev = 2 ∧ ((s.port lastPort).pd).objpos ≠ 0 ∧ ([0x31C70003] : List Word).headD 0 &&& 3#32 ≠ 0) ∧
    (let s : State := onPd ({ · with cfg := 0x40000000#32, seq := .stConfig }) busy; policyHears lastPort .sop (0x1042 : BitVec 16) s = true ∧
      (fld (0x40#32) 7 6 == 1) = true ∧ stEn s lastPort = true ∧ ((s.port lastPort).pd).own = [] ∧ ((s.port lastPort).pd).after = .none ∧
      ((s.port lastPort).pd).rev = 2 ∧ ((s.port lastPort).pd).objpos ≠ 0 ∧ ((s.port lastPort).pd).seq = .stConfig) ∧
    (let s : State := onPd ({ · with timers := [.vdm] }) busy; expires .vdm lastPort s = true ∧ ((s.port lastPort).pd).own = [] ∧
      ((s.port lastPort).pd).after = .none ∧ ((s.port lastPort).pd).seq ≠ .softReset) ∧
    (let s : State := onPd ({ · with timers := [.discoverIdentity], discDone := false, discCount := 20 }) busy;
      expires .discoverIdentity lastPort s = true ∧ ((s.port lastPort).pd).discDone = false ∧ 20 ≤ ((s.port lastPort).pd).discCount) ∧
    (let s : State := onPd ({ · with timers := [.vconnStable], discDone := false, rev := 1 }) (onTc
      ({ · with ra := true, vconnOn := true }) busy); discWanted s lastPort = true ∧ ((s.port lastPort).pd).discDone = false ∧
      policyIdle lastPort s = true ∧ expires .vconnStable lastPort s = true ∧ ((s.port lastPort).pd).discCount < 20) ∧
    (let s : State := onPd ({ · with timers := [.vconnStable], discDone := false, discCount := 20, rev := 1 }) (onTc
      ({ · with ra := true, vconnOn := true }) busy); discWanted s lastPort = true ∧ ((s.port lastPort).pd).discDone = false ∧
      policyIdle lastPort s = true ∧ expires .vconnStable lastPort s = true ∧ 20 ≤ ((s.port lastPort).pd).discCount) ∧
    (let s : State := onPd ({ · with timers := [.discoverIdentity], discDone := false, discCount := 1, rev := 1 }) (onTc
      ({ · with ra := true, vconnOn := true }) busy); discWanted s lastPort = true ∧ ((s.port lastPort).pd).discDone = false ∧
      policyIdle lastPort s = true ∧ expires .discoverIdentity lastPort s = true ∧ ((s.port lastPort).pd).discCount < 2) := by
  refine ⟨?_, ?_, ?_, ?_, ?_, ?_, ?_, ?_, ?_, ?_, ?_, ?_, ?_, ?_, ?_⟩ <;> decide +kernel

/-- O34. -/
theorem witness_PdTimerExpiry :
    (let s : State := onPd ({ · with timers := [.senderResponse] }) busy; ((s.port lastPort).tc).st = .attached ∧
      expires .senderResponse lastPort s = true) ∧
    (let s : State := onPd ({ · with timers := [.vconnSource] }) busy; ((s.port lastPort).tc).st = .attached ∧
      expires .vconnSource lastPort s = true) ∧
    (let s : State := onPd ({ · with timers := [.srcSettle] }) busy; ((s.port lastPort).tc).st = .attached ∧ expires .srcSettle lastPort s = true) ∧
    (let s : State := onPd ({ · with timers := [.noResponse], hrCount := 1 }) busy; ((s.port lastPort).tc).st = .attached ∧
      expires .noResponse lastPort s = true ∧ ((s.port lastPort).pd).hrCount < 2) ∧
    (let s : State := onPd ({ · with timers := [.noResponse], hrCount := 2 }) busy; expires .noResponse lastPort s = true ∧ 2 ≤
      ((s.port lastPort).pd).hrCount) ∧
    (let s : State := onPd ({ · with timers := [.chunk] }) busy; expires .chunk lastPort s = true ∧ pdLive s lastPort = true ∧
      ((s.port lastPort).phy.tx = none)) ∧
    (let s : State := onPd ({ · with timers := [.sourceCapability] }) busy; expires .sourceCapability lastPort s = true ∧
      pdLive s lastPort = true ∧ ((s.port lastPort).phy.tx = none)) ∧
    (let s : State := onPd ({ · with timers := [.waitCap] }) busy; expires .waitCap lastPort s = true ∧ pdLive s lastPort = true ∧
      ((s.port lastPort).phy.tx = none)) ∧
    (let s : State := onPd
      ({ · with timers := [.commit8ms], req := some ({ objpos := 1, volt := 100, cur := 100, mismatch := false } : Req) }) busy;
      let r : Req := { objpos := 1, volt := 100, cur := 100, mismatch := false }; expires .commit8ms lastPort s = true ∧
      ((s.port lastPort).pd).req = some r ∧ r.answered = false ∧ ((s.port lastPort).phy.tx = none)) ∧
    (let s : State := onPd
      ({ · with timers := [.srcTransition], req := some ({ objpos := 1, volt := 100, cur := 100, mismatch := false } : Req) }) busy;
      let r : Req := { objpos := 1, volt := 100, cur := 100, mismatch := false }; expires .srcTransition lastPort s = true ∧
      ((s.port lastPort).pd).req = some r ∧ r.volt < 1024 ∧ r.cur < 1024 ∧ keeperRefusal (latchPwrCfg lastPort s) lastPort (setting
      (if r.volt = 100 then .five else .rail : Path) r.volt r.cur : Word) = 0 ∧ ((s.port lastPort).phy.tx = none) ∧ (s.port lastPort).pw.pathNow =
      (if r.volt = 100 then .five else .rail : Path) ∧ (s.port lastPort).pw.pstate = .on) ∧
    (let s : State := onPd ({ · with timers := [.psHardReset] }) busy; expires .psHardReset lastPort s = true) ∧
    (let s : State := onPd ({ · with timers := [.srcRecover] }) (onTc ({ · with ra := true }) busy); expires .srcRecover lastPort s = true ∧
      vconnWanted s lastPort = true ∧ tHas s lastPort .vconnPin = false) ∧
    (let s : State := onPd ({ · with timers := [.srcRecover] }) busy; expires .srcRecover lastPort s = true ∧
      ((s.port lastPort).tc).st = .attached ∧ keeperRefusal (latchPwrCfg lastPort s) lastPort (setting .five 100 (rpCurrent
      ((s.port lastPort).tc).rp) &&& 0xFFF003FF#32 : Word) = 0) ∧
    (let s : State := onPd ({ · with timers := [.sinkTx], sinkNg := true, own := [Seq.vconnSwap] }) busy; expires .sinkTx lastPort s = true ∧
      ((s.port lastPort).pd).sinkNg = true ∧ ((s.port lastPort).pd).ownRun = false ∧ ((s.port lastPort).pd).seq = .none ∧
      ((s.port lastPort).pd).pe ≠ .transition ∧ ((s.port lastPort).pd).req = none ∧ ((s.port lastPort).pd).swapToPort = false ∧
      tHas s lastPort .chunk = false ∧ ((s.port lastPort).pd).own = Seq.vconnSwap :: ([] : List Seq)) ∧
    (let s : State := onPd ({ · with timers := [.vconnPin] }) busy; expires .vconnPin lastPort s = true) := by
  refine ⟨?_, ?_, ?_, ?_, ?_, ?_, ?_, ?_, ?_, ?_, ?_, ?_, ?_, ?_, ?_⟩ <;> decide +kernel

/-- O35. -/
theorem witness_VconnAndPortEnables :
    (let s : State := onTc ({ · with vconnOn := true }) busy; (s.port lastPort).tc.vconnOn = true) ∧
    ((running.port lastPort).tc.vconnOn = false ∧ ((running.port lastPort).tc.st ≠ .attached ∨ (running.port lastPort).tc.vconnOc = true)) ∧
    ((busy.port lastPort).tc.vconnOn = false ∧ (busy.port lastPort).tc.st = .attached ∧ (busy.port lastPort).tc.vconnOc = false) ∧
    (postable .sup (.portTcCfg lastPort) (0x100000 + 0x1000 * lastPort.val + 0x100) busy = true) ∧
    (postable .sup (.portPdCfg lastPort) ((0x100000 + 0x1000 * lastPort.val + 0x100) + 8) busy = true) ∧
    (writable (.weaver (tileOf lastPort) : Master) (.portTcCfg lastPort) (0x100000 + 0x1000 * lastPort.val + 0x100) (setFld
      (busy.port lastPort).tc.cfg 15 15 (b2n false) : Word) busy = true ∧ weaverActs busy lastPort = true ∧ tcEn busy lastPort = true ∧
      false = false) ∧
    (writable (.weaver (tileOf lastPort) : Master) (.portPdCfg lastPort) ((0x100000 + 0x1000 * lastPort.val + 0x100) + 8) (setFld
      (busy.port lastPort).pd.cfg 31 31 (b2n true) : Word) busy = true) ∧
    (writable (.weaver (tileOf lastPort) : Master) (.portPdCfg lastPort) ((0x100000 + 0x1000 * lastPort.val + 0x100) + 8) (setFld
      (busy.port lastPort).pd.cfg 30 30 (b2n true) : Word) busy = true) := by
  refine ⟨?_, ?_, ?_, ?_, ?_, ?_, ?_, ?_⟩ <;> decide +kernel

/-- O36. -/
theorem witness_ArbiterDecisions :
    (supUp busy = true ∧ fits busy lastPort ((0 : BitVec 16).toNat) = true) ∧
    (supUp running = true ∧ fits running lastPort ((25 : BitVec 16).toNat) = false ∧ ((25 : BitVec 16).toNat) ≤ 25) ∧
    (supUp busy = true ∧ fits busy lastPort ((0xFFFF : BitVec 16).toNat) = false ∧ 25 < ((0xFFFF : BitVec 16).toNat)) ∧
    (supUp busy = true ∧ (allocOf busy lastPort) < ((0xFFFF : BitVec 16).toNat)) ∧
    (supUp busy = true ∧ ((0 : BitVec 16).toNat) ≤ (allocOf busy lastPort)) := by
  refine ⟨?_, ?_, ?_, ?_, ?_⟩ <;> decide +kernel

/-- O37. -/
theorem witness_BudgetWordsAtThePort :
    (let s : State := onPd ({ · with asked := [opCommit] }) busy; weaverActs s lastPort = true ∧ ((s.port lastPort).pd).asked = opCommit ::
      ([] : List Nat) ∧ (opCommit = opHold ∨ opCommit = opCommit)) ∧
    (weaverActs busy lastPort = true ∧ ((busy.port lastPort).pd).asked = []) ∧
    (let s : State := onPd ({ · with asked := [opBase] }) (onPw ({ · with keeper := 0, pathNow := .none, pstate := .off }) busy);
      weaverActs s lastPort = true ∧ ((s.port lastPort).pd).asked = opBase :: ([] : List Nat) ∧ ((s.port lastPort).tc).st = .attached ∧
      (s.port lastPort).pw.keeper = 0 ∧ keeperRefusal (latchPwrCfg lastPort s) lastPort (setting .five 100 (rpCurrent
      ((s.port lastPort).tc).rp) &&& 0xFFF003FF#32 : Word) = 0) ∧
    (let s : State := onPd ({ · with asked := [opCommit], req := some ({ objpos := 1, volt := 100, cur := 100, mismatch := false } : Req) }) busy;
      let r : Req := { objpos := 1, volt := 100, cur := 100, mismatch := false }; weaverActs s lastPort = true ∧
      ((s.port lastPort).pd).asked = opCommit :: ([] : List Nat) ∧ ([] : List Nat).contains opCommit = false ∧
      ((s.port lastPort).pd).req = some r ∧ r.answered = false ∧ (s.port lastPort).phy.tx = none) ∧
    (weaverActs running lastPort = true ∧ pdLive running lastPort = false) ∧
    (let s : State := onPd ({ · with rev := 1 }) busy; weaverActs s lastPort = true ∧ pdLive s lastPort = true ∧
      ((s.port lastPort).pd).caps ≠ [] ∧ policyIdle lastPort s = true) ∧
    (weaverActs busy lastPort = true ∧ pdLive busy lastPort = true ∧ ((busy.port lastPort).pd).caps ≠ [] ∧ serveRule busy lastPort = true ∧
      ((busy.port lastPort).pd).sinkNg = false) := by
  refine ⟨?_, ?_, ?_, ?_, ?_, ?_, ?_⟩ <;> decide +kernel

/-- O38. -/
theorem witness_BudgetPortRegister :
    (writable .sup (.budPort lastPort) (0x40200 + 4 * lastPort.val) (0xFF00FFFF#32) busy = true) := by
  decide +kernel

/-- O39. -/
theorem witness_GroupFeeds :
    (let s : State := onGrp ({ · with st := .off, cfg := 0x840A#32 }) busy; clocksRun s = true ∧ (s.grp lastTile).st = .off ∧
      feedAllowed s lastTile = true ∧ thrBad (s.grp lastTile) = false ∧ (fld (s.grp lastTile).thrNow 29 20 + 5 * b2n
      (s.grp lastTile).uvLow) < 500 ∧ 500 + 5 * b2n (s.grp lastTile).ovOver < (fld (s.grp lastTile).thrNow 9 0)) ∧
    (let s : State := onGrp ({ · with st := .qualifying }) busy; (s.grp lastTile).st = .qualifying ∧ ((384 ≤ (fld
      (s.grp lastTile).thrNow 29 20 + 5 * b2n (s.grp lastTile).uvLow) ∨ (fld (s.grp lastTile).thrNow 9 0) ≤ 384 + 5 * b2n
      (s.grp lastTile).ovOver))) ∧
    (let s : State := onGrp ({ · with st := .qualifying }) busy; (s.grp lastTile).st = .qualifying ∧ thrBad (s.grp lastTile) = false) ∧
    (let s : State := onGrp ({ · with st := .qualifying, lim := 0 }) busy; (s.grp lastTile).st = .qualifying ∧ thrBad (s.grp lastTile) = true) ∧
    (let s : State := onGrp ({ · with st := .ramping }) busy; (s.grp lastTile).st = .ramping) ∧
    (let s : State := onGrp ({ · with st := .warning }) busy; (s.grp lastTile).limiting = false ∧ (((s.grp lastTile).st = .on ∨
      (s.grp lastTile).st = .warning ∧ (fld (s.grp lastTile).thrNow 19 10) + 5 < 500))) ∧
    ((busy.grp lastTile).st = .good ∧ 1 < (fld (busy.grp lastTile).thrNow 19 10)) ∧
    (((busy.grp lastTile).st == .ramping || (busy.grp lastTile).st == .on || (busy.grp lastTile).st == .good ||
      (busy.grp lastTile).st == .warning) = true ∧ (100 * (if (busy.grp lastTile).st = .ramping then fld (busy.grp lastTile).limNow 7 0 else fld
      (busy.grp lastTile).limNow 15 8)) ≤ (100000 * max 1 (fld (busy.grp lastTile).cfgNow 11 8))) ∧
    (let s : State := onGrp ({ · with limiting := true }) busy; (s.grp lastTile).limiting = true ∧ (0 * max 1 (fld
      (s.grp lastTile).cfgNow 11 8)) + 200 ≤ (100 * (if (s.grp lastTile).st = .ramping then fld (s.grp lastTile).limNow 7 0 else fld
      (s.grp lastTile).limNow 15 8))) ∧
    (let s : State := onGrp ({ · with limiting := true }) busy; ((s.grp lastTile).st == .ramping || (s.grp lastTile).st == .on ||
      (s.grp lastTile).st == .good || (s.grp lastTile).st == .warning) = true ∧ (s.grp lastTile).limiting = true) ∧
    (((busy.grp lastTile).st == .ramping || (busy.grp lastTile).st == .on || (busy.grp lastTile).st == .good ||
      (busy.grp lastTile).st == .warning) = true ∧ 100 * fld (busy.grp lastTile).limNow 23 16 < (4095 * max 1 (fld
      (busy.grp lastTile).cfgNow 11 8))) ∧
    ((0 * max 1 (fld (busy.grp lastTile).cfgNow 11 8)) ≤ 100 * fld (busy.grp lastTile).limNow 23 16) ∧
    (((busy.grp lastTile).st == .ramping || (busy.grp lastTile).st == .on || (busy.grp lastTile).st == .good ||
      (busy.grp lastTile).st == .warning) = true ∧ 1 < fld (busy.grp lastTile).thrNow 29 20) ∧
    (((busy.grp lastTile).st == .ramping || (busy.grp lastTile).st == .on || (busy.grp lastTile).st == .good ||
      (busy.grp lastTile).st == .warning) = true ∧ (fld (busy.grp lastTile).thrNow 9 0) < 1023) ∧
    (let s : State := onGrp ({ · with st := .cooldown }) busy; (s.grp lastTile).st = .cooldown) ∧
    (let s : State := onGrp ({ · with railUp := false, cfg := 0x940A#32 }) busy; (s.grp lastTile).pg = true ∧ railVolt s lastTile ≠ 0 ∧
      (s.grp lastTile).railUp = false ∧ inWindow (railVolt s lastTile) 180 = true) ∧
    (let s : State := onGrp ({ · with cfg := 0x940A#32 }) busy; (s.grp lastTile).railUp = true ∧ 161 * 100 < railVolt s lastTile * 90) := by
  refine ⟨?_, ?_, ?_, ?_, ?_, ?_, ?_, ?_, ?_, ?_, ?_, ?_, ?_, ?_, ?_, ?_, ?_⟩ <;> decide +kernel

/-- O40. -/
theorem witness_PowerRegisters :
    (postable .sup (.grpCfg (tileOf lastPort)) (0x30000 + 0x400 * (tileOf lastPort).val) running = true) ∧
    (postable .sup (.portPwrCmd lastPort) ((0x100000 + 0x1000 * lastPort.val) + 0x220) running = true) ∧
    (let s : State := { running with grps := Vector.replicate 8 { cfg := 0x840A#32, released := true, st := .on, rim := none } }; writable
      (.weaver (tileOf lastPort) : Master) (.grpCfg (tileOf lastPort)) (0x30000 + 0x400 * (tileOf lastPort).val) ((setFld (s.grp
      (tileOf lastPort)).cfg 15 15 (b2n false))) s = true ∧ false = false ∧ feedEn (s.grp (tileOf lastPort)) = true ∧ (s.grp
      (tileOf lastPort)).released = true) ∧
    (writable (.weaver (tileOf lastPort) : Master) (.grpCfg (tileOf lastPort)) (0x30000 + 0x400 * (tileOf lastPort).val) (setFld (running.grp
      (tileOf lastPort)).cfg 13 12 (3 : Fin 4).val : Word) running = true ∧ ((∀ q, tileOf q = (tileOf lastPort) → kPath
      (running.port q).pw.keeper ≠ .rail))) ∧
    (let s : State := onPw ({ · with keeper := 0x80000000#32 }) running; writable (.weaver (tileOf lastPort) : Master) (.grpCfg (tileOf lastPort))
      (0x30000 + 0x400 * (tileOf lastPort).val) (setFld (s.grp (tileOf lastPort)).cfg 13 12 (3 : Fin 4).val : Word) s = true ∧ kPath
      ((s.port lastPort).pw).keeper = .rail ∧ (3 : Fin 4).val ≠ fld (s.grp (tileOf lastPort)).cfgNow 13 12) ∧
    (guardOpen (.weaver (tileOf lastPort) : Master) (.portKeeper lastPort) ((0x100000 + 0x1000 * lastPort.val) + 0x208)
      (0xC0000000#32) running = true ∧ (keeperRefusal (latchPwrCfg lastPort running) lastPort ((0xC0000000#32) &&& 0xFFF003FF#32 : Word)) ≠ 0) ∧
    (guardOpen (.weaver (tileOf lastPort) : Master) (.portKeeper lastPort) ((0x100000 + 0x1000 * lastPort.val) + 0x208) (0#32) running = true ∧
      (keeperRefusal (latchPwrCfg lastPort running) lastPort ((0#32) &&& 0xFFF003FF#32 : Word)) = 0 ∧ fld (0#32) 31 30 = 0) ∧
    (let s : State := onPw ({ · with pstate := .off, pathNow := .none }) busy; guardOpen (.weaver (tileOf lastPort) : Master)
      (.portKeeper lastPort) ((0x100000 + 0x1000 * lastPort.val) + 0x208) (0x4640012C#32) s = true ∧ (keeperRefusal
      (latchPwrCfg lastPort s) lastPort ((0x4640012C#32) &&& 0xFFF003FF#32 : Word)) = 0 ∧ fld (0x4640012C#32) 31 30 ≠ 0 ∧
      ((s.port lastPort).pw).pstate = .off ∧ ((s.port lastPort).pw).pathNow = .none ∧ ((s.port lastPort).pw).fwOff = false) ∧
    (writable (.weaver (tileOf lastPort) : Master) (.portPwrCmd lastPort) ((0x100000 + 0x1000 * lastPort.val) + 0x220) ((BitVec.ofNat 32
      (2 ^ 2 + b2n ((running.port lastPort).pw).fwOff))) running = true) ∧
    (writable (.weaver (tileOf lastPort) : Master) (.portPwrCmd lastPort) ((0x100000 + 0x1000 * lastPort.val) + 0x220) ((BitVec.ofNat 32
      (2 ^ 1 + b2n ((running.port lastPort).pw).fwOff))) running = true) ∧
    (writable (.weaver (tileOf lastPort) : Master) (.portPwrCmd lastPort) ((0x100000 + 0x1000 * lastPort.val) + 0x220) 1 running = true ∧
      ((running.port lastPort).pw).fwOff = false) ∧
    (let s : State := onPw ({ · with fwOff := true, pstate := .fwOff }) running; writable (.weaver (tileOf lastPort) : Master)
      (.portPwrCmd lastPort) ((0x100000 + 0x1000 * lastPort.val) + 0x220) 0 s = true ∧ ((s.port lastPort).pw).fwOff = true ∧
      ((s.port lastPort).pw).pstate = .fwOff) := by
  refine ⟨?_, ?_, ?_, ?_, ?_, ?_, ?_, ?_, ?_, ?_, ?_, ?_⟩ <;> decide +kernel

/-- O41. -/
theorem witness_RampsAndPowerGood :
    (let s : State := onPw ({ · with pstate := .waiting, pathNow := .none }) busy; clocksRun s = true ∧ s.flt.safe = false ∧
      ((∀ a, s.bud.relayAt = some a → a + 12500 * max 5 (fld s.bud.relay 7 0) ≤ s.now)) ∧ eligible s lastPort = true ∧
      ((∀ q, eligible s q = true → relayRank s lastPort ≤ relayRank s q))) ∧
    (let s : State := { busy with bud := { busy.bud with relayAt := some 1000000 } }; s.bud.relayAt = some 1000000 ∧
      s.now < 1000000 + 12500 * max 5 (fld s.bud.relay 7 0)) ∧
    (clocksRun busy = true ∧ ((∀ q, eligible busy q = false))) ∧
    (let s : State := onPw ({ · with pstate := .ramping }) busy; ((s.port lastPort).pw).pstate = .ramping ∧
      ((s.port lastPort).pw).probed = false ∧ 500 ≠ 0 ∧ ((1000 * 0 + 500 / 2) / 500) ≤ 1023 ∧ (((decide (0 < 5) && decide (0 < noloadOf
      ((s.port lastPort).pw).effProt)) = true ∨ 5 ≤ 0 ∨ 2 * 0 < (10 * max 1 (fld ((s.port lastPort).pw).effPwr 15 8))))) ∧
    (let s : State := onPw ({ · with pstate := .ramping }) busy; ((s.port lastPort).pw).pstate = .ramping ∧
      ((s.port lastPort).pw).probed = false ∧ (decide (4 < 5) && decide (500 < noloadOf ((s.port lastPort).pw).effProt)) = false ∧ 4 < 5 ∧
      (10 * max 1 (fld ((s.port lastPort).pw).effPwr 15 8)) ≤ 2 * 500) ∧
    (let s : State := onPw ({ · with pstate := .ramping, probed := true }) busy; ((s.port lastPort).pw).pstate = .ramping ∧
      ((s.port lastPort).pw).probed = true ∧ (decide (0 < 5) && decide (0 < noloadOf ((s.port lastPort).pw).effProt)) = true) ∧
    (let s : State := onPw ({ · with pstate := .ramping, probed := true }) busy; ((s.port lastPort).pw).pstate = .ramping ∧
      ((s.port lastPort).pw).probed = true ∧ (decide (100 < 5) && decide (0 < noloadOf ((s.port lastPort).pw).effProt)) = false ∧ (min
      (((s.port lastPort).pw).slew * (((s.port lastPort).pw).rampChecks + 1)) (20 * (kVolt ((s.port lastPort).pw).inForce -
      ((s.port lastPort).pw).rampBase))) ≤ 40 * (100 - ((s.port lastPort).pw).rampBase)) ∧
    (let s : State := onPw ({ · with pstate := .ramping, probed := true, slew := 100, rampBase := 10 }) busy;
      ((s.port lastPort).pw).pstate = .ramping ∧ ((s.port lastPort).pw).probed = true ∧ (decide (10 < 5) && decide (0 < noloadOf
      ((s.port lastPort).pw).effProt)) = false ∧ 40 * (10 - ((s.port lastPort).pw).rampBase) < (min (((s.port lastPort).pw).slew *
      (((s.port lastPort).pw).rampChecks + 1)) (20 * (kVolt ((s.port lastPort).pw).inForce - ((s.port lastPort).pw).rampBase)))) ∧
    (let s : State := onPw ({ · with pstate := .ramping }) busy; ((s.port lastPort).pw).pstate = .ramping ∧ ((s.port lastPort).pw).held = false) ∧
    (let s : State := onPw ({ · with pstate := .ramping, armed := false, vbus := 5 }) busy; ((s.port lastPort).pw).pstate = .ramping ∧
      ((s.port lastPort).pw).armed = false ∧ ((5 ≤ ((s.port lastPort).pw).vbus ∨ noloadOf ((s.port lastPort).pw).effProt ≤ 0))) ∧
    (let s : State := onPw ({ · with pstate := .ramping, held := true }) busy; ((((s.port lastPort).pw).pstate = .transition ∨
      ((s.port lastPort).pw).pstate = .ramping)) ∧ (inWindow (kVolt ((s.port lastPort).pw).inForce) 100 && (!(kPath
      ((s.port lastPort).pw).inForce == .five && ((s.port lastPort).pw).pathNow == .rail) || decide (100 < 105))) = true ∧
      ((s.port lastPort).pw).held = true ∧ heldRefusal s lastPort ((s.port lastPort).pw).keeper = 0) ∧
    (let s : State := onPw ({ · with pstate := .transition }) (onPd ({ · with timers := [.srcSettle] }) busy);
      ((s.port lastPort).pw).pstate = .transition ∧ (inWindow (kVolt ((s.port lastPort).pw).inForce) 100 && (!(kPath
      ((s.port lastPort).pw).inForce == .five && ((s.port lastPort).pw).pathNow == .rail) || decide (100 < 105))) = true ∧
      ((s.port lastPort).pw).held = false ∧ expires .srcSettle lastPort s = true ∧ kVolt ((s.port lastPort).pw).inForce =
      (s.port lastPort).pd.volt ∧ (s.port lastPort).phy.tx = none) ∧
    (let s : State := onPw ({ · with pgood := false }) busy; ((s.port lastPort).pw).pgood = false ∧ ((s.port lastPort).pw).pathNow ≠ .none ∧
      ((s.port lastPort).pw).pstate ≠ .transition ∧ ((s.port lastPort).pw).held = false ∧ inWindow (kVolt
      ((s.port lastPort).pw).inForce) 100 = true) ∧
    (let s : State := onPw ({ · with held := true }) busy; ((((s.port lastPort).pw).pstate = .transition ∨ ((s.port lastPort).pw).held = true))) ∧
    (((busy.port lastPort).pw).pgood = true ∧ ((busy.port lastPort).pw).pstate ≠ .transition ∧ ((busy.port lastPort).pw).held = false ∧ inWindow
      (kVolt ((busy.port lastPort).pw).inForce) 0 = false) ∧
    (let s : State := { busy with flt := { busy.flt with safe := true } }; s.flt.safe = true) := by
  refine ⟨?_, ?_, ?_, ?_, ?_, ?_, ?_, ?_, ?_, ?_, ?_, ?_, ?_, ?_, ?_, ?_⟩ <;> decide +kernel

/-- O42. -/
theorem witness_PortProtection :
    (((busy.port lastPort).pw).pathNow ≠ .none ∧ scMa ((busy.port lastPort).pw).effPwr ((busy.port lastPort).pw).effProt < 10 * 65535) ∧
    (((busy.port lastPort).pw).pathNow ≠ .none ∧ 10 * 0 ≤ scMa ((busy.port lastPort).pw).effPwr ((busy.port lastPort).pw).effProt) ∧
    (((busy.port lastPort).pw).pathNow ≠ .none ∧ 10 * max 1 (fld ((busy.port lastPort).pw).effProt 11 8) < 65535) ∧
    (((busy.port lastPort).pw).pathNow ≠ .none ∧ ovNow ((busy.port lastPort).pw) < 1023) ∧
    (let s : State := onPw ({ · with ftRun := true }) busy; ((s.port lastPort).pw).pathNow ≠ .none ∧ classB s lastPort = false ∧
      ((s.port lastPort).pw).ftRun = true) ∧
    (let s : State := onPd ({ · with eff := 0x1000#32 }) (onPw ({ · with curveRun := Vector.replicate 8 true }) busy);
      ((s.port lastPort).pw).pathNow ≠ .none ∧ classB s lastPort = true ∧ ((s.port lastPort).pw).curveRun[(7 : Fin 8)] = true) ∧
    (((busy.port lastPort).pw).pathNow ≠ .none ∧ ((busy.port lastPort).pw).armed = true) ∧
    (((running.port lastPort).pw).pathNow = .none ∧ 1000 ≤ 1000) ∧
    (((running.port lastPort).pw).pathNow = .none ∧ 1000 < 1001) ∧
    (let s : State := onPw ({ · with pstate := .cooldown }) State.reset; ((s.port lastPort).pw).pstate = .cooldown ∧
      weaverActs s lastPort = false) ∧
    (let s : State := onPw ({ · with pstate := .cooldown, pathNow := .none }) busy; ((s.port lastPort).pw).pstate = .cooldown ∧
      weaverActs s lastPort = true ∧ ((s.port lastPort).tc).st = .attached ∧ ((s.port lastPort).pw).fwOff = false ∧
      ((s.port lastPort).pw).pathNow = .none ∧ keeperRefusal (latchPwrCfg lastPort s) lastPort (setting .five 100 (rpCurrent
      ((s.port lastPort).tc).rp) &&& 0xFFF003FF#32 : Word) = 0) ∧
    (((busy.port lastPort).pw).pgood = true) ∧
    (let s : State := onPw ({ · with discharge := true }) busy; ((s.port lastPort).pw).discharge = true) := by
  refine ⟨?_, ?_, ?_, ?_, ?_, ?_, ?_, ?_, ?_, ?_, ?_, ?_, ?_⟩ <;> decide +kernel

/-- O43. -/
theorem witness_TimeReferences :
    ((ppsEn (running.tim) PpsInput.b = false ∨ (running.tim).running = false ∨ (∃ l, (ppsOf (running.tim) PpsInput.b).lastEdge = some l ∧
      ((0 : Int) * 4000000000 + (3999999999 % 4000000000 : Nat) : Int) - l < 3600000000))) ∧
    (let s : State := onTim ({ · with refCfg := 0xF0000A14#32 }) running; ppsEn (s.tim) PpsInput.b = true ∧ (s.tim).running = true ∧ ¬(∃ l, (ppsOf
      (s.tim) PpsInput.b).lastEdge = some l ∧ ((0 : Int) * 4000000000 + (3999999999 % 4000000000 : Nat) : Int) - l < 3600000000) ∧
      (s.tim).pending = none) ∧
    (let s : State := onTim ({ · with refCfg := 0xF0000A14#32 }) running; irigEn (s.tim) = true ∧ (s.tim).running = true ∧ readFrame (fld
      (s.tim).refCfg 18 16) goodFrame = some ({ year := 0, day := 365, sod := 86400 } : IrigTime) ∧ (∀ a, (s.tim).irigLast = some a → followsOne
      (fld (s.tim).refCfg 18 16) a ({ year := 0, day := 365, sod := 86400 } : IrigTime) = true) ∧ ¬(((s.tim).ref = .ppsA ∧ (ppsWin
      (s.tim) < goodFrame.phase - (s.tim).a.err ∨ goodFrame.phase - (s.tim).a.err < -ppsWin (s.tim))) ∨ ((s.tim).ref = .ppsB ∧ (ppsWin
      (s.tim) < goodFrame.phase - (s.tim).b.err ∨ goodFrame.phase - (s.tim).b.err < -ppsWin (s.tim)))) ∧ (s.tim).pending = none) ∧
    (let s : State := onTim ({ · with refCfg := 0xF0000A14#32 }) running; irigEn (s.tim) = true ∧ (s.tim).running = true ∧ (readFrame (fld
      (s.tim).refCfg 18 16) ({ goodFrame with widths := [] } : IrigFrame) = none ∨ (readFrame (fld (s.tim).refCfg 18 16)
      ({ goodFrame with widths := [] } : IrigFrame) = some ({ year := 0, day := 365, sod := 86400 } : IrigTime) ∧ ¬(∀ a,
      (s.tim).irigLast = some a → followsOne (fld (s.tim).refCfg 18 16) a ({ year := 0, day := 365, sod := 86400 } : IrigTime) = true)) ∨
      (((s.tim).ref = .ppsA ∧ (ppsWin (s.tim) < ({ goodFrame with widths := [] } : IrigFrame).phase - (s.tim).a.err ∨
      ({ goodFrame with widths := [] } : IrigFrame).phase - (s.tim).a.err < -ppsWin (s.tim))) ∨ ((s.tim).ref = .ppsB ∧ (ppsWin (s.tim) <
      ({ goodFrame with widths := [] } : IrigFrame).phase - (s.tim).b.err ∨ ({ goodFrame with widths := [] } : IrigFrame).phase -
      (s.tim).b.err < -ppsWin (s.tim)))))) ∧
    (ref10mEn (running.tim) = false) ∧
    (let s : State := onTim ({ · with refCfg := 0xF0000A14#32 }) running; ref10mEn (s.tim) = true ∧ -50000 ≤ (50000 : Int) ∧
      (50000 : Int) ≤ 50000) ∧
    (let s : State := onTim ({ · with refCfg := 0xF0000A14#32 }) running; ref10mEn (s.tim) = true ∧ ((50001 : Int) < -50000 ∨ 50000 <
      (50001 : Int))) := by
  refine ⟨?_, ?_, ?_, ?_, ?_, ?_, ?_⟩ <;> decide +kernel

/-- O44. -/
theorem witness_SecondBoundaryAndServo :
    ((State.reset.tim).running = false) ∧
    (let s : State := onTim ({ · with step := some (-4000000000) }) running; (s.tim).running = true ∧ (s.tim).step = some (-4000000000) ∧
      (s.tim).sec.toNat + 1 < 2 ^ 32) ∧
    (let s : State := onTim ({ · with leap := 0x40000000#32, sec := 86399 }) running; (s.tim).running = true ∧ (s.tim).step = none ∧
      (s.tim).sec.toNat + 1 < 2 ^ 32 ∧ (fld (s.tim).leap 31 30) = 1 ∧ (s.tim).leap60 = false ∧ (((s.tim).sec.toNat : Int) + 1 - (fld
      (s.tim).leap 7 0 : Nat) : Int) % 86400 = 0) ∧
    (let s : State := onTim ({ · with leap := 0x400000FE#32, leap60 := true }) running; (s.tim).running = true ∧ (fld (s.tim).leap 31 30) = 1 ∧
      (s.tim).leap60 = true ∧ fld (s.tim).leap 7 0 < 255) ∧
    (let s : State := onTim ({ · with leap := 0x80000001#32, sec := 86399 }) running; (s.tim).running = true ∧ (s.tim).step = none ∧
      (s.tim).sec.toNat + 1 < 2 ^ 32 ∧ (fld (s.tim).leap 31 30) = 2 ∧ (s.tim).leap60 = false ∧ ((((s.tim).sec.toNat : Int) + 1 - (fld
      (s.tim).leap 7 0 : Nat) : Int) + 1) % 86400 = 0 ∧ 0 < fld (s.tim).leap 7 0) ∧
    ((running.tim).running = true ∧ (fld (running.tim).leap 31 30) = 0 ∧ (running.boot.timeTable = [] ∨ supLives running = false ∨ bitOf
      (running.tim).refCfg 24 = true)) ∧
    (let s : State := onTim ({ · with sec := 172798 }) (onBoot ({ · with timeTable := [(172800, 1)] }) running); (s.tim).running = true ∧ (fld
      (s.tim).leap 31 30) = 0 ∧ (s.tim).leap60 = false ∧ (s.tim).step = none ∧ (s.tim).sec.toNat + 1 < 2 ^ 32 ∧ supLives s = true ∧ bitOf
      (s.tim).refCfg 24 = false ∧ s.boot.timeTable = [(172800, 1)] ∧ (((s.tim).sec.toNat + 1 - fld
      (s.tim).leap 7 0) / 86400) + 1 = 172800 / 86400 ∧ fld (s.tim).leap 7 0 < 1) ∧
    (let s : State := onTim ({ · with st := .acquire, lockN := 16, refCfg := 0xF0000A14#32, a := { ok := true } }) running;
      (s.tim).running = true ∧ (s.tim).st = .acquire ∧ anyPhaseRef (s.tim) = true ∧ 16 ≤ (s.tim).lockN) ∧
    (let s : State := onTim ({ · with st := .acquire, lockN := 15, refCfg := 0xF0000A14#32, a := { ok := true } }) running;
      (s.tim).running = true ∧ (s.tim).st = .acquire ∧ anyPhaseRef (s.tim) = true ∧ (s.tim).lockN < 16) ∧
    (let s : State := onTim ({ · with st := .track }) running; (s.tim).running = true ∧ (s.tim).st = .track ∧ anyPhaseRef (s.tim) = false) ∧
    (let s : State := onTim ({ · with st := .holdover }) running; (s.tim).running = true ∧ (s.tim).st = .holdover ∧ anyPhaseRef (s.tim) = false) ∧
    (let s : State := onTim ({ · with st := .holdover, refCfg := 0xF0000A14#32, a := { ok := true } }) running; (s.tim).running = true ∧
      ((s.tim).st = .unset ∨ (s.tim).st = .free ∨ (s.tim).st = .freq ∨ (s.tim).st = .holdover) ∧ anyPhaseRef (s.tim) = true) ∧
    ((running.tim).running = true ∧ ((running.tim).st = .unset ∨ (running.tim).st = .free) ∧ anyPhaseRef (running.tim) = false ∧
      (running.tim).refOk = false) ∧
    (let s : State := onTim ({ · with ppsoutCfg := 0x40000000#32, quietTo := 1 }) running; (s.tim).running = true ∧ (s.tim).step = none ∧ fld
      (s.tim).ppsoutCfg 31 30 = 1 ∧ fld (s.tim).ppsoutCfg 9 0 = 0 ∧ (s.tim).quietTo ≤ ((s.tim).sec + 1).toNat) ∧
    (let s : State := onTc ({ · with sbu := .straight }) (onPd ({ · with alt := true, modeVdo := 2#32 }) (onTim ({ · with valid := true }) busy));
      (s.tim).running = true ∧ (s.tim).step = none ∧ sbuNow s lastPort ≠ .isOpen ∧ (s.tim).valid = true ∧ (s.tim).quietTo ≤
      ((s.tim).sec + 1).toNat ∧ replicaBad (tileOf lastPort) s = false ∧ bitOf (s.port lastPort).pd.modeVdo 1 = true) ∧
    (let s : State := onTim ({ · with st := .holdover, refOk := true }) running; (s.tim).st = .holdover ∧ fld (s.tim).holdCfg 31 16 ≠ 0 ∧
      (s.tim).refOk = true) ∧
    (let s : State := onTim ({ · with st := .holdover }) running; (s.tim).st = .holdover ∧ fld (s.tim).holdCfg 31 16 ≠ 0 ∧ (s.tim).refOk = false) ∧
    (((running.tim).st ≠ .holdover ∨ fld (running.tim).holdCfg 31 16 = 0)) ∧
    ((running.tim).pending = none) ∧
    (let s : State := onTim ({ · with pending := some 0xFFFFFFFF#32 }) running; (s.tim).pending.isSome = true) ∧
    (let s : State := onTile ({ · with link := { trained := true, spare := some 8, switching := true } }) running;
      laneSwitching s lastTile laneControl = true) ∧
    (coreUp running = true ∧ laneSwitching running lastTile laneControl = false ∧ -16 ≤ (16 : Int) ∧ (16 : Int) ≤ 16) ∧
    (coreUp running = true ∧ laneSwitching running lastTile laneControl = false ∧ (((17 : Int) < -16 ∨ 16 < (17 : Int)))) ∧
    (let s : State := onTc ({ · with sbuRun := true, sbuElement := 98 }) busy; ((s.port lastPort).tc).sbuRun = true ∧
      ((s.port lastPort).tc).sbuStop = false ∧ ((s.port lastPort).tc).sbuElement < 99 ∧ ((s.port lastPort).tc).sbuPulse = false) ∧
    (let s : State := onTc ({ · with sbuRun := true, sbuStop := true }) busy; ((s.port lastPort).tc).sbuRun = true ∧
      ((s.port lastPort).tc).sbuStop = true ∧ ((s.port lastPort).tc).sbuPulse = false) ∧
    (let s : State := onTc ({ · with sbuPulse := true, sbuLeft := 1 }) busy; ((s.port lastPort).tc).sbuRun = false ∧
      ((s.port lastPort).tc).sbuPulse = true) ∧
    (((running.port lastPort).tc).sbuRun = false ∧ ((running.port lastPort).tc).sbuPulse = false) := by
  refine ⟨?_, ?_, ?_, ?_, ?_, ?_, ?_, ?_, ?_, ?_, ?_, ?_, ?_, ?_, ?_, ?_, ?_, ?_, ?_, ?_, ?_, ?_, ?_, ?_, ?_, ?_, ?_⟩ <;> decide +kernel

/-- O45. -/
theorem witness_TimeSets :
    (postable .sup .timSetCtl 0x5028 running = true) ∧
    (postable .sup .timFreq 0x502C running = true) ∧
    (let s : State := onAcc (fun y => { y with busy := y.busy.set 8 (some { addr := 0x5028, value := 1, master := .sup }) }) running;
      clocksRun s = true ∧ (s.acc.busy[8] = some { addr := 0x5028, value := 1, master := Master.sup }) ∧ secSrc (s.tim) = false ∧ refInUse
      (s.tim) = false ∧ (fld (s.tim).setNs 29 0) < 1000000000) ∧
    (let s : State := onAcc (fun y => { y with busy := y.busy.set 8 (some { addr := 0x5028, value := 1, master := .sup }) }) (onTim
      ({ · with setNs := 1000000000#32 }) running); clocksRun s = true ∧
      (s.acc.busy[8] = some { addr := 0x5028, value := 1, master := Master.sup }) ∧ (secSrc (s.tim) = true ∨ refInUse
      (s.tim) = true ∨ 1000000000 ≤ (fld (s.tim).setNs 29 0))) ∧
    (let s : State := onAcc (fun y => { y with busy := y.busy.set 8 (some { addr := 0x5028, value := 2, master := .sup }) }) running;
      clocksRun s = true ∧ (s.acc.busy[8] = some { addr := 0x5028, value := 2, master := Master.sup }) ∧ secSrc (s.tim) = false) ∧
    (let s : State := onAcc (fun y => { y with busy := y.busy.set 8 (some { addr := 0x5028, value := 2, master := .sup }) }) (onTim
      ({ · with refCfg := 0x20000A14#32, irigOk := true }) running); clocksRun s = true ∧
      (s.acc.busy[8] = some { addr := 0x5028, value := 2, master := Master.sup }) ∧ secSrc (s.tim) = true) ∧
    (let s : State := onAcc (fun y => { y with busy := y.busy.set 8 (some { addr := 0x502C, value := 0, master := .sup }) }) running;
      clocksRun s = true ∧ (s.acc.busy[8] = some { addr := 0x502C, value := (0#32), master := Master.sup }) ∧ ((s.tim).st == .unset ||
      (s.tim).st == .free) = true) ∧
    (let s : State := onAcc (fun y => { y with busy := y.busy.set 8 (some { addr := 0x502C, value := 0, master := .sup }) }) (onTim
      ({ · with st := .track }) running); clocksRun s = true ∧ (s.acc.busy[8] = some { addr := 0x502C, value := (0#32), master := Master.sup }) ∧
      ((s.tim).st == .unset || (s.tim).st == .free) = false) ∧
    (let s : State := onTim ({ · with pending := some 0xFFFFFFFF#32, ref := .ppsB, refCfg := 0xFFFFFFFF#32 }) running; (s.tim).pending = some
      (0xFFFFFFFF : BitVec 32) ∧ (s.tim).ref = ppsRef PpsInput.b ∧ ppsEn (s.tim) PpsInput.b = true ∧ (s.tim).running = true ∧ ((∀ e, (ppsOf
      (s.tim) PpsInput.b).lastEdge = some e → e + 3600000000 ≤ (0 : Int) * 4000000000 + (0 % 4000000000 : Nat)))) := by
  refine ⟨?_, ?_, ?_, ?_, ?_, ?_, ?_, ?_, ?_⟩ <;> decide +kernel

/-- O46. -/
theorem witness_PsiSemaphoresAndTileControl :
    (issues .sup running = true ∧ readable .sup (.accSem (15 : Fin 16)) (0x1100 + 4 * (15 : Fin 16).val) running = true ∧
      (running.acc.sems[(15 : Fin 16)]).owner = none) ∧
    (let s : State := onAcc (fun x => { x with sems := Vector.replicate 16 { owner := some .sup } }) running; issues .sup s = true ∧ readable .sup
      (.accSem (15 : Fin 16)) (0x1100 + 4 * (15 : Fin 16).val) s = true ∧ (s.acc.sems[(15 : Fin 16)]).owner = some .sup) ∧
    (let s : State := onAcc (fun x => { x with sems := Vector.replicate 16 { owner := some .ws } }) running; issues .sup s = true ∧ readable .sup
      (.accSem (15 : Fin 16)) (0x1100 + 4 * (15 : Fin 16).val) s = true ∧ ((s.acc.sems[(15 : Fin 16)]).owner = some .spi ∨
      (s.acc.sems[(15 : Fin 16)]).owner = some .ws)) ∧
    (issues .sup running = true ∧ writable .sup (.accSem (15 : Fin 16)) (0x1100 + 4 * (15 : Fin 16).val) 0 running = true) ∧
    (postable .sup (.tileCtl lastTile) (0x200000 + 0x20000 * lastTile.val + 0x18000) running = true) ∧
    (running.flt.safe = false ∧ writable (.weaver lastTile : Master) (.tileCtl lastTile) (0x200000 + 0x20000 * lastTile.val + 0x18000)
      ((0x80 : Byte).setWidth 32 : Word) running = true) ∧
    (running.flt.safe = false ∧ writable (.weaver lastTile : Master) (.tileCtl lastTile) (0x200000 + 0x20000 * lastTile.val + 0x18000)
      (((0x80 : Byte) ++ (0x80 : Byte)).setWidth 32 : Word) running = true) := by
  refine ⟨?_, ?_, ?_, ?_, ?_, ?_, ?_⟩ <;> decide +kernel

/-- O47. -/
theorem witness_PowerUpAndResets :
    ((State.reset.pwr).phase = .rimReset) ∧
    (let s : State := onPwr ({ · with phase := .waitPwrOk }) running; (s.pwr).phase = .waitPwrOk ∧ (s.pwr).second = false) ∧
    (let s : State := onPwr ({ · with phase := .waitPwrOk, second := true }) running; (s.pwr).phase = .waitPwrOk ∧ (s.pwr).second = true ∧
      s.crp.st ≠ .waking) ∧
    (let s : State := onPwr ({ · with phase := .waitOsc }) running; (s.pwr).phase = .waitOsc ∧ (s.pwr).second = false) ∧
    (let s : State := onPwr ({ · with phase := .waitOsc, second := true }) running; (s.pwr).phase = .waitOsc ∧ (s.pwr).second = true ∧
      s.crp.st ≠ .waking) ∧
    (let s : State := onPwr ({ · with phase := .offWait }) running; (s.pwr).phase = .offWait) ∧
    (let s : State := onPwr ({ · with phase := .waitCore }) running; (s.pwr).phase = .waitCore ∧ (s.pwr).resetLow = false ∧
      (s.pwr).fromDeep = false ∧ (s.pwr).fromOff = false) ∧
    ((running.pwr).coreEn = true ∧ (running.pwr).phase ≠ .waitPwrOk ∧ (running.pwr).phase ≠ .rimReset ∧ beforeT4 running = false) ∧
    (let s : State := onPwr ({ · with phase := .waitCore }) running; (s.pwr).coreEn = true ∧ (s.pwr).phase ≠ .waitPwrOk ∧
      (s.pwr).phase ≠ .rimReset ∧ beforeT4 s = true) ∧
    ((running.pwr).resetLow = false ∧ ((running.pwr).phase = .run ∨ (running.pwr).phase = .boot ∨ (running.pwr).phase = .coreUp)) ∧
    (let s : State := onPwr ({ · with phase := .gaveUp }) running; (s.pwr).resetLow = false ∧ (s.pwr).phase = .gaveUp) ∧
    (let s : State := onPwr ({ · with phase := .resetHeld }) running; (s.pwr).phase = .resetHeld) ∧
    ((running.pwr).phase ≠ .resetHeld) := by
  refine ⟨?_, ?_, ?_, ?_, ?_, ?_, ?_, ?_, ?_, ?_, ?_, ?_, ?_⟩ <;> decide +kernel

/-- O48. -/
theorem witness_BootAndResetCommands :
    (let s : State := onPwr ({ · with phase := .coreUp, fromDeep := true }) running; s.pwr.phase = .coreUp ∧
      (true = false ∨ s.pwr.fromDeep = true)) ∧
    (let s : State := onPwr ({ · with phase := .coreUp }) running; s.pwr.phase = .coreUp ∧ s.pwr.fromDeep = false) ∧
    (let s : State := onPwr ({ · with phase := .boot }) running; s.pwr.phase = .boot ∧ (bootPaused s = none ∨
      (15 : Fin 16).val ≠ s.boot.step + 1)) ∧
    (let s : State := onBoot ({ · with step := 4, plan := some { answers := true, writes := true, pauses := [5] } }) (onPwr
      ({ · with phase := .boot }) running); s.pwr.phase = .boot ∧ bootPaused s = some
      ({ answers := true, writes := true, pauses := [5] } : FlashStatus) ∧ (5 : Fin 16).val = s.boot.step + 1 ∧
      ({ answers := true, writes := true, pauses := [5] } : FlashStatus).pauses = [(5 : Fin 16).val] ∧ s.boot.step < 8 ∧ s.flt.safe = false) ∧
    (let s : State := onBoot ({ · with step := 1, plan := some goodFlash }) (onPwr ({ · with phase := .boot }) running); s.pwr.phase = .boot ∧
      s.boot.step = 1 ∧ ((∀ h, h < lastTile → (s.tile h).on = true))) ∧
    (let s : State := setTile 0 { on := false } (onBoot ({ · with step := 1, plan := some goodFlash }) (onPwr
      ({ · with phase := .boot }) running)); s.pwr.phase = .boot ∧ s.boot.step = 1 ∧ ((∃ h, h < lastTile ∧ (s.tile h).on = false))) ∧
    (let s : State := onTile ({ · with ready := false }) running; (s.tile lastTile).on = true ∧ (s.tile lastTile).ready = false ∧
      (s.tile lastTile).link.isolated = false ∧ ((∃ h, h ≠ lastTile ∧ (s.tile h).ready = false) ∨ s.boot.plan = none)) ∧
    (let s : State := onTile ({ · with ready := false }) (onBoot
      ({ · with step := 1, plan := some { answers := true, writes := true, pauses := [3] } }) (onPwr ({ · with phase := .boot }) running));
      (s.tile lastTile).on = true ∧ (s.tile lastTile).ready = false ∧ (s.tile lastTile).link.isolated = false ∧ ((∀ h, h ≠ lastTile →
      (s.tile h).ready = true)) ∧ s.boot.plan = some ({ answers := true, writes := true, pauses := [3] } : FlashStatus) ∧ s.pwr.phase = .boot ∧
      s.boot.step = 1 ∧ s.pwr.fromDeep = false ∧ 3 ∈ ({ answers := true, writes := true, pauses := [3] } : FlashStatus).pauses) ∧
    (let s : State := onTile ({ · with ready := false }) (onBoot ({ · with step := 1, plan := some goodFlash }) (onPwr
      ({ · with phase := .boot }) running)); (s.tile lastTile).on = true ∧ (s.tile lastTile).ready = false ∧
      (s.tile lastTile).link.isolated = false ∧ ((∀ h, h ≠ lastTile → (s.tile h).ready = true)) ∧ s.boot.plan = some goodFlash ∧
      s.pwr.phase = .boot ∧ s.boot.step = 1 ∧ s.pwr.fromDeep = false ∧ goodFlash.pauses = []) ∧
    (beforeT4 running = false ∧ running.flt.safe = false ∧ (guardOpen .sup .crpRstCmd 0x4814 0x10000 running = true)) ∧
    (running.flt.safe = false ∧ running.flt.inWr = false ∧ (guardOpen .sup .crpRstCmd 0x4814 0x100 running = true)) ∧
    (running.flt.safe = false ∧ (guardOpen .sup .crpRstCmd 0x4814 (BitVec.ofNat 32 (2 ^ lastTile.val)) running = true)) ∧
    (postable .sup (.portPhyCfg lastPort) (0x100000 + 0x1000 * lastPort.val + 0x300) running = true) ∧
    (writable (.weaver (tileOf lastPort) : Master) (.portPhyCfg lastPort) (0x100000 + 0x1000 * lastPort.val + 0x300) (0#32) running = true) ∧
    (writable .sup (.teamPhyCfg lastTeam) (0x8000 + 0x800 * lastTeam.val + 0x20) (0#32) running = true) := by
  refine ⟨?_, ?_, ?_, ?_, ?_, ?_, ?_, ?_, ?_, ?_, ?_, ?_, ?_, ?_, ?_⟩ <;> decide +kernel

/-- O49. -/
theorem witness_UpdateSessions :
    ((spiIdle running = true ∧ guardOpen .spi .updCmd 0x6010 1 running = true) ∧ (running.boot).trial = false ∧ (running.boot).src = .none ∧ bitOf
      (running.boot).policy 0 = true ∧ supUp running = true ∧ ((running.boot).arg.toNat) ≤ 0x400000) ∧
    (let s : State := onBoot ({ · with trial := true }) running; (spiIdle s = true ∧ guardOpen .spi .updCmd 0x6010 1 s = true) ∧
      (s.boot).trial = true) ∧
    (let s : State := onBoot ({ · with src := .spi }) running; (spiIdle s = true ∧ guardOpen .spi .updCmd 0x6010 1 s = true) ∧
      (s.boot).trial = false ∧ (s.boot).src ≠ .none) ∧
    (let s : State := onBoot ({ · with policy := 0 }) running; (spiIdle s = true ∧ guardOpen .spi .updCmd 0x6010 1 s = true) ∧
      (s.boot).trial = false ∧ (s.boot).src = .none ∧ bitOf (s.boot).policy 0 = false) ∧
    (let s : State := { (onBoot ({ · with src := .spi, length := 0x10000 }) running) with mem := memPutBytes [] 0x7000 (manifestBytes.take 768) };
      (spiIdle s = true ∧ guardOpen .spi .updCmd 0x6010 2 s = true) ∧ ((s.boot).src == .spi && !(s.boot).busy && supUp s) = true ∧
      ((s.boot).arg.toNat) = 4096 * (s.boot).units ∧ ((s.boot).arg.toNat) < (s.boot).length ∧ ((((s.boot).arg.toNat) = 0 → row1
      (updBuf s) = true ∧ row2 (updBuf s) = true))) ∧
    (let s : State := onBoot ({ · with src := .spi, length := 4096, arg := 4096#32, units := 1 }) running; (spiIdle s = true ∧
      guardOpen .spi .updCmd 0x6010 2 s = true) ∧ ((s.boot).src == .spi && !(s.boot).busy && supUp s) = true ∧ (((s.boot).arg.toNat) ≠ 4096 *
      (s.boot).units ∨ (s.boot).length ≤ ((s.boot).arg.toNat))) ∧
    (let s : State := onBoot ({ · with src := .spi, length := 1 }) running; (spiIdle s = true ∧ guardOpen .spi .updCmd 0x6010 2 s = true) ∧
      ((s.boot).src == .spi && !(s.boot).busy && supUp s) = true ∧ ((s.boot).arg.toNat) = 0 ∧ (s.boot).units = 0 ∧ 0 < (s.boot).length ∧ row1
      (updBuf s) = false) ∧
    ((spiIdle running = true ∧ guardOpen .spi .updCmd 0x6010 2 running = true) ∧
      ((running.boot).src == .spi && !(running.boot).busy && supUp running) = false) ∧
    (let s : State := onBoot ({ · with unit := some (0, [1]) }) running; (s.boot).unit = some (0, ([1] : List Byte)) ∧ s.Inv) ∧
    (let s : State := onBoot ({ · with unit := some (1, [1]) }) running; (s.boot).unit = some (1, ([1] : List Byte)) ∧
      (1 % 65536 ≠ 0 ∨ false = true)) ∧
    (let s : State := onBoot ({ · with unit := some (65536, [1]) }) running; (s.boot).unit = some (65536, ([1] : List Byte)) ∧ 65536 % 65536 = 0) ∧
    (let s : State := onBoot ({ · with src := .spi, units := 1, length := 4096 }) running; (spiIdle s = true ∧
      guardOpen .spi .updCmd 0x6010 3 s = true) ∧ ((s.boot).src == .spi && !(s.boot).busy && supUp s) = true ∧ (s.boot).units ≠ 0 ∧
      (s.boot).length ≤ (s.boot).units * 4096) ∧
    (let s : State := onBoot ({ · with src := .spi, units := 1, length := 4097 }) running; (spiIdle s = true ∧
      guardOpen .spi .updCmd 0x6010 3 s = true) ∧ ((s.boot).src == .spi && !(s.boot).busy && supUp s) = true ∧ (((s.boot).units = 0 ∨
      (s.boot).units * 4096 < (s.boot).length))) ∧
    (let s : State := onBoot ({ · with upd := .verifying, src := .spi }) running; (s.boot).upd = .verifying ∧ (s.boot).src = .spi ∧ verifySlot s
      (otherSlot (s.boot).slot) (currentRecord s).keyMin (currentRecord s).minRollback = some (errFormat, 0)) ∧
    (let s : State := onBoot ({ · with src := .spi, upd := .verified }) running; (spiIdle s = true ∧ guardOpen .spi .updCmd 0x6010 4 s = true) ∧
      ((s.boot).src == .spi && !(s.boot).busy && supUp s) = true ∧ (s.boot).upd = .verified) ∧
    ((spiIdle running = true ∧ guardOpen .spi .updCmd 0x6010 4 running = true) ∧
      (((running.boot).src == .spi && !(running.boot).busy && supUp running) = false ∨ (running.boot).upd ≠ .verified)) ∧
    (let s : State := onBoot ({ · with upd := .activating, src := .spi, actReset := true }) running; (s.boot).upd = .activating ∧
      (s.boot).src = .spi ∧ entryPlace s ≠ none ∧ (s.boot).actReset = true) ∧
    (let s : State := onBoot ({ · with upd := .activating, src := .spi }) running; (s.boot).upd = .activating ∧ (s.boot).src = .spi ∧
      entryPlace s ≠ none ∧ (s.boot).actReset = false) ∧
    (let s : State := onBoot ({ · with src := .spi }) running; (spiIdle s = true ∧ guardOpen .spi .updCmd 0x6010 5 s = true) ∧
      (s.boot).src = .spi ∧ (s.boot).upd ≠ .activating) ∧
    ((spiIdle running = true ∧ guardOpen .spi .updCmd 0x6010 5 running = true) ∧ ((running.boot).src ≠ .spi ∨ (running.boot).upd = .activating)) ∧
    (let s : State := onBoot ({ · with src := .spi }) running; (s.boot).src ≠ .none) ∧
    ((running.boot).src = .none) ∧
    (let s : State := onBoot ({ · with windowOn := true }) running; spiIdle s = true ∧ guardOpen .spi .bootConfirm 0x6024 1 s = true ∧
      (s.boot).windowOn = true) ∧
    (let s : State := onBoot ({ · with windowOn := true }) running; (s.boot).windowOn = true) ∧
    ((running.boot).windowOn = false) := by
  simp only [State.Inv]
  refine ⟨?_, ?_, ?_, ?_, ?_, ?_, ?_, ?_, ?_, ?_, ?_, ?_, ?_, ?_, ?_, ?_, ?_, ?_, ?_, ?_, ?_, ?_, ?_, ?_, ?_⟩ <;> decide +kernel

/-- O50. -/
theorem witness_DfuRequests :
    (stationUp busy lastTeam = true ∧ ((busy.team lastTeam).station).dfuMode = false ∧ bitOf (busy.boot).policy (4 + lastTeam.val) = true ∧
      (busy.boot).rescue = false) ∧
    (let s : State := onTeam ({ · with station := { busyTeam.station with dfuMode := true, dfu := .dfuIdle } }) busy;
      stationUp s lastTeam = true ∧ (((s.team lastTeam).station).dfuMode = true ∨ bitOf (s.boot).policy (4 + lastTeam.val) = false ∨
      (s.boot).rescue = true)) ∧
    (let s : State := onTeam ({ · with station := { busyTeam.station with dfuMode := true, dfu := .dfuIdle } }) busy;
      stationUp s lastTeam = true ∧ ((s.team lastTeam).station).dfuMode = true ∧ ((s.team lastTeam).station).dfu = .dfuIdle ∧ manifestBytes ≠ [] ∧
      manifestBytes.length ≤ 4096 ∧ (s.boot).trial = false ∧ (s.boot).src = .none ∧ bitOf (s.boot).policy (4 + lastTeam.val) = true ∧
      supUp s = true ∧ row1 (manifestBytes ++ List.replicate (4096 - manifestBytes.length) 0xFF : List Byte) = true ∧ row2
      (manifestBytes ++ List.replicate (4096 - manifestBytes.length) 0xFF : List Byte) = true) ∧
    (let s : State := onBoot ({ · with src := .dfu lastTeam, units := 1, length := 4097 }) (onTeam
      ({ · with station := { busyTeam.station with dfuMode := true, dfu := .dnloadIdle } }) busy); stationUp s lastTeam = true ∧
      ((s.team lastTeam).station).dfuMode = true ∧ ((s.team lastTeam).station).dfu = .dnloadIdle ∧ ([1] : List Byte) ≠ [] ∧
      ([1] : List Byte).length ≤ 4096 ∧ ((s.boot).src == .dfu lastTeam && !(s.boot).busy && supUp s) = true ∧ 1 ≠ 0 ∧ 1 = (s.boot).units ∧
      4096 * 1 < (s.boot).length) ∧
    (let s : State := onTeam ({ · with station := { busyTeam.station with dfuMode := true, dfu := .dfuIdle } }) busy;
      stationUp s lastTeam = true ∧ ((s.team lastTeam).station).dfuMode = true ∧ ((s.team lastTeam).station).dfu = .dfuIdle ∧
      ((List.replicate 4097 0 : List Byte) = [] ∨ 4096 < (List.replicate 4097 0 : List Byte).length)) ∧
    (let s : State := onBoot ({ · with src := .dfu lastTeam, units := 1 }) (onTeam
      ({ · with station := { busyTeam.station with dfuMode := true, dfu := .dnloadIdle } }) busy); stationUp s lastTeam = true ∧
      ((s.team lastTeam).station).dfuMode = true ∧ ((s.team lastTeam).station).dfu = .dnloadIdle ∧
      ((s.boot).src == .dfu lastTeam && !(s.boot).busy && supUp s) = true ∧ (s.boot).units ≠ 0) ∧
    (let s : State := onTeam ({ · with station := { busyTeam.station with dfuMode := true, dfu := .dfuIdle } }) busy;
      stationUp s lastTeam = true ∧ ((s.team lastTeam).station).dfuMode = true ∧ ((s.team lastTeam).station).dfu ≠ .dnloadIdle ∧
      ((s.team lastTeam).station).dfu ≠ .error) ∧
    (let s : State := onTeam ({ · with station := { busyTeam.station with dfuMode := true, dfu := .error } }) busy; stationUp s lastTeam = true ∧
      ((s.team lastTeam).station).dfuMode = true ∧ ((s.team lastTeam).station).dfu = .error) ∧
    (let s : State := onBoot ({ · with src := .dfu lastTeam }) (onTeam
      ({ · with station := { busyTeam.station with dfuMode := true, dfu := .dnloadIdle } }) busy); stationUp s lastTeam = true ∧
      ((s.team lastTeam).station).dfuMode = true ∧ ((s.team lastTeam).station).dfu ≠ .error ∧ (s.boot).src = .dfu lastTeam ∧
      (s.boot).upd ≠ .activating) := by
  refine ⟨?_, ?_, ?_, ?_, ?_, ?_, ?_, ?_, ?_⟩ <;> decide +kernel

/-- O51. -/
theorem witness_PowerStates :
    (let s : State := onCrp ({ · with st := .entering, target := .sleep }) running; (s.crp).st = .entering ∧ (s.crp).target = .sleep) ∧
    (let s : State := onCrp ({ · with st := .entering, target := .off }) running; (s.crp).st = .entering ∧ (s.crp).target = .off) ∧
    ((running.crp).st ≠ .entering) ∧
    (let s : State := onCrp ({ · with mode := 4#32 }) running; issues .sup s = true ∧ 2 ≤ (fld (s.crp).mode 2 0) ∧
      ((∀ row, row < 14 → ∀ j, j < 64 → entryFails (fld (s.crp).mode 2 0) (if (0 : Reg) = 0 then s.sup.emask else getReg s.sup
      (0 : Reg)) row j s = false))) ∧
    (let s : State := onCrp ({ · with mode := 2#32 }) running; issues .sup s = true ∧ 2 ≤ (fld (s.crp).mode 2 0) ∧ entryFails (fld
      (s.crp).mode 2 0) (if (0 : Reg) = 0 then s.sup.emask else getReg s.sup (0 : Reg)) 5 0 s = true ∧ ((∀ b, b < 5 → ∀ e, e < 64 → entryFails
      (fld (s.crp).mode 2 0) (if (0 : Reg) = 0 then s.sup.emask else getReg s.sup (0 : Reg)) b e s = false)) ∧ ((∀ e, e < 0 → entryFails (fld
      (s.crp).mode 2 0) (if (0 : Reg) = 0 then s.sup.emask else getReg s.sup (0 : Reg)) 5 e s = false))) ∧
    (let s : State := onCpu Core.sup ({ · with st := .wait }) (onCrp
      ({ · with st := .entering, target := .deep, abortable := true }) { running with posts := [(PostSource.hub, aRecord)], queues := Vector.replicate 16 { cfg := 0x80000280#32 } });
      (s.crp).st = .entering ∧ (s.crp).target = .deep ∧ coreUp s = true ∧ s.sup.st = .wait ∧ (s.crp).abortable = true ∧
      firstPost s PostSource.hub = some (PostSource.hub, aRecord) ∧ frameHeld s PostSource.hub = false ∧ (routeOf s aRecord).isSome = true) ∧
    (let s : State := onCpu Core.sup ({ · with st := .wait }) (onCrp
      ({ · with st := .entering, target := .deep, abortable := true }) { running with posts := [(PostSource.hub, aRecord)], queues := Vector.replicate 16 { cfg := 0x80000280#32 } });
      (s.crp).st = .entering ∧ (s.crp).target = .deep ∧ coreUp s = true ∧ s.sup.st = .wait ∧ (s.crp).abortable = true ∧
      2 ≤ fld s.flt.src[(5 : Fin 64)] 7 6 ∧ (fld s.flt.src[(5 : Fin 64)] 3 1 = 0 ∧ ((5 : Fin 64).val < 8 ∨ 21 < (5 : Fin 64).val) ∧ (24 ≤
      (5 : Fin 64).val → (5 : Fin 64).val % 5 ≠ 0 ∧ (5 : Fin 64).val % 5 ≠ 2))) ∧
    (let s : State := onCpu Core.sup ({ · with st := .wait }) (onCrp
      ({ · with st := .entering, target := .deep, abortable := false }) { running with posts := [(PostSource.hub, aRecord)], queues := Vector.replicate 16 { cfg := 0x80000280#32 } });
      (s.crp).st = .entering ∧ (s.crp).target = .deep ∧ coreUp s = true ∧ s.sup.st = .wait ∧ (s.crp).abortable = false ∧
      firstPost s PostSource.hub = some (PostSource.hub, aRecord) ∧ frameHeld s PostSource.hub = false) ∧
    (let s : State := onCpu Core.sup ({ · with st := .wait }) (onCrp
      ({ · with st := .entering, target := .deep, abortable := false }) { running with posts := [(PostSource.hub, aRecord)], queues := Vector.replicate 16 { cfg := 0x80000280#32 } });
      (s.crp).st = .entering ∧ (s.crp).target = .deep ∧ coreUp s = true ∧ s.sup.st = .wait ∧ (s.crp).abortable = false ∧
      (fld s.flt.src[(5 : Fin 64)] 3 1 = 0 ∧ ((5 : Fin 64).val < 8 ∨ 21 < (5 : Fin 64).val) ∧ (24 ≤ (5 : Fin 64).val → (5 : Fin 64).val % 5 ≠ 0 ∧
      (5 : Fin 64).val % 5 ≠ 2))) ∧
    (let s : State := onPwr ({ · with phase := .minOff }) running; (s.pwr).phase = .minOff ∧ (s.crp).wake = none) ∧
    (let s : State := onCrp ({ · with wake := some .wakeSerial }) (onPwr ({ · with phase := .minOff }) running); (s.pwr).phase = .minOff ∧
      (s.crp).wake.isSome = true) ∧
    (wakeEnds running (running.crp).target (WakeSrc.supEvent 11) = false) ∧
    (let s : State := onCrp ({ · with st := .entering, target := .sleep }) running; wakeEnds s (s.crp).target WakeSrc.wakeSerial = true ∧
      (s.crp).wake = none ∧ (s.crp).st = .entering) ∧
    (let s : State := onCrp ({ · with st := .sleep, target := .sleep }) running; wakeEnds s (s.crp).target WakeSrc.wakeSerial = true ∧
      (s.crp).wake = none ∧ (s.crp).st = .sleep) ∧
    (let s : State := onCrp ({ · with st := .off, target := .off }) (onPwr ({ · with phase := .asleep }) running); wakeEnds s
      (s.crp).target WakeSrc.wakeSerial = true ∧ (s.crp).wake = none ∧ ((s.crp).st = .deep ∨ (s.crp).st = .off) ∧ (s.pwr).phase = .asleep) ∧
    (let s : State := onCrp ({ · with st := .deep, target := .deep }) running; wakeEnds s (s.crp).target WakeSrc.wakeSerial = true ∧
      (s.crp).wake = none ∧ ((s.crp).st = .deep ∨ (s.crp).st = .off) ∧ (s.pwr).phase ≠ .asleep) ∧
    (let s : State := onCrp ({ · with st := .wakeFailed, target := .off }) running; wakeEnds s (s.crp).target WakeSrc.wakeSerial = true ∧
      (s.crp).wake = none ∧ (s.crp).st = .wakeFailed) ∧
    (let s : State := onCrp ({ · with st := .waking, target := .sleep }) running; (s.crp).st = .waking ∧ (s.crp).target = .sleep) ∧
    (let s : State := onBoot ({ · with step := 8 }) (onPwr ({ · with phase := .boot, fromDeep := true }) running); (s.pwr).phase = .boot ∧
      (s.pwr).fromDeep = true ∧ s.boot.step = 8) ∧
    (let s : State := onCrp ({ · with st := .wakeFailed }) running; wsIdle s = true ∧ guardOpen .ws .crpPsCmd 0x4840 (1#32) s = true ∧ bitOf
      (1#32) 0 = true ∧ (s.crp).st = .wakeFailed) ∧
    (postable .sup .crpRetData 0x483C running = true) ∧
    (readable .sup .crpRetData 0x483C running = true ∧ (eccAt running .retention ((running.crp).retPtr.toNat)).isNone = true) ∧
    (let s : State := onAcc (fun x => { x with busy := x.busy.set 9 (some { addr := 0x483C, value := 1, master := .sup }) }) (onCrp
      ({ · with retPtr := 15359 }) running); s.Inv ∧ (clocksRun s = true ∨ wsUp s = true) ∧
      s.acc.busy[9] = some { addr := 0x483C, value := (1#32), master := Master.sup } ∧ ((s.crp).retPtr.toNat) < 15360) ∧
    (let s : State := onAcc (fun x => { x with busy := x.busy.set 9 (some { addr := 0x483C, value := 1, master := .sup }) }) (onCrp
      ({ · with retPtr := 15360 }) running); s.Inv ∧ (clocksRun s = true ∨ wsUp s = true) ∧
      s.acc.busy[9] = some { addr := 0x483C, value := (1#32), master := Master.sup } ∧ 15360 ≤ ((s.crp).retPtr.toNat)) ∧
    (let s : State := onCrp ({ · with st := .sleep, target := .sleep }) running; clocksRun s = false ∧ (0 : Fin 10) ≠ 9) := by
  simp only [State.Inv]
  refine ⟨?_, ?_, ?_, ?_, ?_, ?_, ?_, ?_, ?_, ?_, ?_, ?_, ?_, ?_, ?_, ?_, ?_, ?_, ?_, ?_, ?_, ?_, ?_, ?_, ?_⟩ <;> decide +kernel

/-- O52. -/
theorem witness_FaultCollector :
    (clocksRun State.reset = false) ∧
    (clocksRun running = true ∧ bitOf ((running.flt).src[(63 : Fin 64)]) 3 = false) ∧
    (let s : State := onFlt ({ · with src := Vector.replicate 64 2 }) running; clocksRun s = true ∧ (!(s.flt).stat.getLsbD
      (63 : Fin 64).val) = true ∧ bitOf ((s.flt).src[(63 : Fin 64)]) 1 = true ∧ bitOf ((s.flt).src[(63 : Fin 64)]) 3 = false ∧
      (63 : Fin 64).val ≠ 12) ∧
    (let s : State := onFlt ({ · with src := Vector.replicate 64 0 }) running; clocksRun s = true ∧ (bitOf
      ((s.flt).src[(63 : Fin 64)]) 1 = false ∧ bitOf ((s.flt).src[(63 : Fin 64)]) 2 = false ∧ bitOf ((s.flt).src[(63 : Fin 64)]) 3 = false ∧
      ((63 : Fin 64).val < 8 ∨ 21 < (63 : Fin 64).val) ∧ (24 ≤ (63 : Fin 64).val → (63 : Fin 64).val % 5 ≠ 0 ∧
      ((63 : Fin 64).val % 5 = 2 → supUp s = false))) ∧ mayAbort s = false ∧ ((s.flt).lines.all (fun y => y.src != (63 : Fin 64)) = true) ∧
      (s.flt).recording = none ∧ (s.flt).any = false ∧ (s.flt).entries[(s.flt).newest] = none ∧ (s.flt).intake = []) ∧
    (let s : State := onFlt
      ({ · with src := Vector.replicate 64 0, recording := some ({ src := 63, sev := 0, count := 1, stamp := {}, detail := 0, lastAt := 1000000 } : Intake) }) running;
      let x : Intake := { src := 63, sev := 0, count := 1, stamp := {}, detail := 0, lastAt := 1000000 }; clocksRun s = true ∧ (bitOf
      ((s.flt).src[(63 : Fin 64)]) 1 = false ∧ bitOf ((s.flt).src[(63 : Fin 64)]) 2 = false ∧ bitOf ((s.flt).src[(63 : Fin 64)]) 3 = false ∧
      ((63 : Fin 64).val < 8 ∨ 21 < (63 : Fin 64).val) ∧ (24 ≤ (63 : Fin 64).val → (63 : Fin 64).val % 5 ≠ 0 ∧
      ((63 : Fin 64).val % 5 = 2 → supUp s = false))) ∧ mayAbort s = false ∧ ((s.flt).lines.all (fun y => y.src != (63 : Fin 64)) = true) ∧
      (s.flt).recording = some x ∧ x.src = (63 : Fin 64) ∧ s.now ≤ x.lastAt + 12500 * max 1 (fld (s.flt).ctl 31 24)) ∧
    (let s : State := onFlt
      ({ · with src := Vector.replicate 64 0, recording := some ({ src := 62, sev := 0, count := 1, stamp := {}, detail := 0, lastAt := 1000000 } : Intake) }) running;
      let x : Intake := { src := 62, sev := 0, count := 1, stamp := {}, detail := 0, lastAt := 1000000 }; clocksRun s = true ∧ (bitOf
      ((s.flt).src[(63 : Fin 64)]) 1 = false ∧ bitOf ((s.flt).src[(63 : Fin 64)]) 2 = false ∧ bitOf ((s.flt).src[(63 : Fin 64)]) 3 = false ∧
      ((63 : Fin 64).val < 8 ∨ 21 < (63 : Fin 64).val) ∧ (24 ≤ (63 : Fin 64).val → (63 : Fin 64).val % 5 ≠ 0 ∧
      ((63 : Fin 64).val % 5 = 2 → supUp s = false))) ∧ mayAbort s = false ∧ ((s.flt).lines.all (fun y => y.src != (63 : Fin 64)) = true) ∧
      (s.flt).recording = some x ∧ x.src ≠ (63 : Fin 64) ∧ (s.flt).lostCount = 0) ∧
    (let s : State := onFlt ({ · with src := Vector.replicate 64 0, lines := [{ src := 63, detail := 0 }] }) running;
      let l : Line := { src := 63, detail := 0 }; clocksRun s = true ∧ (bitOf ((s.flt).src[(63 : Fin 64)]) 1 = false ∧ bitOf
      ((s.flt).src[(63 : Fin 64)]) 2 = false ∧ bitOf ((s.flt).src[(63 : Fin 64)]) 3 = false ∧ ((63 : Fin 64).val < 8 ∨ 21 < (63 : Fin 64).val) ∧
      (24 ≤ (63 : Fin 64).val → (63 : Fin 64).val % 5 ≠ 0 ∧ ((63 : Fin 64).val % 5 = 2 → supUp s = false))) ∧ mayAbort s = false ∧
      (s.flt).lines = [l] ∧ l.src = (63 : Fin 64)) ∧
    ((running.flt).recording = none) ∧
    (let s : State := onFlt
      ({ · with recording := some ({ src := 63, sev := 0, count := 1, stamp := {}, detail := 0, lastAt := 1000000 } : Intake) }) running;
      let x : Intake := { src := 63, sev := 0, count := 1, stamp := {}, detail := 0, lastAt := 1000000 }; clocksRun s = true ∧
      (s.flt).recording = some x) ∧
    (writable .sup .fltStatHi 0x3000 (0#32) running = true) ∧
    (writable .sup .fltStatLo 0x3004 (0#32) running = true) ∧
    (writable .sup .fltLost 0x3010 0x80000000 running = true) ∧
    (guardOpen .sup (.fltSrc (63 : Fin 64)) (0x3200 + 8 * (63 : Fin 64).val) (0#32) running = true) ∧
    (writable .sup .fltSwrep 0x3038 (0#32) running = true ∧ bitOf (0#32) 31 = false) ∧
    (writable .sup .fltSwrep 0x3038 (0x80000000#32) running = true ∧ bitOf (0x80000000#32) 31 = true ∧ running.Inv ∧ dumpKept running = false) ∧
    (guardOpen .sup .fltInj 0x3028 (0#32) running = true ∧ (bitOf (0#32) 31 = false ∨ fld (0#32) 26 24 ≠ 4)) ∧
    (guardOpen .sup .fltInj 0x3028 (0x84000000#32) running = true ∧ bitOf (0x84000000#32) 31 = true ∧ fld (0x84000000#32) 26 24 = 4 ∧
      (running.flt).safe = false ∧ bitOf (running.flt).src[21] 3 = false) := by
  simp only [State.Inv]
  refine ⟨?_, ?_, ?_, ?_, ?_, ?_, ?_, ?_, ?_, ?_, ?_, ?_, ?_, ?_, ?_, ?_, ?_⟩ <;> decide +kernel

/-- O53. -/
theorem witness_RestartsAndSafeState :
    (clocksRun running = true ∧ (running.flt).safe = false ∧ 63 ≤ 0x42 ∧ bitOf (running.flt).src[21] 3 = false) ∧
    (clocksRun running = true ∧ 0x42 < 67 ∧ copyMismatch (running.flt) = none) ∧
    (let s : State := onFlt ({ · with safe := true }) running; clocksRun s = true ∧ (s.flt).safe = true ∧ bitOf (s.flt).src[21] 3 = false) ∧
    (clocksRun running = true ∧ running.sup.run = true ∧ mayAbort running = false) ∧
    (clocksRun running = true ∧ running.sup.run = true ∧ running.sup.st ≠ .wait ∧ mayAbort running = false) ∧
    (let s : State := onCpu Core.sup ({ · with st := .wait }) (onCrp ({ · with st := .sleep }) running); s.sup.st = .wait ∧ s.crp.st ≠ .run) ∧
    (let s : State := onFlt ({ · with inWr := true }) running; (s.flt).inWr = true ∧ (s.flt).m5 = false ∧ (s.flt).safe = false ∧
      (s.flt).reload = false ∧ s.ecc = []) ∧
    ((running.flt).inWr = false) ∧
    (let s : State := onFlt ({ · with inWr := true, m5 := true }) running; (s.flt).inWr = true ∧ (s.flt).m5 = true ∧ (s.flt).safe = false) ∧
    (let s : State := onFlt ({ · with inWr := true, m5 := true }) running; writable .sup .fltSupCmd 0x3020 1 s = true ∧ (s.flt).inWr = true ∧
      (s.flt).m5 = true ∧ (s.flt).safe = false) ∧
    (clocksRun running = true ∧ ((cpuOf running (.weaver lastPort)).run = true ∧ ((cpuOf running (.weaver lastPort)).st = .running ∨
      (cpuOf running (.weaver lastPort)).st = .stallSend ∨ (cpuOf running (.weaver lastPort)).st = .stallRld ∨ (cpuOf running
      (.weaver lastPort)).st = .stallFence)) ∧ ((cpuOf running (.weaver lastPort)).hwRestarts.filter fun a => decide
      (running.now < a + wvrWin running)).length < wvrMax running) ∧
    (let s : State := onCpu (Core.weaver lastPort) ({ · with hwRestarts := List.replicate 15 999999 }) running; clocksRun s = true ∧ ((cpuOf s
      (.weaver lastPort)).run = true ∧ ((cpuOf s (.weaver lastPort)).st = .running ∨ (cpuOf s (.weaver lastPort)).st = .stallSend ∨ (cpuOf s
      (.weaver lastPort)).st = .stallRld ∨ (cpuOf s (.weaver lastPort)).st = .stallFence)) ∧ wvrMax s ≤ ((cpuOf s
      (.weaver lastPort)).hwRestarts.filter fun a => decide (s.now < a + wvrWin s)).length) ∧
    (let s : State := onCpu (Core.weaver lastPort) ({ · with run := false }) running; (cpuOf s (.weaver lastPort)).run = false) ∧
    (let s : State := onTc ({ · with st := .attached, orient := .cc1 }) State.reset; weaverLives s lastPort = false ∧
      (s.port lastPort).tc.st = .attached ∧ attachedCc (s.port lastPort).tc = .vOpen) ∧
    (weaverLives running lastPort = true) := by
  refine ⟨?_, ?_, ?_, ?_, ?_, ?_, ?_, ?_, ?_, ?_, ?_, ?_, ?_, ?_, ?_⟩ <;> decide +kernel

/-- O54. -/
theorem witness_DieToDieLinks :
    (let s : State := onTile ({ · with link := {} }) running; clocksRun s = true ∧ ((s.tile lastTile).link).spare = none) ∧
    (let s : State := onTile ({ · with link := {} }) running; ((s.tile lastTile).link).spare = none) ∧
    (let s : State := onTile ({ · with link := { trained := true, spare := some 8, switching := true } }) running;
      ((s.tile lastTile).link).switching = true ∧ ((s.tile lastTile).link).spare = some 8) ∧
    (let s : State := onTile ({ · with link := { fails := 2 } }) running; clocksRun s = true ∧ ¬(((s.tile lastTile).link).switching = true ∧
      ((s.tile lastTile).link).spare = some 8) ∧ injArmed s 5 5 lastTile.val = false ∧ ((s.tile lastTile).link).fails < 3) ∧
    (let s : State := onTile ({ · with link := { fails := 3 } }) running; clocksRun s = true ∧ ¬(((s.tile lastTile).link).switching = true ∧
      ((s.tile lastTile).link).spare = some 8) ∧ injArmed s 5 5 lastTile.val = false ∧ 3 ≤ ((s.tile lastTile).link).fails ∧
      ((s.tile lastTile).link).spare = none) ∧
    (let s : State := onFlt ({ · with inj := 0x85070000#32 }) running; clocksRun s = true ∧ ¬(((s.tile lastTile).link).switching = true ∧
      ((s.tile lastTile).link).spare = some 8) ∧ injArmed s 5 5 lastTile.val = true ∧ ((s.tile lastTile).link).fails < 3) ∧
    (let s : State := onTile ({ · with ready := false }) running; (s.tile lastTile).on = true ∧ (s.tile lastTile).ready = false) ∧
    (((running.tile lastTile).on = false ∨ (running.tile lastTile).ready = true)) := by
  refine ⟨?_, ?_, ?_, ?_, ?_, ?_, ?_, ?_⟩ <;> decide +kernel

/-- O56. -/
theorem witness_StepOnEmptyQueueIsATick :
    (running.pending = []) := by
  decide +kernel


/-- O58. -/
theorem witness_CommandsLeaveTheQueue : ∃ t, exec .interrupt { running with pending := [.nmi] } = .next t := ⟨_, rfl⟩

/-- O59: one step with a command in front and one on an empty queue. -/
theorem witness_StepKeepsMemoryCanonical :
    running.Inv ∧ (∃ t, step running = .next t) ∧ ∃ t, step { running with pending := [.interrupt] } = .next t := by
  refine ⟨?_, ⟨_, rfl⟩, ⟨_, rfl⟩⟩
  simp only [State.Inv]
  decide

end Sys2Proof.Tests
end

section
/-!
PROOF. Register accesses: the address map as a master sees it, the checks of Machine/Access.lean where nothing bars an access, and what an
access error reports and leaves as it is (02 R34 to R60).
-/
namespace Sys2Proof.Machine

/-! ### States that agree but for events -/

/-- An update that does not look at the event bits is made alike on states that agree but for these. -/
theorem SameButEvents.congr {a b : State} (f : State → State) (hf : ∀ s, withoutEvents (f s) = f (withoutEvents s))
    (h : SameButEvents a b) : SameButEvents (f a) (f b) := by
  unfold SameButEvents
  rw [hf, hf, h]

/-! ### The answer of an access -/

theorem modAcc_answer (x : Verdict) (s : State) : modAcc (fun y => { y with answer := x }) s = withAnswer x s := rfl

theorem modAcc_answer_data (v : Word) (s : State) : modAcc (fun y => { y with answer := .ok, data := v }) s = withData v s := rfl

/-! ### Access errors (02 R55) -/

theorem accErr_frame (bit : Nat) (m : Master) (w : Bool) (a : Nat) (s : State) :
    accErr bit m w a s = { s with acc := (accErr bit m w a s).acc, flt := { s.flt with lines := (accErr bit m w a s).flt.lines } } := by
  unfold accErr
  split <;> rfl

theorem accErr_reported (bit : Nat) (m : Master) (w : Bool) (a : Nat) (s : State) : AccReported bit s (accErr bit m w a s) := by
  unfold AccReported accErr
  split
  · exact ⟨by simp [raise, raiseLine, orBit], _, rfl⟩
  · exact ⟨by simp [raise, raiseLine, orBit], _, rfl⟩

@[simp] theorem accErr_spi (bit : Nat) (m : Master) (w : Bool) (a : Nat) (s : State) : (accErr bit m w a s).spi = s.spi := by
  rw [accErr_frame]

@[simp] theorem accErr_ws (bit : Nat) (m : Master) (w : Bool) (a : Nat) (s : State) : (accErr bit m w a s).ws = s.ws := by
  rw [accErr_frame]

/-- A report stands through what leaves ACC_ERR_STAT and the error lines as they are. -/
theorem AccReported.of_eq {bit : Nat} {s t t' : State} (h : AccReported bit s t) (he : t'.acc.errStat = t.acc.errStat)
    (hl : t'.flt.lines = t.flt.lines) : AccReported bit s t' := by
  unfold AccReported
  rw [he, hl]
  exact h

/-! ### Places -/

/-- A place that the master sees is the place of the address map. -/
theorem placeAt_of_placeFor {m : Master} {w : Bool} {a : Nat} {s : State} {r : Rg} (h : placeFor m w a s = .reg r) : placeAt a = .reg r := by
  unfold placeFor at h
  split at h
  · cases h
  · split at h
    · split at h
      · cases h
      · exact h
    · exact h

theorem regAt_of_placeAt {a : Nat} {r : Rg} (h : placeAt a = .reg r) : regAt (a / 4 * 4) = some r := by
  simp only [placeAt] at h
  split at h
  · next e => rw [e]; cases h; rfl
  · split at h
    · cases h
    · split at h
      · split at h <;> cases h
      · cases h

theorem regAt_of_placeFor {m : Master} {w : Bool} {a : Nat} {s : State} {r : Rg} (h : placeFor m w a s = .reg r) (ha : a % 4 = 0) :
    regAt a = some r := by
  have e : a / 4 * 4 = a := by omega
  have := regAt_of_placeAt (placeAt_of_placeFor h)
  rwa [e] at this

theorem unmapped_of_reg {m : Master} {w : Bool} {a : Nat} {s : State} {r : Rg} (h : placeFor m w a s = .reg r) : unmapped m w a s = false := by
  simp [unmapped, h]

/-! ### Guarded pairs and BUSY flags that are not in the way -/

/-- An access to a block in which no pair waits breaks none. -/
theorem touchBlock_of_apart {m : Master} {w : Bool} {a : Nat} {s : State} (h : (s.acc.held.all fun x => blockOf x.addr != blockOf a) = true) :
    touchBlock m w a s = s := by
  have hn : (s.acc.held.find? fun x => !x.refused && blockOf x.addr == blockOf a && !(w && x.master == m && a == x.addr + 4)) = none := by
    rw [List.find?_eq_none]
    intro x hx
    have := List.all_eq_true.mp h x hx
    simp_all
  simp only [touchBlock, hn]

theorem busyAt_of_pathClear {r : Option Rg} {a : Nat} {s : State} (h : pathClear s a = true) : busyAt s r a = false := by
  simp only [pathClear, Bool.and_eq_true] at h
  obtain ⟨-, hb⟩ := h
  unfold busyAt
  split at hb <;> simp_all

theorem apart_of_pathClear {a : Nat} {s : State} (h : pathClear s a = true) : (s.acc.held.all fun x => blockOf x.addr != blockOf a) = true := by
  simp only [pathClear, Bool.and_eq_true] at h
  exact h.1

/-! ### Writes -/

theorem checkWrite_ok {m : Master} {r : Rg} {a : Nat} {v : Word} {s : State} (hl : isLocked s r = false) (hb : barred s r v = false)
    (hy : busyAt s (some r) a = false) : checkWrite m r a v s = (.ok, s) := by
  simp [checkWrite, hl, hb, hy]

theorem checkWrite_locked {m : Master} {r : Rg} {a : Nat} {v : Word} {s : State} (hl : isLocked s r = true) :
    checkWrite m r a v s = (.locked, accErr errLock m true a s) := by
  simp [checkWrite, hl]

theorem checkWrite_busy {m : Master} {r : Rg} {a : Nat} {v : Word} {s : State} (hl : isLocked s r = false) (hb : barred s r v = false)
    (hy : busyAt s (some r) a = true) : checkWrite m r a v s = (.busy, accErr errPost m true a s) := by
  simp [checkWrite, hl, hb, hy]

theorem wordWrite_unmapped {m : Master} {a : Nat} {v : Word} {s : State} (hp : placeFor m true a s = .none) :
    wordWrite m a v s = (.decode, accErr errDecode m true a s) := by
  simp [wordWrite, hp]

/-- A write of a register that is not guarded, in a block where no pair waits. -/
theorem wordWrite_reg {m : Master} {r : Rg} {a : Nat} {v : Word} {s : State} (hp : placeFor m true a s = .reg r) (hg : r.guarded = false)
    (hh : (s.acc.held.all fun x => blockOf x.addr != blockOf a) = true) :
    wordWrite m a v s = if (checkWrite m r a v s).1 = .ok then takeWrite m r a v (checkWrite m r a v s).2 else checkWrite m r a v s := by
  simp [wordWrite, hp, hg, touchBlock_of_apart hh]

/-- A write that goes to its register at once. -/
theorem takeWrite_now {m : Master} {r : Rg} {a : Nat} {v : Word} {s : State} (hp : isPosted m r a = false) (hl : prioLocked s r v = false)
    (hr : writeRefused m r v s = false) : takeWrite m r a v s = (.ok, allEv (regWrite m r v) s) := by
  simp [takeWrite, hp, hl, applyWrite, hr]

/-- What `writable` says, part by part. -/
theorem writable_iff {m : Master} {r : Rg} {a : Nat} {v : Word} {s : State} : writable m r a v s = true ↔
    placeFor m true a s = .reg r ∧ a % 4 = 0 ∧ r.guarded = false ∧ isPosted m r a = false ∧ isLocked s r = false ∧ barred s r v = false ∧
      prioLocked s r v = false ∧ writeRefused m r v s = false ∧ pathClear s a = true ∧ masterUp m s = true := by
  simp [writable, and_assoc]

theorem guardOpen_iff {m : Master} {r : Rg} {a : Nat} {v : Word} {s : State} : guardOpen m r a v s = true ↔
    placeFor m true a s = .reg r ∧ a % 4 = 0 ∧ r.guarded = true ∧ isPosted m r a = false ∧ isLocked s r = false ∧ barred s r v = false ∧
      prioLocked s r v = false ∧ writeRefused m r v s = false ∧ pathClear s a = true ∧ masterUp m s = true := by
  simp [guardOpen, and_assoc]

theorem readable_iff {m : Master} {r : Rg} {a : Nat} {s : State} : readable m r a s = true ↔
    placeFor m false a s = .reg r ∧ a % 4 = 0 ∧ (s.acc.held.all fun h => blockOf h.addr != blockOf a) = true ∧ masterUp m s = true ∧
      readLost m a s = false := by
  simp [readable, and_assoc]

/-- A write that nothing bars has its register's effect, and the events of this change. -/
theorem wordWrite_of_writable {m : Master} {r : Rg} {a : Nat} {v : Word} {s : State} (h : writable m r a v s = true) :
    wordWrite m a v s = (.ok, allEv (regWrite m r v) s) := by
  obtain ⟨hp, -, hg, hq, hl, hb, hi, hr, hc, -⟩ := writable_iff.mp h
  simp [wordWrite_reg hp hg (apart_of_pathClear hc), checkWrite_ok hl hb (busyAt_of_pathClear hc), takeWrite_now hq hi hr]

theorem plainWrite_of_unguarded {m : Master} {r : Rg} {a : Nat} {v : Word} {s : State} (hp : placeFor m true a s = .reg r)
    (hg : r.guarded = false) : plainWrite m a v s = wordWrite m a v s := by
  simp [plainWrite, hp, hg]

/-- A guarded pair that nothing bars: its value is written, or the complement does not fit. -/
theorem lockedPair_of_guardOpen {m : Master} {r : Rg} {a : Nat} {v c : Word} {s : State} (h : guardOpen m r a v s = true) :
    lockedPair m a v c s = if c = ~~~v then (.ok, allEv (regWrite m r v) s) else (.guard, accErr errGuard m true a s) := by
  obtain ⟨hp, -, hg, hq, hl, hb, hi, hr, hc, -⟩ := guardOpen_iff.mp h
  by_cases he : c = ~~~v <;>
    simp [lockedPair, hp, hg, touchBlock_of_apart (apart_of_pathClear hc), checkWrite_ok hl hb (busyAt_of_pathClear hc), he,
      takeWrite_now hq hi hr]

/-! ### Reads -/

theorem wordRead_of_readable {m : Master} {r : Rg} {a : Nat} {s : State} (h : readable m r a s = true) :
    wordRead m a s = (.ok, (regRead m r s).1, noteSup s (regRead m r s).2) := by
  obtain ⟨hp, -, hh, -, -⟩ := readable_iff.mp h
  simp [wordRead, hp, touchBlock_of_apart hh]

end Sys2Proof.Machine
end

section
/-!
PROOF. Writes of PSI masters: one lemma per check that can bar a write, and the capture of an access error (02 R47 to R55, R59, R500).
-/
namespace Sys2Proof.Machine

/-! ### Accesses of PSI masters -/

/-- A PSI master: the supervisor or a weaver. -/
theorem masterUp_psi {m : Master} (s : State) (hm : m = .sup ∨ ∃ t, m = .weaver t) : masterUp m s = clocksRun s := by
  obtain rfl | ⟨t, rfl⟩ := hm <;> rfl

theorem exec_registerWrite_psi {m : Master} (hm : m = .sup ∨ ∃ t, m = .weaver t) (a : Addr) (v : Word) (w : Width) {s : State}
    (hc : clocksRun s = true) :
    exec (.registerWrite m a v w) s = .next (withAnswer (psiWrite m w a.toNat v 0 s).1 (psiWrite m w a.toNat v 0 s).2) := by
  show execRegisterWrite m a v w s = _
  obtain rfl | ⟨t, rfl⟩ := hm <;> simp [execRegisterWrite, hc, modAcc_answer]

theorem psiWrite_word {m : Master} {a : Nat} {lo hi : Word} {s : State} (ha : a % 4 = 0) : psiWrite m .word a lo hi s = wordWrite m a lo s := by
  simp [psiWrite, widthBytes, ha]

theorem psiWrite_misaligned {m : Master} {a : Nat} {lo hi : Word} {s : State} (ha : a % 4 ≠ 0) : psiWrite m .word a lo hi s = (.align, s) := by
  simp [psiWrite, widthBytes, ha]

/-- Registers take whole words only (02 R59). -/
theorem psiWrite_byte {m : Master} {r : Rg} {a : Nat} {lo hi : Word} {s : State} (hp : placeFor m true a s = .reg r)
    (hh : (s.acc.held.all fun x => blockOf x.addr != blockOf a) = true) :
    psiWrite m .byte a lo hi s = (.narrow, accErr errAccess m true a s) := by
  simp [psiWrite, widthBytes, Nat.mod_one, hp, touchBlock_of_apart hh]

/-- A barred write is refused with its verdict and its access error. -/
theorem exec_registerWrite_refused {m : Master} (hm : m = .sup ∨ ∃ t, m = .weaver t) {a : Addr} {v : Word} {w : Width} {s : State} {x : Verdict}
    {bit : Nat} (hc : clocksRun s = true) (hw : psiWrite m w a.toNat v 0 s = (x, accErr bit m true a.toNat s)) :
    ∃ t, exec (.registerWrite m a v w) s = .next t ∧ t.acc.answer = x ∧ AccReported bit s t ∧
      { t with acc := s.acc, flt := { t.flt with lines := s.flt.lines } } = s := by
  refine ⟨_, exec_registerWrite_psi hm a v w hc, ?_⟩
  rw [hw]
  refine ⟨rfl, (accErr_reported bit m true a.toNat s).of_eq rfl rfl, ?_⟩
  rw [accErr_frame]
  rfl

/-! ### The capture of an access error (02 Tables 2.9 and 2.10) -/

theorem masterCode_lt (m : Master) : (masterCode m).1 < 8 ∧ (masterCode m).2 < 8 := by
  cases m with
  | weaver t =>
    have ht := t.isLt
    by_cases h : t.val < 4 <;> simp only [masterCode, h, if_true, if_false] <;> omega
  | _ => decide

theorem accErr_capture {bit : Nat} {m : Master} {w : Bool} {a : Nat} {s : State} (h : capHeld s.acc = false) :
    (accErr bit m w a s).acc.errCap = pack [(bit, 28), (b2n w, 27), ((masterCode m).1, 24), (a % 2 ^ 24, 0)] ∧
      (accErr bit m w a s).acc.errCap2 = pack [(1, 3), ((masterCode m).2, 0)] := by
  simp [accErr, h, raise, raiseLine]

theorem errCap_fields {bit mc a : Nat} (w : Bool) (hb : bit < 8) (hm : mc < 8) (ha : a < 2 ^ 24) :
    let c := pack [(bit, 28), (b2n w, 27), (mc, 24), (a % 2 ^ 24, 0)]
    fld c 30 28 = bit ∧ bitOf c 27 = w ∧ fld c 23 0 = a := by
  have hw : b2n w ≤ 1 := by cases w <;> decide
  have hn : (pack [(bit, 28), (b2n w, 27), (mc, 24), (a % 2 ^ 24, 0)]).toNat = bit * 2 ^ 28 + b2n w * 2 ^ 27 + mc * 2 ^ 24 + a := by
    simp only [pack, List.foldl_cons, List.foldl_nil, BitVec.toNat_ofNat]
    omega
  refine ⟨?_, ?_, ?_⟩
  · simp only [fld, hn]
    omega
  · rw [bitOf, BitVec.getLsbD, hn, Nat.testBit_eq_decide_div_mod_eq]
    cases w <;> simp [b2n] <;> omega
  · simp only [fld, hn]
    omega

theorem errCap2_valid {th : Nat} (h : th < 8) : bitOf (pack [(1, 3), (th, 0)]) 3 = true := by
  interval_cases th <;> decide

/-- Settles O16: each check of a write answers with its verdict, the first that bars it decides. -/
theorem registerWriteChecks : Obligations.RegisterWriteChecks := by
  intro m a v r i s hm n w barredBy
  refine ⟨?_, ?_, ?_, ?_, ?_, ?_, ?_⟩
  · intro hw
    obtain ⟨-, ha, -, -, -, -, -, -, -, hu⟩ := writable_iff.mp hw
    refine ⟨_, exec_registerWrite_psi hm a v .word (masterUp_psi s hm ▸ hu), ?_⟩
    rw [psiWrite_word ha, wordWrite_of_writable hw]
    exact (allEv_same _ s).congr (withAnswer .ok) fun _ => rfl
  · intro hp ha ho hg hl hb hq hi
    obtain ⟨hc, hu⟩ := Bool.and_eq_true_iff.mp ho
    have hn : s.acc.busy[i] = none := by
      simpa [hi, n] using (Bool.and_eq_true_iff.mp hc).2
    refine (exec_registerWrite_psi hm a v .word hu).trans ?_
    rw [psiWrite_word ha, wordWrite_reg hp hg (apart_of_pathClear hc), checkWrite_ok hl hb (busyAt_of_pathClear hc)]
    simp [takeWrite, hq, hi, postedDone, hn, modAcc, n]
  · intro hu ha hp
    exact exec_registerWrite_refused hm hu ((psiWrite_word ha).trans (wordWrite_unmapped hp))
  · intro hu ha hp hg hh
    have hw := (psiWrite_word (hi := 0) ha).trans (wordWrite_reg (v := v) hp hg hh)
    refine ⟨fun hl => exec_registerWrite_refused hm hu (hw.trans ?_), fun hl hb hy => exec_registerWrite_refused hm hu (hw.trans ?_)⟩
    · rw [checkWrite_locked hl]
      rfl
    · rw [checkWrite_busy hl hb hy]
      rfl
  · exact fun hu hp hh => exec_registerWrite_refused hm hu (psiWrite_byte hp hh)
  · intro hu ha
    refine (exec_registerWrite_psi hm a v .word hu).trans ?_
    rw [psiWrite_misaligned ha]
  · intro hc bit write hb
    obtain ⟨h1, h2⟩ := accErr_capture (bit := bit) (m := m) (w := write) (a := n) hc
    obtain ⟨hm1, hm2⟩ := masterCode_lt m
    obtain ⟨hf, hw, ha⟩ := errCap_fields write hb hm1 a.isLt
    exact ⟨h1 ▸ hf, h1 ▸ hw, h1 ▸ ha, h2 ▸ errCap2_valid hm2⟩

end Sys2Proof.Machine
end

section
/-!
PROOF. Reads of the supervisor, and the counters that a read clears (00 Table 0.6, 02 R34).
-/
namespace Sys2Proof.Machine

/-! ### Reads of the supervisor -/

/-- A register off the tiles that no pair keeps from the supervisor. -/
theorem readable_sup_hub {r : Rg} {a : Nat} {s : State} (hp : placeAt a = .reg r) (ha : a % 4 = 0) (ht : tileOfAddr a = none)
    (hh : (s.acc.held.all fun x => blockOf x.addr != blockOf a) = true) (hc : clocksRun s = true) : readable .sup r a s = true := by
  refine readable_iff.mpr ⟨?_, ha, hh, hc, ?_⟩
  · simp [placeFor, permitted, ht, hp]
  · simp [readLost, ht]

/-- A register of a tile that is not isolated and whose control channel stands. -/
theorem readable_sup_tile {r : Rg} {a : Nat} {t : TileId} {s : State} (hp : placeAt a = .reg r) (ha : a % 4 = 0) (ht : tileOfAddr a = some t)
    (hh : (s.acc.held.all fun x => blockOf x.addr != blockOf a) = true) (hc : clocksRun s = true)
    (hi : (s.tile t).link.isolated = false) (hl : laneSwitching s t laneControl = false) : readable .sup r a s = true := by
  refine readable_iff.mpr ⟨?_, ha, hh, hc, ?_⟩
  · simp [placeFor, permitted, ht, hp, hi]
  · simp [readLost, ht, hl]

/-- A read of the supervisor that nothing keeps back answers the register's word and has the read's effect. -/
theorem masterRead_sup_same {r : Rg} {a : Nat} {s : State} (h : readable .sup r a s = true) :
    SameButEvents (masterRead .sup a s) (withData (regRead .sup r s).1 (regRead .sup r s).2) := by
  obtain ⟨-, ha, -, hc, hl⟩ := readable_iff.mp h
  have hc' : clocksRun s = true := hc
  have e : a / 4 * 4 = a := by omega
  have hm : masterRead .sup a s = withData (regRead .sup r s).1 (noteSup s (regRead .sup r s).2) := by
    simp [masterRead, hc', hl, psiRead, widthBytes, ha, e, wordRead_of_readable h, lanes, modAcc_answer_data]
  rw [hm]
  exact (noteSup_same s _).congr (withData (regRead .sup r s).1) fun _ => rfl

/-! ### Addresses and words of the counters (chapter 16) -/

theorem ttCnt_addr (p : PortId) : placeAt (addrTt p 8) = .reg (.ttCnt p) ∧ addrTt p 8 % 4 = 0 ∧ tileOfAddr (addrTt p 8) = none := by
  decide +revert

theorem qDrop_addr (q : QueueId) :
    placeAt (addrQueue q 0x14) = .reg (.qDrop q) ∧ addrQueue q 0x14 % 4 = 0 ∧ tileOfAddr (addrQueue q 0x14) = none := by
  decide +revert

theorem portPdCnt_addr (p : PortId) :
    placeAt (addrPort p 0x114) = .reg (.portPdCnt p) ∧ addrPort p 0x114 % 4 = 0 ∧ tileOfAddr (addrPort p 0x114) = some (tileOf p) := by
  decide +revert

theorem tileCnt_addr (t : TileId) :
    placeAt (addrTile t 0x18010) = .reg (.tileCnt t) ∧ addrTile t 0x18010 % 4 = 0 ∧ tileOfAddr (addrTile t 0x18010) = some t := by
  decide +revert

theorem budCnt_eq (b : Bud) : budCnt b = BitVec.ofNat 32 (b.cntWaits * 2 ^ 16 + b.cntReduced) := by simp [budCnt, pack]

theorem tileCnt_eq (t : Tile) : tileCnt t = BitVec.ofNat 32 (t.postLost * 2 ^ 16 + t.restarts) := by simp [tileCnt, pack]

theorem psRefuse_eq (c : Crp) : psRefuse c = BitVec.ofNat 32 (c.refused * 2 ^ 16 + c.refuser * 2 ^ 8 + c.refIndex) := by simp [psRefuse, pack]

/-- Settles O20: the supervisor's read of a counter is its register's read, and that clears the counter. -/
theorem counterReadsClear : Obligations.CounterReadsClear := by
  intro s p q t₀ hh hc reads port
  have apart (a : Nat) : (s.acc.held.all fun x => blockOf x.addr != blockOf a) = true := by simp [hh]
  have hub {r : Rg} {a : Nat} : placeAt a = .reg r ∧ a % 4 = 0 ∧ tileOfAddr a = none → _ := fun ⟨hp, ha, ht⟩ =>
    masterRead_sup_same (readable_sup_hub hp ha ht (apart a) hc)
  have onTile {r : Rg} {a : Nat} {t : TileId} : placeAt a = .reg r ∧ a % 4 = 0 ∧ tileOfAddr a = some t →
      (s.tile t).link.isolated = false → laneSwitching s t laneControl = false → _ := fun ⟨hp, ha, ht⟩ hi hl =>
    masterRead_sup_same (readable_sup_tile hp ha ht (apart a) hc hi hl)
  refine ⟨⟨_, rfl, ?_⟩, ⟨_, rfl, ?_⟩, ⟨_, rfl, ?_⟩, ⟨_, rfl, ?_⟩, fun hi hl => ⟨_, rfl, ?_⟩, ⟨_, rfl, ?_⟩, fun hi hl => ⟨_, rfl, ?_⟩,
    ⟨_, rfl, ?_⟩⟩
  · exact hub (r := .ttcPdropCnt) (by decide)
  · exact hub (ttCnt_addr p)
  · exact hub (r := .crlNoroute) (by decide)
  · exact hub (qDrop_addr q)
  · exact onTile (portPdCnt_addr p) hi hl
  · exact budCnt_eq s.bud ▸ hub (r := .budCnt) (by decide)
  · exact tileCnt_eq (s.tile t₀) ▸ onTile (tileCnt_addr t₀) hi hl
  · exact psRefuse_eq s.crp ▸ hub (r := .crpPsRefuse) (by decide)

end Sys2Proof.Machine
end

section
/-!
PROOF. The SPI target: one lemma per transaction (02 R38 to R42).
-/
namespace Sys2Proof.Machine

/-! ### Bytes of a word, most significant first (02 R38, R43) -/

theorem msbBytes_eq (v : Word) : msbBytes v = bytesOf v := by
  have hb (n : Nat) : lowByte (v.toNat / 2 ^ n) = (v >>> n).setWidth 8 := by
    apply BitVec.eq_of_toNat_eq
    simp [lowByte, Nat.shiftRight_eq_div_pow]
  have h0 : lowByte v.toNat = v.setWidth 8 := by simp [lowByte]
  simpa [msbBytes, toBytes, bytesOf, Nat.div_div_eq_div_mul, h0] using And.intro (hb 24) (And.intro (hb 16) (hb 8))

theorem ofMsb_bytesOf (v : Word) : ofMsb (bytesOf v) = v := by
  have := v.isLt
  apply BitVec.eq_of_toNat_eq
  simp [ofMsb, bytesOf, ofBytes, Nat.shiftRight_eq_div_pow]
  omega

/-! ### SPI transactions (02 R38 to R42) -/

theorem spiIdle_iff {s : State} : spiIdle s = true ↔ spiUp s = true ∧ s.spi.pending = none ∧ s.spi.badFrames = 0 ∧ s.spi.lost = false := by
  simp [spiIdle, and_assoc]

/-- A transaction of right framing changes nothing where no framing failure stands. -/
theorem noteFrame_of_spiIdle {s : State} (h : spiIdle s = true) : noteFrame false false s = s := by
  obtain ⟨-, -, hb, hl⟩ := spiIdle_iff.mp h
  show { s with spi := { s.spi with badFrames := 0, lost := false } } = s
  rw [← hb, ← hl]

/-- A framing failure where none stands is the first of a row. -/
theorem noteFrame_first_bad {s : State} (h : s.spi.badFrames = 0) :
    noteFrame false true s = { s with spi := { s.spi with badFrames := 1 } } := by
  simp [noteFrame, modSpi, h]

theorem spiEnd_eq (st : Byte) (out : List Byte) (s : State) : spiEnd st out s = { s with spi := spiAfter st out s.spi } := rfl

/-- A transaction that stores reaches its access, and ends with the status of its verdict. -/
theorem spiStore_of_idle {r : Rg} {a : Nat} {f : State → Verdict × State} {s : State} (hs : spiIdle s = true)
    (hp : placeFor .spi true a s = .reg r) (ha : a % 4 = 0) :
    spiStore a f s = withAnswer (f s).1 { (f s).2 with spi := spiAfter (spiCode (f s).1) [] (f s).2.spi } := by
  obtain ⟨hu, hn, -, -⟩ := spiIdle_iff.mp hs
  simp [spiStore, hu, noteFrame_of_spiIdle hs, hn, unmapped_of_reg hp, ha, spiEnd_eq, modAcc_answer]

theorem spiAnswer_eq (st : Byte) (v : Word) (s : State) : spiAnswer st v s = { s with spi := spiAfter st (st :: bytesOf v) s.spi } := by
  rw [← msbBytes_eq]
  rfl

/-- A read of a register of the CORE domain does not wait. -/
theorem readWaits_of_fast {r : Rg} {a : Nat} {s : State} (h : readable .spi r a s = true) (hr : r.slow = false) :
    readWaits a s = (false, s) := by
  obtain ⟨hp, ha, -, -, hl⟩ := readable_iff.mp h
  simp [readWaits, hl, regAt_of_placeFor hp ha, hr]

/-- A read of a tile that is not ready stays PENDING. -/
theorem readWaits_of_unready {r : Rg} {a : Nat} {x : TileId} {s : State} (h : readable .spi r a s = true) (hr : r.slow = true)
    (hx : tileOfAddr a = some x) (hn : (s.tile x).ready = false) : readWaits a s = (true, s) := by
  obtain ⟨hp, ha, -, -, hl⟩ := readable_iff.mp h
  simp [readWaits, hl, regAt_of_placeFor hp ha, hr, hx, hn]

/-- A Read that does not wait answers its word. -/
theorem spiLoad_now {r : Rg} {a : Nat} {s : State} (hs : spiIdle s = true) (h : readable .spi r a s = true) (hw : readWaits a s = (false, s)) :
    spiLoad a s = spiAnswer 0 (regRead .spi r s).1 (spiDone .ok (regRead .spi r s).1 (noteSup s (regRead .spi r s).2)) := by
  obtain ⟨hu, hn, -, -⟩ := spiIdle_iff.mp hs
  obtain ⟨hp, ha, -, -, -⟩ := readable_iff.mp h
  simp [spiLoad, hu, noteFrame_of_spiIdle hs, hn, unmapped_of_reg hp, ha, hw, wordRead_of_readable h, spiCode]

/-- A Read that waits answers PENDING and a free word. -/
theorem spiLoad_waits {r : Rg} {a : Nat} {s : State} (hs : spiIdle s = true) (h : readable .spi r a s = true) (hw : readWaits a s = (true, s)) :
    spiLoad a s = spiAnswer spiPending (Config.freeWord s.free)
      { s with spi := { s.spi with pending := some (BitVec.ofNat 24 a) }, free := s.free + 1 } := by
  obtain ⟨hu, hn, -, -⟩ := spiIdle_iff.mp hs
  obtain ⟨hp, ha, -, -, -⟩ := readable_iff.mp h
  simp [spiLoad, hu, noteFrame_of_spiIdle hs, hn, unmapped_of_reg hp, ha, hw, drawWord, modSpi]

/-- A framing failure where none stands: its status, FRAME_ERR of a free address, and the first of a row. -/
theorem spiFramingError_first {s : State} (w : Bool) (st : Byte) (h : s.spi.badFrames = 0) : ∃ a,
    spiFramingError w st s =
      { accErr errFrame .spi w a { s with free := s.free + 1 } with spi := { spiAfter st [] s.spi with badFrames := 1 } } := by
  refine ⟨(Config.freeWord s.free).toNat, (noteFrame_first_bad ?_).trans ?_⟩
  · simpa [spiEnd] using h
  · simp [spiEnd, modSpi, spiAfter]

theorem spiFramingError_reported {s : State} (w : Bool) (st : Byte) (h : s.spi.badFrames = 0) :
    (spiFramingError w st s).spi.status = st ∧ (spiFramingError w st s).spi.badFrames = 1 ∧ AccReported 7 s (spiFramingError w st s) := by
  obtain ⟨a, e⟩ := spiFramingError_first w st h
  rw [e]
  exact ⟨rfl, rfl, (accErr_reported errFrame .spi w a { s with free := s.free + 1 }).of_eq rfl rfl⟩

/-! ### The commands of the SPI target -/

theorem exec_spiWrite_of_writable {a : Addr} {v : Word} {r : Rg} {s : State} (hs : spiIdle s = true) (hw : writable .spi r a.toNat v s = true) :
    ∃ t, exec (.spiWrite a v) s = .next t ∧
      SameButEvents t (withAnswer .ok { regWrite .spi r v s with spi := spiAfter 0 [] (regWrite .spi r v s).spi }) := by
  obtain ⟨hp, ha, hg, -⟩ := writable_iff.mp hw
  refine ⟨_, congrArg Host.Outcome.next (spiStore_of_idle (f := plainWrite .spi a.toNat v) hs hp ha), ?_⟩
  rw [plainWrite_of_unguarded hp hg, wordWrite_of_writable hw]
  exact (allEv_same _ s).congr (fun x => withAnswer .ok { x with spi := spiAfter 0 [] x.spi }) fun _ => rfl

theorem exec_spiGuardedWrite_of_guardOpen {a : Addr} {v : Word} {r : Rg} {s : State} (hs : spiIdle s = true)
    (hw : guardOpen .spi r a.toNat v s = true) :
    ∃ t, exec (.spiGuardedWrite a v (~~~v)) s = .next t ∧
      SameButEvents t (withAnswer .ok { regWrite .spi r v s with spi := spiAfter 0 [] (regWrite .spi r v s).spi }) := by
  obtain ⟨hp, ha, -⟩ := guardOpen_iff.mp hw
  refine ⟨_, congrArg Host.Outcome.next (spiStore_of_idle (f := lockedPair .spi a.toNat v (~~~v)) hs hp ha), ?_⟩
  rw [lockedPair_of_guardOpen hw, if_pos rfl]
  exact (allEv_same _ s).congr (fun x => withAnswer .ok { x with spi := spiAfter 0 [] x.spi }) fun _ => rfl

/-- A complement that does not fit refuses the write. -/
theorem exec_spiGuardedWrite_mismatch {a : Addr} {v c : Word} {r : Rg} {s : State} (hs : spiIdle s = true)
    (hw : guardOpen .spi r a.toNat v s = true) (hc : c ≠ ~~~v) :
    ∃ t, exec (.spiGuardedWrite a v c) s = .next t ∧ t.acc.answer = .guard ∧ t.spi.status = 6 ∧ AccReported 3 s t := by
  obtain ⟨hp, ha, -⟩ := guardOpen_iff.mp hw
  refine ⟨_, congrArg Host.Outcome.next (spiStore_of_idle (f := lockedPair .spi a.toNat v c) hs hp ha), ?_⟩
  rw [lockedPair_of_guardOpen hw, if_neg hc]
  exact ⟨rfl, rfl, (accErr_reported errGuard .spi true a.toNat s).of_eq rfl rfl⟩

theorem exec_spiRead_now {a : Addr} {v : Word} {r : Rg} {s t' : State} (hs : spiIdle s = true) (hr : readable .spi r a.toNat s = true)
    (hf : r.slow = false) (he : regRead .spi r s = (v, t')) :
    ∃ t, exec (.spiRead a) s = .next t ∧
      SameButEvents t { spiDone .ok v t' with spi := spiAfter 0 (0 :: bytesOf v) (spiDone .ok v t').spi } := by
  refine ⟨_, congrArg Host.Outcome.next (spiLoad_now hs hr (readWaits_of_fast hr hf)), ?_⟩
  rw [he, spiAnswer_eq]
  exact (noteSup_same s t').congr (fun x => { spiDone .ok v x with spi := spiAfter 0 (0 :: bytesOf v) (spiDone .ok v x).spi }) fun _ => rfl

theorem exec_spiRead_pending {a : Addr} {x : TileId} {r : Rg} {s : State} (hs : spiIdle s = true) (hr : readable .spi r a.toNat s = true)
    (hf : r.slow = true) (hx : tileOfAddr a.toNat = some x) (hn : (s.tile x).ready = false) :
    ∃ t, exec (.spiRead a) s = .next t ∧ t.spi.pending = some a ∧ t.spi.status = 1 ∧ t.spi.out.head? = some 1 := by
  refine ⟨_, congrArg Host.Outcome.next (spiLoad_waits hs hr (readWaits_of_unready hr hf hx hn)), ?_⟩
  rw [spiAnswer_eq, BitVec.ofNat_toNat, BitVec.setWidth_eq]
  exact ⟨rfl, rfl, rfl⟩

theorem exec_readResult_of_idle {s : State} (hs : spiIdle s = true) :
    exec .readResult s = .next { s with spi := spiAfter s.spi.lastStatus (s.spi.lastStatus :: bytesOf s.spi.lastData) s.spi } := by
  obtain ⟨hu, hn, -, -⟩ := spiIdle_iff.mp hs
  show execReadResult s = _
  simp [execReadResult, hu, noteFrame_of_spiIdle hs, hn, spiAnswer_eq]

theorem exec_spiStatus_of_idle {s : State} (hs : spiIdle s = true) :
    exec .spiStatus s = .next { s with spi := spiAfter s.spi.status [s.spi.status, s.acc.errStat.setWidth 8] s.spi } := by
  obtain ⟨hu, -, -, -⟩ := spiIdle_iff.mp hs
  show execSpiStatus s = _
  simp [execSpiStatus, hu, noteFrame_of_spiIdle hs, lowByte, spiEnd, modSpi, spiAfter]

theorem exec_badcmd_reported {code : Byte} {s : State} (hs : spiIdle s = true) (hx : spiBits code = none) :
    ∃ t, exec (.badcmd code) s = .next t ∧ t.spi.status = 7 ∧ t.spi.badFrames = 1 ∧ AccReported 7 s t := by
  obtain ⟨hu, -, hb, -⟩ := spiIdle_iff.mp hs
  have h := spiFramingError_reported (s := { s with free := s.free + 1 }) (Config.freeBool s.free) spiBadcmd hb
  refine ⟨_, ?_, h⟩
  show execBadcmd code s = _
  simp [execBadcmd, hu, hx, drawBool]

theorem exec_frameErr_reported {code : Byte} {bits x : Nat} {s : State} (hs : spiIdle s = true) (hx : spiBits code = some x) (hne : bits ≠ x)
    (hl : 8 ≤ bits) : ∃ t, exec (.frameErr code bits) s = .next t ∧ t.spi.status = 8 ∧ t.spi.badFrames = 1 ∧ AccReported 7 s t := by
  obtain ⟨hu, -, hb, -⟩ := spiIdle_iff.mp hs
  have h := spiFramingError_reported (s := s) (code.toNat == 0x02 || code.toNat == 0x0A) spiFrame hb
  refine ⟨_, ?_, h⟩
  show execFrameErr code bits s = _
  simp [execFrameErr, hu, hx, hne, Nat.not_lt.mpr hl]

theorem exec_readResult_pending {a : Addr} {s : State} (hu : spiUp s = true) (hp : s.spi.pending = some a) :
    ∃ t, exec .readResult s = .next t ∧ t.spi.status = 1 ∧ t.spi.pending = some a := by
  have h : exec .readResult s = .next (spiAnswer spiPending (Config.freeWord s.free)
      { noteFrame false false s with free := s.free + 1 }) := by
    show execReadResult s = _
    simp [execReadResult, hu, noteFrame, modSpi, hp, drawWord]
  exact ⟨_, h, rfl, hp⟩

theorem exec_spiReadComplete_of_readable {a : Addr} {v : Word} {r : Rg} {s t' : State} (hp : s.spi.pending = some a)
    (hr : readable .spi r a.toNat s = true) (he : regRead .spi r s = (v, t')) :
    ∃ t, exec .spiReadComplete s = .next t ∧ SameButEvents t (spiDone .ok v t') := by
  obtain ⟨-, -, -, -, hl⟩ := readable_iff.mp hr
  refine ⟨spiDone .ok v (noteSup s t'), ?_, (noteSup_same s t').congr (spiDone .ok v) fun _ => rfl⟩
  show execSpiReadComplete s = _
  simp [execSpiReadComplete, hp, hl, wordRead_of_readable hr, he]

/-- Settles O17: a transaction reaches its access, which nothing bars, and ends with that access's status. -/
theorem spiTransactions : Obligations.SpiTransactions := by
  intro a v c r s t' code bits n after done
  refine ⟨fun hs => ⟨exec_spiWrite_of_writable hs, exec_spiGuardedWrite_of_guardOpen hs, exec_spiGuardedWrite_mismatch hs, ?_, ?_,
    exec_readResult_of_idle hs, exec_spiStatus_of_idle hs, exec_badcmd_reported hs, fun x hx hne hl => exec_frameErr_reported hs hx hne hl⟩,
    fun hu hp => ⟨exec_readResult_pending hu hp, exec_spiReadComplete_of_readable hp⟩⟩
  · exact exec_spiRead_now hs
  · exact fun hr hf ⟨x, hx, hn⟩ => exec_spiRead_pending hs hr hf hx hn

end Sys2Proof.Machine
end

section
/-!
PROOF. The wake-serial target: one lemma per transaction (02 R43 to R46, R51, R56, R501).
-/
namespace Sys2Proof.Machine

/-! ### Wake-serial transactions (02 R43 to R46, R501) -/

theorem wsIdle_iff {s : State} : wsIdle s = true ↔ wsUp s = true ∧ s.ws.badCounts = 0 ∧ s.ws.lost = false := by
  simp [wsIdle, and_assoc]

/-- A wake-serial transaction of right framing that answers, where no framing failure stands. -/
theorem noteFrame_wsEnd_of_idle {s : State} (h : wsIdle s = true) (k : WsNack) (out : List Byte) :
    noteFrame true false (wsEnd k out s) = { s with ws := wsAfter k out s.ws } := by
  obtain ⟨-, hb, hl⟩ := wsIdle_iff.mp h
  simp [noteFrame, wsEnd, modWs, wsAfter, ← hb, ← hl]

/-- A wrong byte count where none stands is the first of a row, and an access error. -/
theorem wsCount_first {s : State} (k : WsNack) (a : Nat) (h : s.ws.badCounts = 0) :
    wsCount k a s = { accErr errAccess .ws true a s with ws := { wsAfter k [] s.ws with badCounts := 1 } } := by
  simp [wsCount, noteFrame, wsEnd, modWs, wsAfter, h]

theorem wsAddress_of_reg {w : Bool} {a : Nat} {r : Rg} {s : State} (hp : placeFor .ws w a s = .reg r) (ha : a % 4 = 0) :
    wsAddress w a s = none := by
  simp [wsAddress, hp, ha]

/-- A write transaction to a register that is there is judged by its data. -/
theorem wsStore_of_reg {a : Nat} {r : Rg} {data : List Byte} {s : State} (hu : wsUp s = true) (hp : placeFor .ws true a s = .reg r)
    (ha : a % 4 = 0) : wsStore 3 a data true s = wsData a data true s := by
  simp [wsStore, hu, wsAddress_of_reg hp ha]

/-- Four data bytes to a register that is not guarded are a plain write. -/
theorem wsData_word {a : Nat} {r : Rg} {v : Word} {s : State} (hp : placeAt a = .reg r) (hg : r.guarded = false) (hd : domainUp a s = true) :
    wsData a (bytesOf v) true s = wsStored (plainWrite .ws a v s) := by
  have e : ofMsb (bytesOf v) = v := ofMsb_bytesOf v
  simp only [bytesOf] at e
  simp [wsData, hp, hg, hd, bytesOf, e]

/-- Eight data bytes to a guarded register are its locked pair. -/
theorem wsData_pair {a : Nat} {r : Rg} {v c : Word} {s : State} (hp : placeAt a = .reg r) (hg : r.guarded = true) (hd : domainUp a s = true) :
    wsData a (bytesOf v ++ bytesOf c) true s = wsStored (lockedPair .ws a v c s) := by
  have e (x : Word) : ofMsb (bytesOf x) = x := ofMsb_bytesOf x
  simp only [bytesOf] at e
  simp [wsData, hp, hg, hd, bytesOf, e]

/-- A byte count that the register does not take. -/
theorem wsData_short {a : Nat} {r : Rg} {v : Word} {s : State} (hp : placeAt a = .reg r) (hg : r.guarded = false) (hd : domainUp a s = true) :
    wsData a ((bytesOf v).drop 1) true s = wsCount .none a s := by
  simp [wsData, hp, hg, hd, bytesOf]

/-- A command to the target's own address is served. -/
theorem onWs_own {dev : BitVec 7} {f : State → State} {s : State} (h : dev = s.crp.wsAddr) : onWs dev f s = .next (f s) := by
  simp [onWs, h]

/-- A command to another address meets silence (02 R43). -/
theorem onWs_other {dev : BitVec 7} {f : State → State} {s : State} (h : dev ≠ s.crp.wsAddr) :
    onWs dev f s = .next { s with ws := { s.ws with answers := false } } := by
  simp [onWs, h, modWs]

/-- The wake-serial target after a write that was carried out, with the counts of R56 cleared. -/
theorem wsStored_allEv_same (f : State → State) (s : State) :
    SameButEvents
      { wsStored (.ok, allEv f s) with ws := { (wsStored (.ok, allEv f s)).ws with badCounts := 0, lost := false } }
      (withAnswer .ok { f s with ws := wsAfter .none [] { (f s).ws with badCounts := 0, lost := false } }) :=
  SameButEvents.congr (a := allEv f s) (b := f s)
    (fun x => withAnswer .ok { x with ws := wsAfter .none [] { x.ws with badCounts := 0, lost := false } }) (fun _ => rfl) (allEv_same f s)

/-! ### The commands of the wake-serial target -/

section
variable {a : Addr} {v : Word} {r : Rg} {dev : BitVec 7} {s : State}

theorem exec_wsWrite_of_writable (hv : dev = s.crp.wsAddr) (hs : wsIdle s = true) (hd : domainUp a.toNat s = true)
    (hw : writable .ws r a.toNat v s = true) : exec (.wsWrite 3 ⟨dev, a⟩ (bytesOf v) true) s = .next (wsStored (.ok, allEv (regWrite .ws r v) s)) := by
  obtain ⟨hu, -⟩ := wsIdle_iff.mp hs
  obtain ⟨hp, ha, hg, -⟩ := writable_iff.mp hw
  refine (onWs_own hv).trans ?_
  rw [wsStore_of_reg hu hp ha, wsData_word (placeAt_of_placeFor hp) hg hd, plainWrite_of_unguarded hp hg, wordWrite_of_writable hw]

theorem exec_wsGuardedWrite_of_guardOpen (hv : dev = s.crp.wsAddr) (hs : wsIdle s = true) (hd : domainUp a.toNat s = true)
    (hw : guardOpen .ws r a.toNat v s = true) :
    exec (.wsGuardedWrite ⟨dev, a⟩ v (~~~v)) s = .next (wsStored (.ok, allEv (regWrite .ws r v) s)) := by
  obtain ⟨hu, -⟩ := wsIdle_iff.mp hs
  obtain ⟨hp, ha, hg, -⟩ := guardOpen_iff.mp hw
  refine (onWs_own hv).trans ?_
  rw [masterPair, msbBytes_eq, msbBytes_eq, wsStore_of_reg hu hp ha, wsData_pair (placeAt_of_placeFor hp) hg hd, lockedPair_of_guardOpen hw,
    if_pos rfl]

/-- A read without side effects answers the word, then 0xFF for every byte that the controller clocks on. -/
theorem exec_wsRead_of_readable {extra : Nat} (hv : dev = s.crp.wsAddr) (hs : wsIdle s = true) (hd : domainUp a.toNat s = true)
    (hr : readable .ws r a.toNat s = true) (he : regRead .ws r s = (v, s)) :
    ∃ t, exec (.wsRead 3 ⟨dev, a⟩ extra) s = .next t ∧
      SameButEvents t (withData v { s with ws := wsAfter .none (bytesOf v ++ List.replicate extra 0xFF#8) s.ws }) := by
  obtain ⟨hu, -⟩ := wsIdle_iff.mp hs
  obtain ⟨hp, ha, -, -, hl⟩ := readable_iff.mp hr
  have h : exec (.wsRead 3 ⟨dev, a⟩ extra) s =
      .next (withData v (noteFrame true false (wsEnd .none (bytesOf v ++ List.replicate extra 0xFF#8) (noteSup s s)))) := by
    refine (onWs_own hv).trans ?_
    simp [wsLoad, hu, wsAddress_of_reg hp ha, hd, hl, wordRead_of_readable hr, he, msbBytes_eq, modAcc_answer_data]
  refine ⟨_, h, ?_⟩
  rw [← noteFrame_wsEnd_of_idle hs]
  exact (noteSup_same s s).congr (fun x => withData v (noteFrame true false (wsEnd .none (bytesOf v ++ List.replicate extra 0xFF#8) x))) fun _ => rfl

/-- Data that is not ready in time: the read is abandoned, and nothing is read (02 R45). -/
theorem exec_wsReadTimeout_of_readable (hv : dev = s.crp.wsAddr) (hs : wsIdle s = true) (hr : readable .ws r a.toNat s = true) :
    exec (.wsReadTimeout ⟨dev, a⟩) s = .next { s with ws := wsAfter .addressRead [] s.ws } := by
  obtain ⟨hu, -⟩ := wsIdle_iff.mp hs
  obtain ⟨hp, ha, -⟩ := readable_iff.mp hr
  show execWsReadTimeout ⟨dev, a⟩ s = _
  simp [execWsReadTimeout, hv, hu, wsAddress_of_reg hp ha, noteFrame_wsEnd_of_idle hs]

/-- An address that names nothing is refused at its last byte, and reported (02 R44). -/
theorem exec_wsWrite_unmapped (hv : dev = s.crp.wsAddr) (hs : wsIdle s = true) (hc : coreUp s = true) (hp : placeFor .ws true a.toNat s = .none) :
    ∃ t, exec (.wsWrite 3 ⟨dev, a⟩ (bytesOf v) true) s = .next t ∧ t.ws.nack = .addrLow ∧ AccReported 5 s t := by
  obtain ⟨hu, -⟩ := wsIdle_iff.mp hs
  have h : exec (.wsWrite 3 ⟨dev, a⟩ (bytesOf v) true) s =
      .next (withAnswer .decode (noteFrame true false (wsEnd .addrLow [] (accErr errDecode .ws true a.toNat s)))) := by
    refine (onWs_own hv).trans ?_
    simp [wsStore, hu, wsAddress, hp, wsBadAddress, hc, modAcc_answer]
  exact ⟨_, h, rfl, (accErr_reported errDecode .ws true a.toNat s).of_eq rfl rfl⟩

theorem exec_wsWrite_short (hv : dev = s.crp.wsAddr) (hs : wsIdle s = true) (hd : domainUp a.toNat s = true)
    (hp : placeFor .ws true a.toNat s = .reg r) (ha : a.toNat % 4 = 0) (hg : r.guarded = false) :
    ∃ t, exec (.wsWrite 3 ⟨dev, a⟩ ((bytesOf v).drop 1) true) s = .next t ∧ t.ws.badCounts = 1 ∧ AccReported 1 s t := by
  obtain ⟨hu, hb, -⟩ := wsIdle_iff.mp hs
  refine ⟨_, onWs_own hv, ?_⟩
  rw [wsStore_of_reg hu hp ha, wsData_short (placeAt_of_placeFor hp) hg hd, wsCount_first _ _ hb]
  exact ⟨rfl, (accErr_reported errAccess .ws true a.toNat s).of_eq rfl rfl⟩

end

/-- A stuck line of a path that is not lost: its loss is declared and reported (02 R56). -/
theorem exec_mgmtPathLost_reported {ws : Bool} {s : State} (hc : clocksRun s = true) (hl : (if ws then s.ws.lost else s.spi.lost) = false) :
    ∃ t, exec (.mgmtPathLost ws) s = .next t ∧ (if ws then t.ws.lost else t.spi.lost) = true ∧
      t.flt.lines = s.flt.lines ++ [{ src := 23, detail := if ws then 0x101#32 else 0x001#32 }] := by
  have h : exec (.mgmtPathLost ws) s = .next (pathLost ws 1 s) := by
    show execMgmtPathLost ws s = _
    simp [execMgmtPathLost, hl, hc]
  refine ⟨_, h, ?_⟩
  cases ws <;> exact ⟨rfl, rfl⟩

/-- Settles O18: a transaction to the target's address reaches its access or is refused, any other meets silence. -/
theorem wakeSerialTransactions : Obligations.WakeSerialTransactions := by
  intro a v r s extra ws dev data n after
  refine ⟨fun hv => ?_, fun hv hs hd => ⟨?_, ?_, ?_, ?_, ?_, ?_⟩, exec_mgmtPathLost_reported⟩
  · refine ⟨onWs_other hv, onWs_other hv, onWs_other hv, ?_⟩
    show execWsReadTimeout ⟨dev, a⟩ s = _
    simp [execWsReadTimeout, hv, modWs]
  · exact fun hw => ⟨_, exec_wsWrite_of_writable hv hs hd hw, wsStored_allEv_same _ s⟩
  · exact fun hw => ⟨_, exec_wsGuardedWrite_of_guardOpen hv hs hd hw, wsStored_allEv_same _ s⟩
  · exact exec_wsRead_of_readable hv hs hd
  · exact exec_wsReadTimeout_of_readable hv hs
  · exact exec_wsWrite_unmapped hv hs
  · exact exec_wsWrite_short hv hs hd

end Sys2Proof.Machine
end

section
/-!
PROOF. Writes of the supervisor to mailboxes, and what they say of the statement on locks, semaphores and mailboxes (02 R64, R65).
-/
namespace Sys2Proof.Machine

/-! ### A write of the supervisor to a mailbox (02 R64, R65) -/

theorem SameButEvents.mbx {a b : State} (h : SameButEvents a b) : a.mbx = b.mbx :=
  congrArg State.mbx (a₁ := withoutEvents a) (a₂ := withoutEvents b) h

/-- A write of the supervisor that nothing bars. -/
theorem masterWrite_sup_of_writable {r : Rg} {a : Nat} {v : Word} {s : State} (h : writable .sup r a v s = true) :
    masterWrite .sup a v s = withAnswer .ok (allEv (regWrite .sup r v) s) := by
  obtain ⟨-, ha, -, -, -, -, -, -, -, hc⟩ := writable_iff.mp h
  have hc' : clocksRun s = true := hc
  simp [masterWrite, hc', psiWrite_word ha, wordWrite_of_writable h, modAcc_answer]

theorem mbxData_addr (b : Fin 24) :
    placeAt (addrMbx b) = .reg (.mbxData b) ∧ addrMbx b % 4 = 0 ∧ tileOfAddr (addrMbx b) = none := by
  decide +revert

/-- A mailbox that the supervisor sends to takes its writes. -/
theorem writable_mbxData {b : Fin 24} {v : Word} {s : State} (ho : openAt s (addrMbx b) = true) (hb : sendsTo .sup b = true) :
    writable .sup (.mbxData b) (addrMbx b) v s = true := by
  obtain ⟨hc, hu⟩ := Bool.and_eq_true_iff.mp ho
  obtain ⟨hp, ha, ht⟩ := mbxData_addr b
  refine writable_iff.mpr ⟨?_, ha, rfl, rfl, rfl, rfl, rfl, ?_, hc, hu⟩
  · simp [placeFor, permitted, ht, hp]
  · simp [writeRefused, hb]

/-- A word that the supervisor writes into an empty mailbox is stored, and is no budget word of a shipped policy. -/
theorem exec_mbxDataWrite_empty {b : Fin 24} {v : Word} {s : State} (ho : openAt s (addrMbx b) = true) (hb : sendsTo .sup b = true)
    (hf : s.mbx.box[b].full = false) :
    ∃ t, exec (.mbxDataWrite .sup b v) s = .next t ∧ SameButEvents t (withAnswer .ok (storeBox b v none s)) := by
  refine ⟨_, congrArg Host.Outcome.next (masterWrite_sup_of_writable (writable_mbxData ho hb)), ?_⟩
  have e : regWrite .sup (.mbxData b) v s = storeBox b v none s := if_neg (by simpa using hf)
  exact e ▸ (allEv_same _ s).congr (withAnswer .ok) fun _ => rfl

/-- Refutes O19: its clause on MBX data writes keeps the mark `budget` of an empty mailbox (06 R200), which the write clears. The mailbox is
MBX_S2H0; only the mailboxes MBX_T2St carry the mark in a run. -/
theorem not_locksSemaphoresAndMailboxes : ¬ Obligations.LocksSemaphoresAndMailboxes := by
  intro h
  let s : State :=
    { State.reset with
      pwr := { State.reset.pwr with phase := .run }
      mbx := { State.reset.mbx with box := State.reset.mbx.box.set 4 { budget := true } } }
  have ho : openAt s (addrMbx 4) = true := by decide
  obtain ⟨-, -, -, -, -, -, hwrite, -⟩ := h s 0 ⟨0, 0, .sup⟩ .sysId 0 ⟨0, 0, .sup, false⟩ 0 0 4
  obtain ⟨hempty, -⟩ := hwrite ho (by decide)
  obtain ⟨t, ht, hclaimed⟩ := hempty (by decide)
  obtain ⟨t', ht', hstored⟩ := exec_mbxDataWrite_empty (v := 0) ho (by decide) (by decide)
  obtain rfl : t' = t := Host.Outcome.next.inj (ht'.symm.trans ht)
  have e := congrArg (fun x : MbxBlock => x.box[4].budget) (hclaimed.mbx.symm.trans hstored.mbx)
  simp [withAnswer, setBox, storeBox, modBox, modMbx, s] at e

end Sys2Proof.Machine
end

section
/-!
PROOF. Commands of the hub: what the latched events leave as it is, what nothing but one team means, and the teams, ports and change bits
that the operations of Machine/HubOps.lean touch (chapter 03).
-/
namespace Sys2Proof.Machine

/-! ### What events leave as it is -/

section
variable {a b : State} (h : SameButEvents a b)
include h

theorem SameButEvents.teams : a.teams = b.teams := congrArg State.teams (a₁ := withoutEvents a) (a₂ := withoutEvents b) h
theorem SameButEvents.ports : a.ports = b.ports := congrArg State.ports (a₁ := withoutEvents a) (a₂ := withoutEvents b) h
theorem SameButEvents.tts : a.tts = b.tts := congrArg State.tts (a₁ := withoutEvents a) (a₂ := withoutEvents b) h
theorem SameButEvents.posts : a.posts = b.posts := congrArg State.posts (a₁ := withoutEvents a) (a₂ := withoutEvents b) h
theorem SameButEvents.acc : a.acc = b.acc := congrArg State.acc (a₁ := withoutEvents a) (a₂ := withoutEvents b) h

end

section
variable (f : State → State) (s : State)

@[simp] theorem allEv_teams : (allEv f s).teams = (f s).teams := (allEv_same f s).teams
@[simp] theorem allEv_ports : (allEv f s).ports = (f s).ports := (allEv_same f s).ports
@[simp] theorem allEv_tts : (allEv f s).tts = (f s).tts := (allEv_same f s).tts
@[simp] theorem allEv_posts : (allEv f s).posts = (f s).posts := (allEv_same f s).posts
@[simp] theorem allEv_team (u : TeamId) : (allEv f s).team u = (f s).team u := congrArg (fun v : Vector Team 4 => v[u]) (allEv_teams f s)
@[simp] theorem allEv_port (p : PortId) : (allEv f s).port p = (f s).port p := congrArg (fun v : Vector Port 64 => v[p]) (allEv_ports f s)
@[simp] theorem allEv_tt (p : PortId) : (allEv f s).tt p = (f s).tt p := congrArg (fun v : Vector Tt 64 => v[p]) (allEv_tts f s)
@[simp] theorem allEv_wPortChange (u : TeamId) (n : Nat) : wPortChange (allEv f s) u n = wPortChange (f s) u n := by
  simp [wPortChange]

end

/-! ### The three shapes of a hub command -/

section
variable {s : State} {ok : State → Bool} (f : State → State)

theorem onTeam_of_ok (h : ok s = true) : onTeam ok f s = .next (allEv f s) := by
  simp [onTeam, allEv, h]

theorem onHub_of_ok (hc : clocksRun s = true) (h : ok s = true) : onHub ok f s = .next (allEv f s) :=
  onTeam_of_ok f (by simp [hc, h])

end

/-! ### The team that serves a port -/

theorem servedBy_eq_some_iff {s : State} {p : PortId} {u : TeamId} : servedBy s p = some u ↔
    (s.port p).hub.owner = u.val ∧ ((s.port p).hub.mstate = 0 ∨ (s.port p).hub.mstate = 3) := by
  have hu := u.isLt
  simp only [servedBy]
  split
  · next h => simp [Fin.ext_iff, h]
  · next h =>
    simp only [reduceCtorEq, false_iff]
    exact fun ⟨ho, hm⟩ => h ⟨ho ▸ hu, hm⟩

theorem servedBy_eq_none_iff {s : State} {p : PortId} : servedBy s p = none ↔
    4 ≤ (s.port p).hub.owner ∨ ((s.port p).hub.mstate ≠ 0 ∧ (s.port p).hub.mstate ≠ 3) := by
  simp only [servedBy]
  split
  · next h =>
    obtain ⟨ho, hm⟩ := h
    simp only [reduceCtorEq, false_iff]
    omega
  · next h =>
    simp only [true_iff]
    omega

/-- Which team serves a port depends on PORT_TEAM alone. -/
theorem servedBy_congr {s t : State} {p : PortId} (ho : (t.port p).hub.owner = (s.port p).hub.owner)
    (hm : (t.port p).hub.mstate = (s.port p).hub.mstate) : servedBy t p = servedBy s p := by
  simp [servedBy, ho, hm]

theorem ownedPort_hubPortOf {s : State} {p : PortId} {u : TeamId} (h : servedBy s p = some u) : ownedPort s u (hubPortOf p) = some p := by
  have hp := p.isLt
  simp [ownedPort, hubPortOf, h, Nat.succ_le_of_lt hp]

theorem mem_portsOfTeam {s : State} {p : PortId} {u : TeamId} : p ∈ portsOfTeam s u ↔ servedBy s p = some u := by
  simp [portsOfTeam, fins]

/-! ### Change bits -/

theorem addChange_self {u : TeamId} {n : Nat} (bits : BitVec 16) (s : State) (hn : n - 1 < 65) :
    wPortChange (addChange u n bits s) u n = wPortChange s u n ||| bits := by
  simp [wPortChange, addChange, hn]

theorem hubPortOf_lt (p : PortId) : hubPortOf p - 1 < 65 := by
  have := p.isLt
  simp only [hubPortOf]
  omega

theorem portChange_of_served {s : State} {p : PortId} {u : TeamId} (h : servedBy s p = some u) (bits : BitVec 16) :
    portChange p bits s = addChange u (hubPortOf p) bits s := by
  simp [portChange, h]

end Sys2Proof.Machine
end

section
/-!
PROOF. The end of a port reset on a link with failed lanes (03 R84, R90, Table 3.11, 13 R443): the port is enabled unless its lane is lost.
-/
namespace Sys2Proof.Machine

/-- ENABLE after a port reset is 0 where the port's lane is lost. -/
theorem exec_portResetComplete_enable {s : State} {p : PortId} {u : TeamId} (sp : Speed) (hc : clocksRun s = true)
    (hr : (s.port p).hub.reset = true) (hn : (s.port p).hub.conn = true) (hs : servedBy s p = some u) :
    ∃ t, exec (.portResetComplete p sp) s = .next t ∧ (t.port p).hub.enable =
      (!laneLost s p u (sp == .high && (s.team u).speed == some .high) && !(s.port p).hub.oc) := by
  refine ⟨_, onHub_of_ok _ hc (by simp [hr, hn]), ?_⟩
  simp only [allEv_port, hs]
  have hs' (f : HubPort → HubPort) (ho : (f (s.port p).hub).owner = (s.port p).hub.owner)
      (hm : (f (s.port p).hub).mstate = (s.port p).hub.mstate) : servedBy (modHub p f s) p = some u := by
    rw [← hs]
    exact servedBy_congr (by simpa [modHub] using ho) (by simpa [modHub] using hm)
  rw [portChange_of_served (hs' _ rfl rfl)]
  simp [addChange, modHub]

/-- Refutes O24: its clause on the end of a port reset asks only that no second failure is shown in LANE2, and a lane of the link that
failed without being the one that the spare replaced leaves the port disabled. -/
theorem not_hubPortFeatures : ¬ Obligations.HubPortFeatures := by
  intro h
  let s : State :=
    { State.reset with
      pwr := { State.reset.pwr with phase := .run }
      tiles := State.reset.tiles.set 0 { link := { trained := true, spare := some 8, failed := [0] } }
      ports := State.reset.ports.set 0 { hub := { conn := true, reset := true } } }
  have hserved : servedBy s 0 = some 0 := by decide
  obtain ⟨-, -, hreset, -⟩ := h 0 0 s .full .testJ .connection 0 false 0 .ack .ack hserved
  obtain ⟨t, ht, hclaimed, -⟩ := hreset (by decide) (by decide) (by decide) (by decide) (by decide)
  obtain ⟨t', ht', hlost⟩ := exec_portResetComplete_enable .full (s := s) (by decide) (by decide) (by decide) hserved
  obtain rfl : t' = t := Host.Outcome.next.inj (ht'.symm.trans ht)
  exact absurd (hclaimed.symm.trans hlost) (by decide)

end Sys2Proof.Machine
end

section
/-!
PROOF. Operations that change one team alone, the records it posts and the counter of free values apart, and what they leave of the
team's own fields (chapter 03).
-/
namespace Sys2Proof.Machine

/-! ### Nothing but one team -/

theorem OnlyTeam.refl (u : TeamId) (s : State) : OnlyTeam u s s := ⟨rfl, fun _ _ => rfl⟩

theorem OnlyTeam.trans {u : TeamId} {a b c : State} (h : OnlyTeam u a b) (k : OnlyTeam u b c) : OnlyTeam u a c := by
  obtain ⟨hab, hta⟩ := h
  obtain ⟨hbc, htb⟩ := k
  refine ⟨?_, fun w hw => (htb w hw).trans (hta w hw)⟩
  have := hbc.congr (fun x => { x with teams := a.teams, free := a.free, posts := a.posts }) fun _ => rfl
  exact this.trans hab

theorem SameButEvents.onlyTeam {u : TeamId} {s a b : State} (h : SameButEvents a b) (k : OnlyTeam u s b) : OnlyTeam u s a := by
  obtain ⟨hb, ht⟩ := k
  refine ⟨(h.congr (fun x => { x with teams := s.teams, free := s.free, posts := s.posts }) fun _ => rfl).trans hb, fun w hw => ?_⟩
  rw [← ht w hw]
  exact congrArg (fun v : Vector Team 4 => v[w]) h.teams

section
variable {u : TeamId} {r s : State}

theorem modTeam_onlyTeam (f : Team → Team) (h : OnlyTeam u r s) : OnlyTeam u r (modTeam u f s) :=
  h.trans ⟨rfl, fun _ hw => modTeam_team_of_ne u f s hw⟩

theorem draw_onlyTeam (n : Nat) (h : OnlyTeam u r s) : OnlyTeam u r { s with free := n } := h.trans ⟨rfl, fun _ _ => rfl⟩

theorem postHubFree_onlyTeam (cls src : Nat) (h : OnlyTeam u r s) : OnlyTeam u r (postHubFree cls src s) := h.trans ⟨rfl, fun _ _ => rfl⟩

theorem setTeamSt_onlyTeam (st : UsbState) (h : OnlyTeam u r s) : OnlyTeam u r (setTeamSt u st s) := by
  unfold setTeamSt
  split
  · exact h
  · exact postHubFree_onlyTeam _ _ (modTeam_onlyTeam _ h)

theorem teamEop_onlyTeam (h : OnlyTeam u r s) : OnlyTeam u r (teamEop u s) := by
  unfold teamEop
  split
  · exact modTeam_onlyTeam _ (draw_onlyTeam _ h)
  · exact h

theorem answer_onlyTeam (a : UsbAnswer) (h : OnlyTeam u r s) : OnlyTeam u r (answer u a s) := by
  simp only [answer]
  split
  · exact modTeam_onlyTeam _ h
  · exact teamEop_onlyTeam (modTeam_onlyTeam _ h)

theorem accept_onlyTeam (h : OnlyTeam u r s) : OnlyTeam u r (accept u s) := answer_onlyTeam _ h

theorem sendIn_onlyTeam (bytes : List Byte) (h : OnlyTeam u r s) : OnlyTeam u r (sendIn u bytes s) := answer_onlyTeam _ (draw_onlyTeam _ h)

theorem addChange_onlyTeam (n : Nat) (bits : BitVec 16) (h : OnlyTeam u r s) : OnlyTeam u r (addChange u n bits s) := modTeam_onlyTeam _ h

theorem corrFresh_onlyTeam (h : OnlyTeam u r s) : OnlyTeam u r (corrFresh u s) := modTeam_onlyTeam _ h

end

/-! ### Records that a team posts -/

section
variable (cls src : Nat) (s : State)

@[simp] theorem postHubFree_team (u : TeamId) : (postHubFree cls src s).team u = s.team u := rfl
@[simp] theorem postHubFree_port (p : PortId) : (postHubFree cls src s).port p = s.port p := rfl
@[simp] theorem postHubFree_tt (p : PortId) : (postHubFree cls src s).tt p = s.tt p := rfl
@[simp] theorem postHubFree_teams : (postHubFree cls src s).teams = s.teams := rfl
@[simp] theorem postHubFree_ports : (postHubFree cls src s).ports = s.ports := rfl

theorem postHubFree_posts : ∃ r, (postHubFree cls src s).posts = s.posts ++ [(.hub, r)] ∧ r.cls = cls ∧ r.src = src := ⟨_, rfl, rfl, rfl⟩

end

/-! ### The state of a team -/

section
variable (u : TeamId) (st : UsbState) (s : State)

/-- Only STATE of the team changes. -/
@[simp] theorem setTeamSt_team_self : (setTeamSt u st s).team u = { s.team u with st := st } := by
  unfold setTeamSt
  split
  · next h => simp [← h]
  · simp

@[simp] theorem setTeamSt_port (p : PortId) : (setTeamSt u st s).port p = s.port p := by
  unfold setTeamSt
  split <;> rfl

theorem setTeamSt_posts (h : (s.team u).st ≠ st) :
    ∃ r, (setTeamSt u st s).posts = s.posts ++ [(.hub, r)] ∧ r.cls = clsTeamState ∧ r.src = srcTeam u := by
  simp only [setTeamSt, h, if_false]
  exact postHubFree_posts _ _ _

end

/-! ### The answer on a team's UFP -/

section
variable (u : TeamId) (a : UsbAnswer) (s : State)

theorem teamEop_team : ∃ x : Phy, (teamEop u s).team u = { s.team u with phy := x } := by
  unfold teamEop
  split
  · exact ⟨_, modTeam_team_self ..⟩
  · exact ⟨_, rfl⟩

/-- An answer changes the answer, and the loops of the transmitter that sends it (10 R358). -/
theorem answer_team : ∃ x : Phy, (answer u a s).team u = { s.team u with answer := a, phy := x } := by
  simp only [answer]
  split
  · exact ⟨_, modTeam_team_self ..⟩
  · obtain ⟨x, hx⟩ := teamEop_team u (modTeam u (fun t => { t with answer := a }) s)
    exact ⟨x, by simp [hx]⟩

@[simp] theorem answer_answer : ((answer u a s).team u).answer = a := by
  obtain ⟨x, hx⟩ := answer_team u a s
  rw [hx]

@[simp] theorem answer_ports : (answer u a s).ports = s.ports := by
  simp only [answer, teamEop]
  split
  · rfl
  · split <;> rfl

@[simp] theorem answer_tts : (answer u a s).tts = s.tts := by
  simp only [answer, teamEop]
  split
  · rfl
  · split <;> rfl

@[simp] theorem answer_port (p : PortId) : (answer u a s).port p = s.port p := by simp [State.port]

@[simp] theorem answer_tt (p : PortId) : (answer u a s).tt p = s.tt p := by simp [State.tt]

theorem answerBytes_some (len : Nat) (bs : List Byte) : answerBytes u len (some bs) s = answer u (.control (bs.take len)) s := rfl

theorem answerBytes_none (len : Nat) : answerBytes u len none s = answer u .stall s := rfl

end

/-! ### Requests that reach the function they name -/

section
variable {u : TeamId} {s : State} {f : State → State}

/-- A request whose checks leave it as `g` is `g`. -/
theorem onReq_of_eq {g : State → State} (h : f s = g s) : onReq f s = .next (allEv g s) := by
  simp [onReq, allEv, h]

theorem onHost_of_awake (h : awake s u = true) : onHost u f s = f s := by simp [onHost, h]

/-- What `classUp` says, part by part. -/
theorem classUp_iff : classUp s u = true ↔ awake s u = true ∧ s.flt.safe = false ∧ supUp s = true ∧ s.flt.inWr = false := by
  simp [classUp, and_assoc]

theorem classReq_of_classUp {hw : Bool} (h : classUp s u = true) : classReq u hw f s = f s := by
  obtain ⟨ha, hs, hu, hw⟩ := classUp_iff.mp h
  simp [classReq, onHost_of_awake ha, hs, hu, hw]

theorem portReq_of_classUp {n : Nat} {hw : Bool} (h : classUp s u = true) (hn : 1 ≤ n ∧ n ≤ 65) : portReq u n hw f s = f s := by
  simp [portReq, classReq_of_classUp h, hn]

/-- A port outside 1 to 65 is answered STALL (03 R80). -/
theorem portReq_outside {n : Nat} {hw : Bool} (h : classUp s u = true) (hn : n = 0 ∨ 65 < n) : portReq u n hw f s = answer u .stall s := by
  have : ¬ (1 ≤ n ∧ n ≤ 65) := by omega
  simp [portReq, classReq_of_classUp h, this]

theorem hubPortOf_range (p : PortId) : 1 ≤ hubPortOf p ∧ hubPortOf p ≤ 65 := by
  have := p.isLt
  simp only [hubPortOf]
  omega

theorem hubPortOf_ne_station (p : PortId) : hubPortOf p ≠ 65 := by
  have := p.isLt
  simp only [hubPortOf]
  omega

/-- A command that changes nothing but its team, and what it leaves of the team. -/
theorem goes_onlyTeam {i : Instr} {g : State → State} {P : Team → Prop} (h : exec i s = .next (allEv g s)) (hg : OnlyTeam u s (g s))
    (hP : P ((g s).team u)) : ∃ t, exec i s = .next t ∧ OnlyTeam u s t ∧ P (t.team u) :=
  ⟨_, h, (allEv_same g s).onlyTeam hg, by rwa [allEv_team]⟩

/-- A command that changes its team and is answered. -/
theorem goes_modTeam_answer {i : Instr} {a : UsbAnswer} {f : Team → Team} (h : exec i s = .next (allEv (fun s => answer u a (modTeam u f s)) s)) :
    ∃ t x, exec i s = .next t ∧ OnlyTeam u s t ∧ t.team u = { f (s.team u) with answer := a, phy := x } := by
  obtain ⟨x, hx⟩ := answer_team u a (modTeam u f s)
  refine ⟨_, x, h, (allEv_same _ s).onlyTeam (answer_onlyTeam a (modTeam_onlyTeam f (.refl u s))), ?_⟩
  rw [allEv_team, hx, modTeam_team_self]

/-- A command that is only answered. -/
theorem goes_answer {i : Instr} {a : UsbAnswer} (h : exec i s = .next (allEv (answer u a) s)) :
    ∃ t x, exec i s = .next t ∧ OnlyTeam u s t ∧ t.team u = { s.team u with answer := a, phy := x } := by
  obtain ⟨x, hx⟩ := answer_team u a s
  exact ⟨_, x, h, (allEv_same _ s).onlyTeam (answer_onlyTeam a (.refl u s)), by rw [allEv_team, hx]⟩

/-- A request that is only answered. -/
theorem onReq_answer {a : UsbAnswer} (h : f s = answer u a s) :
    ∃ t, onReq f s = .next t ∧ OnlyTeam u s t ∧ (t.team u).answer = a :=
  ⟨_, onReq_of_eq (g := answer u a) h, (allEv_same _ s).onlyTeam (answer_onlyTeam a (.refl u s)), by rw [allEv_team, answer_answer]⟩

end

end Sys2Proof.Machine
end

section
/-!
PROOF. Hub class requests (03 R80, R81, 04 R141 to R143): a request that the hub firmware answers, and the requests that reach a port's TT.
-/
namespace Sys2Proof.Machine

/-! ### Cells that a translator gives back (04 R121, 05 R148) -/

/-- Teams, ports and translators are the same. -/
def HubApart (s t : State) : Prop := t.teams = s.teams ∧ t.ports = s.ports ∧ t.tts = s.tts

theorem HubApart.refl (s : State) : HubApart s s := ⟨rfl, rfl, rfl⟩

theorem HubApart.upd {r s t : State} (h : HubApart r s) (hu : t.teams = s.teams) (hp : t.ports = s.ports) (ht : t.tts = s.tts) : HubApart r t := by
  obtain ⟨hu', hp', ht'⟩ := h
  exact ⟨hu.trans hu', hp.trans hp', ht.trans ht'⟩

theorem forEach_apart {β : Type} {r s : State} {l : List β} {f : β → State → State} (hf : ∀ b t, HubApart r t → HubApart r (f b t))
    (h : HubApart r s) : HubApart r (forEach l f s) := by
  unfold forEach
  induction l generalizing s with
  | nil => exact h
  | cons b bs ih => exact ih (hf b s h)

section
variable {r s : State}

theorem eccStore_apart (m : EccMem) (w : Nat) (h : HubApart r s) : HubApart r (eccStore m w s) := by
  simp only [eccStore]
  split
  · exact h.upd rfl rfl rfl
  · exact h.upd rfl rfl rfl

theorem setCellWord_apart (c k : Nat) (v : Word) (h : HubApart r s) : HubApart r (setCellWord c k v s) :=
  eccStore_apart _ _ (h.upd rfl rfl rfl)

theorem flCheck_apart (h : HubApart r s) : HubApart r (flCheck s) := by
  unfold flCheck
  split
  · exact h.upd rfl rfl rfl
  · exact h

theorem linkFree_apart (c : Nat) (h : HubApart r s) : HubApart r (linkFree c s) := by
  have h' : HubApart r (setLink c true 0 (setKind c 0 0 0 s)) := setCellWord_apart _ _ _ (setCellWord_apart _ _ _ h)
  simp only [linkFree]
  split
  · exact h'.upd rfl rfl rfl
  · exact (setCellWord_apart _ _ _ h').upd rfl rfl rfl

theorem giveCell_apart (c : Nat) (h : HubApart r s) : HubApart r (giveCell c s) := by
  simp only [giveCell]
  split
  · exact (setCellWord_apart c 14 _ (setCellWord_apart c 15 _ h)).upd rfl rfl rfl
  · split
    · exact setCellWord_apart _ _ _ (setCellWord_apart _ _ _ (h.upd rfl rfl rfl))
    · exact linkFree_apart c h

theorem freeCell_apart (c : Nat) (h : HubApart r s) : HubApart r (freeCell c s) := giveCell_apart c (flCheck_apart h)

/-- Freeing contexts takes them from their translator; teams and ports stay. -/
theorem freeCtxs_apart (p : PortId) (q : Ctx → Bool) (s : State) :
    HubApart (modTt p (fun t => { t with ctxs := t.ctxs.filter fun c => !q c }) s) (freeCtxs p q s) :=
  forEach_apart (fun c _ => freeCell_apart c) (.refl _)

theorem freeCtxs_tt (p : PortId) (q : Ctx → Bool) (s : State) :
    (freeCtxs p q s).tt p = { s.tt p with ctxs := (s.tt p).ctxs.filter fun c => !q c } := by
  obtain ⟨-, -, h⟩ := freeCtxs_apart p q s
  simp [State.tt, h]

end

/-! ### The translator of a port -/

section
variable {s : State} {p : PortId} {u : TeamId}

/-- With the port bus free, no transaction of the TT runs. -/
theorem not_running_of_busFree (h : busBusy s p = false) {c : Ctx} (hc : c ∈ (s.tt p).ctxs) :
    (c.txns.any fun x => x.phase == .running) = false := by
  simp only [busBusy, Bool.or_eq_false_iff, findTxn, Option.isSome_eq_false_iff, Option.isNone_iff_eq_none, List.findSome?_eq_none_iff,
    Option.map_eq_none_iff, List.find?_eq_none] at h
  exact List.any_eq_false.mpr (h.2 c hc)

theorem retireUnstarted_tt (p : PortId) (s : State) : (retireUnstarted p s).tt p = { s.tt p with ctxs := (s.tt p).ctxs.map fun c =>
    { c with txns := c.txns.map fun x => if x.phase == .waiting || x.phase == .ready then { x with phase := .retired } else x } } := by
  simp [retireUnstarted, modTxns]

/-- After it, no transaction waits for the port bus. -/
theorem retireUnstarted_phase {c : Ctx} {x : Txn} (hc : c ∈ ((retireUnstarted p s).tt p).ctxs) (hx : x ∈ c.txns) :
    x.phase ≠ .waiting ∧ x.phase ≠ .ready := by
  simp only [retireUnstarted_tt, List.mem_map] at hc
  obtain ⟨c₀, -, rfl⟩ := hc
  obtain ⟨x₀, -, rfl⟩ := List.mem_map.mp hx
  split
  · simp
  · next h => simpa using h

/-- The state of a TT that GetTTState returns: stopped, periodic contexts, non-periodic contexts (04 R141). -/
def ttStateBits (y : Tt) : Nat := b2n y.stopped + 2 * b2n (ctxKind y true != 0) + 4 * b2n (ctxKind y false != 0)

theorem ttStateBits_spec (y : Tt) : ttStateBits y < 8 ∧ (ttStateBits y).testBit 0 = y.stopped ∧
    (ttStateBits y).testBit 1 = (y.ctxs.any fun c => c.periodic) ∧ (ttStateBits y).testBit 2 = (y.ctxs.any fun c => !c.periodic) := by
  have hk (b : Bool) : (ctxKind y b != 0) = y.ctxs.any fun c => c.periodic == b := by
    rw [Bool.eq_iff_iff]
    simp [ctxKind, List.length_eq_zero_iff]
  have ht : (y.ctxs.any fun c => c.periodic) = (ctxKind y true != 0) := by simp [hk]
  have hf : (y.ctxs.any fun c => !c.periodic) = (ctxKind y false != 0) := by simp [hk]
  rw [ht, hf, ttStateBits]
  generalize y.stopped = a, (ctxKind y true != 0) = b, (ctxKind y false != 0) = c
  revert a b c
  decide

theorem exec_getTtState (hc : classUp s u = true) (hs : servedBy s p = some u) : ∃ t, exec (.getTtState u (hubPortOf p)) s = .next t ∧
    (t.team u).answer = .control (toBytes 4 (ttStateBits (s.tt p))) := by
  have h : exec (.getTtState u (hubPortOf p)) s = .next (allEv (answer u (.control (toBytes 4 (ttStateBits (s.tt p))))) s) := by
    refine onReq_of_eq ((portReq_of_classUp hc (hubPortOf_range p)).trans ?_)
    rw [ownedPort_hubPortOf hs]
    rfl
  exact ⟨_, h, by simp⟩

/-- ResetTT starts a reset of the TT; its status stage waits for the end (04 R143). -/
theorem exec_resetTt (hc : classUp s u = true) (hs : servedBy s p = some u) (hr : (s.tt p).resetting = false) :
    ∃ t, exec (.resetTt u (hubPortOf p)) s = .next t ∧ (t.team u).answer = .nak ∧ (t.tt p).resetting = true ∧
      (t.tt p).stopped = false ∧ ∀ c ∈ (t.tt p).ctxs, ∀ x ∈ c.txns, x.phase ≠ .waiting ∧ x.phase ≠ .ready := by
  have h : exec (.resetTt u (hubPortOf p)) s = .next (allEv (fun s =>
      answer u .nak (modTt p (fun t => { t with statusPending := true }) (resetTt p s))) s) := by
    refine onReq_of_eq ((portReq_of_classUp hc (hubPortOf_range p)).trans ?_)
    simp [ownedPort_hubPortOf hs]
  refine ⟨_, h, ?_⟩
  simp only [allEv_team, allEv_tt, answer_answer, answer_tt, resetTt, hr, modTt_tt_self, Bool.false_eq_true, if_false, true_and]
  exact fun c hc x hx => retireUnstarted_phase hc hx

/-- StopTT waits for the end of the port-bus transaction (04 R142). -/
theorem exec_stopTt (hc : classUp s u = true) (hs : servedBy s p = some u) : exec (.stopTt u (hubPortOf p)) s = .next (allEv (fun s =>
    if ((stopTt p s).tt p).stopNext then answer u .nak (modTt p (fun t => { t with statusPending := true }) (stopTt p s))
    else accept u (stopTt p s)) s) := by
  refine onReq_of_eq ((portReq_of_classUp hc (hubPortOf_range p)).trans ?_)
  simp [hubPortOf_ne_station, ownedPort_hubPortOf hs]

theorem stopTt_tt (p : PortId) (s : State) : (stopTt p s).tt p = { s.tt p with
    stopNext := (s.tt p).stopNext || ((s.tt p).resetting || busBusy s p)
    stopped := (s.tt p).stopped || !((s.tt p).resetting || busBusy s p) } := by
  simp [stopTt]

theorem exec_stopTt_idle (hc : classUp s u = true) (hs : servedBy s p = some u) (hr : (s.tt p).resetting = false)
    (hb : busBusy s p = false) (hn : (s.tt p).stopNext = false) : ∃ t, exec (.stopTt u (hubPortOf p)) s = .next t ∧
      (t.team u).answer = .control [] ∧ (t.tt p).stopped = true ∧ (t.tt p).ctxs = (s.tt p).ctxs := by
  refine ⟨_, exec_stopTt hc hs, ?_⟩
  simp [stopTt_tt, hr, hb, hn, accept]

theorem exec_stopTt_busy (hc : classUp s u = true) (hs : servedBy s p = some u) (hb : busBusy s p = true) :
    ∃ t, exec (.stopTt u (hubPortOf p)) s = .next t ∧ (t.team u).answer = .nak ∧ (t.tt p).stopNext = true ∧
      (t.tt p).statusPending = true ∧ (t.tt p).stopped = (s.tt p).stopped := by
  refine ⟨_, exec_stopTt hc hs, ?_⟩
  simp [stopTt_tt, hb]

/-- The contexts that ClearTTBuffer names (04 R141). -/
def bufferHit (dev ep : Nat) (ty : XferType) (c : Ctx) : Bool := !c.periodic && c.txns.any fun x => x.dev == dev && x.ep == ep && x.ty == ty

/-- With the port bus free every context that ClearTTBuffer names is freed, and nothing else of the TT changes. -/
theorem clearBuffer_tt {dev ep : Nat} {ty : XferType} (hb : busBusy s p = false) :
    (clearBuffer p dev ep ty s).tt p = { s.tt p with ctxs := (s.tt p).ctxs.filter fun c => !bufferHit dev ep ty c } := by
  have hf : ((s.tt p).ctxs.filter fun c => !(bufferHit dev ep ty c && !c.txns.any fun x => x.phase == .running)) =
      (s.tt p).ctxs.filter fun c => !bufferHit dev ep ty c :=
    List.filter_congr fun c hc => by simp [not_running_of_busFree hb hc]
  have hn : (((s.tt p).ctxs.filter fun c => !bufferHit dev ep ty c).any (bufferHit dev ep ty)) = false := by simp
  have ht := freeCtxs_tt p (fun c => bufferHit dev ep ty c && !c.txns.any fun x => x.phase == .running) s
  rw [hf] at ht
  unfold bufferHit at ht hn
  simp only [clearBuffer]
  rw [ht, hn]
  exact ht

theorem exec_clearTtBuffer {dev ep : Nat} {ty : XferType} (dirIn : Bool) (hc : classUp s u = true) (hs : servedBy s p = some u)
    (hm : (s.team u).multiTt = true) (hb : busBusy s p = false) (hp : (s.tt p).statusPending = false) :
    ∃ t, exec (.clearTtBuffer u (hubPortOf p) dev ep ty dirIn) s = .next t ∧ (t.team u).answer = .control [] ∧
      (t.tt p).ctxs = (s.tt p).ctxs.filter fun c => !bufferHit dev ep ty c := by
  have hq : ((clearBuffer p dev ep ty s).tt p).statusPending = false := by rw [clearBuffer_tt hb, hp]
  have h : exec (.clearTtBuffer u (hubPortOf p) dev ep ty dirIn) s = .next (allEv (fun s => accept u (clearBuffer p dev ep ty s)) s) := by
    refine onReq_of_eq ((portReq_of_classUp hc (hubPortOf_range p)).trans ?_)
    simp [ownedPort_hubPortOf hs, hm, forEach, hq]
  refine ⟨_, h, ?_⟩
  simp [accept, clearBuffer_tt hb]

end

/-- Settles O23: each request reaches its answer once the hub firmware takes it, and a port outside 1 to 65 meets STALL before anything else. -/
theorem hubClassRequests : Obligations.HubClassRequests := by
  intro u p s port len sel dev ep b ty dirIn goes replies h hc
  have hcls (hw : Bool) (f : State → State) : classReq u hw f s = f s := classReq_of_classUp hc
  have hout {hw : Bool} {f : State → State} (hn : port = 0 ∨ 65 < port) : portReq u port hw f s = answer u .stall s := portReq_outside hc hn
  refine ⟨fun hsel => ?_, fun hsel => ?_, ?_, ?_, ?_, ?_, ?_, ?_, fun h1 h65 => ?_, fun hn => ?_, fun hs => ?_⟩
  · exact onReq_answer ((hcls false _).trans (if_pos hsel))
  · exact onReq_answer ((hcls false _).trans (if_neg (Nat.not_lt.mpr hsel)))
  · exact onReq_answer (hcls false _)
  · exact onReq_answer (hcls false _)
  · exact onReq_answer (hcls false _)
  · exact onReq_answer (hcls false _)
  · exact onReq_answer (hcls true _)
  · exact onReq_answer (hcls true _)
  · exact onReq_answer (portReq_of_classUp hc ⟨h1, h65⟩)
  · exact ⟨onReq_answer (hout hn), onReq_answer (hout hn), onReq_answer (hout hn), onReq_answer (hout hn), onReq_answer (hout hn)⟩
  · obtain ⟨t, ht, ha⟩ := exec_getTtState hc hs
    exact ⟨⟨t, ht, _, ha, ttStateBits_spec _⟩, exec_resetTt hc hs, exec_stopTt_idle hc hs, exec_stopTt_busy hc hs, exec_clearTtBuffer dirIn hc hs⟩

end Sys2Proof.Machine
end

section
/-!
PROOF. Standard requests to the hub of a team, and its status-change endpoint (03 R78, R79, R85).
-/
namespace Sys2Proof.Machine

/-! ### Bytes and bits of a number -/

theorem toBytes_length (n v : Nat) : (toBytes n v).length = n := by
  induction n generalizing v with
  | zero => rfl
  | succ n ih => simp [toBytes, ih]

theorem ofBytes_toBytes (n v : Nat) : ofBytes (toBytes n v) = v % 256 ^ n := by
  induction n generalizing v with
  | zero => simp [toBytes, ofBytes, Nat.mod_one]
  | succ n ih =>
    simp only [toBytes, ofBytes, lowByte, BitVec.toNat_ofNat, ih, Nat.pow_succ']
    exact (Nat.mod_mul ..).symm

/-- The number whose bits 1 to n are given. -/
def bitsUpTo (b : Nat → Bool) (n : Nat) : Nat := ((List.range n).map fun i => if b (i + 1) then 2 ^ (i + 1) else 0).sum

theorem bitsUpTo_succ (b : Nat → Bool) (n : Nat) :
    bitsUpTo b (n + 1) = (if b (n + 1) then 2 ^ (n + 1) else 0) + bitsUpTo b n := by
  simp [bitsUpTo, List.range_succ, Nat.add_comm]

theorem bitsUpTo_lt (b : Nat → Bool) (n : Nat) : bitsUpTo b n < 2 ^ (n + 1) := by
  induction n with
  | zero => simp [bitsUpTo]
  | succ n ih =>
    rw [bitsUpTo_succ, Nat.pow_succ _ (n + 1)]
    split <;> omega

theorem testBit_bitsUpTo (b : Nat → Bool) (n k : Nat) : (bitsUpTo b n).testBit k = (decide (1 ≤ k ∧ k ≤ n) && b k) := by
  induction n with
  | zero =>
    have h : decide (1 ≤ k ∧ k ≤ 0) = false := decide_eq_false (by omega)
    rw [h]
    simp [bitsUpTo]
  | succ n ih =>
    rw [bitsUpTo_succ]
    rcases Nat.lt_trichotomy k (n + 1) with hk | rfl | hk
    · have h : decide (1 ≤ k ∧ k ≤ n + 1) = decide (1 ≤ k ∧ k ≤ n) := decide_eq_decide.mpr (by omega)
      rw [h, ← ih]
      split
      · exact Nat.testBit_two_pow_add_gt hk _
      · rw [Nat.zero_add]
    · have h0 := Nat.testBit_lt_two_pow (bitsUpTo_lt b n)
      split
      · next hb => simp [Nat.testBit_two_pow_add_eq, h0, hb]
      · next hb => simp [h0, hb]
    · have h : ¬ (1 ≤ k ∧ k ≤ n + 1) := by omega
      have hlt := bitsUpTo_lt b (n + 1)
      rw [bitsUpTo_succ] at hlt
      simp [h, Nat.testBit_lt_two_pow (Nat.lt_of_lt_of_le hlt (Nat.pow_le_pow_right (by decide) hk))]

/-! ### The status-change endpoint (03 R85) -/

theorem changeMap_eq (s : State) (u : TeamId) : changeMap s u = bitsUpTo (fun n => wPortChange s u n != 0) 65 := by
  unfold changeMap bitsUpTo
  congr 2
  funext i
  by_cases h : wPortChange s u (i + 1) = 0 <;> simp [h]

theorem testBit_changeMap (s : State) (u : TeamId) (n : Nat) :
    (changeMap s u).testBit n = (decide (1 ≤ n ∧ n ≤ 65) && wPortChange s u n != 0) := by
  rw [changeMap_eq, testBit_bitsUpTo]

theorem ofBytes_changeMap (s : State) (u : TeamId) : ofBytes (toBytes 9 (changeMap s u)) = changeMap s u := by
  have h : changeMap s u < 2 ^ 66 := changeMap_eq s u ▸ bitsUpTo_lt _ 65
  rw [ofBytes_toBytes]
  omega

theorem changeMap_ne_zero {s : State} {u : TeamId} {n : Nat} (h1 : 1 ≤ n) (h65 : n ≤ 65) (h : wPortChange s u n ≠ 0) : changeMap s u ≠ 0 := by
  intro h0
  have hb := testBit_changeMap s u n
  simp [h0, h1, h65] at hb
  exact h hb

theorem changeMap_eq_zero {s : State} {u : TeamId} (h : ∀ n, 1 ≤ n → n ≤ 65 → wPortChange s u n = 0) : changeMap s u = 0 := by
  refine Nat.eq_of_testBit_eq fun n => ?_
  rw [testBit_changeMap, Nat.zero_testBit]
  by_cases hn : 1 ≤ n ∧ n ≤ 65
  · simp [h n hn.1 hn.2]
  · simp [hn]

theorem sendIn_answer (u : TeamId) (bytes : List Byte) (s : State) : ∃ b, ((sendIn u bytes s).team u).answer = .data b bytes :=
  ⟨_, answer_answer ..⟩

section
variable {u : TeamId} {s : State}

theorem exec_statusChangeIn_data (ha : awake s u = true) (hst : (s.team u).st = .configured)
    (hn : ∃ n, 1 ≤ n ∧ n ≤ 65 ∧ wPortChange s u n ≠ 0) :
    ∃ t, exec (.statusChangeIn u) s = .next t ∧ OnlyTeam u s t ∧ ∃ b bytes, (t.team u).answer = .data b bytes ∧ bytes.length = 9 ∧
      (ofBytes bytes).testBit 0 = false ∧ ∀ n, 1 ≤ n → n ≤ 65 → (ofBytes bytes).testBit n = (wPortChange s u n != 0) := by
  obtain ⟨n, h1, h65, hc⟩ := hn
  have h0 := changeMap_ne_zero h1 h65 hc
  have h : exec (.statusChangeIn u) s = .next (allEv (sendIn u (toBytes 9 (changeMap s u))) s) :=
    onReq_of_eq ((onHost_of_awake ha).trans (by simp [hst, h0]))
  obtain ⟨b, hb⟩ := sendIn_answer u (toBytes 9 (changeMap s u)) s
  refine ⟨_, h, (allEv_same _ s).onlyTeam (sendIn_onlyTeam _ (.refl u s)), b, _, by rwa [allEv_team], toBytes_length .., ?_, fun n h1 h65 => ?_⟩
  · rw [ofBytes_changeMap, testBit_changeMap]
    rfl
  · simp [ofBytes_changeMap, testBit_changeMap, h1, h65]

theorem exec_statusChangeIn_nak (ha : awake s u = true) (hst : (s.team u).st = .configured)
    (hn : ∀ n, 1 ≤ n → n ≤ 65 → wPortChange s u n = 0) :
    ∃ t, exec (.statusChangeIn u) s = .next t ∧ OnlyTeam u s t ∧ (t.team u).answer = .nak :=
  onReq_answer ((onHost_of_awake ha).trans (by simp [hst, changeMap_eq_zero hn]))

/-! ### Standard requests to the hub (03 R78, R79, R91) -/

theorem le16_team (base : Nat) (hb : base = 0x6400) : ∀ u : TeamId, le16 (base + u.val) = [BitVec.ofNat 8 u.val, 0x64] := by
  subst hb
  decide

/-- The device descriptor of a team's hub (03 Table 3.3). -/
theorem deviceDesc_hub (s : State) (u : TeamId) (high : Bool) : deviceDesc s u .hub high =
    [0x12, 0x01, if (s.team u).lpmEn then 0x10 else 0x00, 0x02, 0x09, 0x00, if high then 0x02 else 0x00, 0x40, 0xC7, 0x31,
      BitVec.ofNat 8 u.val, 0x64, 0x01, 0x0B, 0x01, 0x02, 0x03, 0x01] := by
  have h1 : le16 0x31C7 = [0xC7, 0x31] := by decide
  have h2 : le16 0x0B01 = [0x01, 0x0B] := by decide
  have h3 (b : Bool) : le16 (if b then 0x0210 else 0x0200) = [if b then 0x10 else 0x00, 0x02] := by revert b; decide
  simp [deviceDesc, h1, h2, h3, le16_team]

theorem exec_setInterface_accepted {alt : Nat} (ha : awake s u = true) (hst : (s.team u).st = .configured)
    (halt : alt = 0 ∨ (alt = 1 ∧ (s.team u).speed = some .high)) : ∃ t, exec (.setInterface u alt) s = .next t ∧ OnlyTeam u s t ∧
      (t.team u).answer = .control [] ∧ (t.team u).multiTt = (alt == 1) := by
  have h : exec (.setInterface u alt) s = .next (allEv (fun s => accept u (modTeam u (fun t => { t with multiTt := alt == 1 }) s)) s) :=
    onReq_of_eq ((onHost_of_awake ha).trans (if_pos ⟨hst, halt⟩))
  obtain ⟨t, x, ht, ho, hx⟩ := goes_modTeam_answer h
  exact ⟨t, ht, ho, by simp [hx]⟩

/-- An alternate setting that the configuration does not hold, or none in force, is answered STALL. -/
theorem exec_setInterface_stalled {alt : Nat} (ha : awake s u = true)
    (halt : ¬ ((s.team u).st = .configured ∧ (alt = 0 ∨ (alt = 1 ∧ (s.team u).speed = some .high)))) : ∃ t, exec (.setInterface u alt) s = .next t ∧
      OnlyTeam u s t ∧ (t.team u).answer = .stall ∧ (t.team u).multiTt = (s.team u).multiTt := by
  obtain ⟨t, x, ht, ho, hx⟩ := goes_answer (i := .setInterface u alt) (onReq_of_eq ((onHost_of_awake ha).trans (if_neg halt)))
  exact ⟨t, ht, ho, by simp [hx]⟩

theorem stdReq_hub {f : State → State} (ha : awake s u = true) : stdReq u .hub f s = f s := onHost_of_awake ha

theorem exec_setAddress_hub {addr : BitVec 7} (ha : awake s u = true) (hst : (s.team u).st ≠ .configured) :
    ∃ t, exec (.setAddress u .hub addr) s = .next t ∧ OnlyTeam u s t ∧ (t.team u).answer = .control [] ∧ (t.team u).addr = addr.toNat ∧
      (t.team u).st = if addr = 0 then .default else .address := by
  let g (s : State) : State :=
    setTeamSt u (if addr = 0 then .default else .address) (modTeam u (fun t => { t with addr := addr.toNat }) (accept u s))
  have h : exec (.setAddress u .hub addr) s = .next (allEv g s) := by
    refine onReq_of_eq ((stdReq_hub ha).trans ?_)
    simp [g, hst]
  refine goes_onlyTeam (P := fun y => y.answer = .control [] ∧ y.addr = addr.toNat ∧ y.st = if addr = 0 then .default else .address) h
    (setTeamSt_onlyTeam _ (modTeam_onlyTeam _ (accept_onlyTeam (.refl u s)))) ?_
  obtain ⟨x, hx⟩ := answer_team u (.control []) s
  simp [g, accept, hx]

theorem exec_setConfiguration_hub {cfg : Nat} (ha : awake s u = true) (hst : (s.team u).st ≠ .default) (hcfg : cfg ≤ 1) :
    ∃ t, exec (.setConfiguration u .hub cfg) s = .next t ∧ OnlyTeam u s t ∧ (t.team u).answer = .control [] ∧
      (t.team u).st = (if cfg = 0 then .address else .configured) ∧ (t.team u).multiTt = false := by
  let g (s : State) : State :=
    setTeamSt u (if cfg = 0 then .address else .configured) (modTeam u (fun t => { t with multiTt := false }) (accept u s))
  have h : exec (.setConfiguration u .hub cfg) s = .next (allEv g s) := by
    refine onReq_of_eq ((stdReq_hub ha).trans ?_)
    simp [g, hst, hcfg]
  refine goes_onlyTeam (P := fun y => y.answer = .control [] ∧ y.st = (if cfg = 0 then .address else .configured) ∧ y.multiTt = false) h
    (setTeamSt_onlyTeam _ (modTeam_onlyTeam _ (accept_onlyTeam (.refl u s)))) ?_
  obtain ⟨x, hx⟩ := answer_team u (.control []) s
  simp [g, accept, hx]

theorem exec_setConfiguration_stalled {cfg : Nat} (ha : awake s u = true) (hst : (s.team u).st = .default ∨ 1 < cfg) :
    ∃ t, exec (.setConfiguration u .hub cfg) s = .next t ∧ OnlyTeam u s t ∧ (t.team u).answer = .stall ∧ (t.team u).st = (s.team u).st := by
  obtain ⟨t, x, ht, ho, hx⟩ := goes_answer (i := .setConfiguration u .hub cfg) (onReq_of_eq ((stdReq_hub ha).trans (if_pos hst)))
  exact ⟨t, ht, ho, by simp [hx]⟩

theorem exec_deviceRemoteWakeup_hub (on : Bool) (ha : awake s u = true) : ∃ t, exec (.deviceRemoteWakeup u .hub on) s = .next t ∧
    OnlyTeam u s t ∧ (t.team u).answer = .control [] ∧ (t.team u).rwakeEn = on := by
  have h : exec (.deviceRemoteWakeup u .hub on) s = .next (allEv (fun s => accept u (modTeam u (fun t => { t with rwakeEn := on }) s)) s) :=
    onReq_of_eq (stdReq_hub ha)
  obtain ⟨t, x, ht, ho, hx⟩ := goes_modTeam_answer h
  exact ⟨t, ht, ho, by simp [hx]⟩

/-! ### Requests that reach the station function (03 R91, R94, 13 R429) -/

/-- What `stationUp` says, part by part. -/
theorem stationUp_iff : stationUp s u = true ↔ awake s u = true ∧ stationConn s u = true ∧ (s.team u).station.enabled = true ∧
    (s.team u).station.suspended = false ∧ (s.team u).station.l1 = false ∧ s.flt.safe = false := by
  simp [stationUp, and_assoc]

theorem onStation_of_stationUp {f : State → State} (h : stationUp s u = true) : onStation u f s = f s := by
  obtain ⟨ha, hn, he, hs, hl, -⟩ := stationUp_iff.mp h
  simp [onStation, ha, hn, he, hs, hl]

theorem stationReq_of_stationUp {f : State → State} (h : stationUp s u = true) : stationReq u f s = f s := by
  obtain ⟨-, -, -, -, -, hs⟩ := stationUp_iff.mp h
  simp [stationReq, onStation_of_stationUp h, hs]

theorem stdReq_station {f : State → State} (h : stationUp s u = true) : stdReq u .station f s = f s := stationReq_of_stationUp h

/-- What `stationRuns` says, part by part. -/
theorem stationRuns_iff : stationRuns s u = true ↔
    stationUp s u = true ∧ epReady s u = true ∧ (s.team u).station.dfuMode = false := by
  simp only [stationRuns, epReady, Bool.and_eq_true, Bool.not_eq_true', beq_iff_eq]
  tauto

/-- The station function with its address set. -/
def Station.addressed (addr : BitVec 7) (x : Station) : Station :=
  { x with addr := addr.toNat, st := if x.st = .configured then .configured else if addr = 0 then .default else .address }

theorem exec_setAddress_station (addr : BitVec 7) (h : stationUp s u = true) : ∃ t, exec (.setAddress u .station addr) s = .next t ∧
    OnlyTeam u s t ∧ (t.team u).answer = .control [] ∧ (t.team u).station.addr = addr.toNat := by
  have he : exec (.setAddress u .station addr) s = .next (allEv (fun s => accept u (modStation u (Station.addressed addr) s)) s) :=
    onReq_of_eq (stdReq_station h)
  obtain ⟨t, x, ht, ho, hx⟩ := goes_modTeam_answer he
  exact ⟨t, ht, ho, by simp [hx, Station.addressed]⟩

theorem exec_deviceRemoteWakeup_station (on : Bool) (h : stationUp s u = true) : ∃ t, exec (.deviceRemoteWakeup u .station on) s = .next t ∧
    OnlyTeam u s t ∧ (t.team u).answer = .control [] ∧ (t.team u).station.rwake = on := by
  have he : exec (.deviceRemoteWakeup u .station on) s = .next (allEv (fun s => accept u (modStation u (fun x => { x with rwake := on }) s)) s) :=
    onReq_of_eq (stdReq_station h)
  obtain ⟨t, x, ht, ho, hx⟩ := goes_modTeam_answer he
  exact ⟨t, ht, ho, by simp [hx]⟩

/-! ### Vendor requests (03 R94, Table 3.15) -/

theorem exec_getInfo (h : stationRuns s u = true) : ∃ t, exec (.getInfo ⟨u, 1, 0, 16⟩) s = .next t ∧ OnlyTeam u s t ∧
    (t.team u).answer = .control (toBytes 4 0x00641B01 ++ [BitVec.ofNat 8 u.val, lowByte (speedCode (s.team u).speed)] ++
      toBytes 2 (s.team u).qmask.toNat ++ toBytes 4 (teamPorts s u 0).toNat ++ toBytes 4 (teamPorts s u 1).toNat) := by
  obtain ⟨hu, -, hd⟩ := stationRuns_iff.mp h
  refine onReq_answer ((stationReq_of_stationUp hu).trans ?_)
  simp [hd, answerBytes_some, le16, List.take_of_length_le, toBytes_length]
  rfl

theorem exec_getInfo_stalled {b : Byte} {val : BitVec 16} {len : Nat} (h : stationRuns s u = true) (hb : b ≠ 1 ∨ val ≠ 0) :
    ∃ t, exec (.getInfo ⟨u, b, val, len⟩) s = .next t ∧ OnlyTeam u s t ∧ (t.team u).answer = .stall := by
  obtain ⟨hu, -⟩ := stationRuns_iff.mp h
  exact onReq_answer ((stationReq_of_stationUp hu).trans (if_pos (.inr hb)))

/-- The queues that the other teams select. -/
def othersQmask (s : State) (u : TeamId) : BitVec 16 :=
  ((List.finRange 4).filter (· ≠ u)).foldl (fun (m : BitVec 16) w => m ||| (s.team w).qmask) 0

theorem setQmask_eq (u : TeamId) (v : BitVec 16) (s : State) :
    setQmask u v s = modTeam u (fun t => { t with qmask := v &&& ~~~othersQmask s u }) s := rfl

theorem and_not_eq_self_iff (a b : BitVec 16) : a &&& ~~~b = a ↔ a &&& b = 0 := by
  constructor <;> intro h
  · rw [← h, BitVec.and_assoc]
    simp
  · refine BitVec.eq_of_getLsbD_eq fun i hi => ?_
    have := congrArg (fun x : BitVec 16 => x.getLsbD i) h
    simp at this
    simp [hi]
    exact this

theorem exec_setQueues_stalled {b : Byte} (mask : BitVec 16) (h : stationRuns s u = true) (hb : b ≠ 2) :
    ∃ t, exec (.setQueues u ⟨b, mask⟩) s = .next t ∧ OnlyTeam u s t ∧ (t.team u).answer = .stall ∧ (t.team u).qmask = (s.team u).qmask := by
  obtain ⟨hu, -⟩ := stationRuns_iff.mp h
  obtain ⟨t, x, ht, ho, hx⟩ := goes_answer (i := .setQueues u ⟨b, mask⟩) (onReq_of_eq ((stationReq_of_stationUp hu).trans (if_pos (.inr hb))))
  exact ⟨t, ht, ho, by simp [hx]⟩

/-- SET_QUEUES takes the queues that no other team selects, and STALL says that some were left out (03 R92, R94). -/
theorem exec_setQueues (mask : BitVec 16) (h : stationRuns s u = true) : ∃ t, exec (.setQueues u ⟨2, mask⟩) s = .next t ∧ OnlyTeam u s t ∧
    (t.team u).qmask = mask &&& ~~~othersQmask s u ∧
    (t.team u).answer = if mask &&& othersQmask s u = 0 then .control [] else .stall := by
  obtain ⟨hu, -, hd⟩ := stationRuns_iff.mp h
  have he : exec (.setQueues u ⟨2, mask⟩) s = .next (allEv (fun s' => answer u (if mask &&& othersQmask s u = 0 then .control [] else .stall)
      (modTeam u (fun t => { t with qmask := mask &&& ~~~othersQmask s u }) s')) s) := by
    refine onReq_of_eq ((stationReq_of_stationUp hu).trans ((if_neg (by simp [hd])).trans ?_))
    simp only [setQmask_eq, modTeam_team_self, and_not_eq_self_iff]
    exact (apply_ite (fun a => answer u a _) _ _ _).symm
  obtain ⟨t, x, ht, ho, hx⟩ := goes_modTeam_answer he
  exact ⟨t, ht, ho, by simp [hx]⟩

end

end Sys2Proof.Machine
end

section
/-!
PROOF. The endpoints of a station function, the wake that a waiting record asks for, and TEAM_QMASK (03 R92, R93, R98, 08 R284).
-/
namespace Sys2Proof.Machine

/-! ### Loops that leave a part of the state as it is -/

theorem forEach_same_part {α β : Type} {part : State → α} {l : List β} {f : β → State → State} (hf : ∀ b s, part (f b s) = part s) (s : State) :
    part (forEach l f s) = part s := by
  unfold forEach
  induction l generalizing s with
  | nil => rfl
  | cons b bs ih => exact (ih (f b s)).trans (hf b s)

/-! ### Remote wake of a team (03 R98) -/

section
variable {u : TeamId} {s : State}

@[simp] theorem spreadK_team : (spreadK u s).team u = { s.team u with drivingK := true } := by
  have h := forEach_same_part (part := fun x => x.team u) (l := portsOfTeam s u)
    (f := fun p => modHub p fun h => { h with k := h.enable && !h.suspend }) (fun _ _ => rfl) (modTeam u (fun t => { t with drivingK := true }) s)
  exact h.trans (modTeam_team_self ..)

theorem stationWake_of_silent (h : stationCalls s u = false) : stationWake u s = s := by
  simp [stationWake, h]

theorem stationWake_suspended (h : stationCalls s u = true) (hs : (s.team u).st = .suspended) (hw : (s.team u).stationWoke = false) :
    stationWake u s = spreadK u (modTeam u (fun t => { t with stationWoke := true }) s) := by
  simp [stationWake, h, hs, hw]

/-- A team but for what a wake of its station function changes. -/
def Team.sansWake (x : Team) : Team := { x with drivingK := false, stationWoke := false, change := Vector.replicate 65 0, station := {} }

theorem stationWake_sansWake (u : TeamId) (s : State) : ((stationWake u s).team u).sansWake = (s.team u).sansWake := by
  unfold stationWake
  split
  · rfl
  · split
    · split
      · rfl
      · simp [Team.sansWake]
    · rfl
    · rfl
    · simp only
      split <;> split <;> split <;> simp [addChange, Team.sansWake]

end

/-! ### Endpoint 0x82: correlation entries (08 R284) -/

section
variable {u : TeamId} {r s : State}

theorem popCorr_onlyTeam (h : OnlyTeam u r s) : OnlyTeam u r (popCorr u s).2 := modTeam_onlyTeam _ h

theorem popCorr_length : (popCorr u s).1.length = 16 := by
  simp [popCorr, toBytes_length]

theorem popCorr_unsent : ((popCorr u s).2.team u).corr.unsent = (s.team u).corr.unsent - 1 := by
  simp [popCorr]

theorem sendIn_team (bytes : List Byte) : ∃ b x, (sendIn u bytes s).team u = { s.team u with answer := .data b bytes, phy := x } := by
  obtain ⟨x, hx⟩ := answer_team u (.data (Config.freeBool s.free) bytes) { s with free := s.free + 1 }
  exact ⟨_, x, hx⟩

/-- At most two entries go in one packet. -/
theorem exec_correlationEndpointIn (h : stationRuns s u = true) (hn : 0 < (s.team u).corr.unsent) :
    ∃ t, exec (.correlationEndpointIn u) s = .next t ∧ OnlyTeam u s t ∧
      (t.team u).corr.unsent = (s.team u).corr.unsent - min 2 (s.team u).corr.unsent ∧
      ∃ b bytes, (t.team u).answer = .data b bytes ∧ bytes.length = 16 * min 2 (s.team u).corr.unsent := by
  obtain ⟨hu, he, -⟩ := stationRuns_iff.mp h
  by_cases h1 : (s.team u).corr.unsent = 1
  · have hx : exec (.correlationEndpointIn u) s = .next (allEv (fun s => sendIn u (popCorr u s).1 (popCorr u s).2) s) :=
      onReq_of_eq ((onStation_of_stationUp hu).trans (by simp [he, h1]))
    obtain ⟨b, x, ht⟩ := sendIn_team (u := u) (s := (popCorr u s).2) (popCorr u s).1
    refine ⟨_, hx, (allEv_same _ s).onlyTeam (sendIn_onlyTeam _ (popCorr_onlyTeam (.refl u s))), ?_⟩
    rw [allEv_team, ht]
    exact ⟨by simp [popCorr_unsent, h1], b, _, rfl, by simp [popCorr_length, h1]⟩
  · obtain ⟨n, hn⟩ : ∃ n, (s.team u).corr.unsent = n + 2 := ⟨(s.team u).corr.unsent - 2, by omega⟩
    have hx : exec (.correlationEndpointIn u) s = .next (allEv (fun s =>
        sendIn u ((popCorr u s).1 ++ (popCorr u (popCorr u s).2).1) (popCorr u (popCorr u s).2).2) s) :=
      onReq_of_eq ((onStation_of_stationUp hu).trans (by simp [he, hn]))
    obtain ⟨b, x, ht⟩ := sendIn_team (u := u) (s := (popCorr u (popCorr u s).2).2) ((popCorr u s).1 ++ (popCorr u (popCorr u s).2).1)
    refine ⟨_, hx, (allEv_same _ s).onlyTeam (sendIn_onlyTeam _ (popCorr_onlyTeam (popCorr_onlyTeam (.refl u s)))), ?_⟩
    rw [allEv_team, ht]
    exact ⟨by simp [popCorr_unsent, hn], b, _, rfl, by simp [popCorr_length, hn]⟩

theorem exec_correlationEndpointIn_nak (h : stationRuns s u = true) (hn : (s.team u).corr.unsent = 0) :
    ∃ t, exec (.correlationEndpointIn u) s = .next t ∧ OnlyTeam u s t ∧ (t.team u).answer = .nak := by
  obtain ⟨hu, he, -⟩ := stationRuns_iff.mp h
  exact onReq_answer ((onStation_of_stationUp hu).trans (by simp [he, hn]))

end

/-! ### Endpoint 0x81: the records of the selected queues (03 R93, 05 R161, R167) -/

section
variable {u : TeamId} {q : QueueId} {s : State}

/-- Without a latent error and without an injection the comparison of a queue finds nothing. -/
theorem queueCheck_of_sound (he : s.ecc = []) (hi : bitOf s.flt.inj 31 = false) : queueCheck q s = s := by
  have hfix (w : Nat) : eccFix .creel w s = s := by simp [eccFix, eccAt, he]
  have hall (ws : List Nat) : forEach ws (eccFix .creel) s = s := by
    unfold forEach
    induction ws with
    | nil => rfl
    | cons w ws ih => rw [List.foldl_cons, hfix, ih]
  simp [queueCheck, injArmed, hi, readWordsOf, eccAt, he, hall]

/-- One word of an item is read. -/
def popBytes (q : QueueId) (a : List Byte × State) : List Byte × State :=
  match popWord q a.2 with
  | some (w, s) => (a.1 ++ toBytes 4 w.toNat, s)
  | none => a

theorem popBytes_ne_nil {a : List Byte × State} (h : a.1 ≠ []) : (popBytes q a).1 ≠ [] := by
  unfold popBytes
  split
  · simp [h]
  · exact h

theorem popWord_of_nonempty (h : listEmpty s q = false) : ∃ w t, popWord q s = some (w, t) := by
  simp only [popWord, h, Bool.false_eq_true, if_false]
  split
  · exact ⟨_, _, rfl⟩
  · exact ⟨_, _, rfl⟩

/-- The words of an item that a read takes are at least one. -/
theorem foldl_popBytes_ne_nil (h : listEmpty s q = false) (n : Nat) :
    ((List.range (n + 1)).foldl (fun a _ => popBytes q a) ([], s)).1 ≠ [] := by
  obtain ⟨w, t, hw⟩ := popWord_of_nonempty h
  have hfirst : (popBytes q ([], s)).1 ≠ [] := by simp [popBytes, hw, toBytes]
  have hrest (l : List Nat) (a : List Byte × State) (ha : a.1 ≠ []) : (l.foldl (fun a _ => popBytes q a) a).1 ≠ [] := by
    induction l generalizing a with
    | nil => exact ha
    | cons b bs ih => exact ih _ (popBytes_ne_nil ha)
  rw [List.range_succ_eq_map, List.foldl_cons]
  exact hrest _ _ hfirst

/-- A queue that holds something gives an item. -/
theorem popItem_of_sound (he : s.ecc = []) (hi : bitOf s.flt.inj 31 = false) (h : listEmpty s q = false) :
    ∃ bs t, popItem q s = (some bs, t) ∧ bs ≠ [] := by
  have hc : checkFails s q = false := by simp [checkFails, injArmed, hi, eccAt, he]
  let n : Nat := if bitOf (cellWord s (s.queue q).head (s.queue q).rd) 30 then 0 else 3
  have hn : (if bitOf (cellWord s (s.queue q).head (s.queue q).rd) 30 then 1 else 4) = n + 1 := by simp only [n]; split <;> rfl
  have hp : (popItem q s).1 = some ((List.range (n + 1)).foldl (fun a _ => popBytes q a) ([], s)).1 := by
    simp [popItem, hc, queueCheck_of_sound he hi, h, hn, eccAt, he]
    rfl
  exact ⟨_, (popItem q s).2, Prod.ext hp rfl, foldl_popBytes_ne_nil h n⟩

theorem fillPacket_ne_nil (u : TeamId) (n room : Nat) (acc : List Byte) (s : State) (h : acc ≠ []) : (fillPacket u n room acc s).1 ≠ [] := by
  induction n generalizing room acc s with
  | zero => exact h
  | succ n ih =>
    unfold fillPacket
    split
    · exact h
    · split
      · exact h
      · split
        · exact ih _ _ _ (by simp [h])
        · exact ih _ _ _ h

theorem headSize_le (s : State) (q : QueueId) : headSize s q ≤ 16 := by
  unfold headSize
  simp only
  split
  · omega
  · split <;> omega

theorem headSize_ne_zero_iff : headSize s q ≠ 0 ↔ listEmpty s q = false := by
  unfold headSize
  cases listEmpty s q <;> simp only [if_true, if_false, Bool.false_eq_true, reduceCtorEq, ne_eq, not_true_eq_false, iff_true]
  split <;> omega

/-- A team that selects a queue with something in it fills a packet. -/
theorem fillPacket_first {n room : Nat} (he : s.ecc = []) (hi : bitOf s.flt.inj 31 = false) (hr : 16 ≤ room)
    (hq : ∃ q, qOwner s q = some u ∧ listEmpty s q = false) : (fillPacket u (n + 1) room [] s).1 ≠ [] := by
  obtain ⟨q₀, ho, hl⟩ := hq
  unfold fillPacket
  split
  · next hf =>
    have := List.find?_eq_none.mp hf q₀ (List.mem_finRange q₀)
    simp [ho, headSize_ne_zero_iff.mpr hl] at this
  · next q hf =>
    have hs := List.find?_some hf
    simp only [Bool.and_eq_true, bne_iff_ne] at hs
    obtain ⟨bs, t, hp, hb⟩ := popItem_of_sound he hi (headSize_ne_zero_iff.mp hs.2)
    have hfit : ¬ room < headSize s q := Nat.not_lt.mpr ((headSize_le s q).trans hr)
    simp only [hfit, if_false, hp]
    exact fillPacket_ne_nil _ _ _ _ _ (by simpa using hb)

theorem fillPacket_none {n room : Nat} (hq : ∀ q, qOwner s q = some u → listEmpty s q = true) : fillPacket u (n + 1) room [] s = ([], s) := by
  have hf : ((fins 16).find? fun q => qOwner s q == some u && headSize s q != 0) = none := by
    refine List.find?_eq_none.mpr fun q _ => ?_
    by_cases ho : qOwner s q = some u
    · simp [headSize, hq q ho]
    · simp [ho]
  simp [fillPacket, hf]

/-- The packet that endpoint 0x81 has to send: what stands in its buffer, or items of the selected queues. -/
def eventPacket (u : TeamId) (s : State) : List Byte × State :=
  if (s.team u).evBuf.isEmpty then fillPacket u 144 (if (s.team u).speed = some .high then 512 else 64) [] s else ((s.team u).evBuf, s)

/-- The buffer after an IN transaction with this packet. -/
def afterEvent (u : TeamId) (on : Bool) (r : List Byte × State) : State := modTeam u (fun t => { t with evBuf := if on then [] else r.1 }) r.2

theorem exec_eventEndpointIn (on : Bool) (h : stationRuns s u = true) : exec (.eventEndpointIn ⟨u, on⟩) s = .next (allEv (fun s =>
    if (eventPacket u s).1.isEmpty then answer u .nak (afterEvent u on (eventPacket u s))
    else sendIn u (eventPacket u s).1 (afterEvent u on (eventPacket u s))) s) := by
  obtain ⟨hu, he, -⟩ := stationRuns_iff.mp h
  refine onReq_of_eq ((onStation_of_stationUp hu).trans ?_)
  simp only [he, not_true_eq_false, if_false]
  rfl

/-- A packet that is not empty is sent, and stays in the buffer until the host has acknowledged it. -/
theorem exec_eventEndpointIn_data {on : Bool} {bytes : List Byte} (h : stationRuns s u = true) (hb : (eventPacket u s).1 = bytes) (hne : bytes ≠ []) :
    ∃ b x, exec (.eventEndpointIn ⟨u, on⟩) s = .next (allEv (fun s => sendIn u bytes (afterEvent u on (eventPacket u s))) s) ∧
      (sendIn u bytes (afterEvent u on (eventPacket u s))).team u =
        { (eventPacket u s).2.team u with evBuf := if on then [] else bytes, answer := .data b bytes, phy := x } := by
  obtain ⟨b, x, hx⟩ := sendIn_team (u := u) (s := afterEvent u on (eventPacket u s)) bytes
  refine ⟨b, x, (exec_eventEndpointIn on h).trans ?_, ?_⟩
  · simp [allEv, hb, hne]
  · rw [hx]
    simp [afterEvent, hb]

theorem exec_eventEndpointIn_again (on : Bool) (h : stationRuns s u = true) (hb : (s.team u).evBuf ≠ []) :
    ∃ t, exec (.eventEndpointIn ⟨u, on⟩) s = .next t ∧ OnlyTeam u s t ∧ (∃ b, (t.team u).answer = .data b (s.team u).evBuf) ∧
      (t.team u).evBuf = if on then [] else (s.team u).evBuf := by
  have hp : eventPacket u s = ((s.team u).evBuf, s) := by simp [eventPacket, hb]
  obtain ⟨b, x, ht, hx⟩ := exec_eventEndpointIn_data (on := on) h (congrArg Prod.fst hp) hb
  refine ⟨_, ht, (allEv_same _ s).onlyTeam (sendIn_onlyTeam _ ?_), ?_⟩
  · rw [hp]
    exact modTeam_onlyTeam _ (.refl u s)
  · rw [allEv_team, hx]
    exact ⟨⟨b, rfl⟩, rfl⟩

theorem exec_eventEndpointIn_nak (on : Bool) (h : stationRuns s u = true) (hb : (s.team u).evBuf = [])
    (hq : ∀ q, qOwner s q = some u → listEmpty s q = true) :
    ∃ t, exec (.eventEndpointIn ⟨u, on⟩) s = .next t ∧ OnlyTeam u s t ∧ (t.team u).answer = .nak := by
  have hp : eventPacket u s = ([], s) := by
    simp only [eventPacket, hb, List.isEmpty_nil, if_true]
    exact fillPacket_none hq
  have ht : exec (.eventEndpointIn ⟨u, on⟩) s =
      .next (allEv (fun s => answer u .nak (modTeam u (fun t => { t with evBuf := if on then [] else [] }) s)) s) := by
    refine (exec_eventEndpointIn on h).trans ?_
    simp [allEv, hp, afterEvent]
  obtain ⟨t, x, ht, ho, hx⟩ := goes_modTeam_answer ht
  exact ⟨t, ht, ho, by simp [hx]⟩

theorem exec_eventEndpointIn_fresh (on : Bool) (h : stationRuns s u = true) (hb : (s.team u).evBuf = []) (he : s.ecc = [])
    (hi : bitOf s.flt.inj 31 = false) (hq : ∃ q, qOwner s q = some u ∧ listEmpty s q = false) :
    ∃ t b bytes, exec (.eventEndpointIn ⟨u, on⟩) s = .next t ∧ (t.team u).answer = .data b bytes ∧ bytes ≠ [] ∧
      (t.team u).evBuf = if on then [] else bytes := by
  have hne : (eventPacket u s).1 ≠ [] := by
    simp only [eventPacket, hb, List.isEmpty_nil, if_true]
    exact fillPacket_first he hi (by split <;> omega) hq
  obtain ⟨b, x, ht, hx⟩ := exec_eventEndpointIn_data (on := on) h rfl hne
  refine ⟨_, b, _, ht, ?_, hne, ?_⟩
  · rw [allEv_team, hx]
  · rw [allEv_team, hx]

end

/-! ### TEAM_QMASK (03 R92, R98) -/

theorem teamQmask_addr (u : TeamId) :
    placeAt (addrTeam u 0xC) = .reg (.teamQmask u) ∧ addrTeam u 0xC % 4 = 0 ∧ tileOfAddr (addrTeam u 0xC) = none := by
  decide +revert

theorem writable_teamQmask {u : TeamId} {v : Word} {s : State} (ho : openAt s (addrTeam u 0xC) = true) :
    writable .sup (.teamQmask u) (addrTeam u 0xC) v s = true := by
  obtain ⟨hc, hu⟩ := Bool.and_eq_true_iff.mp ho
  obtain ⟨hp, ha, ht⟩ := teamQmask_addr u
  refine writable_iff.mpr ⟨?_, ha, rfl, rfl, rfl, rfl, rfl, rfl, hc, hu⟩
  simp [placeFor, permitted, ht, hp]

@[simp] theorem withAnswer_team (x : Verdict) (s : State) (u : TeamId) : (withAnswer x s).team u = s.team u := rfl
@[simp] theorem withAnswer_port (x : Verdict) (s : State) (p : PortId) : (withAnswer x s).port p = s.port p := rfl
@[simp] theorem withAnswer_tt (x : Verdict) (s : State) (p : PortId) : (withAnswer x s).tt p = s.tt p := rfl

/-- The selection takes effect, and a record that waits in a queue of it wakes the host (03 R98). -/
theorem exec_teamQmaskWrite {u : TeamId} {v : Word} {s : State} (ho : openAt s (0x800C + 0x800 * u.val) = true) :
    exec (.teamQmaskWrite .sup u v) s =
      .next (withAnswer .ok (allEv (fun s => stationWake u (setQmask u (v.setWidth 16) s)) s)) := by
  have ha : addrTeam u 0xC = 0x800C + 0x800 * u.val := by simp only [addrTeam]; omega
  exact congrArg Host.Outcome.next (masterWrite_sup_of_writable (r := .teamQmask u) (writable_teamQmask (ha ▸ ho)))

theorem exec_teamQmaskWrite_goes {u : TeamId} {v : Word} {s y : State} (ho : openAt s (0x800C + 0x800 * u.val) = true)
    (hy : setQmask u (v.setWidth 16) s = y) :
    ∃ t, exec (.teamQmaskWrite .sup u v) s = .next t ∧ t.acc.answer = .ok ∧ (t.team u).qmask = v.setWidth 16 &&& ~~~othersQmask s u ∧
      (stationCalls y u = false → SameButEvents t (withAnswer .ok y)) ∧
      (stationCalls y u = true → (s.team u).st = .suspended → (s.team u).stationWoke = false → (t.team u).stationWoke = true) := by
  have hyu : y.team u = { s.team u with qmask := v.setWidth 16 &&& ~~~othersQmask s u } := by
    rw [← hy, setQmask_eq, modTeam_team_self]
  refine ⟨_, exec_teamQmaskWrite ho, rfl, ?_, fun hn => ?_, fun hn hs hw => ?_⟩
  · rw [withAnswer_team, allEv_team, hy]
    exact (congrArg Team.qmask (stationWake_sansWake u y)).trans (by rw [hyu]; rfl)
  · refine ((allEv_same _ s).congr (withAnswer .ok) fun _ => rfl).trans ?_
    rw [hy, stationWake_of_silent hn]
    exact .refl _
  · rw [withAnswer_team, allEv_team, hy, stationWake_suspended hn (by rw [hyu]; exact hs) (by rw [hyu]; exact hw)]
    simp

/-- The parts of the answer to GET_INFO, by their offsets (Table 3.12). -/
theorem infoBytes_parts {a q p₀ p₁ : List Byte} (b c : Byte) (ha : a.length = 4) (hq : q.length = 2) (h₀ : p₀.length = 4) (h₁ : p₁.length = 4) :
    let bytes := a ++ [b, c] ++ q ++ p₀ ++ p₁
    bytes.length = 16 ∧ bytes.take 4 = a ∧ bytes.getD 4 0 = b ∧ (bytes.drop 6).take 2 = q ∧ (bytes.drop 8).take 4 = p₀ ∧ bytes.drop 12 = p₁ := by
  refine ⟨by simp [ha, hq, h₀, h₁], ?_, ?_, ?_, ?_, ?_⟩
  · simp [← ha]
  · simp [ha, hq, h₀]
  · simp [List.drop_append, List.take_append, ha, hq]
  · simp [List.drop_append, List.take_append, ha, hq, h₀]
  · simp [List.drop_append, List.drop_eq_nil_of_le, ha, hq, h₀]

/-- Settles O22: each request and endpoint reaches its own operation once the team is awake or the station function can be reached. -/
theorem teamRequestsAndEndpoints : Obligations.TeamRequestsAndEndpoints := by
  intro u s v mask val len alt cfg addr on b x goes others high device
  refine ⟨fun ha => ⟨?_, fun hl => ?_, fun hst halt => ?_, fun halt => ?_, exec_setAddress_hub ha, exec_setConfiguration_hub ha,
    exec_setConfiguration_stalled ha, exec_deviceRemoteWakeup_hub on ha, exec_statusChangeIn_data ha, exec_statusChangeIn_nak ha⟩,
    fun hu => ⟨exec_setAddress_station addr hu, exec_deviceRemoteWakeup_station on hu⟩,
    fun hr => ⟨?_, exec_getInfo_stalled hr, exec_setQueues_stalled mask hr, exec_setQueues mask hr, exec_correlationEndpointIn_nak hr,
      exec_correlationEndpointIn hr, exec_eventEndpointIn_again on hr, exec_eventEndpointIn_nak on hr, ?_⟩,
    fun ho => exec_teamQmaskWrite_goes ho rfl⟩
  · have hd : deviceDesc s u .hub high = device := deviceDesc_hub s u high
    exact onReq_answer ((stdReq_hub ha).trans (hd ▸ answerBytes_some u s len _))
  · refine onReq_answer ((stdReq_hub ha).trans ?_)
    simp [descriptor, show (s.team u).lpmEn = false from hl, answerBytes_none]
  · exact exec_setInterface_accepted ha hst (halt.imp_right (And.imp_right eq_of_beq))
  · refine exec_setInterface_stalled ha fun ⟨hst, h⟩ => ?_
    have hne : (s.team u).speed ≠ some .high ∨ alt ≠ 1 := by
      rcases halt with h' | h' | ⟨-, h'⟩
      · exact absurd hst h'
      · exact .inr (by omega)
      · exact .inl (by simpa [high] using h')
    rcases h with rfl | ⟨h1, hs⟩
    · rcases halt with h' | h' | ⟨h', -⟩
      · exact h' hst
      · omega
      · omega
    · exact hne.elim (· hs) (· h1)
  · obtain ⟨t, ht, ho, hx⟩ := exec_getInfo hr
    exact ⟨t, ht, ho, _, hx, infoBytes_parts _ _ (toBytes_length ..) (toBytes_length ..) (toBytes_length ..) (toBytes_length ..)⟩
  · rintro hb he hi ⟨q, ho, hl, -⟩ -
    exact exec_eventEndpointIn_fresh on hr hb he hi ⟨q, ho, hl⟩

end Sys2Proof.Machine
end

section
/-!
PROOF. What the end of a port's service, and the operations that follow from it, leave of teams and ports (03 R72, R84, R97, R107).
-/
namespace Sys2Proof.Machine

/-! ### The parts of a port -/

section
variable (p q : PortId) (s : State)

/-- An operation on another part of a port leaves the part that `g` reads. -/
theorem modPort_part {α : Type} {g : Port → α} {f : Port → Port} (h : ∀ x, g (f x) = g x) : g ((modPort p f s).port q) = g (s.port q) := by
  by_cases hq : q = p
  · rw [hq, modPort_port_self, h]
  · rw [modPort_port_of_ne _ _ _ hq]

@[simp] theorem modTc_hub (f : PortTc → PortTc) : ((modTc p f s).port q).hub = (s.port q).hub := modPort_part p q s (g := Port.hub) fun _ => rfl
@[simp] theorem modPd_hub (f : PortPd → PortPd) : ((modPd p f s).port q).hub = (s.port q).hub := modPort_part p q s (g := Port.hub) fun _ => rfl
@[simp] theorem modPhy_hub (f : PdPhy → PdPhy) : ((modPhy p f s).port q).hub = (s.port q).hub := modPort_part p q s (g := Port.hub) fun _ => rfl
@[simp] theorem modPw_hub (f : PortPwr → PortPwr) : ((modPw p f s).port q).hub = (s.port q).hub := modPort_part p q s (g := Port.hub) fun _ => rfl
@[simp] theorem modHub_port_self (f : HubPort → HubPort) : (modHub p f s).port p = { s.port p with hub := f (s.port p).hub } := modPort_port_self ..

theorem modHub_port_of_ne {p q : PortId} (f : HubPort → HubPort) (s : State) (h : q ≠ p) : (modHub p f s).port q = s.port q :=
  modPort_port_of_ne _ _ _ h

@[simp] theorem addChange_port (u : TeamId) (n : Nat) (bits : BitVec 16) : (addChange u n bits s).port q = s.port q := rfl
@[simp] theorem retireTt_port : (retireTt p s).port q = s.port q := rfl

end

/-! ### Change bits only rise -/

/-- Bits of `a` stand in `b`. -/
def Within (a b : BitVec 16) : Prop := a &&& b = a

theorem Within.refl (a : BitVec 16) : Within a a := BitVec.and_self

theorem Within.trans {a b c : BitVec 16} (h : Within a b) (k : Within b c) : Within a c := by
  unfold Within at *
  rw [← h, BitVec.and_assoc, k]

theorem within_or_left (a b : BitVec 16) : Within a (a ||| b) := by
  unfold Within
  ext i
  simpa using Or.inl

theorem within_or_right (a b : BitVec 16) : Within b (a ||| b) := by
  rw [BitVec.or_comm]
  exact within_or_left b a

theorem Within.bit {a b : BitVec 16} (h : Within a b) {i : Nat} (ha : a.getLsbD i = true) : b.getLsbD i = true := by
  rw [← h] at ha
  simp only [BitVec.getLsbD_and, Bool.and_eq_true] at ha
  exact ha.2

theorem addChange_within (u w : TeamId) (n m : Nat) (bits : BitVec 16) (s : State) :
    Within (wPortChange s w m) (wPortChange (addChange u n bits s) w m) := by
  by_cases hw : w = u
  · subst hw
    simp only [wPortChange, addChange, modTeam_team_self, List.getD_eq_getElem?_getD, Vector.toList_setIfInBounds, List.getElem?_set]
    split
    · next h =>
      split
      · exact h ▸ within_or_left ..
      · next hl => simp [List.getElem?_eq_none (Nat.not_lt.mp (h ▸ hl)), Within]
    · exact .refl _
  · simp only [wPortChange, addChange, modTeam_team_of_ne u _ s hw]
    exact .refl _

/-- A team but for its change bits. -/
def Team.sansChange (x : Team) : Team := { x with change := Vector.replicate 65 0 }

theorem addChange_sansChange (u w : TeamId) (n : Nat) (bits : BitVec 16) (s : State) :
    ((addChange u n bits s).team w).sansChange = (s.team w).sansChange := by
  by_cases hw : w = u
  · subst hw
    simp [addChange, Team.sansChange]
  · simp only [addChange, modTeam_team_of_ne u _ s hw]

/-! ### What follows the loss or the gain of a device -/

/-- A port but for its service, and for the status that follows from other state. -/
def HubPort.sansService (h : HubPort) : HubPort := { h with
  enable := false, suspend := false, lingers := false, resuming := false, devResume := false, k := false, reset := false, l1 := false
  l1Resuming := false, babbling := false, conn := false, oc := false, lowSpeed := false, highSpeed := false, moveChange := 0 }

/-- An operation on the hub's part of a port that starts no service. -/
def EndsService (f : HubPort → HubPort) : Prop :=
  ∀ x, (f x).sansService = x.sansService ∧ ((f x).enable = true → x.enable = true) ∧ ((f x).suspend = true → x.suspend = true)

/-- From `s` to `t` service ends, or its status follows: no port is enabled or suspended, and teams gain no more than change bits. -/
structure HubFollows (s t : State) : Prop where
  hub : ∀ q, (t.port q).hub.sansService = (s.port q).hub.sansService
  enable : ∀ q, (t.port q).hub.enable = true → (s.port q).hub.enable = true
  suspend : ∀ q, (t.port q).hub.suspend = true → (s.port q).hub.suspend = true
  team : ∀ w, (t.team w).sansChange = (s.team w).sansChange
  change : ∀ w n, Within (wPortChange s w n) (wPortChange t w n)

theorem HubFollows.refl (s : State) : HubFollows s s := ⟨fun _ => rfl, fun _ => id, fun _ => id, fun _ => rfl, fun _ _ => .refl _⟩

theorem HubFollows.trans {r s t : State} (h : HubFollows r s) (k : HubFollows s t) : HubFollows r t where
  hub q := (k.hub q).trans (h.hub q)
  enable q e := h.enable q (k.enable q e)
  suspend q e := h.suspend q (k.suspend q e)
  team w := (k.team w).trans (h.team w)
  change w n := (h.change w n).trans (k.change w n)

section
variable {s t : State} (h : HubFollows s t) (q : PortId)
include h

theorem HubFollows.owner : (t.port q).hub.owner = (s.port q).hub.owner := (congrArg HubPort.owner (h.hub q) :)
theorem HubFollows.mstate : (t.port q).hub.mstate = (s.port q).hub.mstate := (congrArg HubPort.mstate (h.hub q) :)
theorem HubFollows.test : (t.port q).hub.test = (s.port q).hub.test := (congrArg HubPort.test (h.hub q) :)
theorem HubFollows.dev : (t.port q).hub.dev = (s.port q).hub.dev := (congrArg HubPort.dev (h.hub q) :)
theorem HubFollows.cut : (t.port q).hub.cut = (s.port q).hub.cut := (congrArg HubPort.cut (h.hub q) :)
theorem HubFollows.oldOwner : (t.port q).hub.oldOwner = (s.port q).hub.oldOwner := (congrArg HubPort.oldOwner (h.hub q) :)
theorem HubFollows.rpOff : (t.port q).hub.rpOff = (s.port q).hub.rpOff := (congrArg HubPort.rpOff (h.hub q) :)
theorem HubFollows.servedBy : servedBy t q = servedBy s q := servedBy_congr (h.owner q) (h.mstate q)

theorem HubFollows.team_eq (w : TeamId) : ∃ c, t.team w = { s.team w with change := c } := by
  refine ⟨(t.team w).change, ?_⟩
  calc t.team w = { (t.team w).sansChange with change := (t.team w).change } := rfl
    _ = { (s.team w).sansChange with change := (t.team w).change } := by rw [h.team w]

theorem HubFollows.portsOfTeam (u : TeamId) : portsOfTeam t u = portsOfTeam s u := by
  simp only [Sys2Proof.Machine.portsOfTeam, fun q => HubFollows.servedBy h q]

end

section
variable {r s t : State} (h : HubFollows r s)
include h

/-- Teams and the hub's part of every port stay. -/
theorem HubFollows.same (ht : t.teams = s.teams) (hp : ∀ q, (t.port q).hub = (s.port q).hub) : HubFollows r t :=
  have hteam (w : TeamId) : t.team w = s.team w := congrArg (fun v : Vector Team 4 => v[w]) ht
  h.trans ⟨fun q => congrArg _ (hp q), fun q e => hp q ▸ e, fun q e => hp q ▸ e, fun w => congrArg _ (hteam w), fun w n => by
    rw [wPortChange, wPortChange, hteam w]
    exact .refl _⟩

theorem modHub_follows (p : PortId) {f : HubPort → HubPort} (hf : EndsService f) : HubFollows r (modHub p f s) := by
  have hq (q : PortId) : ((modHub p f s).port q).hub = f (s.port q).hub ∨ ((modHub p f s).port q).hub = (s.port q).hub := by
    by_cases hq : q = p
    · exact .inl (by rw [hq, modHub_port_self])
    · exact .inr (by rw [modHub_port_of_ne f s hq])
  refine h.trans ⟨fun q => ?_, fun q => ?_, fun q => ?_, fun _ => rfl, fun _ _ => .refl _⟩
  · exact (hq q).elim (fun e => e ▸ (hf _).1) (fun e => e ▸ rfl)
  · exact (hq q).elim (fun e => e ▸ (hf _).2.1) (fun e => e ▸ id)
  · exact (hq q).elim (fun e => e ▸ (hf _).2.2) (fun e => e ▸ id)

theorem addChange_follows (u : TeamId) (n : Nat) (bits : BitVec 16) : HubFollows r (addChange u n bits s) :=
  h.trans ⟨fun _ => rfl, fun _ => id, fun _ => id, fun w => addChange_sansChange u w n bits s, fun w m => addChange_within u w n m bits s⟩

theorem portChange_follows (p : PortId) (bits : BitVec 16) : HubFollows r (portChange p bits s) := by
  unfold portChange
  split
  · exact addChange_follows h _ _ _
  · split
    · exact h
    · exact modHub_follows h p (by exact fun _ => ⟨rfl, id, id⟩)

theorem stopServing_follows (p : PortId) : HubFollows r (stopServing p s) := by
  have h' : HubFollows r (modHub p (fun h => { h with
    enable := false, suspend := false, lingers := false, resuming := false, devResume := false, k := false, reset := false
    l1 := false, l1Resuming := false, babbling := false }) s) := modHub_follows h p (by exact fun _ => ⟨rfl, nofun, nofun⟩)
  exact h'.same rfl fun _ => rfl

theorem postHubFree_follows (cls src : Nat) : HubFollows r (postHubFree cls src s) := h.same rfl fun _ => rfl

theorem syncConnection_follows (p : PortId) : HubFollows r (syncConnection p s) := by
  simp only [syncConnection]
  split
  · exact h
  · have h' : HubFollows r (postHubFree clsUsbConnect (srcPort p)
        (portChange p cConnection (modHub p (fun h => { h with conn := connected s p }) s))) :=
      postHubFree_follows (portChange_follows (modHub_follows h p (by exact fun _ => ⟨rfl, id, id⟩)) p _) _ _
    split
    · exact modHub_follows h' p (by exact fun _ => ⟨rfl, id, id⟩)
    · exact modHub_follows (stopServing_follows h' p) p (by exact fun _ => ⟨rfl, id, id⟩)

theorem syncOverCurrent_follows (p : PortId) : HubFollows r (syncOverCurrent p s) := by
  simp only [syncOverCurrent]
  split
  · exact h
  · have h' : HubFollows r (portChange p cOverCurrent (modHub p (fun h => { h with oc := protHolds s p }) s)) :=
      portChange_follows (modHub_follows h p (by exact fun _ => ⟨rfl, id, id⟩)) p _
    unfold onlyIf
    split
    · exact stopServing_follows h' p
    · exact h'

theorem syncHub_follows (p : PortId) : HubFollows r (syncHub p s) := syncConnection_follows (syncOverCurrent_follows h p) p

theorem resumeDone_follows (p : PortId) : HubFollows r (resumeDone p s) := by
  unfold resumeDone
  split
  · exact portChange_follows (modHub_follows h p (by exact fun _ => ⟨rfl, id, nofun⟩)) p _
  · exact h

theorem forEach_follows {β : Type} {l : List β} {f : β → State → State} (hf : ∀ b t, HubFollows r t → HubFollows r (f b t)) :
    HubFollows r (forEach l f s) := by
  unfold forEach
  induction l generalizing s with
  | nil => exact h
  | cons b bs ih => exact ih (hf b s h)

end

end Sys2Proof.Machine
end

section
/-!
PROOF. Rp that follows logical power, with the detach that a withdrawal brings, changes teams and the hub's part of ports no further than
the service that ends with it (03 R73, R86, 06 R175, R176).
-/
namespace Sys2Proof.Machine

/-! ### The power budget keeps apart from the hub (06 R194 to R201) -/

section
variable {r s : State}

theorem HubApart.follows {t : State} (h : HubFollows r s) (k : HubApart s t) : HubFollows r t := by
  obtain ⟨hu, hp, -⟩ := k
  exact h.same hu fun q => congrArg (fun v : Vector Port 64 => v[q].hub) hp

theorem epost_apart (place : PostSource) (x : Record) (h : HubApart r s) : HubApart r (epost place x s) := by
  unfold epost
  split
  · exact h.upd rfl rfl rfl
  · split
    · exact h.upd rfl rfl rfl
    · exact h

theorem budgetRecord_apart (kind : Nat) (p : PortId) (power : Nat) (h : HubApart r s) : HubApart r (budgetRecord kind p power s) :=
  epost_apart _ _ (h.upd rfl rfl rfl)

theorem sendDown_apart (p : PortId) (op : Nat) (tag : Byte) (power : Nat) (h : HubApart r s) : HubApart r (sendDown p op tag power s) := by
  simp only [sendDown, pumpDown]
  split
  · exact h.upd rfl rfl rfl
  · split
    · exact h.upd rfl rfl rfl
    · exact h.upd rfl rfl rfl

theorem reclaimPort_apart (excess : State → Nat) (p : PortId) (h : HubApart r s) : HubApart r (reclaimPort excess p s) := by
  simp only [reclaimPort]
  split
  · exact budgetRecord_apart _ _ _ (sendDown_apart _ _ _ _ (h.upd rfl rfl rfl))
  · exact h

theorem reclaimAll_apart (h : HubApart r s) : HubApart r (reclaimAll s) := by
  simp only [reclaimAll]
  split
  · exact forEach_apart (fun p _ => reclaimPort_apart _ p)
      (forEach_apart (fun _ _ k => forEach_apart (fun p _ => reclaimPort_apart _ p) k) h)
  · exact h

theorem offerPort_apart (p : PortId) (h : HubApart r s) : HubApart r (offerPort p s) := by
  unfold offerPort
  extract_lets b fresh n
  split
  · exact budgetRecord_apart _ _ _ (sendDown_apart _ _ _ _ (h.upd rfl rfl rfl))
  · exact h

theorem offerAll_apart (h : HubApart r s) : HubApart r (offerAll s) := by
  unfold offerAll
  split
  · exact forEach_apart (fun p _ => offerPort_apart p) h
  · exact h

theorem settle_apart (h : HubApart r s) : HubApart r (settle s) := (offerAll_apart (reclaimAll_apart h)).upd rfl rfl rfl

theorem fallToZero_apart (p : PortId) (s : State) : HubApart s (fallToZero p s) := settle_apart (.upd (.refl s) rfl rfl rfl)

theorem sendUp_apart (p : PortId) (op power : Nat) (s : State) : HubApart s (sendUp p op power s) := by
  have h : HubApart s (pumpUp (tileOf p) (modBud (fun b => { b with up := b.up ++
      [(p, { op := op, tag := lowByte (Config.freeNat s.free), power := BitVec.ofNat 16 power })] }) { s with free := s.free + 1 })) := by
    unfold pumpUp
    split
    · exact .upd (.refl s) rfl rfl rfl
    · split
      · exact .upd (.refl s) rfl rfl rfl
      · exact .upd (.refl s) rfl rfl rfl
  exact h.upd rfl rfl rfl

theorem weaverPost_apart (p : PortId) (cls : Nat) (payload : Word) (s : State) : HubApart s (weaverPost p cls payload s) :=
  epost_apart _ _ (.upd (.refl s) rfl rfl rfl)

end

/-! ### Detach and Rp (06 R175, R176) -/

section
variable {r s : State} (h : HubFollows r s) (p : PortId)
include h

theorem modTc_follows (f : PortTc → PortTc) : HubFollows r (modTc p f s) := h.same rfl fun q => modTc_hub p q s f
theorem modPd_follows (f : PortPd → PortPd) : HubFollows r (modPd p f s) := h.same rfl fun q => modPd_hub p q s f
theorem modPhy_follows (f : PdPhy → PdPhy) : HubFollows r (modPhy p f s) := h.same rfl fun q => modPhy_hub p q s f
theorem modPw_follows (f : PortPwr → PortPwr) : HubFollows r (modPw p f s) := h.same rfl fun q => modPw_hub p q s f

theorem postPort_follows (cls : Nat) (payload : Word) : HubFollows r (postPort p cls payload s) := h.same rfl fun _ => rfl
theorem weaverPost_follows (cls : Nat) (payload : Word) : HubFollows r (weaverPost p cls payload s) := (weaverPost_apart p cls payload s).follows h

theorem onlyIf_follows {c : Bool} {f : State → State} (hf : ∀ t, HubFollows r t → HubFollows r (f t)) : HubFollows r (onlyIf c f s) := by
  unfold onlyIf
  split
  · exact hf s h
  · exact h

omit h in
theorem ite_follows {c : Prop} [Decidable c] {a b : State} (ha : HubFollows r a) (hb : HubFollows r b) : HubFollows r (if c then a else b) := by
  split
  · exact ha
  · exact hb

theorem endContract_follows : HubFollows r (endContract p s) := by
  have h₁ : HubFollows r (onlyIf ((s.port p).pd.objpos != 0) (postContract p 0 0 0 false) s) :=
    onlyIf_follows h fun t k => postPort_follows k p _ _
  unfold endContract
  exact modPd_follows h₁ p _

theorem pathsOff_follows : HubFollows r (pathsOff p s) :=
  syncHub_follows (onlyIf_follows (modPw_follows h p _) fun _ k => postPort_follows k p _ _) p

theorem keeperNone_follows (v : Word) : HubFollows r (keeperNone p v s) :=
  pathsOff_follows (modPw_follows (endContract_follows h p) p _) p

theorem setVconn_follows (on : Bool) (cause : Nat) : HubFollows r (setVconn p on cause s) := weaverPost_follows (modTc_follows h p _) p _ _

theorem phyOpts_follows (sop1 rev2 : Bool) : HubFollows r (phyOpts p sop1 rev2 s) := modPhy_follows h p _

theorem clearLatch_follows : HubFollows r (clearLatch p s) := syncHub_follows (modPw_follows h p _) p

theorem restTc_follows : HubFollows r (restTc p s) := by
  unfold restTc
  exact modTc_follows h p _

theorem detach_follows (cause : Nat) (trans : Bool) (vbus : Nat) : HubFollows r (detach p cause trans vbus s) := by
  unfold detach
  extract_lets s₁ s₂ s₃ s₄ s₅ s₆ s₇
  have h₂ : HubFollows r s₂ := ite_follows (weaverPost_follows (weaverPost_follows h p _ _) p _ _) (weaverPost_follows h p _ _)
  have h₃ : HubFollows r s₃ := keeperNone_follows h₂ p 0
  have h₄ : HubFollows r s₄ := ite_follows (setVconn_follows h₃ p _ _) h₃
  have h₆ : HubFollows r s₆ := phyOpts_follows (modPhy_follows (modPd_follows (modTc_follows h₄ p _) p _) p _) p _ _
  have h₇ : HubFollows r s₇ := onlyIf_follows (modPw_follows h₆ p _) fun _ k => clearLatch_follows k p
  exact syncHub_follows ((sendUp_apart ..).follows ((fallToZero_apart ..).follows (restTc_follows h₇ p))) p

theorem hwDetach_follows (cause : Nat) (trans : Bool) (vbus : Nat) : HubFollows r (hwDetach p cause trans vbus s) := by
  unfold hwDetach
  extract_lets s₁ s₂ s₃ s₄
  have h₂ : HubFollows r s₂ := postPort_follows (keeperNone_follows (modPw_follows h p _) p 0) p _ _
  have h₃ : HubFollows r s₃ := modPhy_follows (modPd_follows (modTc_follows h₂ p _) p _) p _
  have h₄ : HubFollows r s₄ := onlyIf_follows (phyOpts_follows h₃ p _ _) fun _ k => clearLatch_follows k p
  exact syncHub_follows ((fallToZero_apart ..).follows (restTc_follows h₄ p)) p

theorem followPower_follows : HubFollows r (followPower p s) := by
  unfold followPower
  split
  · extract_lets s₁
    have h₁ : HubFollows r s₁ := ite_follows (onlyIf_follows h fun _ k => keeperNone_follows k p 0)
      (ite_follows (detach_follows h p _ _ _) (hwDetach_follows h p _ _ _))
    exact modTc_follows h₁ p _
  · exact modTc_follows h p _

end

end Sys2Proof.Machine
end

section
/-!
PROOF. What the operations of a team's upstream side do to the team and to its ports: bus reset, detach, suspend, resume and remote wake
(03 R73 to R77, R96 to R104).
-/
namespace Sys2Proof.Machine

/-! ### Loops over ports -/

section
variable {β : Type} {l : List β} {f : β → State → State} {P : State → Prop} {s : State}

theorem forEach_invariant (hf : ∀ b t, P t → P (f b t)) (h : P s) : P (forEach l f s) := by
  unfold forEach
  induction l generalizing s with
  | nil => exact h
  | cons b bs ih => exact ih (hf b s h)

/-- What one step of a loop brings about, and every step keeps, holds after the loop. -/
theorem forEach_of_mem {b : β} (hb : b ∈ l) (hone : ∀ t, P (f b t)) (hf : ∀ c t, P t → P (f c t)) : P (forEach l f s) := by
  induction l generalizing s with
  | nil => exact absurd hb List.not_mem_nil
  | cons c cs ih =>
    rcases List.mem_cons.mp hb with rfl | hb
    · exact forEach_invariant (l := cs) hf (hone s)
    · exact ih hb (s := f c s)

end

theorem portsOfTeam_nodup (s : State) (u : TeamId) : (portsOfTeam s u).Nodup := (List.nodup_finRange 64).filter _

/-- An operation on the hub's part of each port of a list. -/
theorem forEach_modHub_port {l : List PortId} {f : HubPort → HubPort} (hl : l.Nodup) (q : PortId) (s : State) :
    (forEach l (fun p => modHub p f) s).port q = if q ∈ l then { s.port q with hub := f (s.port q).hub } else s.port q := by
  induction l generalizing s with
  | nil => rfl
  | cons p ps ih =>
    obtain ⟨hp, hps⟩ := List.nodup_cons.mp hl
    refine (ih hps (modHub p f s)).trans ?_
    by_cases hq : q = p
    · subst hq
      simp [hp]
    · simp [modHub_port_of_ne f s hq, hq]

/-- An operation on the hub's part of each port that the team serves. -/
theorem forEach_portsOfTeam_port (u : TeamId) (f : HubPort → HubPort) (q : PortId) (r s : State) :
    (forEach (portsOfTeam r u) (fun p => modHub p f) s).port q =
      if servedBy r q = some u then { s.port q with hub := f (s.port q).hub } else s.port q := by
  simp only [forEach_modHub_port (portsOfTeam_nodup r u), mem_portsOfTeam]

/-! ### Resume and remote wake -/

section
variable (u : TeamId) (s : State)

/-- Every port of the team stops driving K; the team returns to the state it was in. -/
theorem resumeTeam_team : (resumeTeam u s).team u =
    { s.team u with drivingK := false, l1Wake := false, counting := false, st := (s.team u).under } := by
  have h := forEach_same_part (part := fun x => x.team u) (l := portsOfTeam s u)
    (f := fun p => modHub p fun h => { h with k := false }) (fun _ _ => rfl) s
  simp only [resumeTeam, setTeamSt_team_self, modTeam_team_self, h]

theorem resumeTeam_port (q : PortId) : (resumeTeam u s).port q =
    if servedBy s q = some u then { s.port q with hub := { (s.port q).hub with k := false } } else s.port q := by
  simp only [resumeTeam, setTeamSt_port]
  exact forEach_portsOfTeam_port u _ q s s

@[simp] theorem corrFresh_port (q : PortId) : (corrFresh u s).port q = s.port q := rfl

theorem corrFresh_team : (corrFresh u s).team u = { s.team u with corr := { (s.team u).corr with prev := none, sofs := 0 } } :=
  modTeam_team_self ..

/-- K on every port that is enabled and not selectively suspended (03 R98). -/
theorem spreadK_port (q : PortId) : (spreadK u s).port q =
    if servedBy s q = some u then { s.port q with hub := { (s.port q).hub with k := (s.port q).hub.enable && !(s.port q).hub.suspend } }
    else s.port q :=
  forEach_portsOfTeam_port u (fun h => { h with k := h.enable && !h.suspend }) q s (modTeam u (fun t => { t with drivingK := true }) s)

end

section
variable {u : TeamId} {r s : State}

/-- A wake of the station function of a team that is not suspended changes the team alone. -/
theorem stationWake_onlyTeam (h : OnlyTeam u r s) (hs : (s.team u).st ≠ .suspended) : OnlyTeam u r (stationWake u s) := by
  unfold stationWake
  split
  · exact h
  · split
    · next hst => exact absurd hst hs
    · exact h
    · exact h
    · extract_lets x s₁ s₂
      have h₁ : OnlyTeam u r s₁ := by
        unfold s₁
        split
        · exact addChange_onlyTeam _ _ (modTeam_onlyTeam _ h)
        · exact h
      have h₂ : OnlyTeam u r s₂ := by
        unfold s₂
        split
        · exact addChange_onlyTeam _ _ (modTeam_onlyTeam _ h₁)
        · exact h₁
      split
      · exact modTeam_onlyTeam _ h₂
      · exact h₂

theorem stationWake_team (u : TeamId) (s : State) : ∃ k w c x, (stationWake u s).team u =
    { s.team u with drivingK := k, stationWoke := w, change := c, station := x } := by
  have h := stationWake_sansWake u s
  generalize (stationWake u s).team u = y at h
  refine ⟨y.drivingK, y.stationWoke, y.change, y.station, ?_⟩
  calc y = { y.sansWake with drivingK := y.drivingK, stationWoke := y.stationWoke, change := y.change, station := y.station } := rfl
    _ = { (s.team u).sansWake with drivingK := y.drivingK, stationWoke := y.stationWoke, change := y.change, station := y.station } := by rw [h]

/-- Whether the station function calls its host rests on its own state, its buffer and the queues that it selects. -/
theorem stationCalls_modTeam {f : Team → Team} (hq : ∀ x, (f x).qmask = x.qmask) (hs : ∀ x, (f x).station = x.station)
    (he : ∀ x, (f x).evBuf = x.evBuf) (s : State) : stationCalls (modTeam u f s) u = stationCalls s u := by
  have hmask (w : TeamId) : ((modTeam u f s).team w).qmask = (s.team w).qmask := by
    by_cases hw : w = u
    · rw [hw, modTeam_team_self, hq]
    · rw [modTeam_team_of_ne u f s hw]
  have hown (q : QueueId) : qOwner (modTeam u f s) q = qOwner s q := by simp only [qOwner, hmask]
  have hempty (q : QueueId) : listEmpty (modTeam u f s) q = listEmpty s q := rfl
  simp only [stationCalls, modTeam_team_self, hs, he, hown, hempty]

theorem stationCalls_setTeamSt (st : UsbState) (s : State) : stationCalls (setTeamSt u st s) u = stationCalls s u := by
  unfold setTeamSt
  split
  · rfl
  · exact stationCalls_modTeam (f := fun t => { t with st := st }) (fun _ => rfl) (fun _ => rfl) (fun _ => rfl) s

end

/-! ### The end of a resume and of L1 on a port (03 R97, R103) -/

section
variable {u : TeamId} {p q : PortId} {r s : State}

theorem portChange_port_of_ne (h : q ≠ p) (bits : BitVec 16) (s : State) : (portChange p bits s).port q = s.port q := by
  unfold portChange
  split
  · rfl
  · split
    · rfl
    · exact modHub_port_of_ne _ _ h

theorem stopServing_port_of_ne (h : q ≠ p) (s : State) : (stopServing p s).port q = s.port q := by
  rw [stopServing, retireTt_port, modHub_port_of_ne _ _ h]

theorem portChange_port_of_served (h : servedBy s p = some u) (bits : BitVec 16) : (portChange p bits s).port q = s.port q := by
  rw [portChange_of_served h, addChange_port]

theorem servedBy_modHub {f : HubPort → HubPort} (ho : ∀ x, (f x).owner = x.owner) (hm : ∀ x, (f x).mstate = x.mstate) (q : PortId) :
    servedBy (modHub p f s) q = servedBy s q := by
  by_cases hq : q = p
  · subst hq
    exact servedBy_congr (by simp [ho]) (by simp [hm])
  · exact servedBy_congr (by rw [modHub_port_of_ne f s hq]) (by rw [modHub_port_of_ne f s hq])

/-- The change bits of a port stand on the team that serves it. -/
theorem portChange_sets (h : servedBy s p = some u) (bits : BitVec 16) : Within bits (wPortChange (portChange p bits s) u (hubPortOf p)) := by
  rw [portChange_of_served h, addChange_self bits s (hubPortOf_lt p)]
  exact within_or_right ..

theorem resumeDone_suspend (p : PortId) (s : State) : ((resumeDone p s).port p).hub.suspend = false := by
  unfold resumeDone
  split
  · exact Bool.eq_false_iff.mpr fun h => by
      have := (portChange_follows (.refl _) p cSuspend).suspend p h
      simp at this
  · next h => simpa using h

/-- On a served port that is suspended, its resume is complete with C_SUSPEND set. -/
theorem resumeDone_change (hs : servedBy s p = some u) (h : (s.port p).hub.suspend = true) :
    (wPortChange (resumeDone p s) u (hubPortOf p)).getLsbD 2 = true := by
  simp only [resumeDone, h, if_true]
  refine (portChange_sets (bits := cSuspend) ?_).bit (by decide)
  exact (servedBy_modHub (by exact fun _ => rfl) (by exact fun _ => rfl) p).trans hs

theorem resumeDone_port_of_ne (h : q ≠ p) (s : State) : (resumeDone p s).port q = s.port q := by
  unfold resumeDone
  split
  · rw [portChange_port_of_ne h, modHub_port_of_ne _ _ h]
  · rfl

/-- A suspended port, or one whose resume is complete. -/
def Resumes (u : TeamId) (q : PortId) (s : State) : Prop :=
  servedBy s q = some u ∧ ((s.port q).hub.suspend = true ∨ (wPortChange s u (hubPortOf q)).getLsbD 2 = true)

theorem resumeDone_resumes (p : PortId) (h : Resumes u q s) : Resumes u q (resumeDone p s) := by
  obtain ⟨hs, h⟩ := h
  have hf := resumeDone_follows (.refl s) p
  refine ⟨(hf.servedBy q).trans hs, ?_⟩
  rcases h with h | h
  · by_cases hq : q = p
    · exact .inr (hq ▸ resumeDone_change (hq ▸ hs) (hq ▸ h))
    · exact .inl (by rw [resumeDone_port_of_ne hq, h])
  · exact .inr ((hf.change u _).bit h)

/-- Every port of the list ends its suspend. -/
theorem forEach_resumeDone {ps : List PortId} (hq : q ∈ ps) :
    ((forEach ps resumeDone s).port q).hub.suspend = false ∧
      ((s.port q).hub.suspend = true → servedBy s q = some u → (wPortChange (forEach ps resumeDone s) u (hubPortOf q)).getLsbD 2 = true) := by
  have hend : ((forEach ps resumeDone s).port q).hub.suspend = false :=
    forEach_of_mem (P := fun t => (t.port q).hub.suspend = false) hq (resumeDone_suspend q) fun p t ht =>
      Bool.eq_false_iff.mpr fun h => Bool.eq_false_iff.mp ht ((resumeDone_follows (.refl t) p).suspend q h)
  refine ⟨hend, fun h hs => ?_⟩
  obtain ⟨-, h'⟩ := forEach_invariant (P := Resumes u q) (l := ps) (f := resumeDone) (fun p _ => resumeDone_resumes p) ⟨hs, .inl h⟩
  exact h'.resolve_left (by rw [hend]; exact Bool.false_ne_true)

theorem leaveL1_of_l1 (hl : (s.port p).hub.l1 = true) (hr : (s.port p).hub.l1Resuming = false) :
    leaveL1 p s = portChange p cL1 (modHub p (fun h => { h with l1 := false }) s) := by
  simp [leaveL1, hl, hr]

theorem leaveL1_follows (p : PortId) (h : HubFollows r s) : HubFollows r (leaveL1 p s) := by
  unfold leaveL1
  split
  · exact portChange_follows (modHub_follows h p (by exact fun _ => ⟨rfl, id, id⟩)) p _
  · exact h

/-- Leaving L1 touches neither ENABLE nor SUSPEND. -/
theorem leaveL1_port (hs : servedBy s p = some u) (q : PortId) : ((leaveL1 p s).port q).hub.enable = (s.port q).hub.enable ∧
    ((leaveL1 p s).port q).hub.suspend = (s.port q).hub.suspend := by
  unfold leaveL1
  split
  · rw [portChange_port_of_served ((servedBy_modHub (by exact fun _ => rfl) (by exact fun _ => rfl) p).trans hs)]
    by_cases hq : q = p
    · subst hq
      simp
    · simp [modHub_port_of_ne _ s hq]
  · exact ⟨rfl, rfl⟩

end

/-! ### Bus reset and detach (03 R75, R104) -/

section
variable {u : TeamId} {s : State}

/-- The team after a bus reset. -/
theorem busResetEffects_team (u : TeamId) (s : State) : ∃ x : Station, (busResetEffects u s).team u = { s.team u with
    power := Vector.replicate 65 false, multiTt := false, rwakeEn := false, addr := 0, drivingK := false, counting := false
    wakePorts := [], stationWoke := false, l1Wake := false, station := x, change := Vector.replicate 65 0 } := by
  unfold busResetEffects
  extract_lets ps s₁ s₂ s₃ s₄
  have h₁ : s₁.team u = s.team u := forEach_same_part (part := fun x => x.team u) (by exact fun _ _ => rfl) s
  have h₂ : s₂.team u = s₁.team u := forEach_same_part (part := fun x => x.team u) (by exact fun _ _ => rfl) s₁
  have h₄ : (s₄.team u).sansChange = (s₃.team u).sansChange := (forEach_follows (.refl s₃) fun p _ k => syncHub_follows k p).team u
  have hchange (x : Team) : { x with change := Vector.replicate 65 0 } = x.sansChange := rfl
  refine ⟨stationMode (rescueDfu s₂ u) (stationDefault (s.team u).station), ?_⟩
  rw [modTeam_team_self, hchange, h₄, modTeam_team_self, h₂, h₁]
  rfl

/-- A port that the team serves is out of service, and no test runs on it. -/
theorem busResetEffects_port {q : PortId} (hq : servedBy s q = some u) :
    ((busResetEffects u s).port q).hub.enable = false ∧ ((busResetEffects u s).port q).hub.test = none := by
  let Off (t : State) : Prop := (t.port q).hub.enable = false ∧ (t.port q).hub.test = none
  have hfollows {r t : State} (k : HubFollows r t) (h : Off r) : Off t :=
    ⟨Bool.eq_false_iff.mpr fun e => Bool.eq_false_iff.mp h.1 (k.enable q e), (k.test q).trans h.2⟩
  unfold busResetEffects
  extract_lets ps s₁ s₂ s₃ s₄
  have h₁ : Off s₁ := by
    refine forEach_of_mem (mem_portsOfTeam.mpr hq) (fun t => ?_) fun p t ht => ?_
    · simp [Off, stopServing]
    · by_cases hp : q = p
      · subst hp
        simp [Off, stopServing]
      · simpa only [Off, modHub_port_of_ne _ _ hp, stopServing_port_of_ne hp] using ht
  have h₂ : HubFollows s₁ s₂ := forEach_follows (.refl s₁) fun p _ k => modHub_follows k p (by exact fun _ => ⟨rfl, id, id⟩)
  have h₄ : HubFollows s₃ s₄ := forEach_follows (.refl s₃) fun p _ k => syncHub_follows k p
  have h₂ : Off s₂ := hfollows h₂ h₁
  have h₃ : Off s₃ := h₂
  have h₄ : Off s₄ := hfollows h₄ h₃
  exact h₄

/-- A detached team: no pull-up, the address 0 and every hub port without logical power. -/
theorem detachTeam_team (u : TeamId) (s : State) : ∃ x : Station, (detachTeam u s).team u = { s.team u with
    power := Vector.replicate 65 false, multiTt := false, rwakeEn := false, addr := 0, drivingK := false, counting := false
    wakePorts := [], stationWoke := false, l1Wake := false, station := x, change := Vector.replicate 65 0
    pullUp := false, speed := none, under := .detached, st := .detached } := by
  obtain ⟨x, hx⟩ := busResetEffects_team u s
  exact ⟨x, by simp only [detachTeam, setTeamSt_team_self, modTeam_team_self, hx]⟩

theorem rpBack_follows {r : State} (s₀ : State) (h : HubFollows r s) : HubFollows r (rpBack s₀ s) :=
  forEach_follows h fun p _ k => followPower_follows k p

/-- Where no withdrawn Rp comes back, nothing follows. -/
theorem rpBack_of_ports {s₀ : State} (h : s.ports = s₀.ports) : rpBack s₀ s = s := by
  have hnil : ((fins 64).filter fun p => (s₀.port p).hub.rpOff && !(s.port p).hub.rpOff) = [] :=
    List.filter_eq_nil_iff.mpr fun p _ => by simp [State.port, h]
  unfold rpBack
  rw [hnil]
  rfl

theorem updBusReset_apart (u : TeamId) (s : State) : HubApart s (updBusReset u s) := by
  unfold updBusReset
  split
  · exact .upd (.refl s) rfl rfl rfl
  · exact .refl s

end

end Sys2Proof.Machine
end

section
/-!
PROOF. The commands of a team's upstream side: Uu_VBUS, attach and detach, TEAM_CTL, bus reset, suspend, resume, remote wake and LPM
(03 R73 to R77, R96 to R101, R104).
-/
namespace Sys2Proof.Machine

/-! ### Commands whose checks are passed -/

section
variable {u : TeamId} {s : State} {ok : State → Bool} {f g : State → State} {i : Instr}

theorem onTeam_of_eq (h : ok s = true) (hg : f s = g s) : onTeam ok f s = .next (allEv g s) := by
  rw [onTeam_of_ok f h, allEv, allEv, hg]

theorem onHub_of_eq (hc : clocksRun s = true) (h : ok s = true) (hg : f s = g s) : onHub ok f s = .next (allEv g s) := by
  rw [onHub_of_ok f hc h, allEv, allEv, hg]

theorem modTeam_modTeam (u : TeamId) (f g : Team → Team) (s : State) : modTeam u f (modTeam u g s) = modTeam u (fun t => f (g t)) s := by
  simp [modTeam]

/-- A command that changes its team's fields and nothing else. -/
theorem goes_modTeam {f : Team → Team} (h : exec i s = .next (allEv (modTeam u f) s)) :
    ∃ t, exec i s = .next t ∧ OnlyTeam u s t ∧ t.team u = f (s.team u) :=
  goes_onlyTeam (P := (· = f (s.team u))) h (modTeam_onlyTeam f (.refl u s)) (modTeam_team_self u f s)

end

/-! ### VBUS, attach and detach (03 R74, R75) -/

section
variable {u : TeamId} {s : State}

theorem exec_teamAttach (hc : clocksRun s = true) (he : teamEn s u = true) (hv : (s.team u).vbusOk = true) (hd : (s.team u).st = .detached) :
    ∃ t, exec (.teamAttach u) s = .next t ∧ OnlyTeam u s t ∧ (t.team u).st = .attached ∧ (t.team u).pullUp = true ∧
      (t.team u).speed = some .full ∧ ∃ r, t.posts = s.posts ++ [(.hub, r)] ∧ r.cls = 0x0D ∧ r.src = 0x40 + u.val := by
  let y : State := modTeam u (fun t => { t with pullUp := true, speed := some .full }) s
  have hx : exec (.teamAttach u) s = .next (allEv (fun s =>
      corrFresh u (setTeamSt u .attached (modTeam u (fun t => { t with pullUp := true, speed := some .full }) s))) s) :=
    onHub_of_ok _ hc (by simp [he, hv, hd])
  have hposts := setTeamSt_posts u .attached y (by simp [y, hd])
  refine ⟨_, hx, (allEv_same _ s).onlyTeam (corrFresh_onlyTeam (setTeamSt_onlyTeam _ (modTeam_onlyTeam _ (.refl u s)))), ?_⟩
  rw [allEv_team, allEv_posts, corrFresh_team, setTeamSt_team_self, modTeam_team_self]
  exact ⟨rfl, rfl, rfl, hposts⟩

theorem exec_teamDetach (hc : coreUp s = true) (hp : (s.team u).pullUp = true) : ∃ t, exec (.teamDetach u) s = .next t ∧
    (t.team u).st = .detached ∧ (t.team u).pullUp = false ∧ (t.team u).vbusOk = false ∧ (t.team u).addr = 0 ∧
      (t.team u).power = Vector.replicate 65 false := by
  let y : State := modTeam u (fun t => { t with vbusOk := false }) s
  have hx : exec (.teamDetach u) s = .next (allEv (fun s => rpBack s (detachTeam u (modTeam u (fun t => { t with vbusOk := false }) s))) s) :=
    onTeam_of_eq rfl (by simp [hc, hp])
  obtain ⟨x, hdet⟩ := detachTeam_team u y
  obtain ⟨c, ht⟩ := (rpBack_follows s (.refl (detachTeam u y))).team_eq u
  refine ⟨_, hx, ?_⟩
  rw [allEv_team, ht, hdet, modTeam_team_self]
  exact ⟨rfl, rfl, rfl, rfl, rfl⟩

/-- Without a pull-up, or with the hub logic down, the loss of Uu_VBUS is the team's alone. -/
theorem exec_teamDetach_only (h : (s.team u).pullUp = false ∨ coreUp s = false) : ∃ t, exec (.teamDetach u) s = .next t ∧ OnlyTeam u s t ∧
    t.team u = { s.team u with vbusOk := false, pullUp := false } := by
  cases hp : (s.team u).pullUp with
  | false =>
    have hx : exec (.teamDetach u) s = .next (allEv (modTeam u fun t => { t with vbusOk := false }) s) := onTeam_of_eq rfl (by simp [hp])
    obtain ⟨t, ht, ho, hu⟩ := goes_modTeam hx
    exact ⟨t, ht, ho, by rw [hu, ← hp]⟩
  | true =>
    have hc : coreUp s = false := h.resolve_left (by simp [hp])
    have hx : exec (.teamDetach u) s = .next (allEv (modTeam u fun t => { t with vbusOk := false, pullUp := false }) s) :=
      onTeam_of_eq rfl (by simp [hp, hc, modTeam_modTeam])
    exact goes_modTeam hx

end

/-! ### TEAM_CTL (03 R74, R77, R108) -/

section
variable {u : TeamId} {v : Word} {s : State}

theorem teamCtl_addr (u : TeamId) :
    placeAt (addrTeam u 0) = .reg (.teamCtl u) ∧ addrTeam u 0 % 4 = 0 ∧ tileOfAddr (addrTeam u 0) = none := by
  decide +revert

theorem writable_teamCtl (hl : unlocked s 4 = true) (ho : openAt s (addrTeam u 0) = true) :
    writable .sup (.teamCtl u) (addrTeam u 0) v s = true := by
  obtain ⟨hc, hu⟩ := Bool.and_eq_true_iff.mp ho
  obtain ⟨hp, ha, ht⟩ := teamCtl_addr u
  have hlock : isLocked s (.teamCtl u) = false := by simpa [isLocked, Rg.lockBit, unlocked] using hl
  refine writable_iff.mpr ⟨?_, ha, rfl, rfl, hlock, rfl, rfl, rfl, hc, hu⟩
  simp [placeFor, permitted, ht, hp]

theorem masterWrite_teamCtl (hl : unlocked s 4 = true) (ho : openAt s (0x8000 + 0x800 * u.val) = true) :
    masterWrite .sup (addrTeam u 0) v s = withAnswer .ok (allEv (fun s => rpBack s (setTeamCtl u v s)) s) := by
  have ha : addrTeam u 0 = 0x8000 + 0x800 * u.val := by simp only [addrTeam]; omega
  exact masterWrite_sup_of_writable (r := .teamCtl u) (writable_teamCtl hl (ha ▸ ho))

theorem setTeamCtl_enable (h : (s.team u).ctl.getLsbD 0 = false) (hv : v.getLsbD 0 = true) :
    setTeamCtl u v s = { s with teams := s.teams.set u { s.team u with
      ctl := v &&& 0xF1#32, fsOnly := v.getLsbD 7, lpmEn := v.getLsbD 6, rdEn := v.getLsbD 4 } } := by
  have hwas : teamEn s u = false := h
  have hbit (i : Nat) : bitOf (v &&& 0xF1#32) i = (v.getLsbD i && bitOf 0xF1#32 i) := BitVec.getLsbD_and
  have hon : (bitOf (v &&& 0xF1#32) 0 && !teamEn s u) = true := by rw [hbit, hv, hwas]; rfl
  unfold setTeamCtl
  extract_lets was w s₁
  rw [if_pos hon]
  simp only [s₁, w, modTeam_modTeam, hbit, show bitOf 0xF1#32 7 = true from rfl, show bitOf 0xF1#32 6 = true from rfl,
    show bitOf 0xF1#32 4 = true from rfl, Bool.and_true]
  rfl

theorem setTeamCtl_disable (h : (s.team u).ctl.getLsbD 0 = true) (hv : v.getLsbD 0 = false) :
    setTeamCtl u v s = detachTeam u (modTeam u (fun t => { t with ctl := v &&& 0xF1#32 }) s) := by
  have hwas : teamEn s u = true := h
  have hoff : bitOf (v &&& 0xF1#32) 0 = false := by simpa [bitOf] using hv
  simp [setTeamCtl, hwas, hoff]

/-- The samples at the enable, and nothing more. -/
theorem exec_teamEnable (hl : unlocked s 4 = true) (ho : openAt s (0x8000 + 0x800 * u.val) = true) (h : (s.team u).ctl.getLsbD 0 = false)
    (hv : v.getLsbD 0 = true) : ∃ t, exec (.teamEnable .sup u v) s = .next t ∧ SameButEvents t (withAnswer .ok { s with
      teams := s.teams.set u { s.team u with ctl := v &&& 0xF1#32, fsOnly := v.getLsbD 7, lpmEn := v.getLsbD 6, rdEn := v.getLsbD 4 } }) := by
  refine ⟨_, congrArg Host.Outcome.next (masterWrite_teamCtl hl ho), ?_⟩
  refine ((allEv_same _ s).congr (withAnswer .ok) fun _ => rfl).trans ?_
  rw [setTeamCtl_enable h hv, rpBack_of_ports]
  · exact .refl _
  · rfl

theorem exec_teamDisable (hl : unlocked s 4 = true) (ho : openAt s (0x8000 + 0x800 * u.val) = true) (h : (s.team u).ctl.getLsbD 0 = true)
    (hv : v.getLsbD 0 = false) : ∃ t, exec (.teamDisable .sup u v) s = .next t ∧ (t.team u).ctl = v &&& 0xF1#32 ∧ (t.team u).st = .detached ∧
      (t.team u).pullUp = false ∧ (t.team u).power = Vector.replicate 65 false ∧ t.acc.answer = .ok := by
  let y : State := modTeam u (fun t => { t with ctl := v &&& 0xF1#32 }) s
  obtain ⟨x, hdet⟩ := detachTeam_team u y
  obtain ⟨c, ht⟩ := (rpBack_follows s (.refl (detachTeam u y))).team_eq u
  refine ⟨_, congrArg Host.Outcome.next (masterWrite_teamCtl hl ho), ?_⟩
  rw [withAnswer_team, allEv_team, setTeamCtl_disable h hv, ht, hdet, modTeam_team_self]
  exact ⟨rfl, rfl, rfl, rfl, rfl⟩

end

/-! ### Bus reset and suspend (03 R96, R104) -/

section
variable {u : TeamId} {s : State}

theorem exec_busReset (chirp : Bool) (hc : clocksRun s = true) (hp : (s.team u).pullUp = true) : ∃ t, exec (.busReset u chirp) s = .next t ∧
    (t.team u).st = .default ∧ (t.team u).addr = 0 ∧ (t.team u).rwakeEn = false ∧ (t.team u).multiTt = false ∧
      (t.team u).speed = some (if chirp && !(s.team u).fsOnly then .high else .full) ∧ (t.team u).power = Vector.replicate 65 false ∧
      ∀ q, servedBy s q = some u → (t.port q).hub.enable = false ∧ (t.port q).hub.test = none := by
  let y : State := updBusReset u (rpBack s (busResetEffects u s))
  have hy : HubFollows (busResetEffects u s) y := (updBusReset_apart u _).follows (rpBack_follows s (.refl _))
  obtain ⟨x, hteam⟩ := busResetEffects_team u s
  obtain ⟨c, ht⟩ := hy.team_eq u
  rw [hteam] at ht
  refine ⟨_, onHub_of_ok _ hc hp, ?_⟩
  simp only [allEv_team, allEv_port, setTeamSt_team_self, setTeamSt_port, modTeam_team_self, modTeam_port_at]
  refine ⟨trivial, by rw [ht], by rw [ht], by rw [ht], by rw [ht], by rw [ht], fun q hq => ?_⟩
  obtain ⟨he, hn⟩ := busResetEffects_port hq
  exact ⟨Bool.eq_false_iff.mpr fun e => Bool.eq_false_iff.mp he (hy.enable q e), (hy.test q).trans hn⟩

theorem exec_teamSuspend (hc : clocksRun s = true) (ha : awake s u = true ∨ (s.team u).st = .attached) : ∃ t, exec (.teamSuspend u) s = .next t ∧
    (t.team u).st = .suspended ∧ (t.team u).under = (s.team u).st ∧ (t.team u).drivingK = stationCalls s u ∧
      (stationCalls s u = false → OnlyTeam u s t) := by
  let y : State := setTeamSt u .suspended (modTeam u (fun t => { t with
    under := t.st, drivingK := false, counting := false, wakePorts := [], stationWoke := false }) s)
  have hx : exec (.teamSuspend u) s = .next (allEv (fun s => stationWake u (setTeamSt u .suspended (modTeam u (fun t => { t with
      under := t.st, drivingK := false, counting := false, wakePorts := [], stationWoke := false }) s))) s) :=
    onHub_of_ok _ hc (by simpa using ha)
  have hteam : y.team u = { s.team u with
      under := (s.team u).st, drivingK := false, counting := false, wakePorts := [], stationWoke := false, st := .suspended } := by simp [y]
  have hcalls : stationCalls y u = stationCalls s u := by
    rw [stationCalls_setTeamSt]
    exact stationCalls_modTeam (by exact fun _ => rfl) (by exact fun _ => rfl) (by exact fun _ => rfl) s
  have honly : OnlyTeam u s y := setTeamSt_onlyTeam _ (modTeam_onlyTeam _ (.refl u s))
  refine ⟨_, hx, ?_⟩
  rw [allEv_team]
  cases hcall : stationCalls s u with
  | false =>
    have hsilent : stationWake u y = y := stationWake_of_silent (hcalls.trans hcall)
    have hw : (stationWake u y).team u = y.team u := by rw [hsilent]
    rw [hteam] at hw
    exact ⟨congrArg Team.st hw, congrArg Team.under hw, congrArg Team.drivingK hw, fun _ => (allEv_same _ s).onlyTeam (hsilent ▸ honly)⟩
  | true =>
    have hw : (stationWake u y).team u = { y.team u with stationWoke := true, drivingK := true } := by
      rw [stationWake_suspended (hcalls.trans hcall) (by rw [hteam]) (by rw [hteam]), spreadK_team, modTeam_team_self]
    rw [hteam] at hw
    exact ⟨congrArg Team.st hw, congrArg Team.under hw, congrArg Team.drivingK hw, nofun⟩

end

/-! ### The host's resume (03 R96, R99) -/

section
variable {u : TeamId} {s : State}

/-- The team and its ports as the host's resume begins: no remote wake waits any more. -/
def resumed (u : TeamId) (s : State) : State :=
  corrFresh u (resumeTeam u (modTeam u (fun t => { t with wakePorts := [], stationWoke := false }) s))

/-- The station function that signalled a wake has ended its suspend. -/
def stationResumed (u : TeamId) (s : State) : State := onlyIf (s.team u).stationWoke (stationResume u) (resumed u s)

theorem resumed_team (u : TeamId) (s : State) : ∃ c : Corr, (resumed u s).team u = { s.team u with
    wakePorts := [], stationWoke := false, drivingK := false, l1Wake := false, counting := false, st := (s.team u).under, corr := c } :=
  ⟨_, by rw [resumed, corrFresh_team, resumeTeam_team, modTeam_team_self]⟩

theorem resumed_port (u : TeamId) (s : State) (q : PortId) : (resumed u s).port q =
    if servedBy s q = some u then { s.port q with hub := { (s.port q).hub with k := false } } else s.port q := by
  rw [resumed, corrFresh_port, resumeTeam_port]
  rfl

theorem stationResume_port (q : PortId) (s : State) : (stationResume u s).port q = s.port q := by
  unfold stationResume
  split <;> rfl

theorem stationResume_team (u : TeamId) (s : State) : ∃ c, (stationResume u s).team u =
    { s.team u with station := { (s.team u).station with suspended := false }, change := c } := by
  unfold stationResume
  split
  · exact ⟨_, by rw [addChange, modTeam_team_self, modStation, modTeam_team_self]⟩
  · next h =>
    have h' : (s.team u).station.suspended = false := by simpa using h
    exact ⟨(s.team u).change, by rw [← h']⟩

theorem stationResume_change (h : (s.team u).station.suspended = true) : (wPortChange (stationResume u s) u 65).getLsbD 2 = true := by
  rw [stationResume, if_pos h, addChange_self _ _ (by decide)]
  exact (within_or_right _ cSuspend).bit (by decide)

theorem stationResumed_port (u : TeamId) (s : State) (q : PortId) : (stationResumed u s).port q = (resumed u s).port q := by
  unfold stationResumed onlyIf
  split
  · exact stationResume_port q _
  · rfl

theorem stationResumed_servedBy (u : TeamId) (s : State) (q : PortId) : servedBy (stationResumed u s) q = servedBy s q := by
  have hport := (stationResumed_port u s q).trans (resumed_port u s q)
  split at hport
  · exact servedBy_congr (by rw [hport]) (by rw [hport])
  · exact servedBy_congr (by rw [hport]) (by rw [hport])

/-- The station function's part in the host's resume. -/
theorem stationResumed_team (u : TeamId) (s : State) : ((stationResumed u s).team u).st = (s.team u).under ∧
    ((stationResumed u s).team u).drivingK = false ∧ ((stationResumed u s).team u).wakePorts = [] ∧
    ((s.team u).stationWoke = true → ((stationResumed u s).team u).station.suspended = false ∧
      ((s.team u).station.suspended = true → (wPortChange (stationResumed u s) u 65).getLsbD 2 = true)) := by
  obtain ⟨c, hy⟩ := resumed_team u s
  unfold stationResumed onlyIf
  split
  · obtain ⟨d, hz⟩ := stationResume_team u (resumed u s)
    refine ⟨by rw [hz, hy], by rw [hz, hy], by rw [hz, hy], fun _ => ⟨by rw [hz], fun hsus => stationResume_change ?_⟩⟩
    rw [hy]
    exact hsus
  · next hw => exact ⟨by rw [hy], by rw [hy], by rw [hy], fun h => absurd h hw⟩

/-- Every port that signalled a remote wake, and the station function, ends its suspend with C_SUSPEND set. -/
theorem exec_hostResume (hc : clocksRun s = true) (hs : (s.team u).st = .suspended) : ∃ t, exec (.hostResume u) s = .next t ∧
    (t.team u).st = (s.team u).under ∧ (t.team u).drivingK = false ∧ (t.team u).wakePorts = [] ∧
      ((s.team u).stationWoke = true → (t.team u).station.suspended = false ∧
        ((s.team u).station.suspended = true → (wPortChange t u 65).getLsbD 2 = true)) ∧
      ∀ q ∈ (s.team u).wakePorts, (t.port q).hub.suspend = false ∧
        ((s.port q).hub.suspend = true → servedBy s q = some u → (wPortChange t u (q.val + 1)).getLsbD 2 = true) := by
  have hx : exec (.hostResume u) s = .next (allEv (fun s => forEach (s.team u).wakePorts resumeDone (stationResumed u s)) s) :=
    onHub_of_ok _ hc (by simp [hs])
  obtain ⟨hst, hk, hwake, hstn⟩ := stationResumed_team u s
  have hf : HubFollows (stationResumed u s) (forEach (s.team u).wakePorts resumeDone (stationResumed u s)) :=
    forEach_follows (.refl _) fun p _ k => resumeDone_follows k p
  obtain ⟨c, ht⟩ := hf.team_eq u
  refine ⟨_, hx, ?_⟩
  simp only [allEv_team, allEv_port, allEv_wPortChange, ht]
  refine ⟨hst, hk, hwake, fun hw => ?_, fun q hq => ?_⟩
  · obtain ⟨hsus, hbit⟩ := hstn hw
    exact ⟨hsus, fun h => (hf.change u 65).bit (hbit h)⟩
  · have hsus : ((stationResumed u s).port q).hub.suspend = (s.port q).hub.suspend := by
      rw [stationResumed_port, resumed_port]
      split <;> rfl
    obtain ⟨hend, hbit⟩ := forEach_resumeDone (u := u) (s := stationResumed u s) hq
    exact ⟨hend, fun h hserved => hbit (hsus.trans h) ((stationResumed_servedBy u s q).trans hserved)⟩

end

/-! ### Remote wake (03 R98, R99, R103) -/

section
variable {u : TeamId} {p : PortId} {s : State}

theorem exec_remoteWakeK (hc : clocksRun s = true) (hs : servedBy s p = some u) (he : (s.port p).hub.enable = true) :
    exec (.remoteWakeK p) s = .next (allEv (remoteWake u p) s) :=
  onHub_of_eq hc he (by simp [hs])

/-- On a suspended team K spreads upstream and to the enabled ports, and the port waits for the host. -/
theorem exec_remoteWakeK_suspended (hc : clocksRun s = true) (hs : servedBy s p = some u) (he : (s.port p).hub.enable = true)
    (hst : (s.team u).st = .suspended) (hr : (s.team u).rwakeEn = true) : ∃ t, exec (.remoteWakeK p) s = .next t ∧
      (t.team u).drivingK = true ∧ p ∈ (t.team u).wakePorts ∧ (t.team u).st = .suspended ∧
        ∀ q, servedBy s q = some u → (t.port q).hub.k = ((s.port q).hub.enable && !(s.port q).hub.suspend) := by
  have hf : HubFollows s (leaveL1 p s) := leaveL1_follows p (.refl s)
  obtain ⟨c, hy⟩ := hf.team_eq u
  have hw : remoteWake u p s = spreadK u (modTeam u (fun t => { t with wakePorts := t.wakePorts.filter (· != p) ++ [p] }) (leaveL1 p s)) := by
    simp [remoteWake, hst, hr, startWake, hy]
  refine ⟨_, exec_remoteWakeK hc hs he, ?_⟩
  rw [allEv_team, hw, spreadK_team, modTeam_team_self, hy]
  refine ⟨rfl, by simp, hst, fun q hq => ?_⟩
  have hq' : servedBy (modTeam u (fun t => { t with wakePorts := t.wakePorts.filter (· != p) ++ [p] }) (leaveL1 p s)) q = some u :=
    (hf.servedBy q).trans hq
  obtain ⟨hen, hsus⟩ := leaveL1_port hs q
  rw [allEv_port, hw, spreadK_port, if_pos hq', ← hen, ← hsus]
  rfl

theorem awake_ne {x : UsbState} (ha : awake s u = true) (hx : x = .suspended ∨ x = .l1) : (s.team u).st ≠ x := by
  rintro h
  rcases hx with rfl | rfl <;> simp [awake, h] at ha

/-- On a team that is awake the port answers for itself. -/
theorem remoteWake_awake (ha : awake s u = true) : remoteWake u p s =
    if (s.port p).hub.l1 then leaveL1 p s
    else if (s.port p).hub.suspend ∧ ¬ (s.port p).hub.resuming then modHub p (fun h => { h with resuming := true, devResume := true }) s
    else s := by
  unfold remoteWake
  split
  · next h => exact absurd h (awake_ne ha (.inl rfl))
  · next h => exact absurd h (awake_ne ha (.inr rfl))
  · rfl

theorem exec_remoteWakeK_l1 (hc : clocksRun s = true) (hs : servedBy s p = some u) (he : (s.port p).hub.enable = true) (ha : awake s u = true)
    (hl : (s.port p).hub.l1 = true) (hr : (s.port p).hub.l1Resuming = false) : ∃ t, exec (.remoteWakeK p) s = .next t ∧
      (t.port p).hub.l1 = false ∧ (wPortChange t u (p.val + 1)).getLsbD 5 = true := by
  have hs' : servedBy (modHub p (fun h => { h with l1 := false }) s) p = some u :=
    (servedBy_modHub (by exact fun _ => rfl) (by exact fun _ => rfl) p).trans hs
  refine ⟨_, exec_remoteWakeK hc hs he, ?_⟩
  rw [allEv_port, allEv_wPortChange, remoteWake_awake ha, if_pos hl, leaveL1_of_l1 hl hr, portChange_port_of_served hs']
  exact ⟨by simp, (portChange_sets hs' cL1).bit (by decide)⟩

theorem exec_remoteWakeK_suspendedPort (hc : clocksRun s = true) (hs : servedBy s p = some u) (he : (s.port p).hub.enable = true)
    (ha : awake s u = true) (hl : (s.port p).hub.l1 = false) (hsus : (s.port p).hub.suspend = true) (hr : (s.port p).hub.resuming = false) :
    ∃ t, exec (.remoteWakeK p) s = .next t ∧
      SameButEvents t (setPort p { s.port p with hub := { (s.port p).hub with resuming := true, devResume := true } } s) := by
  refine ⟨_, exec_remoteWakeK hc hs he, (allEv_same _ s).trans ?_⟩
  rw [remoteWake_awake ha, if_neg (by simp [hl]), if_pos ⟨hsus, by simp [hr]⟩]
  exact .refl _

/-- The team stops driving K; in L1 it leaves L1 (03 R101). -/
theorem exec_remoteWakeDriveEnd (hc : clocksRun s = true) (hk : (s.team u).drivingK = true) (hst : (s.team u).st ≠ .l1) :
    ∃ t, exec (.remoteWakeDriveEnd u) s = .next t ∧ OnlyTeam u s t ∧ t.team u = { s.team u with drivingK := false } := by
  have hx : exec (.remoteWakeDriveEnd u) s = .next (allEv (modTeam u fun t => { t with drivingK := false }) s) :=
    onHub_of_eq hc hk (if_neg hst)
  exact goes_modTeam hx

/-- A resume from L1 ends K on the team and on its ports. -/
theorem goes_resumeTeam {i : Instr} (h : exec i s = .next (allEv (fun s => corrFresh u (resumeTeam u s)) s)) : ∃ t, exec i s = .next t ∧
    (t.team u).st = (s.team u).under ∧ (t.team u).drivingK = false ∧ (t.team u).l1Wake = false ∧ (t.team u).addr = (s.team u).addr ∧
      ∀ q, t.port q = if servedBy s q = some u then { s.port q with hub := { (s.port q).hub with k := false } } else s.port q := by
  refine ⟨_, h, ?_⟩
  simp only [allEv_team, allEv_port, corrFresh_team, corrFresh_port, resumeTeam_team, resumeTeam_port]
  exact ⟨trivial, trivial, trivial, trivial, fun _ => trivial⟩

end

/-! ### Link power management (03 R100, R101) -/

section
variable {u : TeamId} {besl : Fin 16} {wake : Bool} {s : State}

theorem exec_lpmToken_ack (ha : awake s u = true) (hl : (s.team u).lpmEn = true) (hb : 2 ≤ besl.val) (hbusy : l1Busy s u = false) :
    ∃ t, exec (.lpmToken u true besl wake) s = .next t ∧ OnlyTeam u s t ∧ (t.team u).answer = .ack ∧ (t.team u).st = .l1 ∧
      (t.team u).under = (s.team u).st ∧ (t.team u).l1Wake = wake := by
  let y : State := setTeamSt u .l1 (modTeam u (fun t => { t with under := t.st, l1Wake := wake, counting := false }) (answer u .ack s))
  obtain ⟨x, hx⟩ := answer_team u .ack s
  have hy : y.team u = { s.team u with
      answer := .ack, phy := x, under := (s.team u).st, l1Wake := wake, counting := false, st := .l1 } := by simp [y, hx]
  have hb' : ¬ besl.val < 2 := Nat.not_lt.mpr hb
  have hgo : exec (.lpmToken u true besl wake) s = .next (allEv (fun s => stationWake u (setTeamSt u .l1
      (modTeam u (fun t => { t with under := t.st, l1Wake := wake, counting := false }) (answer u .ack s)))) s) :=
    onReq_of_eq ((onHost_of_awake ha).trans ((if_neg (by simp [hl])).trans (if_neg (by simp [hb', hbusy]))))
  have honly : OnlyTeam u s y := setTeamSt_onlyTeam _ (modTeam_onlyTeam _ (answer_onlyTeam _ (.refl u s)))
  have hst : (y.team u).st ≠ .suspended := by simp [hy]
  obtain ⟨k, w, c, n, hw⟩ := stationWake_team u y
  refine ⟨_, hgo, (allEv_same _ s).onlyTeam (stationWake_onlyTeam honly hst), ?_⟩
  rw [allEv_team]
  rw [hw, hy]
  exact ⟨rfl, rfl, rfl, rfl⟩

theorem exec_lpmToken_nyet (ha : awake s u = true) (hl : (s.team u).lpmEn = true) (hb : besl.val < 2 ∨ l1Busy s u = true) :
    ∃ t, exec (.lpmToken u true besl wake) s = .next t ∧ OnlyTeam u s t ∧ (t.team u).answer = .nyet ∧ (t.team u).st = (s.team u).st := by
  obtain ⟨t, x, ht, ho, hu⟩ := goes_answer (u := u) (i := .lpmToken u true besl wake) (s := s) (a := .nyet)
    (onReq_of_eq ((onHost_of_awake ha).trans ((if_neg (by simp [hl])).trans (if_pos hb))))
  exact ⟨t, ht, ho, by rw [hu], by rw [hu]⟩

theorem exec_lpmToken_stall (ha : awake s u = true) (hl : (s.team u).lpmEn = false) :
    ∃ t, exec (.lpmToken u true besl wake) s = .next t ∧ OnlyTeam u s t ∧ (t.team u).answer = .stall ∧ (t.team u).st = (s.team u).st := by
  obtain ⟨t, x, ht, ho, hu⟩ := goes_answer (u := u) (i := .lpmToken u true besl wake) (s := s) (a := .stall)
    (onReq_of_eq ((onHost_of_awake ha).trans (if_pos (.inl (by simp [hl])))))
  exact ⟨t, ht, ho, by rw [hu], by rw [hu]⟩

end

/-- Settles O21: each event of the upstream port does its own operation where its conditions hold; what follows on the ports ends service
and leaves the team's own fields. -/
theorem teamUpstream : Obligations.TeamUpstream := by
  intro u p s v chirp wake besl x goes only free leaves
  have hvbus : exec (.uuVbusValid u) s = .next (allEv (modTeam u fun t => { t with vbusOk := true }) s) := onTeam_of_ok _ rfl
  refine ⟨goes_modTeam hvbus, exec_teamAttach, exec_teamDetach, fun hp => ?_, fun hc _ => exec_teamDetach_only (.inr hc), fun hfree => ?_,
    fun hfree => ?_, exec_busReset chirp, exec_teamSuspend, exec_hostResume, fun hc hs he => ⟨exec_remoteWakeK_suspended hc hs he,
      exec_remoteWakeK_l1 hc hs he, exec_remoteWakeK_suspendedPort hc hs he⟩, exec_remoteWakeDriveEnd, fun hc hk hst => ?_,
    fun ha => ⟨exec_lpmToken_ack ha, exec_lpmToken_nyet ha, exec_lpmToken_stall ha⟩, fun hc hst => ?_⟩
  · have hx : { x with vbusOk := false } = { x with vbusOk := false, pullUp := false } := by rw [← hp]
    rw [hx]
    exact exec_teamDetach_only (.inl hp)
  · obtain ⟨hl, ho⟩ := Bool.and_eq_true_iff.mp hfree
    exact exec_teamEnable hl ho
  · obtain ⟨hl, ho⟩ := Bool.and_eq_true_iff.mp hfree
    exact exec_teamDisable hl ho
  · exact goes_resumeTeam (onHub_of_eq hc hk (if_pos hst))
  · exact goes_resumeTeam (onHub_of_ok _ hc (by simpa using hst))

end Sys2Proof.Machine
end

section
/-!
PROOF. Devices on a port, babble, and the packets of the repeat path (03 R84, R89, R90, R107, 01 R17).
-/
namespace Sys2Proof.Machine

/-! ### CONNECTION follows its conditions (03 Table 3.9) -/

section
variable {p : PortId} {s t : State}

/-- CONNECTION's conditions rest on the port's device, its Type-C and power parts, and the logical power of its team. -/
theorem HubFollows.connected (h : HubFollows s t) (htc : (t.port p).tc = (s.port p).tc) (hpw : (t.port p).pw = (s.port p).pw) :
    connected t p = connected s p := by
  have hpower (u : TeamId) (n : Nat) : hubPower t u n = hubPower s u n := by
    obtain ⟨c, hc⟩ := h.team_eq u
    rw [hubPower, hubPower, hc]
  simp only [Sys2Proof.Machine.connected, h.servedBy p, hpower, htc, hpw, h.dev p, h.cut p]

/-- What neither a change bit nor the end of service touches: CONNECTION, and the parts of the port beside the hub's. -/
def Port.beside (x : Port) : Bool × PortTc × PortPwr := (x.hub.conn, x.tc, x.pw)

theorem modHub_beside {f : HubPort → HubPort} (hf : ∀ x, (f x).conn = x.conn) (q : PortId) (s : State) :
    ((modHub p f s).port q).beside = (s.port q).beside :=
  modPort_part p q s (g := Port.beside) fun x => by rw [Port.beside, hf]; rfl

theorem portChange_beside (bits : BitVec 16) (q : PortId) (s : State) : ((portChange p bits s).port q).beside = (s.port q).beside := by
  unfold portChange
  split
  · rfl
  · split
    · rfl
    · exact modHub_beside (by exact fun _ => rfl) q s

theorem stopServing_beside (q : PortId) (s : State) : ((stopServing p s).port q).beside = (s.port q).beside := by
  rw [stopServing, retireTt_port]
  exact modHub_beside (by exact fun _ => rfl) q s

theorem syncOverCurrent_beside (q : PortId) (s : State) : ((syncOverCurrent p s).port q).beside = (s.port q).beside := by
  simp only [syncOverCurrent]
  split
  · rfl
  · have h := (portChange_beside (p := p) cOverCurrent q (modHub p (fun h => { h with oc := protHolds s p }) s)).trans
      (modHub_beside (by exact fun _ => rfl) q s)
    unfold onlyIf
    split
    · exact (stopServing_beside q _).trans h
    · exact h

theorem syncConnection_beside (s : State) : ((syncConnection p s).port p).beside = (connected s p, (s.port p).tc, (s.port p).pw) := by
  simp only [syncConnection]
  split
  · next h => rw [h]; rfl
  · have h : ((portChange p cConnection (modHub p (fun h => { h with conn := connected s p }) s)).port p).beside =
        (connected s p, (s.port p).tc, (s.port p).pw) := (portChange_beside cConnection p _).trans (by simp [Port.beside])
    split
    · exact (modHub_beside (by exact fun _ => rfl) p _).trans h
    · exact (modHub_beside (by exact fun _ => rfl) p _).trans ((stopServing_beside p _).trans h)

/-- CONNECTION is what its conditions say. -/
theorem syncHub_conn (p : PortId) (s : State) : ((syncHub p s).port p).hub.conn = connected (syncHub p s) p := by
  have hc := syncConnection_beside (p := p) (syncOverCurrent p s)
  obtain ⟨hconn, htc, hpw⟩ : _ ∧ _ ∧ _ := by simpa only [Port.beside, Prod.mk.injEq] using hc
  exact hconn.trans ((syncConnection_follows (.refl (syncOverCurrent p s)) p).connected htc hpw).symm

/-- The loss of CONNECTION ends service. -/
theorem syncHub_lost (h : (s.port p).hub.conn = true) (hc : connected (syncHub p s) p = false) : ((syncHub p s).port p).hub.enable = false := by
  have hb := syncConnection_beside (p := p) (syncOverCurrent p s)
  obtain ⟨hconn, htc, hpw⟩ : _ ∧ _ ∧ _ := by simpa only [Port.beside, Prod.mk.injEq] using hb
  have hnow : connected (syncOverCurrent p s) p = false :=
    ((syncConnection_follows (.refl (syncOverCurrent p s)) p).connected htc hpw).symm.trans hc
  have hwas : ((syncOverCurrent p s).port p).hub.conn = true := (congrArg Prod.fst (syncOverCurrent_beside p s) :).trans h
  simp only [syncHub, syncConnection, hnow, hwas]
  simp [stopServing]

theorem connected_of_noDevice (h : (s.port p).hub.dev = none) : connected s p = false := by
  unfold connected
  split <;> simp [h]

end

/-! ### Devices and babble -/

section
variable {u : TeamId} {p : PortId} {s : State}

theorem seeDevice_stopped {dev : Option Speed} (hc : clocksRun s = false) : seeDevice p dev s = modHub p (fun h => { h with dev := dev }) s :=
  if_neg (Bool.eq_false_iff.mp hc)

theorem seeDevice_running {dev : Option Speed} (hc : clocksRun s = true) :
    seeDevice p dev s = syncHub p (modHub p (fun h => { h with dev := dev }) s) := if_pos hc

theorem seeDevice_dev (dev : Option Speed) : ((seeDevice p dev s).port p).hub.dev = dev := by
  cases hc : clocksRun s with
  | false => simp [seeDevice_stopped hc]
  | true =>
    rw [seeDevice_running hc, (syncHub_follows (.refl _) p).dev]
    simp

theorem connected_allEv (f : State → State) (s : State) : connected (allEv f s) p = connected (f s) p := by
  have hs : servedBy (allEv f s) p = servedBy (f s) p := servedBy_congr (by rw [allEv_port]) (by rw [allEv_port])
  simp only [connected, hs, hubPower, allEv_team, allEv_port]

theorem exec_deviceConnect (p : PortId) (sp : Speed) (s : State) : ∃ t, exec (.deviceConnect p sp) s = .next t ∧ (t.port p).hub.dev = some sp ∧
    (clocksRun s = true → (t.port p).hub.conn = connected t p) := by
  refine ⟨_, onTeam_of_ok _ rfl, by rw [allEv_port, seeDevice_dev], fun hc => ?_⟩
  rw [allEv_port, connected_allEv, seeDevice_running hc]
  exact syncHub_conn p _

theorem exec_deviceDisconnect (p : PortId) (s : State) : ∃ t, exec (.deviceDisconnect p) s = .next t ∧ (t.port p).hub.dev = none ∧
    (clocksRun s = true → (t.port p).hub.conn = false ∧ ((s.port p).hub.conn = true → (t.port p).hub.enable = false)) := by
  have hnone : connected (seeDevice p none s) p = false := connected_of_noDevice (seeDevice_dev none)
  refine ⟨_, onTeam_of_ok _ rfl, by rw [allEv_port, seeDevice_dev], fun hc => ?_⟩
  rw [seeDevice_running hc] at hnone
  rw [allEv_port, seeDevice_running hc]
  exact ⟨(syncHub_conn p _).trans hnone, fun h => syncHub_lost (by simpa using h) hnone⟩

theorem exec_portBabble (hc : clocksRun s = true) (hs : servedBy s p = some u) (he : (s.port p).hub.enable = true) :
    ∃ t, exec (.portBabble p) s = .next t ∧ (t.port p).hub.enable = false ∧
      wPortChange t u (hubPortOf p) = wPortChange s u (hubPortOf p) ||| 2 := by
  have hs' : servedBy (stopServing p s) p = some u := ((stopServing_follows (.refl s) p).servedBy p).trans hs
  refine ⟨_, onHub_of_ok _ hc he, ?_⟩
  rw [allEv_port, allEv_wPortChange, portChange_port_of_served hs', portChange_of_served hs', addChange_self _ _ (hubPortOf_lt p)]
  exact ⟨by simp [stopServing], rfl⟩

/-- Freeing a TT takes its contexts, and touches no port. -/
theorem freeTt_tt (p : PortId) (s : State) :
    (freeTt p s).tt p = { s.tt p with ctxs := [], retiring := false, statusPending := false, onBus := false } := by
  rw [freeTt, modTt_tt_self, freeCtxs_tt]
  simp

theorem freeTt_port (p q : PortId) (s : State) : (freeTt p s).port q = s.port q := by
  obtain ⟨-, hp, -⟩ := freeCtxs_apart p (fun _ => true) s
  exact congrArg (fun v : Vector Port 64 => v[q]) hp

theorem exec_portContextFree (hc : clocksRun s = true) (hr : (s.tt p).retiring = true) : ∃ t, exec (.portContextFree p) s = .next t ∧
    (t.tt p).ctxs = [] ∧ (t.tt p).retiring = false := by
  refine ⟨freeTt p s, congrArg Host.Outcome.next (if_pos (by simp [hc, hr])), ?_⟩
  rw [freeTt_tt]
  exact ⟨rfl, rfl⟩

end

/-! ### The repeat path (03 R89, R90, 01 R17) -/

section
variable {u : TeamId} {p q : PortId} {sp : Speed} {s : State}

theorem phyEop_samples (n : Nat) (sof : Bool) (x : Phy) : (phyEop n sof x).samples = x.samples + 1 := by
  unfold phyEop
  extract_lets k y a b c
  have hy : y.samples = x.samples + 1 := rfl
  have ha : a.samples = y.samples := by unfold a; split <;> rfl
  have hb : b.samples = a.samples := by unfold b; split <;> rfl
  have hc : c.samples = b.samples := by unfold c; split <;> rfl
  split
  · exact hy
  · split
    · exact (hc.trans hb).trans (ha.trans hy)
    · exact (hc.trans hb).trans (ha.trans hy)

theorem portEop_samples (sof : Bool) (p q : PortId) (s : State) :
    ((portEop sof p s).port q).hub.phy.samples = (s.port q).hub.phy.samples + if q = p then 1 else 0 := by
  by_cases h : q = p
  · subst h
    simp [portEop, phyEop_samples]
    rfl
  · simp only [portEop, modHub_port_of_ne _ _ h, h, if_false]
    rfl

theorem forEach_portEop_samples (sof : Bool) {l : List PortId} (hl : l.Nodup) (q : PortId) (s : State) :
    ((forEach l (portEop sof) s).port q).hub.phy.samples = (s.port q).hub.phy.samples + if q ∈ l then 1 else 0 := by
  induction l generalizing s with
  | nil => rfl
  | cons p ps ih =>
    obtain ⟨hp, hps⟩ := List.nodup_cons.mp hl
    refine (ih hps (portEop sof p s)).trans ?_
    rw [portEop_samples]
    by_cases hq : q = p
    · subst hq
      simp [hp]
    · simp [hq]

/-- Only the ports that the downstream lane reaches take the packet; each high-speed one ends it with an EOP. -/
theorem repeatDown_spec (u : TeamId) (sp : Speed) (sof : Bool) (s : State) :
    (∀ q, q ∈ ((repeatDown u sp sof s).team u).sentDown ↔ repeatReaches s u sp q = true ∧ laneSwitching s (tileOf q) (laneDown u) = false) ∧
      ∀ q, ((repeatDown u sp sof s).port q).hub.phy.samples =
        (s.port q).hub.phy.samples + if sp = .high ∧ laneReaches s u q then 1 else 0 := by
  unfold repeatDown onlyIf
  extract_lets ps
  have hmem (q : PortId) : q ∈ ps ↔ repeatReaches s u sp q = true ∧ laneSwitching s (tileOf q) (laneDown u) = false := by
    simp [ps, fins]
  have hnodup : ps.Nodup := (List.nodup_finRange 64).filter _
  split
  · next h =>
    obtain rfl : sp = .high := eq_of_beq h
    have hteam : (forEach ps (portEop sof) (modTeam u (fun t => { t with sentDown := ps }) s)).team u =
        (modTeam u (fun t => { t with sentDown := ps }) s).team u :=
      forEach_same_part (part := fun x => x.team u) (by exact fun _ _ => rfl) _
    refine ⟨fun q => ?_, fun q => ?_⟩
    · rw [hteam, modTeam_team_self]
      exact hmem q
    · rw [forEach_portEop_samples sof hnodup]
      simp [hmem, laneReaches]
  · next h =>
    have hne : sp ≠ .high := by simpa using h
    refine ⟨fun q => ?_, fun q => by simp [hne]⟩
    rw [modTeam_team_self]
    exact hmem q

theorem exec_repeatPathPacket_down (ha : awake s u = true) : exec (.repeatPathPacket u none sp) s = .next (repeatDown u sp false s) :=
  congrArg Host.Outcome.next (if_neg (by simp [ha]))

theorem repeatReaches_high (h : repeatReaches s u .high p = true) : (s.team u).speed = some .high := by
  simp only [repeatReaches, Bool.and_eq_true] at h
  obtain ⟨-, h⟩ := h
  split at h <;> simp_all

theorem teamEop_high (h : (s.team u).speed = some .high) :
    (teamEop u s).team u = { s.team u with phy := phyEop (Config.freeNat s.free) false (s.team u).phy } := by
  unfold teamEop
  rw [if_pos h]
  exact modTeam_team_self u _ { s with free := s.free + 1 }

theorem teamEop_ports (u : TeamId) (s : State) : (teamEop u s).ports = s.ports := by
  unfold teamEop
  split <;> rfl

/-- A packet upstream from the port that drives the bus. -/
theorem exec_repeatPathPacket_up (ha : awake s u = true) (hr : repeatReaches s u sp p = true) (hl : laneSwitching s (tileOf p) (laneUp u) = false) :
    ∃ t, exec (.repeatPathPacket u (some p) sp) s = .next t ∧ (t.team u).sentUp = some p ∧
      (t.team u).phy.samples = (s.team u).phy.samples + (if sp = .high then 1 else 0) ∧ t.ports = s.ports := by
  let y : State := modTeam u (fun t => { t with sentUp := some p }) s
  have hy : y.team u = { s.team u with sentUp := some p } := modTeam_team_self ..
  have hx : exec (.repeatPathPacket u (some p) sp) s = .next (onlyIf (sp == .high) (teamEop u) y) :=
    congrArg Host.Outcome.next ((if_neg (by simp [ha])).trans (if_pos (by simp [hr, hl])))
  refine ⟨_, hx, ?_⟩
  by_cases hsp : sp = .high
  · subst hsp
    have heop := teamEop_high (s := y) (by rw [hy]; exact repeatReaches_high hr)
    simp only [onlyIf, beq_self_eq_true, if_true]
    refine ⟨by rw [heop, hy], ?_, teamEop_ports u y⟩
    rw [heop, hy]
    exact phyEop_samples ..
  · simp only [onlyIf, beq_eq_false_iff_ne.mpr hsp, Bool.false_eq_true, if_false, hsp, hy]
    exact ⟨trivial, rfl, rfl⟩

theorem exec_repeatPathPacket_lost (ha : awake s u = true) (hl : laneSwitching s (tileOf p) (laneUp u) = true) :
    exec (.repeatPathPacket u (some p) sp) s = .next s :=
  congrArg Host.Outcome.next ((if_neg (by simp [ha])).trans (if_neg (by simp [hl])))

end

end Sys2Proof.Machine
end

section
/-!
PROOF. The move of a port from its team to another: the guarded write of PORT_TEAM, the end of the retiring, and the end of the gap
(03 R109 to R113).
-/
namespace Sys2Proof.Machine

/-! ### A guarded pair of a PSI core (02 R50, R60) -/

section
variable {m : Master} {r : Rg} {a : Nat} {v : Word} {s : State}

/-- The value word waits in its block. -/
def withHeld (h : HeldWord) (s : State) : State := modAcc (fun y => { y with held := y.held ++ [h] }) s

theorem dropHeld_of_apart (h : (s.acc.held.all fun x => blockOf x.addr != blockOf a) = true) :
    dropHeld m a s = s := by
  have hf : (s.acc.held.filter fun y => !(y.addr == a && y.master == m)) = s.acc.held := by
    refine List.filter_eq_self.mpr fun y hy => ?_
    have hb := List.all_eq_true.mp h y hy
    have : y.addr ≠ a := fun e => by simp [e] at hb
    simp [this]
  simp only [dropHeld, modAcc, hf]

theorem dropHeld_withHeld (h : (s.acc.held.all fun x => blockOf x.addr != blockOf a) = true) :
    dropHeld m a (withHeld { addr := a, value := v, master := m, refused := false } s) = s := by
  have hd := congrArg (fun x : State => x.acc.held) (dropHeld_of_apart (m := m) h)
  have hf : ((s.acc.held ++ [({ addr := a, value := v, master := m, refused := false } : HeldWord)]).filter
      fun y => !(y.addr == a && y.master == m)) = s.acc.held := by
    rw [List.filter_append]
    simpa [dropHeld, modAcc] using hd
  show modAcc (fun x => { x with held := x.held.filter fun y => !(y.addr == a && y.master == m) }) (withHeld _ s) = s
  unfold withHeld modAcc
  simp only [hf]

theorem wordWrite_value (hw : guardOpen m r a v s = true) :
    wordWrite m a v s = (.ok, withHeld { addr := a, value := v, master := m, refused := false } s) := by
  obtain ⟨hp, -, hg, -, hl, hb, -, -, hc, -⟩ := guardOpen_iff.mp hw
  have hh := apart_of_pathClear hc
  simp only [wordWrite, hp, touchBlock_of_apart hh, checkWrite_ok hl hb (busyAt_of_pathClear hc), hg, if_true, dropHeld_of_apart hh]
  rfl

/-- The complement completes the pair that waits. -/
theorem wordWrite_complement (hw : guardOpen m r a v s = true) (hp : placeFor m true (a + 4) s = .comp r) (hblock : blockOf (a + 4) = blockOf a) :
    wordWrite m (a + 4) (~~~v) (withHeld { addr := a, value := v, master := m, refused := false } s) = (.ok, allEv (regWrite m r v) s) := by
  obtain ⟨-, -, -, hq, -, -, hi, hr, hc, -⟩ := guardOpen_iff.mp hw
  have hh := apart_of_pathClear hc
  let y : State := withHeld { addr := a, value := v, master := m, refused := false } s
  have hheld : y.acc.held = s.acc.held ++ [{ addr := a, value := v, master := m, refused := false }] := rfl
  have hplace : placeFor m true (a + 4) y = .comp r := hp
  have hapart (x : HeldWord) (hx : x ∈ s.acc.held) : blockOf x.addr ≠ blockOf a := by
    simpa using List.all_eq_true.mp hh x hx
  have htouch : touchBlock m true (a + 4) y = y := by
    have hn : (y.acc.held.find? fun h => !h.refused && blockOf h.addr == blockOf (a + 4) && !(true && h.master == m && a + 4 == h.addr + 4)) = none := by
      rw [hheld, List.find?_append, Option.or_eq_none_iff]
      refine ⟨List.find?_eq_none.mpr fun x hx => ?_, by simp⟩
      simp [hblock, hapart x hx]
    simp only [touchBlock, hn]
  have hfind : (y.acc.held.find? fun h => h.addr + 4 == a + 4 && h.master == m) =
      some { addr := a, value := v, master := m, refused := false } := by
    have hn : (s.acc.held.find? fun h => h.addr + 4 == a + 4 && h.master == m) = none := by
      refine List.find?_eq_none.mpr fun x hx => ?_
      have : x.addr ≠ a := fun e => hapart x hx (by rw [e])
      simp [this]
    rw [hheld, List.find?_append, hn]
    simp
  show wordWrite m (a + 4) (~~~v) y = _
  simp only [wordWrite, hplace, htouch, complementWrite, hfind, dropHeld_withHeld hh, y]
  exact takeWrite_now hq hi hr

/-- A guarded pair that nothing bars has its register's effect. -/
theorem masterPair_sup_of_guardOpen (hw : guardOpen .sup r a v s = true) (hp : placeFor .sup true (a + 4) s = .comp r)
    (hblock : blockOf (a + 4) = blockOf a) : masterPair .sup a v (~~~v) s = withAnswer .ok (allEv (regWrite .sup r v) s) := by
  obtain ⟨-, -, -, -, -, -, -, -, -, hc⟩ := guardOpen_iff.mp hw
  have hc' : clocksRun s = true := hc
  simp [masterPair, hc', pairWrite, wordWrite_value hw, wordWrite_complement hw hp hblock, modAcc_answer]

end

/-! ### PORT_TEAM (03 R109 to R112) -/

section
variable {p : PortId} {v : Word} {s : State}

theorem portTeam_addr (p : PortId) :
    placeAt (addrPort p 0) = .reg (.portTeam p) ∧ addrPort p 0 % 4 = 0 ∧ tileOfAddr (addrPort p 0) = some (tileOf p) := by
  decide +revert

theorem portTeam_complement_addr (p : PortId) : placeAt (addrPort p 0 + 4) = .comp (.portTeam p) ∧
    tileOfAddr (addrPort p 0 + 4) = some (tileOf p) ∧ blockOf (addrPort p 0 + 4) = blockOf (addrPort p 0) := by
  decide +revert

theorem masterPair_portTeam (hl : unlocked s 9 = true) (ho : openAt s (0x100000 + 0x1000 * p.val) = true)
    (hi : (s.tile (tileOf p)).link.isolated = false) :
    masterPair .sup (addrPort p 0) v (~~~v) s = withAnswer .ok (allEv (writeTeamReg p v) s) := by
  obtain ⟨hplace, hal, ht⟩ := portTeam_addr p
  obtain ⟨hplace', ht', hblock⟩ := portTeam_complement_addr p
  obtain ⟨hc, hu⟩ := Bool.and_eq_true_iff.mp ho
  have hlock : isLocked s (.portTeam p) = false := by simpa [isLocked, Rg.lockBit, unlocked] using hl
  have hw : guardOpen .sup (.portTeam p) (addrPort p 0) v s = true := by
    refine guardOpen_iff.mpr ⟨?_, hal, rfl, rfl, hlock, rfl, rfl, rfl, hc, hu⟩
    simp [placeFor, permitted, ht, hplace, hi]
  have hcomp : placeFor .sup true (addrPort p 0 + 4) s = .comp (.portTeam p) := by
    simp [placeFor, permitted, ht', hplace', hi]
  have hreg : regWrite .sup (.portTeam p) v = writeTeamReg p v := rfl
  rw [← hreg]
  exact masterPair_sup_of_guardOpen hw hcomp hblock

/-- The words that ask for a move name their target. -/
theorem moveWord_fields (tgt : Fin 5) :
    fld (BitVec.ofNat 32 (0x100 + tgt.val)) 2 0 = tgt.val ∧ bitOf (BitVec.ofNat 32 (0x100 + tgt.val)) 8 = true ∧ ¬ 4 < tgt.val := by
  decide +revert

theorem stopServing_enable (p : PortId) (s : State) : ((stopServing p s).port p).hub.enable = false := by simp [stopServing]

theorem stopServing_retiring (p : PortId) (s : State) : ((stopServing p s).tt p).retiring = true := by simp [stopServing, retireTt]

@[simp] theorem modHub_tt (f : HubPort → HubPort) (q : PortId) (s : State) : (modHub p f s).tt q = s.tt q := rfl

/-- A port that is not in a move leaves its team for the target (03 R110, Table 3.21 t0). -/
theorem writePortTeam_move (hb : bitOf v 8 = true) (ht : ¬ 4 < fld v 2 0) (hm : (s.port p).hub.mstate = 0) :
    let t := writePortTeam p v s
    (t.port p).hub.owner = fld v 2 0 ∧ (t.port p).hub.oldOwner = (s.port p).hub.owner ∧ (t.port p).hub.mstate = 1 ∧
      (t.port p).hub.conn = false ∧ (t.port p).hub.enable = false ∧ (t.port p).hub.rpOff = (s.port p).hub.rpOff ∧ (t.tt p).retiring = true := by
  let y : State := onlyIf (s.port p).hub.conn (fun s => postHubFree clsUsbConnect (srcPort p) (portChange p cConnection s)) s
  have hy : HubFollows s y := onlyIf_follows (.refl s) fun _ k => postHubFree_follows (portChange_follows k p _) _ _
  have hstop : HubFollows s (stopServing p y) := stopServing_follows hy p
  have hx : writePortTeam p v s = setMstate p 1 (modHub p (fun h => { h with oldOwner := h.owner, owner := fld v 2 0 })
      (modHub p (fun h => { h with refused := false, conn := false, moveChange := 0, lowSpeed := false, highSpeed := false }) (stopServing p y))) :=
    (if_neg (by simp [hb])).trans (if_neg (by simp [hm, ht]))
  rw [hx]
  simp [setMstate, stopServing_enable, stopServing_retiring, hstop.owner p, hstop.rpOff p]

/-- A port in a move stays where it is (03 R112). -/
theorem writePortTeam_refused (hb : bitOf v 8 = true) (hm : (s.port p).hub.mstate ≠ 0) :
    writePortTeam p v s = modHub p (fun h => { h with refused := true }) s :=
  (if_neg (by simp [hb])).trans (if_pos (.inl hm))

/-- No withdrawn Rp comes back by the write. -/
theorem writeTeamReg_of_rpOff (h : ((writePortTeam p v s).port p).hub.rpOff = (s.port p).hub.rpOff) : writeTeamReg p v s = writePortTeam p v s := by
  simp [writeTeamReg, h]

theorem exec_portMove {tgt : Fin 5} (hl : unlocked s 9 = true) (ho : openAt s (0x100000 + 0x1000 * p.val) = true)
    (hi : (s.tile (tileOf p)).link.isolated = false) (hm : (s.port p).hub.mstate = 0) :
    ∃ t, exec (.portMove .sup p (BitVec.ofNat 32 (0x100 + tgt.val)) (~~~BitVec.ofNat 32 (0x100 + tgt.val))) s = .next t ∧ t.acc.answer = .ok ∧
      (t.port p).hub.owner = tgt.val ∧ (t.port p).hub.oldOwner = (s.port p).hub.owner ∧ (t.port p).hub.mstate = 1 ∧ (t.port p).hub.conn = false ∧
        (t.port p).hub.enable = false ∧ (t.tt p).retiring = true ∧ servedBy t p = none := by
  obtain ⟨hf, hb, ht⟩ := moveWord_fields tgt
  obtain ⟨howner, hold, hmove, hconn, hen, hrp, htt⟩ := writePortTeam_move hb (by rwa [hf]) hm
  refine ⟨_, congrArg Host.Outcome.next (masterPair_portTeam hl ho hi), rfl, ?_⟩
  simp only [servedBy_eq_none_iff, withAnswer_port, withAnswer_tt, allEv_port, allEv_tt, writeTeamReg_of_rpOff hrp]
  exact ⟨howner.trans hf, hold, hmove, hconn, hen, htt, .inr (by omega)⟩

theorem exec_portMove_refused {tgt : Fin 5} (hl : unlocked s 9 = true) (ho : openAt s (0x100000 + 0x1000 * p.val) = true)
    (hi : (s.tile (tileOf p)).link.isolated = false) (hm : (s.port p).hub.mstate ≠ 0) :
    ∃ t, exec (.portMove .sup p (BitVec.ofNat 32 (0x100 + tgt.val)) (~~~BitVec.ofNat 32 (0x100 + tgt.val))) s = .next t ∧ t.acc.answer = .ok ∧
      (t.port p).hub = { (s.port p).hub with refused := true } := by
  obtain ⟨-, hb, -⟩ := moveWord_fields tgt
  have hx := writePortTeam_refused hb hm
  refine ⟨_, congrArg Host.Outcome.next (masterPair_portTeam hl ho hi), rfl, ?_⟩
  rw [withAnswer_port, allEv_port, writeTeamReg_of_rpOff (by simp [hx]), hx, modHub_port_self]

end

/-! ### t1 and t2 (03 R111, R113) -/

section
variable {u : TeamId} {p : PortId} {s : State}

theorem setMstate_port (p : PortId) (m : Nat) (s : State) :
    (setMstate p m s).port p = { s.port p with hub := { (s.port p).hub with mstate := m } } := by
  simp [setMstate]

theorem setMstate_tt (p q : PortId) (m : Nat) (s : State) : (setMstate p m s).tt q = s.tt q := by
  rw [setMstate, postHubFree_tt, modHub_tt]

theorem setMstate_wPortChange (p : PortId) (m : Nat) (u : TeamId) (n : Nat) (s : State) :
    wPortChange (setMstate p m s) u n = wPortChange s u n := rfl

theorem modHub_wPortChange (p : PortId) (f : HubPort → HubPort) (u : TeamId) (n : Nat) (s : State) :
    wPortChange (modHub p f s) u n = wPortChange s u n := rfl

/-- An Rp that is not withdrawn changes the Type-C part alone. -/
theorem followPower_of_presented (h : (s.port p).hub.rpOff = false) :
    ((followPower p s).port p).hub = (s.port p).hub ∧ (followPower p s).tts = s.tts := by
  rw [followPower, if_neg (by simp [withdrawn, h])]
  exact ⟨modTc_hub .., rfl⟩

theorem exec_moveRetireEnd (hc : clocksRun s = true) (hm : (s.port p).hub.mstate = 1) (ho : (s.port p).hub.owner < 4) :
    ∃ t, exec (.moveRetireEnd p) s = .next t ∧ (t.port p).hub = { (s.port p).hub with mstate := 2 } ∧ (t.tt p).ctxs = [] ∧ servedBy t p = none := by
  have hx : exec (.moveRetireEnd p) s = .next (allEv (fun s => setMstate p 2 (freeTt p s)) s) :=
    onHub_of_eq hc (by simp [hm]) (if_pos (by rw [freeTt_port]; exact ho))
  refine ⟨_, hx, ?_⟩
  have hhub : ((setMstate p 2 (freeTt p s)).port p).hub = { (s.port p).hub with mstate := 2 } := by rw [setMstate_port, freeTt_port]
  rw [servedBy_eq_none_iff, allEv_port, allEv_tt, hhub, setMstate_tt, freeTt_tt]
  exact ⟨rfl, rfl, .inr (show 2 ≠ 0 ∧ 2 ≠ 3 by decide)⟩

/-- A port that leaves its team for none has ended its move at t1. -/
theorem exec_moveRetireEnd_unowned (hc : clocksRun s = true) (hm : (s.port p).hub.mstate = 1) (ho : 4 ≤ (s.port p).hub.owner) :
    ∃ t, exec (.moveRetireEnd p) s = .next t ∧ (t.port p).hub.mstate = 0 ∧ (t.tt p).ctxs = [] ∧ servedBy t p = none := by
  let y : State := modHub p (fun h => { h with moveChange := 0 }) (setMstate p 0 (freeTt p s))
  have hx : exec (.moveRetireEnd p) s = .next (allEv (fun s =>
      rpAfterMove p (modHub p (fun h => { h with moveChange := 0 }) (setMstate p 0 (freeTt p s)))) s) :=
    onHub_of_eq hc (by simp [hm]) (if_neg (by rw [freeTt_port]; omega))
  have hy : (y.port p).hub = { (s.port p).hub with mstate := 0, moveChange := 0 } := by
    simp only [y, modHub_port_self, setMstate_port, freeTt_port]
  have htt : y.tt p = (freeTt p s).tt p := by simp only [y, modHub_tt, setMstate_tt]
  have hnone : servedBy y p = none := servedBy_eq_none_iff.mpr (.inl (by rw [hy]; exact ho))
  have hrp : rpAfterMove p y = followPower p (modHub p (fun h => { h with rpOff := false }) y) := by
    rw [rpAfterMove, hnone]
    simp only [Bool.and_false]
  obtain ⟨hhub, htts⟩ := followPower_of_presented (p := p) (s := modHub p (fun h => { h with rpOff := false }) y) (by simp)
  have hend : ((rpAfterMove p y).port p).hub = { (s.port p).hub with mstate := 0, moveChange := 0, rpOff := false } := by
    rw [hrp, hhub, modHub_port_self, hy]
  have htend : (rpAfterMove p y).tt p = y.tt p := by
    rw [hrp, State.tt, htts]
    rfl
  refine ⟨_, hx, ?_⟩
  rw [servedBy_eq_none_iff, allEv_port, allEv_tt, hend, htend, htt, freeTt_tt]
  exact ⟨rfl, rfl, .inl ho⟩

/-- The end of a move keeps the port's place and adds no more than change bits. -/
theorem rpAfterMove_follows (p : PortId) (s : State) : ∃ on : Bool → Bool, HubFollows (modHub p (fun h => { h with rpOff := on h.rpOff }) s) (rpAfterMove p s) :=
  ⟨fun x => x && (match servedBy s p with | some u => teamEn s u && pwrSw s u && !hubPower s u (hubPortOf p) | none => false),
    followPower_follows (.refl _) p⟩

/-- The port reports on the target team, with the change bits of the move. -/
theorem exec_moveGapExpire (hc : clocksRun s = true) (hm : (s.port p).hub.mstate = 2) (ho : (s.port p).hub.owner = u.val) :
    ∃ t, exec (.moveGapExpire p) s = .next t ∧ (t.port p).hub.mstate = 0 ∧ servedBy t p = some u ∧
      wPortChange t u (hubPortOf p) &&& (s.port p).hub.moveChange = (s.port p).hub.moveChange := by
  let s₁ : State := setMstate p 3 s
  let s₂ : State := syncHub p (modHub p (fun h => { h with moveChange := 0 }) (portChange p (s₁.port p).hub.moveChange s₁))
  let s₃ : State := setMstate p 0 s₂
  have hx : exec (.moveGapExpire p) s = .next (allEv (fun _ => rpAfterMove p s₃) s) := onHub_of_eq hc (by simp [hm]) rfl
  have h₁ : (s₁.port p).hub = { (s.port p).hub with mstate := 3 } := by simp only [s₁, setMstate_port]
  have hserved : servedBy s₁ p = some u := servedBy_eq_some_iff.mpr (by rw [h₁]; exact ⟨ho, .inr rfl⟩)
  have hf : HubFollows (portChange p (s₁.port p).hub.moveChange s₁) s₂ :=
    syncHub_follows (modHub_follows (.refl _) p (by exact fun _ => ⟨rfl, id, id⟩)) p
  have howner : (s₂.port p).hub.owner = u.val := by
    rw [hf.owner, portChange_port_of_served hserved, h₁]
    exact ho
  obtain ⟨on, hend⟩ := rpAfterMove_follows p s₃
  have hbits : Within (s.port p).hub.moveChange (wPortChange (rpAfterMove p s₃) u (hubPortOf p)) := by
    have hset := portChange_sets hserved (s₁.port p).hub.moveChange
    have hlast := hend.change u (hubPortOf p)
    rw [h₁] at hset hf
    simp only [s₃, modHub_wPortChange, setMstate_wPortChange] at hlast
    exact (hset.trans (hf.change u _)).trans hlast
  have hm' : ((rpAfterMove p s₃).port p).hub.mstate = 0 := by
    rw [hend.mstate, modHub_port_self, setMstate_port]
  have ho' : ((rpAfterMove p s₃).port p).hub.owner = u.val := by
    rw [hend.owner, modHub_port_self, setMstate_port]
    exact howner
  refine ⟨_, hx, ?_⟩
  rw [servedBy_eq_some_iff, allEv_port, allEv_wPortChange, BitVec.and_comm]
  exact ⟨hm', ⟨ho', .inl hm'⟩, hbits⟩

end

/-- Settles O25: CONNECTION follows its conditions, the repeat path takes the ports it reaches, and each step of a move puts the port in
its next place. -/
theorem devicesAndPortMoves : Obligations.DevicesAndPortMoves := by
  intro u p s sp tgt h goes v
  refine ⟨exec_deviceConnect p sp s, exec_deviceDisconnect p s, exec_portBabble, exec_portContextFree,
    fun ha => ⟨_, exec_repeatPathPacket_down ha, repeatDown_spec u sp false s⟩, exec_repeatPathPacket_up, exec_repeatPathPacket_lost,
    fun hl ho hi => ⟨exec_portMove hl ho hi, exec_portMove_refused hl ho hi⟩, exec_moveRetireEnd, exec_moveRetireEnd_unowned, exec_moveGapExpire⟩

end Sys2Proof.Machine
end

section
/-!
PROOF. The port bus of a translator: descriptor, start and result of a transaction, the loss of each, the end of contexts, and STOP and RESET
through TTC_TT_CTL (04 R124, R125, R129, R130, R137 to R139, R142 to R144).
-/
namespace Sys2Proof.Machine

/-! ### Memories without a latent error (01 R12, 04 R136) -/

section
variable {s : State} (h : s.ecc = [])
include h

theorem eccAt_of_noError (m : EccMem) (w : Nat) : eccAt s m w = none := by
  simp [eccAt, h]

theorem ctxBad_of_noError (slot : Nat) : ctxBad s slot = false := by
  simp [ctxBad, eccAt_of_noError h]

theorem unitsBad_of_noError (units : List Nat) : unitsBad s units = false := by
  simp [unitsBad, eccAt_of_noError h]

theorem eccFix_of_noError (m : EccMem) (w : Nat) : eccFix m w s = s :=
  eccFix_of_sound (by rw [eccAt_of_noError h]; rfl)

theorem ctxFix_of_noError (slot : Nat) : ctxFix slot s = s :=
  forEach_invariant (P := (· = s)) (fun _ _ ht => ht ▸ eccFix_of_noError (ht ▸ h) _ _) rfl

theorem unitsFix_of_noError (units : List Nat) : unitsFix units s = s :=
  forEach_invariant (P := (· = s)) (fun _ _ ht => by rw [ht, eccFix_of_noError h, eccFix_of_noError h]) rfl

end

/-! ### The first transaction of a translator -/

/-- The contexts of a translator whose first context has x, then xs, as its transactions. -/
def headTxn (c : Ctx) (x : Txn) (xs : List Txn) (cs : List Ctx) : List Ctx := { c with txns := x :: xs } :: cs

theorem modTt_of_eq {p : PortId} {f : Tt → Tt} {s : State} (h : f (s.tt p) = s.tt p) : modTt p f s = s := by
  have h' : f s.tts[p] = s.tts[p] := h
  rw [modTt, h']
  simp

theorem modTt_modTt (p : PortId) (f g : Tt → Tt) (s : State) : modTt p f (modTt p g s) = modTt p (fun t => f (g t)) s := by
  simp [modTt]

section
variable {s : State} {p : PortId} {c : Ctx} {cs : List Ctx} {x : Txn} {xs : List Txn} {q : Ctx → Txn → Bool}

theorem findTxn_head (hc : (s.tt p).ctxs = c :: cs) (hx : c.txns = x :: xs) (hq : q c x = true) : findTxn (s.tt p) q = some (c, x) := by
  simp [findTxn, hc, hx, hq]

theorem modFirst_head (hc : (s.tt p).ctxs = c :: cs) (hx : c.txns = x :: xs) (hq : q c x = true) (f : Txn → Txn) :
    modFirst p q f s = modTt p (fun t => { t with ctxs := headTxn c (f x) xs cs }) s := by
  have hc' : s.tts[p].ctxs = c :: cs := hc
  have hmod : modFirstTxn q f (c :: cs) = headTxn c (f x) xs cs := by
    simpa [modFirstTxn, headTxn, hx, hq, List.findIdx_cons, List.mapIdx_cons] using List.ext_getElem (by simp) (by simp)
  simp only [modFirst, modTt, hc', hmod]

end

/-! ### The end of a transaction on the port bus -/

/-- No transaction waits for its result to be discarded (04 R141). -/
def NoDiscard (l : List Ctx) : Prop := ∀ d ∈ l, ∀ z ∈ d.txns, z.discard = false

/-- The port bus is free, and a stop that waited for it acts (04 R142). -/
def busReleased (t : Tt) : Tt :=
  { t with
    onBus := false
    stopped := t.stopped || (t.stopNext && !t.resetting)
    stopNext := t.stopNext && t.resetting
    statusPending := t.statusPending && t.resetting }

theorem freeCtxs_of_none {p : PortId} {q : Ctx → Bool} {s : State} (h : ∀ d ∈ (s.tt p).ctxs, q d = false) : freeCtxs p q s = s := by
  have hkeep : (s.tt p).ctxs.filter (fun d => !q d) = (s.tt p).ctxs := List.filter_eq_self.mpr fun d hd => by rw [h d hd]; rfl
  have hfree : (s.tt p).ctxs.filter q = [] := List.filter_eq_nil_iff.mpr fun d hd => by rw [h d hd]; exact Bool.false_ne_true
  have hmod : modTt p (fun t => { t with ctxs := t.ctxs.filter fun d => !q d }) s = s :=
    modTt_of_eq (congrArg (fun l => { s.tt p with ctxs := l }) hkeep)
  simp only [freeCtxs, hmod, hfree]
  rfl

theorem afterBus_of_noDiscard {p : PortId} {s : State} (h : NoDiscard (s.tt p).ctxs) : afterBus p s = modTt p busReleased s := by
  have hnone : ∀ d ∈ (s.tt p).ctxs, (d.txns.any fun x => x.discard && x.ended) = false := fun d hd =>
    List.any_eq_false.mpr fun z hz => by simp [h d hd z hz]
  rw [afterBus, freeCtxs_of_none hnone]
  rfl

section
variable {s : State} {p : PortId} {c : Ctx} {cs : List Ctx} {x : Txn} {xs : List Txn}

/-- A change of the first transaction that does not mark its result leaves no result marked. -/
theorem NoDiscard.headTxn {z : Txn} (h : NoDiscard (c :: cs)) (hx : c.txns = x :: xs) (hz : z.discard = x.discard) :
    NoDiscard (headTxn c z xs cs) := by
  obtain ⟨hhead, hrest⟩ := List.forall_mem_cons.mp h
  obtain ⟨hfst, hxs⟩ := List.forall_mem_cons.mp (hx ▸ hhead)
  exact List.forall_mem_cons.mpr ⟨List.forall_mem_cons.mpr ⟨hz.trans hfst, hxs⟩, hrest⟩

/-- The transaction that runs ends in a phase. -/
theorem afterBus_endRunning (hc : (s.tt p).ctxs = c :: cs) (hx : c.txns = x :: xs) (hr : x.phase = .running) (hd : NoDiscard (s.tt p).ctxs)
    (ph : TxnPhase) : afterBus p (modFirst p isRunning (fun y => { y with phase := ph }) s) =
      modTt p (fun t => busReleased { t with ctxs := headTxn c { x with phase := ph } xs cs }) s := by
  rw [modFirst_head hc hx (by simp [isRunning, hr]), afterBus_of_noDiscard, modTt_modTt]
  rw [modTt_tt_self]
  exact (hc ▸ hd).headTxn hx rfl

/-! ### Descriptor and start (04 R124, R129, R137) -/

theorem exec_ttDescriptor (hk : clocksRun s = true) (he : s.ecc = []) (hc : (s.tt p).ctxs = c :: cs) (hx : c.txns = x :: xs)
    (hw : x.phase = .waiting) : exec (.ttDescriptor p) s = .next { s with tts := s.tts.set p { s.tt p with
      ctxs := headTxn c { x with phase := .ready, lost := laneSwitching s (tileOf p) laneControl } xs cs } } := by
  have hq : isWaiting c x = true := by simp [isWaiting, hw]
  have hfix : onlyIf (!x.dirIn) (unitsFix x.held) (ctxFix c.slot s) = s := by
    rw [ctxFix_of_noError he, onlyIf, unitsFix_of_noError he, ite_self]
  change execTtDescriptor p s = _
  simp only [execTtDescriptor, hk, not_true_eq_false, if_false, findTxn_head hc hx hq, ctxBad_of_noError he, unitsBad_of_noError he,
    Bool.false_eq_true, and_false, or_false, hfix, modFirst_head hc hx hq]
  rfl

/-- The first transaction goes onto the port bus. -/
theorem startTxn_head {q : Ctx → Txn → Bool} (he : s.ecc = []) (hc : (s.tt p).ctxs = c :: cs) (hx : c.txns = x :: xs) (hq : q c x = true) :
    startTxn p q s = { s with tts := s.tts.set p { s.tt p with ctxs := headTxn c { x with phase := .running } xs cs, onBus := true } } := by
  have hfix : onlyIf (!x.dirIn) (unitsFix x.held) s = s := by rw [onlyIf, unitsFix_of_noError he, ite_self]
  simp only [startTxn, findTxn_head hc hx hq, unitsBad_of_noError he, Bool.false_eq_true, and_false, if_false, hfix, modFirst_head hc hx hq,
    modTt_modTt]
  rfl

theorem exec_portBusTxnStart_periodic (fits : Bool) (he : s.ecc = []) (ho : busOpen s p = true) (hc : (s.tt p).ctxs = c :: cs)
    (hx : c.txns = x :: xs) (hq : periodicReady s p c x = true) : exec (.portBusTxnStart p fits) s = .next
      { s with tts := s.tts.set p { s.tt p with ctxs := headTxn c { x with phase := .running } xs cs, onBus := true } } := by
  change execPortBusTxnStart p fits s = _
  simp [execPortBusTxnStart, ho, findTxn_head hc hx hq, startTxn_head he hc hx hq]

/-- With no periodic work ready, a non-periodic transaction starts only where its worst case fits (04 R129). -/
theorem exec_portBusTxnStart_nonperiodic (he : s.ecc = []) (ho : busOpen s p = true) (hc : (s.tt p).ctxs = c :: cs) (hx : c.txns = x :: xs)
    (hn : findTxn (s.tt p) (periodicReady s p) = none) (hp : c.periodic = false) (hr : x.phase = .ready) (hl : x.lost = false) :
    exec (.portBusTxnStart p true) s = .next
        { s with tts := s.tts.set p { s.tt p with ctxs := headTxn c { x with phase := .running } xs cs, onBus := true } } ∧
      exec (.portBusTxnStart p false) s = .next s := by
  have head (q : Ctx → Txn → Bool) (hq : q c x = true) := And.intro (findTxn_head hc hx hq) (startTxn_head he hc hx hq)
  obtain ⟨hfind, hstart⟩ := head (fun c x => !c.periodic && x.phase == .ready && !x.lost) (by simp [hp, hr, hl])
  constructor
  · change execPortBusTxnStart p true s = _
    simp [execPortBusTxnStart, ho, hn, hfind, hstart]
  · change execPortBusTxnStart p false s = _
    simp [execPortBusTxnStart, ho, hn]

/-! ### Result (04 R138) -/

/-- A whole transaction on the port bus takes a handshake as its result. -/
theorem exec_ttResult_handshake {r : BusResult} (hk : clocksRun s = true) (hl : laneSwitching s (tileOf p) laneControl = false)
    (hc : (s.tt p).ctxs = c :: cs) (hx : c.txns = x :: xs) (hr : x.phase = .running) (hw : x.whole = true) (hd : NoDiscard (s.tt p).ctxs)
    (h : r = .ack ∨ r = .nak ∨ r = .stall) : exec (.ttResult p r) s = .next
      (modTt p (fun t => busReleased { t with ctxs := headTxn c { x with phase := .complete r } xs cs }) s) := by
  have hq : isRunning c x = true := by simp [isRunning, hr]
  have hopen : ¬(¬clocksRun s = true ∨ laneSwitching s (tileOf p) laneControl = true) := by simp [hk, hl]
  rw [← afterBus_endRunning hc hx hr hd]
  change execTtResult p r s = _
  simp only [execTtResult, if_neg hopen, findTxn_head hc hx hq, if_neg (not_not.mpr hw)]
  rcases h with rfl | rfl | rfl <;> rfl

theorem busError_tt (p : PortId) (s : State) : (busError p s).tt p = { s.tt p with busErr := satInc (s.tt p).busErr 0xFFFF } :=
  modTt_tt_self p _ s

/-- An error of the port bus is a result, and counts (04 Table 4.14). -/
theorem exec_ttResult_err (hk : clocksRun s = true) (hl : laneSwitching s (tileOf p) laneControl = false)
    (hc : (s.tt p).ctxs = c :: cs) (hx : c.txns = x :: xs) (hr : x.phase = .running) (hw : x.whole = true) (hd : NoDiscard (s.tt p).ctxs) :
    exec (.ttResult p .err) s = .next (modTt p (fun t => busReleased { t with ctxs := headTxn c { x with phase := .complete .err } xs cs })
      (busError p s)) := by
  have hq : isRunning c x = true := by simp [isRunning, hr]
  have hopen : ¬(¬clocksRun s = true ∨ laneSwitching s (tileOf p) laneControl = true) := by simp [hk, hl]
  have hctxs : ((busError p s).tt p).ctxs = (s.tt p).ctxs := by rw [busError_tt]
  rw [← afterBus_endRunning (s := busError p s) (hctxs.trans hc) hx hr (by rwa [hctxs])]
  change execTtResult p .err s = _
  simp only [execTtResult, if_neg hopen, findTxn_head hc hx hq, if_neg (not_not.mpr hw)]

/-! ### Loss and lateness (04 R124, R125, R139) -/

/-- What the loss of a result makes of a transaction: one that has not ended retires. -/
def retired (z : Txn) : Txn := if z.ended then z else { z with phase := .retired }

/-- The transaction on the port bus, unless a descriptor was lost, or one whose descriptor was lost. -/
theorem lostTxn_head (hc : (s.tt p).ctxs = c :: cs) (hx : c.txns = x :: xs)
    (h : x.phase = .running ∧ (∀ d ∈ (s.tt p).ctxs, ∀ z ∈ d.txns, z.phase = .ready → z.lost = false) ∨ x.phase = .ready ∧ x.lost = true) :
    lostTxn (s.tt p) = some (c, x) := by
  rcases h with ⟨hr, hn⟩ | ⟨hr, hl⟩
  · have hnone : findTxn (s.tt p) isLost = none := by
      simp only [findTxn, List.findSome?_eq_none_iff, Option.map_eq_none_iff, List.find?_eq_none]
      intro d hd z hz hlost
      obtain ⟨hready, hzl⟩ := Bool.and_eq_true_iff.mp hlost
      exact Bool.false_ne_true ((hn d hd z hz (eq_of_beq hready)).symm.trans hzl)
    rw [lostTxn, hnone, findTxn_head hc hx (by simp [isRunning, hr])]
    rfl
  · rw [lostTxn, findTxn_head hc hx (by simp [isLost, hr, hl])]
    rfl

/-- The context of a lost result retires; contexts of other places stay. -/
theorem retireCtx_ctxs (hc : (s.tt p).ctxs = c :: cs) (hs : ∀ d ∈ cs, d.slot ≠ c.slot) :
    ((modTxns p (fun d z => d.slot == c.slot && !z.ended) (fun z => { z with phase := .retired }) s).tt p).ctxs =
      { c with txns := c.txns.map retired } :: cs := by
  have hcs : (cs.map fun d => { d with txns := d.txns.map fun z =>
      if (d.slot == c.slot && !z.ended) = true then { z with phase := .retired } else z }) = cs :=
    (List.map_congr_left fun d hd => by simp [hs d hd]).trans (List.map_id cs)
  simp only [modTxns, modTt_tt_self, hc, List.map_cons, hcs]
  simp only [BEq.rfl, Bool.true_and, Bool.not_eq_true', ← Bool.not_eq_true, ite_not]
  rfl

/-- A context that retires keeps the marks of its results. -/
theorem NoDiscard.retire (h : NoDiscard (c :: cs)) : NoDiscard ({ c with txns := c.txns.map retired } :: cs) := by
  obtain ⟨hhead, hrest⟩ := List.forall_mem_cons.mp h
  refine List.forall_mem_cons.mpr ⟨fun z hz => ?_, hrest⟩
  obtain ⟨z₀, hz₀, rfl⟩ := List.mem_map.mp hz
  have hmark : (retired z₀).discard = z₀.discard := by
    unfold retired
    split <;> rfl
  exact hmark.trans (hhead z₀ hz₀)

/-- The state with the context of a lost result retired, reported and, where it is periodic, counted as dropped. -/
def lostReported (p : PortId) (c : Ctx) (s : State) : State :=
  onlyIf c.periodic (pdropCount (c.txns.filter fun z => !z.ended).length)
    (ttcError 5 p (modTxns p (fun d z => d.slot == c.slot && !z.ended) (fun z => { z with phase := .retired }) s))

theorem lostReported_ctxs (hc : (s.tt p).ctxs = c :: cs) (hs : ∀ d ∈ cs, d.slot ≠ c.slot) :
    ((lostReported p c s).tt p).ctxs = { c with txns := c.txns.map retired } :: cs := by
  rw [← retireCtx_ctxs hc hs, lostReported, onlyIf]
  split <;> rfl

theorem lostReported_err (p : PortId) (c : Ctx) (s : State) : (lostReported p c s).ttc.err = orBit s.ttc.err 5 := by
  rw [lostReported, onlyIf]
  split <;> rfl

theorem lostReported_pdrop (p : PortId) (s : State) (h : c.periodic = true) : (lostReported p c s).ttc.pdrop =
    BitVec.ofNat 32 (min 0xFFFFFFFF (s.ttc.pdrop.toNat + (c.txns.filter fun z => !z.ended).length)) := by
  rw [lostReported, onlyIf, if_pos h]
  rfl

theorem afterBus_ctxs (hd : NoDiscard (s.tt p).ctxs) : ((afterBus p s).tt p).ctxs = (s.tt p).ctxs := by
  rw [afterBus_of_noDiscard hd, modTt_tt_self]
  rfl

theorem afterBus_ttc (hd : NoDiscard (s.tt p).ctxs) : (afterBus p s).ttc = s.ttc := by
  rw [afterBus_of_noDiscard hd, modTt_ttc]

/-- The port bus stays as it is where the lost transaction was never on it. -/
theorem exec_ttResultLost (hk : clocksRun s = true) (h : lostTxn (s.tt p) = some (c, x)) : exec (.ttResultLost p) s =
    .next (if x.lost then lostReported p c s else afterBus p (lostReported p c s)) := by
  change execTtResultLost p s = _
  simp only [execTtResultLost, if_neg (not_not.mpr hk), h]
  rfl

/-- A periodic transaction whose window has ended fails and counts as dropped (04 R124, Table 4.11). -/
theorem exec_lateDrop (hk : clocksRun s = true) (hc : (s.tt p).ctxs = c :: cs) (hx : c.txns = x :: xs) (hq : isLate s p c x = true) :
    exec (.lateDrop p) s = .next
      (pdropCount 1 (ttcError 2 p (modTt p (fun t => { t with ctxs := headTxn c { x with phase := .failed } xs cs }) s))) := by
  change execLateDrop p s = _
  simp only [execLateDrop, hk, findTxn_head hc hx hq, Option.isSome_some, and_self, if_true, modFirst_head hc hx hq]

end

/-! ### The end of contexts (04 R125, R130, R143) -/

section
variable {s : State} {p : PortId} {u : TeamId}

theorem exec_periodicContextExpire (hs : servedBy s p = some u) : exec (.periodicContextExpire p) s =
    .next (freeCtxs p (fun c => c.periodic && decide (c.y + 4 < (s.team u).count)) s) := by
  change execPeriodicContextExpire p s = _
  simp only [execPeriodicContextExpire, hs]

theorem exec_npHoldExpire (dev ep : Nat) (dirIn : Bool) (hs : servedBy s p = some u) (ha : awake s u = true) :
    exec (.npHoldExpire p dev ep dirIn) s =
      .next (freeCtxs p (fun c => !c.periodic && c.txns.any fun x => sameEp x dev ep dirIn && x.ended && x.answeredAt.isSome) s) := by
  change execNpHoldExpire p dev ep dirIn s = _
  simp only [execNpHoldExpire, hs, ha, if_true]

theorem exec_ttResetEnd (hk : clocksRun s = true) (hr : (s.tt p).resetting = true) : ∃ t, exec (.ttResetEnd p) s = .next t ∧
    t.tt p = { s.tt p with
      ctxs := [], resetting := false, stopped := (s.tt p).stopNext, stopNext := false, statusPending := false, onBus := false } := by
  refine ⟨endResetTt p s, ?_, ?_⟩
  · change execTtResetEnd p s = _
    rw [execTtResetEnd, if_pos hk]
  · simp [endResetTt, hr, freeCtxs_tt]

/-! ### TTC_TT_CTL (04 R142, R143, Table 4.14) -/

theorem ttCtl_addr (p : PortId) : placeAt (addrTt p 0) = .reg (.ttCtl p) ∧ addrTt p 0 % 4 = 0 ∧ tileOfAddr (addrTt p 0) = none := by
  decide +revert

theorem writable_ttCtl {v : Word} (ho : openAt s (addrTt p 0) = true) : writable .sup (.ttCtl p) (addrTt p 0) v s = true := by
  obtain ⟨hc, hu⟩ := Bool.and_eq_true_iff.mp ho
  obtain ⟨hp, ha, ht⟩ := ttCtl_addr p
  refine writable_iff.mpr ⟨?_, ha, rfl, rfl, rfl, rfl, rfl, rfl, hc, hu⟩
  simp [placeFor, permitted, ht, hp]

theorem masterWrite_ttCtl {v : Word} (ho : openAt s (0x11000 + 16 * p.val) = true) :
    masterWrite .sup (addrTt p 0) v s = withAnswer .ok (allEv (regWrite .sup (.ttCtl p) v) s) :=
  masterWrite_sup_of_writable (writable_ttCtl ho)

/-- A stop of a translator whose port bus is free acts at once. -/
theorem stopTt_idle (hr : (s.tt p).resetting = false) (hb : busBusy s p = false) :
    stopTt p s = { s with tts := s.tts.set p { s.tt p with stopped := true } } := by
  have hwait : ((s.tt p).resetting || busBusy s p) = false := by rw [hr, hb]; rfl
  simp only [stopTt, hwait, Bool.or_false, Bool.not_false, Bool.or_true]
  rfl

theorem exec_ttStop (ho : openAt s (0x11000 + 16 * p.val) = true) (hr : (s.tt p).resetting = false) (hb : busBusy s p = false) :
    ∃ t, exec (.ttStop .sup p) s = .next t ∧
      SameButEvents t (withAnswer .ok { s with tts := s.tts.set p { s.tt p with stopped := true } }) := by
  refine ⟨_, congrArg Host.Outcome.next (masterWrite_ttCtl ho), ?_⟩
  have e : regWrite .sup (.ttCtl p) 1 s = stopTt p s := rfl
  rw [← stopTt_idle hr hb, ← e]
  exact (allEv_same _ s).congr (withAnswer .ok) fun _ => rfl

theorem exec_ttReset (ho : openAt s (0x11000 + 16 * p.val) = true) (hr : (s.tt p).resetting = false) :
    ∃ t, exec (.ttReset .sup p) s = .next t ∧ t.acc.answer = .ok ∧ (t.tt p).resetting = true ∧ (t.tt p).stopped = false ∧
      ∀ c ∈ (t.tt p).ctxs, ∀ x ∈ c.txns, x.phase ≠ .waiting ∧ x.phase ≠ .ready := by
  refine ⟨_, congrArg Host.Outcome.next (masterWrite_ttCtl ho), rfl, ?_⟩
  have e : regWrite .sup (.ttCtl p) 2 s = resetTt p s := rfl
  rw [withAnswer_tt, allEv_tt, e, resetTt, hr, if_neg Bool.false_ne_true, modTt_tt_self]
  exact ⟨rfl, rfl, fun c hc x hx => retireUnstarted_phase hc hx⟩

end

/-- Settles O27: the clauses on the port bus follow the first transaction of the translator; contexts end by filters on its list; STOP and
RESET are writes of TTC_TT_CTL. -/
theorem portBusTransactions : Obligations.PortBusTransactions := by
  intro p u s c cs x xs r dev ep dirIn fits y goes with' errs pdrop1 sound kept
  refine ⟨fun hk hc hx => ⟨fun he hw => exec_ttDescriptor hk he hc hx hw,
    fun he ho _ hq => exec_portBusTxnStart_periodic fits he ho hc hx hq,
    fun he ho hn hp hr hl => exec_portBusTxnStart_nonperiodic he ho hc hx hn hp hr hl, ?_, ?_, ?_, ?_⟩, fun hs => ⟨?_, fun ha => ?_⟩,
    fun ho hr => ⟨fun hb => exec_ttStop ho hr hb, exec_ttReset ho hr⟩, fun hk hr => ?_⟩
  · intro hl hr hw hd h
    have htt := modTt_tt_self p (fun t => busReleased { t with ctxs := headTxn c { x with phase := .complete r } xs cs }) s
    exact ⟨_, exec_ttResult_handshake hk hl hc hx hr hw hd h, congrArg Tt.ctxs htt, congrArg Tt.onBus htt, congrArg Tt.stopped htt, rfl⟩
  · intro hl hr hw hd
    have htt := modTt_tt_self p (fun t => busReleased { t with ctxs := headTxn c { x with phase := .complete .err } xs cs }) (busError p s)
    exact ⟨_, exec_ttResult_err hk hl hc hx hr hw hd, congrArg Tt.ctxs htt,
      (congrArg Tt.busErr htt).trans (congrArg Tt.busErr (busError_tt p s))⟩
  · intro h hd hs
    have hctxs := lostReported_ctxs hc hs
    have hd' : NoDiscard ((lostReported p c s).tt p).ctxs := hctxs ▸ NoDiscard.retire (hc ▸ hd)
    refine ⟨_, exec_ttResultLost hk (lostTxn_head hc hx h), ?_⟩
    split
    · exact ⟨hctxs, lostReported_err p c s, lostReported_pdrop p s⟩
    · have httc := afterBus_ttc hd'
      exact ⟨(afterBus_ctxs hd').trans hctxs, (congrArg Ttc.err httc).trans (lostReported_err p c s),
        fun hp => (congrArg Ttc.pdrop httc).trans (lostReported_pdrop p s hp)⟩
  · intro hq
    have htt := modTt_tt_self p (fun t => { t with ctxs := headTxn c { x with phase := .failed } xs cs }) s
    exact ⟨_, exec_lateDrop hk hc hx hq, congrArg Tt.ctxs htt, rfl, rfl⟩
  · exact ⟨_, exec_periodicContextExpire hs, congrArg Tt.ctxs (freeCtxs_tt p _ s)⟩
  · exact ⟨_, exec_npHoldExpire dev ep dirIn hs ha, congrArg Tt.ctxs (freeCtxs_tt p _ s)⟩
  · obtain ⟨t, ht, htt⟩ := exec_ttResetEnd hk hr
    exact ⟨t, ht, congrArg Tt.ctxs htt, congrArg Tt.resetting htt, congrArg Tt.stopped htt, congrArg Tt.statusPending htt⟩

end Sys2Proof.Machine
end

section
/-!
PROOF. Registers: what an access to any register leaves as it is (05 R148, 12 R405), the queue of waiting commands and the canonical form of
memory; one lemma per operation of Machine/Registers.lean and Machine/Access.lean, beside those of Laws/Keeps….lean.
-/
namespace Sys2Proof.Machine

variable {r s : State} {m : Master} {w : Width} {a : Nat} {v c : Word}

/-! ### Choices between states, and operations of several ports -/

theorem ite_snd_keeps {α : Type} {c : Prop} [Decidable c] {x y : α × State} (hx : Keeps r x.2) (hy : Keeps r y.2) :
    Keeps r (if c then x else y).2 := by
  split
  · exact hx
  · exact hy

theorem keeps_of_snd {α : Type} {x : α × State} {y : α} {t : State} (e : x = (y, t)) (h : Keeps r x.2) : Keeps r t := by
  rw [e] at h
  exact h

theorem ite_self_keeps {c : Prop} [Decidable c] {f : State → State} (hf : ∀ t, Keeps r t → Keeps r (f t)) (h : Keeps r s) :
    Keeps r (if c then f s else s) := ite_keeps (hf s h) h

theorem unstall_keeps {s₀ : State} (h : Keeps r s) : Keeps r (unstall s₀ s) :=
  forEach_keeps (fun _ _ => ite_self_keeps fun _ => catchUp_keeps) h

theorem followPower_all_keeps {ps : List PortId} (h : Keeps r s) : Keeps r (forEach ps followPower s) :=
  forEach_keeps (fun _ _ => followPower_keeps) h

theorem notePort_all_keeps {s₀ : State} (h : Keeps r s) : Keeps r (forEach (fins 64) (notePort s₀) s) :=
  forEach_keeps (fun _ _ => notePort_keeps) h

/-! ### Free values and stamps -/

theorem drawNat_keeps (h : Keeps r s) : Keeps r (drawNat s).2 := drawNat_to rfl h

theorem drawBool_keeps (h : Keeps r s) : Keeps r (drawBool s).2 := drawBool_to rfl h

theorem drawWord_keeps (h : Keeps r s) : Keeps r (drawWord s).2 := drawWord_to rfl h

theorem takeStamp_keeps {t : Option TileId} (h : Keeps r s) : Keeps r (takeStamp t s).2 := takeStamp_to (x0 := t) rfl h

/-! ### Words that a read takes -/

theorem queueRead_keeps {q : QueueId} (h : Keeps r s) : Keeps r (queueRead m q s).2 := by
  have hq : Keeps r (queueCheck q s) := queueCheck_keeps h
  unfold queueRead
  split
  · exact h
  · refine ite_snd_keeps h ?_
    dsimp only
    split
    · refine ite_snd_keeps hq (ite_snd_keeps ?_ ?_)
      · exact modQueue_keeps hq
      · exact modQueue_keeps hq
    · refine ite_snd_keeps hq (ite_snd_keeps (resetQueue_keeps hq) ?_)
      split
      · exact hq
      · next hpop =>
        have hw := popWord_to hpop hq
        exact ite_snd_keeps (gapAfterRead_keeps (modQueue_keeps hw)) (gapAfterRead_keeps (latchWords_keeps (modQueue_keeps hw)))

theorem stepRetPtr_keeps (h : Keeps r s) : Keeps r (stepRetPtr s) := modCrp_keeps h

theorem retRead_keeps (h : Keeps r s) : Keeps r (retRead s).2 := stepRetPtr_keeps (eccFix_keeps h)

theorem retWrite_keeps (h : Keeps r s) : Keeps r (retWrite v s) := stepRetPtr_keeps (ite_keeps h (setRetWord_keeps h))

theorem pumpBox_keeps {b : Fin 24} (h : Keeps r s) : Keeps r (pumpBox b s) := by
  unfold pumpBox
  split
  · exact unstall_keeps (pumpUp_keeps h)
  · split
    · exact pumpDown_keeps h
    · exact h

theorem boxTake_keeps {b : Fin 24} (h : Keeps r s) : Keeps r (boxTake b s).2 := ite_snd_keeps (pumpBox_keeps (takeBox_keeps h)) h

theorem boxRead_keeps {b : Fin 24} (h : Keeps r s) : Keeps r (boxRead m b s).2 := ite_snd_keeps (boxTake_keeps h) h

theorem boxWrite_keeps {b : Fin 24} (h : Keeps r s) : Keeps r (boxWrite b v s) := ite_keeps (modBox_keeps h) (storeBox_keeps h)

theorem timeRead_keeps {sec : Bool} (h : Keeps r s) : Keeps r (timeRead m sec s).2 := by
  cases m <;> exact h

theorem regRead_keeps {x : Rg} (h : Keeps r s) : Keeps r (regRead m x s).2 := by
  cases x with
  | accSem n =>
    simp only [regRead]
    split
    · exact semRead_to rfl h
    · exact h
  | mbxData b => exact boxRead_keeps h
  | fltScE e w => exact readEntry_keeps h
  | crpPsRefuse => exact modCrp_keeps h
  | crpRetData => exact retRead_keeps h
  | timeSec | timeNs => exact timeRead_keeps h
  | ttcPdropCnt => exact modTtc_keeps h
  | ttCnt p => exact modTt_keeps h
  | crlNoroute => exact modCrl_keeps h
  | qData q => exact queueRead_keeps h
  | qDrop q => exact modQueue_keeps h
  | budCnt => exact modBud_keeps h
  | portPdCnt p => exact modPd_keeps h
  | tileCnt t => exact modTile_keeps h
  | _ => exact h

/-! ### Effects of a write -/

theorem resetCommand_keeps (h : Keeps r s) : Keeps r (resetCommand v s) := by
  unfold resetCommand
  refine ite_keeps (chipReset_keeps h) (ite_keeps h (forEach_keeps (fun _ _ => ite_self_keeps fun _ => tileReset_keeps) ?_))
  exact ite_keeps (ite_keeps (coldSup_keeps (supPartyReset_keeps h)) (warmRestart_keeps h)) h

theorem writeInj_keeps (h : Keeps r s) : Keeps r (writeInj v s) :=
  have hm := modFlt_keeps h
  ite_keeps (collectorCheck_keeps (spoilCopy_keeps (injDone_keeps hm))) hm

theorem swReport_keeps (h : Keeps r s) : Keeps r (swReport v s) :=
  ite_self_keeps (fun _ => hwDump_keeps) (raise_keeps h)

theorem writeTcCfg_keeps {p : PortId} (h : Keeps r s) : Keeps r (writeTcCfg p v s) :=
  ite_self_keeps (fun _ => setTcEn_keeps) (modTc_keeps h)

theorem writePdCfg_keeps {p : PortId} (h : Keeps r s) : Keeps r (writePdCfg p v s) :=
  have hm {f : PortPd → PortPd} : Keeps r (modPd p f s) := modPd_keeps h
  onlyIf_keeps (fun _ => onLate_keeps) (ite_keeps (disablePd_keeps hm) (ite_keeps hm (onLate_keeps hm)))

theorem writePwrCmd_keeps {p : PortId} (h : Keeps r s) : Keeps r (writePwrCmd p v s) := by
  have hc : Keeps r (if bitOf v 2 then clearPfet p s else s) := ite_self_keeps (fun _ => clearPfet_keeps) h
  have hl := ite_self_keeps (c := bitOf v 1 = true) (fun _ => endLatch_keeps (x0 := p)) hc
  exact ite_keeps (fwOffOn_keeps hl) (ite_self_keeps (fun _ => fwOffClear_keeps) hl)

theorem writeTeamCtl_keeps {u : TeamId} (h : Keeps r s) : Keeps r (writeTeamCtl u v s) := followPower_all_keeps (setTeamCtl_keeps h)

theorem writeTeamReg_keeps {p : PortId} (h : Keeps r s) : Keeps r (writeTeamReg p v s) :=
  ite_self_keeps (fun _ => followPower_keeps) (writePortTeam_keeps h)

theorem takeGrpCfg_keeps {g : TileId} (h : Keeps r s) : Keeps r (takeGrpCfg g v s) :=
  forEach_keeps (fun _ _ => ite_self_keeps fun _ => rewant_keeps) (ite_self_keeps (fun _ => feedLost_keeps) (writeGrpCfg_keeps h))

theorem regWrite_keeps {x : Rg} (h : Keeps r s) : Keeps r (regWrite m x v s) := by
  cases x with
  | accErrStat | accLock => exact modAcc_keeps h
  | accSemForce => exact ite_self_keeps (fun _ => semForce_keeps) (modAcc_keeps h)
  | accSem n =>
    simp only [regWrite]
    split
    · exact semWrite_keeps h
    · exact h
  | mbxTimeout => exact modMbx_keeps h
  | mbxData b => exact boxWrite_keeps h
  | mbxStat b => exact modBox_keeps h
  | fltStatHi | fltStatLo | fltCtl | fltWdog | fltSrc _ => exact modFlt_keeps h
  | fltLost | fltSafe => exact ite_self_keeps (fun _ => modFlt_keeps) h
  | fltSupCmd => exact ite_self_keeps (fun _ => ite_self_keeps fun _ => modFlt_keeps) h
  | fltInj => exact writeInj_keeps h
  | fltSwrep => exact swReport_keeps h
  | crpMode | crpWsAddr | crpRstCause | crpRetErr | crpWakeCfg | crpRetPtr => exact modCrp_keeps h
  | crpRstCmd => exact resetCommand_keeps h
  | crpRetData => exact retWrite_keeps h
  | crpPsCmd => exact ite_self_keeps (fun _ ht => ite_keeps (modPwr_keeps (raiseCore_keeps ht)) ht) h
  | timEvt | timServoCfg | timHoldCfg | timLeap | timSetSec | timSetNs | timPpsoutCfg | timCorrCfg => exact modTim_keeps h
  | timRefCfg => exact writeRefCfg_keeps h
  | timSetCtl => exact setCommand_keeps h
  | timFreq => exact writeFreq_keeps h
  | bootPolicy | updArg => exact modBoot_keeps h
  | updCmd => exact updCommand_keeps h
  | bootConfirm => exact ite_self_keeps (fun _ => confirmRelease_keeps) h
  | ttcCtl | ttcErr => exact modTtc_keeps h
  | ttCtl p => exact ite_self_keeps (fun _ => resetTt_keeps) (ite_self_keeps (fun _ => stopTt_keeps) h)
  | crlCtl | crlErr | crlCroute _ | crlPq _ => exact modCrl_keeps h
  | qCfg q => exact configQueue_keeps h
  | qStat q => exact modQueue_keeps h
  | qCtl q => exact ite_self_keeps (fun _ => flushQueue_keeps) h
  | budCtl | budRelay => exact modBud_keeps h
  | budGlobal | budGrp _ => exact settle_keeps (modBud_keeps h)
  | budPort p => exact modBp_keeps h
  | teamCtl u => exact writeTeamCtl_keeps h
  | teamTiming _ | teamPhyCfg _ => exact modTeam_keeps h
  | teamQmask u => exact stationWake_keeps (setQmask_keeps h)
  | grpCfg g => exact takeGrpCfg_keeps h
  | grpThr _ | grpLim _ | grpStat _ => exact modGrp_keeps h
  | portTeam p => exact writeTeamReg_keeps h
  | portTcCfg p => exact writeTcCfg_keeps h
  | portPdCfg p => exact writePdCfg_keeps h
  | portPwrCfg _ | portProtCfg _ | portProtFlags _ | portCurve _ _ => exact modPw_keeps h
  | portKeeper p => exact latchEv_keeps (writeKeeper_keeps h)
  | portPwrCmd p => exact writePwrCmd_keeps h
  | portPhyCfg p => exact modHub_keeps h
  | tileCtl t => exact writeTileCtl_keeps h
  | tileEvec _ | tileMbxCfg _ => exact modTile_keeps h
  | _ => exact h

/-! ### Access errors, windows and guarded pairs (02 R50 to R55) -/

theorem accErr_keeps {n : Nat} {d : Bool} (h : Keeps r s) : Keeps r (accErr n m d a s) :=
  raise_keeps (ite_keeps (modAcc_keeps h) (modAcc_keeps h))

theorem windowRead_keeps {x : Window} (h : Keeps r s) : Keeps r (windowRead x a s).2 := by
  unfold windowRead
  split
  · exact eccFix_keeps h
  · exact h

theorem windowWrite_keeps {x : Window} (h : Keeps r s) : Keeps r (windowWrite x a v s) := by
  have hm : Keeps r { s with mem := memPutWord s.mem a v } := h.updMem (memPutWord_wf _ _) rfl
  unfold windowWrite
  dsimp only
  split
  · exact eccStore_keeps hm
  · exact hm

theorem breakPair_keeps {x : HeldWord} (h : Keeps r s) : Keeps r (breakPair x s) := accErr_keeps (modAcc_keeps h)

theorem touchBlock_keeps {d : Bool} (h : Keeps r s) : Keeps r (touchBlock m d a s) := by
  unfold touchBlock
  split
  · exact breakPair_keeps h
  · exact h

theorem dropHeld_keeps (h : Keeps r s) : Keeps r (dropHeld m a s) := modAcc_keeps h

/-! ### Writes (02 R48 to R53) -/

theorem applyWrite_keeps {x : Rg} (h : Keeps r s) : Keeps r (applyWrite m x a v s).2 :=
  ite_snd_keeps (accErr_keeps h) (allEv_keeps (fun _ => regWrite_keeps) h)

theorem postedDone_keeps {i : Fin 10} (h : Keeps r s) : Keeps r (postedDone i s) := by
  have hm {f : Acc → Acc} : Keeps r (modAcc f s) := modAcc_keeps h
  unfold postedDone
  split
  · exact h
  · refine noteSup_keeps ?_
    split
    · exact ite_keeps (accErr_keeps (ite_self_keeps (fun _ => stepRetPtr_keeps) hm)) (notePort_all_keeps (regWrite_keeps hm))
    · exact hm

theorem takeWrite_keeps {x : Rg} (h : Keeps r s) : Keeps r (takeWrite m x a v s).2 := by
  unfold takeWrite
  split
  · split
    · exact modAcc_keeps (postedDone_keeps h)
    · exact applyWrite_keeps h
  · exact ite_snd_keeps (accErr_keeps (applyWrite_keeps h)) (applyWrite_keeps h)

theorem checkWrite_keeps {x : Rg} (h : Keeps r s) : Keeps r (checkWrite m x a v s).2 :=
  ite_snd_keeps (accErr_keeps h) (ite_snd_keeps (accErr_keeps h) h)

theorem complementWrite_keeps {x : Rg} (h : Keeps r s) : Keeps r (complementWrite m x a v s).2 := by
  unfold complementWrite
  split
  · exact accErr_keeps h
  · next x _ =>
    have hd := dropHeld_keeps (m := m) (a := x.addr) h
    exact ite_snd_keeps hd (ite_snd_keeps (takeWrite_keeps hd) (accErr_keeps hd))

theorem wordWrite_keeps (h : Keeps r s) : Keeps r (wordWrite m a v s).2 := by
  have ht : Keeps r (touchBlock m true a s) := touchBlock_keeps h
  unfold wordWrite
  split
  · exact accErr_keeps h
  · exact complementWrite_keeps ht
  · exact ite_snd_keeps (accErr_keeps ht) (ite_snd_keeps (accErr_keeps ht) (windowWrite_keeps ht))
  · next x _ =>
    have hc := checkWrite_keeps (m := m) (x := x) (a := a) (v := v) ht
    exact ite_snd_keeps (modAcc_keeps (dropHeld_keeps hc)) (ite_snd_keeps (takeWrite_keeps hc) hc)

theorem lockedPair_keeps (h : Keeps r s) : Keeps r (lockedPair m a v c s).2 := by
  unfold lockedPair
  split
  · next x _ =>
    have hc := checkWrite_keeps (m := m) (x := x) (a := a) (v := v) (touchBlock_keeps (m := m) (a := a) (d := true) h)
    exact ite_snd_keeps (accErr_keeps h) (ite_snd_keeps hc (ite_snd_keeps (accErr_keeps hc) (takeWrite_keeps hc)))
  · exact accErr_keeps h
  · exact accErr_keeps h

theorem plainWrite_keeps (h : Keeps r s) : Keeps r (plainWrite m a v s).2 := by
  unfold plainWrite
  split
  · exact ite_snd_keeps (accErr_keeps (touchBlock_keeps h)) (wordWrite_keeps h)
  · exact wordWrite_keeps h

/-! ### Reads, and the accesses of the PSI masters (02 R58 to R60) -/

theorem wordRead_keeps (h : Keeps r s) : Keeps r (wordRead m a s).2.2 := by
  have ht : Keeps r (touchBlock m false a s) := touchBlock_keeps h
  unfold wordRead
  split
  · exact accErr_keeps h
  · exact accErr_keeps ht
  · exact windowRead_keeps ht
  · exact noteSup_keeps (regRead_keeps ht)

theorem psiWrite_keeps {hi : Word} (h : Keeps r s) : Keeps r (psiWrite m w a v hi s).2 := by
  unfold psiWrite
  refine ite_snd_keeps h ?_
  split
  · exact wordWrite_keeps h
  · have hw := wordWrite_keeps (m := m) (a := a) (v := v) h
    exact ite_snd_keeps hw (ite_snd_keeps (wordWrite_keeps h) (wordWrite_keeps hw))
  · split
    · exact accErr_keeps h
    · exact accErr_keeps (touchBlock_keeps h)
    · exact accErr_keeps (touchBlock_keeps h)

theorem psiRead_keeps (h : Keeps r s) : Keeps r (psiRead m w a s).2.2.2 := by
  have hr := wordRead_keeps (m := m) (a := a / 4 * 4) h
  unfold psiRead
  split
  · exact h
  · dsimp only
    split
    · split
      · exact wordRead_keeps hr
      · exact wordRead_keeps h
    · exact hr

/-! ### The SPI target (02 R38 to R42, R56) -/

theorem pathLost_keeps {b : Bool} {n : Nat} (h : Keeps r s) : Keeps r (pathLost b n s) :=
  raise_keeps (ite_keeps (modWs_keeps h) (modSpi_keeps h))

theorem noteFrame_keeps {x y : Bool} (h : Keeps r s) : Keeps r (noteFrame x y s) := by
  unfold noteFrame
  refine ite_keeps (ite_keeps ?_ (modWs_keeps h)) (ite_keeps ?_ (modSpi_keeps h))
  · exact ite_self_keeps (fun _ => pathLost_keeps) (modWs_keeps h)
  · exact ite_self_keeps (fun _ => pathLost_keeps) (modSpi_keeps h)

theorem spiEnd_keeps {st : Byte} {out : List Byte} (h : Keeps r s) : Keeps r (spiEnd st out s) := modSpi_keeps h

theorem spiAnswer_keeps {st : Byte} (h : Keeps r s) : Keeps r (spiAnswer st v s) := spiEnd_keeps h

theorem spiDone_keeps {x : Verdict} (h : Keeps r s) : Keeps r (spiDone x v s) := modAcc_keeps (modSpi_keeps h)

theorem spiStore_keeps {f : State → Verdict × State} (hf : ∀ t, Keeps r t → Keeps r (f t).2) (h : Keeps r s) : Keeps r (spiStore a f s) := by
  have hn : Keeps r (noteFrame false false s) := noteFrame_keeps h
  refine ite_keeps h (ite_keeps (spiEnd_keeps hn) (ite_keeps (spiEnd_keeps (accErr_keeps hn)) (ite_keeps (spiEnd_keeps (accErr_keeps hn)) ?_)))
  exact modAcc_keeps (spiEnd_keeps (hf _ hn))

theorem readWaits_keeps (h : Keeps r s) : Keeps r (readWaits a s).2 := by
  have hd : Keeps r (drawBool s).2 := drawBool_keeps h
  unfold readWaits
  refine ite_snd_keeps h ?_
  split
  · refine ite_snd_keeps h ?_
    split
    · exact ite_snd_keeps hd h
    · exact hd
  · split
    · exact ite_snd_keeps hd h
    · exact h

theorem spiLoad_keeps (h : Keeps r s) : Keeps r (spiLoad a s) := by
  have hn : Keeps r (noteFrame false false s) := noteFrame_keeps h
  have hw := readWaits_keeps (a := a) hn
  refine ite_keeps h (ite_keeps ?_ (ite_keeps ?_ (ite_keeps ?_ (ite_keeps ?_ ?_))))
  · exact spiAnswer_keeps (drawWord_keeps hn)
  · exact spiAnswer_keeps (spiDone_keeps (wordRead_keeps hn))
  · exact spiAnswer_keeps (spiDone_keeps (drawWord_keeps (accErr_keeps hn)))
  · exact spiAnswer_keeps (drawWord_keeps (modSpi_keeps hw))
  · exact spiAnswer_keeps (spiDone_keeps (wordRead_keeps hw))

theorem spiFramingError_keeps {d : Bool} {st : Byte} (h : Keeps r s) : Keeps r (spiFramingError d st s) :=
  noteFrame_keeps (spiEnd_keeps (accErr_keeps (drawWord_keeps h)))

/-! ### The wake-serial target (02 R43 to R46, R501) -/

theorem wsEnd_keeps {n : WsNack} {out : List Byte} (h : Keeps r s) : Keeps r (wsEnd n out s) := modWs_keeps h

theorem wsEnd_noted_keeps {b : Bool} {n : WsNack} {out : List Byte} (h : Keeps r s) : Keeps r (noteFrame true b (wsEnd n out s)) :=
  noteFrame_keeps (wsEnd_keeps h)

theorem wsCount_keeps {n : WsNack} (h : Keeps r s) : Keeps r (wsCount n a s) := wsEnd_noted_keeps (accErr_keeps h)

theorem wsStored_keeps {x : Verdict × State} (h : Keeps r x.2) : Keeps r (wsStored x) := modAcc_keeps (wsEnd_noted_keeps h)

theorem wsData_keeps {data : List Byte} {stop : Bool} (h : Keeps r s) : Keeps r (wsData a data stop s) := by
  unfold wsData
  refine ite_keeps (ite_keeps (wsCount_keeps h) (wsEnd_noted_keeps h)) (ite_keeps (wsEnd_noted_keeps h) (ite_keeps ?_ ?_))
  · exact ite_keeps (wsStored_keeps (lockedPair_keeps h)) (ite_keeps (wsEnd_noted_keeps (accErr_keeps h)) (wsCount_keeps h))
  · exact ite_keeps (wsStored_keeps (plainWrite_keeps h)) (wsCount_keeps h)

theorem wsBadAddress_keeps {d : Bool} {x : Verdict} (h : Keeps r s) : Keeps r (wsBadAddress d a x s) :=
  modAcc_keeps (wsEnd_noted_keeps (ite_self_keeps (fun _ => accErr_keeps) h))

theorem wsStore_keeps {n : Nat} {data : List Byte} {stop : Bool} (h : Keeps r s) : Keeps r (wsStore n a data stop s) := by
  refine ite_keeps (modWs_keeps h) (ite_keeps (wsEnd_noted_keeps h) (ite_keeps (wsCount_keeps h) ?_))
  split
  · exact ite_keeps (wsEnd_noted_keeps h) (wsBadAddress_keeps h)
  · exact wsData_keeps h

theorem wsLoad_keeps {n k : Nat} (h : Keeps r s) : Keeps r (wsLoad n a k s) := by
  refine ite_keeps (modWs_keeps h) (ite_keeps (wsEnd_noted_keeps h) (ite_keeps (wsCount_keeps h) ?_))
  split
  · exact wsBadAddress_keeps h
  · exact ite_keeps (wsEnd_noted_keeps h) (modAcc_keeps (wsEnd_noted_keeps (wordRead_keeps h)))

/-! ### The accesses of the rows that name a master -/

theorem masterWrite_keeps (h : Keeps r s) : Keeps r (masterWrite m a v s) := by
  cases m with
  | spi => exact spiStore_keeps (fun _ => plainWrite_keeps) h
  | ws => exact wsStore_keeps h
  | sup | weaver t => exact ite_keeps h (modAcc_keeps (psiWrite_keeps (hi := 0) h))

theorem pairWrite_keeps (h : Keeps r s) : Keeps r (pairWrite m a v c s).2 :=
  ite_snd_keeps (wordWrite_keeps h) (wordWrite_keeps (wordWrite_keeps h))

theorem masterPair_keeps (h : Keeps r s) : Keeps r (masterPair m a v c s) := by
  cases m with
  | spi => exact spiStore_keeps (fun _ => lockedPair_keeps) h
  | ws => exact wsStore_keeps h
  | sup | weaver t => exact ite_keeps h (modAcc_keeps (pairWrite_keeps h))

theorem masterRead_keeps (h : Keeps r s) : Keeps r (masterRead m a s) := by
  cases m with
  | spi => exact spiLoad_keeps h
  | ws => exact wsLoad_keeps h
  | sup | weaver t => exact ite_keeps h (modAcc_keeps (psiRead_keeps h))

end Sys2Proof.Machine
end

section
/-!
PROOF. The boot ROM and the activation path: what loading, the configuration block, the handover, rescue mode and an activation leave as it
is (10 R349 to R356, 11 R364 to R383, 12 R402, 13 R434).
-/
namespace Sys2Proof.Machine

variable {r s t : State} {slot : Nat} {keep : Nat → Bool} {f : FlashStatus}

/-! ### Loading (11 R364, R365) -/

theorem eccFill_keeps {m : EccMem} (h : Keeps r s) : Keeps r (eccFill m s) := eccStore_keeps (h.upd rfl rfl)

theorem fillRegion_keeps {lo hi : Nat} {bs : List Byte} (h : Keeps r s) : Keeps r (fillRegion lo hi bs s) :=
  h.updMem (fun hw => memPutBytes_wf _ _ (memClear_wf _ hw)) rfl

theorem loadSup_to (e : loadSup slot s = some t) (h : Keeps r s) : Keeps r t := by
  unfold loadSup at e
  split at e
  · cases e
  · dsimp only at e
    split at e
    · cases e
    · cases e
      exact modBoot_keeps (eccFill_keeps (fillRegion_keeps (eccFill_keeps (fillRegion_keeps (qspiRead_keeps h)))))

theorem writeTile_keeps {g : TileId} {prog : List Byte} {data : Fin 8 → List Byte} {evec mbx : Word} {major : Nat} (h : Keeps r s) :
    Keeps r (writeTile g prog data evec mbx major s) :=
  modTile_keeps (eccFill_keeps (forEach_keeps (fun _ _ => fillRegion_keeps) (eccFill_keeps (fillRegion_keeps h))))

theorem loadTile_to {g : TileId} (e : loadTile slot g s = some t) (h : Keeps r s) : Keeps r t := by
  unfold loadTile at e
  split at e
  · cases e
  · dsimp only at e
    split at e
    · cases e
    · cases e
      exact writeTile_keeps (qspiRead_keeps h)

theorem loadTiles_to {gs : List TileId} (e : loadTiles slot gs s = some t) (h : Keeps r s) : Keeps r t := by
  induction gs generalizing s with
  | nil =>
    cases e
    exact h
  | cons g gs ih =>
    obtain ⟨u, hu, e⟩ := Option.bind_eq_some_iff.mp e
    exact ih e (loadTile_to hu h)

theorem loadRelease_to (e : loadRelease slot s = some t) (h : Keeps r s) : Keeps r t := by
  obtain ⟨u, hu, e⟩ := Option.bind_eq_some_iff.mp e
  exact loadTiles_to e (loadSup_to hu h)

theorem loadRescueTile_keeps {g : TileId} (h : Keeps r s) : Keeps r (loadRescueTile g s) := writeTile_keeps h

/-! ### The slot record at boot (11 R369, R370) -/

theorem bootRecord_keeps {kind : Nat} (h : Keeps r s) : Keeps r (bootRecord kind slot s) := updRecord_keeps h

theorem countTrial_keeps {x : SlotRecord} {writes counted : Bool} (h : Keeps r s) : Keeps r (countTrial x writes counted s).2 := by
  refine ite_snd_keeps h (ite_snd_keeps ?_ (ite_snd_keeps h (ite_snd_keeps ?_ ?_)))
  · exact bootRecord_keeps (writeEntry_to rfl h)
  · exact bootRecord_keeps (writeEntry_to rfl h)
  · exact bootRecord_keeps (writeEntry_to rfl h)

theorem chooseSlot_keeps {counted : Bool} (h : Keeps r s) : Keeps r (chooseSlot f counted s).2 := by
  unfold chooseSlot
  refine ite_snd_keeps h ?_
  split
  · split
    · exact h
    · exact ite_keeps (writeEntry_to rfl h) (modBoot_keeps (writeEntry_to rfl h))
  · next x _ =>
    have hc := countTrial_keeps (x := x) (writes := f.writes) (counted := counted) (modBoot_keeps (x0 := fun b => { b with slotRec := x }) h)
    exact ite_snd_keeps hc (ite_snd_keeps (onlyIf_keeps (fun _ => bootRecord_keeps) (writeEntry_to rfl hc)) hc)

/-! ### The configuration block (10 R353 to R356) -/

theorem bootWrite_keeps {a : Nat} {v : Word} {g : Bool} (h : Keeps r s) : Keeps r (bootWrite a v g s) :=
  forEach_keeps (fun _ _ => postedDone_keeps) (ite_snd_keeps (lockedPair_keeps h) (wordWrite_keeps h))

theorem applyRecords_keeps {l : List (Nat × Word × Bool)} (h : Keeps r s) : Keeps r (applyRecords keep l s) :=
  forEach_keeps (fun _ _ => bootWrite_keeps) h

theorem releaseGroup_keeps {g : TileId} (h : Keeps r s) : Keeps r (releaseGroup g s) :=
  ite_keeps (feedDisable_keeps (modGrp_keeps h)) (feedRelease_keeps (modGrp_keeps h))

theorem applyConfig_keeps {c : CfgPlan} (h : Keeps r s) : Keeps r (applyConfig keep c s) := by
  refine forEach_keeps (fun _ _ => releaseGroup_keeps) ?_
  have ha {t : State} (ht : Keeps r t) : Keeps r (applyRecords keep c.records (onlyIf (c.fault != 0) (raise fCfgDef (BitVec.ofNat 32 c.fault)) t)) :=
    applyRecords_keeps (onlyIf_keeps (fun _ => raise_keeps) ht)
  split
  · exact ite_self_keeps (fun _ => modTim_keeps) (ha (modBoot_keeps h))
  · exact ha (modBoot_keeps h)

theorem runTiles_keeps (h : Keeps r s) : Keeps r (runTiles s) := forEach_keeps (fun _ _ => writeTileCtl_keeps) h

theorem applyTeams_keeps {c : CfgPlan} (h : Keeps r s) : Keeps r (applyTeams keep c s) := forEach_keeps (fun _ _ => bootWrite_keeps) h

/-! ### Handover (10 R349 step 9, 11 R380, 12 R401) -/

theorem startSup_keeps {pc evec : Word} (h : Keeps r s) : Keeps r (startSup pc evec s) := modCpu_keeps h

theorem startWindow_keeps (h : Keeps r s) : Keeps r (startWindow s) := modBoot_keeps h

theorem loadTaiUtc_keeps (h : Keeps r s) : Keeps r (loadTaiUtc s) := by
  refine ite_keeps h (ite_keeps ?_ (modTim_keeps (drawNat_keeps h)))
  split
  · exact modTim_keeps h
  · exact h

theorem resumeArbiter_keeps (h : Keeps r s) : Keeps r (resumeArbiter s) :=
  settle_keeps (unstall_keeps (forEach_keeps (fun _ _ => pumpDown_keeps) (forEach_keeps (fun _ _ => pumpUp_keeps) h)))

theorem firmwareStart_keeps (h : Keeps r s) : Keeps r (firmwareStart s) :=
  resumeArbiter_keeps (writeConfirmed_keeps (copyDump_keeps (tidySectors_keeps (loadTaiUtc_keeps (modBoot_keeps h)))))

theorem handover_keeps (h : Keeps r s) : Keeps r (handover s) := by
  refine ite_self_keeps (fun _ => completeWake_keeps) (ite_keeps ?_ ?_)
  · exact startSup_keeps (modPwr_keeps (modBoot_keeps h))
  · exact firmwareStart_keeps (startSup_keeps (startWindow_keeps (modPwr_keeps (modBoot_keeps h))))

/-! ### Steps 2 to 9 (10 Table 10.6, 11 R383, 12 R402) -/

theorem enterRescue_keeps (h : Keeps r s) : Keeps r (enterRescue s) :=
  bootRecord_keeps (modTeam_keeps (forEach_keeps (fun _ _ => loadRescueTile_keeps) (modBoot_keeps h)))

theorem startQspi_keeps (h : Keeps r s) : Keeps r (startQspi s) := qspiRead_keeps (modBoot_keeps h)

theorem readCfg_keeps (h : Keeps r s) : Keeps r (readCfg slot s) := by
  unfold readCfg
  split
  · exact qspiRead_keeps h
  · exact h

theorem bootStep_keeps (h : Keeps r s) : Keeps r (bootStep keep f s) := by
  refine modBoot_keeps ?_
  dsimp only
  split
  · exact modBoot_keeps (chooseSlot_keeps (startQspi_keeps h))
  · split
    · next hl =>
      obtain ⟨k, -, hk⟩ := Option.bind_eq_some_iff.mp hl
      exact loadRelease_to hk h
    · exact enterRescue_keeps h
  · exact modBoot_keeps (onlyIf_keeps (fun _ => readCfg_keeps) h)
  · split
    · exact applyConfig_keeps h
    · exact h
  · exact runTiles_keeps h
  · split
    · exact modAcc_keeps (applyTeams_keeps h)
    · exact h
  · exact h

theorem fullBoot_keeps (h : Keeps r s) : Keeps r (fullBoot keep f s) := forEach_keeps (fun _ _ => bootStep_keeps) h

theorem bootOn_keeps {n : Nat} (h : Keeps r s) : Keeps r (bootOn f n s) := by
  induction n generalizing s with
  | zero => exact h
  | succ n ih => exact ite_keeps h (ite_keeps (handover_keeps h) (ih (bootStep_keeps h)))

theorem bootResume_keeps (h : Keeps r s) : Keeps r (bootResume s) := by
  unfold bootResume
  split
  · exact h
  · exact ite_keeps (handover_keeps h) (bootOn_keeps (bootStep_keeps h))

theorem holdFromKeeper_keeps {p : PortId} (h : Keeps r s) : Keeps r (holdFromKeeper p s) := modBp_keeps h

theorem deepBoot_keeps (h : Keeps r s) : Keeps r (deepBoot f s) := by
  have hq := modBoot_keeps (x0 := fun b => { b with qspi := { b.qspi with started := true, quad := true } }) h
  unfold deepBoot
  dsimp only
  split
  · have hf {k : Nat → Bool} {g g' : Acc → Acc} := modAcc_keeps (x0 := g') (fullBoot_keeps (keep := k) (f := f) (modAcc_keeps (x0 := g) hq))
    exact ite_keeps (modTim_keeps hf) (forEach_keeps (fun _ _ => holdFromKeeper_keeps) hf)
  · next u hl =>
    have hu : Keeps r u := by
      split at hl
      · exact loadRelease_to hl hq
      · cases hl
    have hc {k : Nat → Bool} {c : CfgPlan} {n : Nat} {g : Acc → Acc} :=
      runTiles_keeps (applyConfig_keeps (keep := k) (c := c) (readCfg_keeps (slot := n) (modAcc_keeps (x0 := g) hu)))
    refine modBoot_keeps (modAcc_keeps ?_)
    split
    · exact modBoot_keeps hc
    · exact hc

theorem bootContinue_keeps (h : Keeps r s) : Keeps r (bootContinue s) := by
  unfold bootContinue
  split
  · exact h
  · exact ite_keeps h (ite_keeps (deepBoot_keeps (modBoot_keeps h)) (bootOn_keeps (modBoot_keeps h)))

/-! ### Activation (11 R375 to R379) -/

theorem reloadTile_to {g : TileId} (e : reloadTile slot g s = some t) (h : Keeps r s) : Keeps r t := by
  obtain ⟨u, hu, rfl⟩ := Option.map_eq_some_iff.mp e
  exact writeTileCtl_keeps (loadTile_to hu (writeTileCtl_keeps h))

theorem activateTile_to {g : TileId} (e : activateTile slot g s = some t) (h : Keeps r s) : Keeps r t := reloadTile_to e (tileMailReset_keeps h)

theorem handoverHitless_keeps (h : Keeps r s) : Keeps r (handoverHitless s) :=
  bootRecord_keeps (modPwr_keeps (firmwareStart_keeps (startSup_keeps (startWindow_keeps (modBoot_keeps h)))))

theorem loadImage_to (e : loadImage slot s = some t) (h : Keeps r s) : Keeps r t := by
  obtain ⟨u, hu, rfl⟩ := Option.map_eq_some_iff.mp e
  exact modBoot_keeps (loadSup_to hu h)

theorem backToRescue_keeps (h : Keeps r s) : Keeps r (backToRescue s) := startSup_keeps (enterRescue_keeps (modBoot_keeps h))

theorem fallBack_keeps {writes : Bool} (h : Keeps r s) : Keeps r (fallBack writes s) := bootRecord_keeps (writeEntry_to rfl h)

theorem loadFrom_keeps {n k : Nat} {writes : Bool} (h : Keeps r s) : Keeps r (loadFrom n slot k writes s) := by
  induction n generalizing slot k s with
  | zero => exact h
  | succ n ih =>
    unfold loadFrom
    split
    · split
      · exact modBoot_keeps h
      · split
        · next ha => exact ih (activateTile_to ha h)
        · refine ite_keeps (backToRescue_keeps h) ?_
          dsimp only
          split
          · next hl => exact ih (loadImage_to hl (fallBack_keeps h))
          · exact backToRescue_keeps (fallBack_keeps h)
    · exact handoverHitless_keeps h

theorem activateInto_keeps {writes : Bool} (h : Keeps r s) : Keeps r (activateInto slot writes s) := by
  have hc : Keeps r (coldSup (supPartyReset s)) := coldSup_keeps (supPartyReset_keeps h)
  unfold activateInto
  dsimp only
  split
  · next hl => exact loadFrom_keeps (loadImage_to hl hc)
  · refine ite_keeps (backToRescue_keeps hc) ?_
    split
    · next hl => exact loadFrom_keeps (loadImage_to hl (fallBack_keeps hc))
    · exact backToRescue_keeps (fallBack_keeps hc)

theorem activationGoesOn_keeps (h : Keeps r s) : Keeps r (activationGoesOn s) := by
  unfold activationGoesOn
  split
  · exact loadFrom_keeps h
  · exact h

theorem windowExpired_keeps (h : Keeps r s) : Keeps r (windowExpired f s) :=
  activateInto_keeps (bootRecord_keeps (countTrial_keeps (stopWindow_keeps h)))

/-! ### The warm path (13 R434) -/

theorem warmPath_keeps {uncorrectable digestOk : Bool} (h : Keeps r s) : Keeps r (warmPath uncorrectable digestOk s) := by
  have hf {l : List EccError} := forEach_keeps (l := l) (fun e _ => eccFix_keeps (x0 := .codeTcm) (x1 := e.word)) h
  have hj {g : Flt → Flt} {t : State} (ht : Keeps r t) :=
    resumeArbiter_keeps (writeConfirmed_keeps (copyDump_keeps
      (startSup_keeps (pc := t.boot.entry) (evec := t.boot.vectors) (modFlt_keeps (x0 := g) ht))))
  refine ite_keeps (hj hf) ?_
  split
  · next hl =>
    split at hl
    · exact hj (loadSup_to hl hf)
    · cases hl
  · exact enterSafe_keeps hf

end Sys2Proof.Machine
end

section
/-!
PROOF. Commands of chapters 02, 10 to 13: power-up, resets, the boot ROM, updates, DFU, power states, faults and links keep the queue of
waiting commands and the canonical form of memory where they go on.
-/
namespace Sys2Proof.Machine

variable {r s : State} {u : TeamId} {g : TileId} {p : PortId} {m : Master}

/-! ### Commands that go on -/

/-- Where the outcome is a next state, that state keeps what `Keeps` says of `r`. -/
def NextKeeps (r : State) (o : Result) : Prop := ∀ t, o = .next t → Keeps r t

theorem next_keeps (h : Keeps r s) : NextKeeps r (.next s) := by
  intro t ht
  cases ht
  exact h

theorem fault_keeps {x : Fault} : NextKeeps r (.fault x) := by
  intro t ht
  cases ht

theorem ite_nextKeeps {c : Prop} [Decidable c] {x y : Result} (hx : NextKeeps r x) (hy : NextKeeps r y) : NextKeeps r (if c then x else y) := by
  split
  · exact hx
  · exact hy

/-- A command that has an effect under a condition only. -/
theorem next_if_keeps {c : Prop} [Decidable c] {t : State} (ht : Keeps r t) (h : Keeps r s) : NextKeeps r (if c then .next t else .next s) :=
  ite_nextKeeps (next_keeps ht) (next_keeps h)

theorem next_unless_keeps {c : Prop} [Decidable c] {x : Result} (h : Keeps r s) (hx : NextKeeps r x) : NextKeeps r (if c then .next s else x) :=
  ite_nextKeeps (next_keeps h) hx

/-! ### Power-up and resets (10 R338 to R347) -/

theorem setPhase_keeps {x : PwrPhase} (h : Keeps r s) : Keeps r (setPhase x s) := modPwr_keeps h

theorem powerLost_keeps (h : Keeps r s) : Keeps r (powerLost s) :=
  ite_keeps (modTim_keeps (modPwr_keeps (recordCause_keeps h))) (doChipReset_keeps (recordCause_keeps h))

theorem powerFailed_keeps {osc : Bool} (h : Keeps r s) : Keeps r (powerFailed osc s) :=
  ite_keeps (modPwr_keeps h) (ite_keeps (modCrp_keeps (modPwr_keeps h)) (recordCause_keeps (modPwr_keeps h)))

theorem wakeMemory_keeps (h : Keeps r s) : Keeps r (wakeMemory s) := by
  refine ite_keeps (ite_keeps ?_ ?_) (ite_keeps (modCrp_keeps h) h)
  · exact restoreImage_keeps (checkBanks_keeps h)
  · exact forEach_keeps (fun _ _ => modTeam_keeps) (checkBanks_keeps h)

theorem resetPinLow_keeps (h : Keeps r s) : Keeps r (resetPinLow s) := by
  have hm {f : Pwr → Pwr} : Keeps r (modPwr f (recordCause rstPin s)) := modPwr_keeps (recordCause_keeps h)
  unfold resetPinLow
  dsimp only
  split
  · exact doChipReset_keeps hm
  · exact doChipReset_keeps hm
  · exact doChipReset_keeps hm
  · exact ite_keeps hm (doChipReset_keeps hm)

theorem execCoreResetRelease_keeps (h : Keeps r s) : NextKeeps r (execCoreResetRelease s) :=
  next_unless_keeps h (next_if_keeps (doChipReset_keeps h) (wakeMemory_keeps (modPwr_keeps h)))

theorem execResetPinRelease_keeps (h : Keeps r s) : NextKeeps r (execResetPinRelease s) :=
  next_keeps (ite_self_keeps (fun _ => setPhase_keeps) (modPwr_keeps h))

/-! ### The boot ROM (10 R349, R350) -/

theorem execBootStart_keeps {testMode : Bool} {f : FlashStatus} (h : Keeps r s) : NextKeeps r (execBootStart testMode f s) :=
  next_unless_keeps h (ite_nextKeeps fault_keeps (next_keeps (modBoot_keeps (modPwr_keeps h))))

theorem execBootStepTimeout_keeps {k : Fin 16} (h : Keeps r s) : NextKeeps r (execBootStepTimeout k s) :=
  next_keeps (ite_keeps (ite_self_keeps (fun _ => allEv_keeps fun _ => bootResume_keeps) (raise_keeps h)) h)

theorem execTileReady_keeps (h : Keeps r s) : NextKeeps r (execTileReady g s) :=
  next_if_keeps (allEv_keeps (fun _ ht => bootContinue_keeps (tileReadyNow_keeps ht)) h) h

/-! ### Update sessions and DFU (11 R371 to R382) -/

theorem modStn_keeps {f : Station → Station} (h : Keeps r s) : Keeps r (modStn u f s) := modTeam_keeps h

theorem dfuError_keeps {n : Nat} (h : Keeps r s) : Keeps r (dfuError u n s) := modStn_keeps h

theorem dfuFollow_keeps {s₀ : State} (h : Keeps r s) : Keeps r (dfuFollow s₀ s) := by
  unfold dfuFollow
  split
  · exact ite_self_keeps (fun _ => dfuError_keeps) h
  · exact h

theorem execVerifyComplete_keeps (h : Keeps r s) : NextKeeps r (execVerifyComplete s) := by
  have hv : Keeps r (dfuFollow s (updVerified s)) := dfuFollow_keeps (updVerified_keeps h)
  unfold execVerifyComplete
  dsimp only
  split
  · exact next_keeps (ite_self_keeps (fun _ => updActivate_keeps) hv)
  · exact next_keeps hv

theorem execActivationCommit_keeps {ok : Bool} (h : Keeps r s) : NextKeeps r (execActivationCommit ok s) := by
  unfold execActivationCommit
  refine next_unless_keeps h ?_
  dsimp only
  split
  · next he => exact next_keeps (dfuFollow_keeps (updEnd_keeps (writeEntry_to he h)))
  · next t he =>
    have hc {n : Nat} {x : UpdPath} {k : Word} : Keeps r (updClose .idle 0 (updRecord 4 n 0 x k t)) :=
      updClose_keeps (updRecord_keeps (writeEntry_to he h))
    refine next_if_keeps (modBoot_keeps (doChipReset_keeps ?_)) (allEv_keeps (fun _ => activateInto_keeps) ?_)
    all_goals
      split
      · exact modStn_keeps hc
      · exact hc

theorem dfuReq_keeps {f : State → State} (hf : ∀ t, Keeps r t → Keeps r (f t)) (h : Keeps r s) : NextKeeps r (dfuReq u f s) :=
  next_keeps (stationReq_keeps (fun _ ht => ite_keeps (hf _ ht) (answer_keeps ht)) h)

theorem dfuStall_keeps {n : Nat} (h : Keeps r s) : Keeps r (dfuStall u n s) := answer_keeps (dfuError_keeps h)

theorem dfuAfter_keeps {x : DfuState} {n : Nat} (h : Keeps r s) : Keeps r (dfuAfter u x n s) :=
  ite_keeps (dfuStall_keeps h) (accept_keeps (modStn_keeps h))

theorem dfuManifestNow_keeps (h : Keeps r s) : Keeps r (dfuManifestNow u s) :=
  dfuAfter_keeps (updVerify_keeps (ite_self_keeps (fun _ => modBoot_keeps) h))

theorem dfuBlock_keeps {n : Nat} {data : List Byte} (h : Keeps r s) : Keeps r (dfuBlock u n data s) := by
  have ho := ite_keeps (c := n = 0 ∧ ¬ (s.boot.src == .dfu u) = true)
    (updBegin_keeps (x0 := .dfu u) (x1 := dfuLength) (modBoot_keeps (x0 := fun b => { b with err := 0 }) h)) h
  exact ite_keeps (dfuStall_keeps ho) (dfuAfter_keeps (updWrite_keeps (modBoot_keeps ho)))

theorem execDfuDnload_keeps {n : Nat} {data : List Byte} (h : Keeps r s) : NextKeeps r (execDfuDnload u n data s) := by
  refine dfuReq_keeps (fun t ht => ?_) h
  split
  · exact ite_keeps (dfuStall_keeps ht) (dfuBlock_keeps ht)
  · exact ite_keeps (dfuManifestNow_keeps ht) (ite_keeps (dfuStall_keeps ht) (dfuBlock_keeps ht))
  · exact answer_keeps ht
  · exact dfuStall_keeps ht

theorem execDfuManifest_keeps (h : Keeps r s) : NextKeeps r (execDfuManifest u s) := by
  refine dfuReq_keeps (fun t ht => ?_) h
  split
  · exact dfuManifestNow_keeps ht
  · exact answer_keeps ht
  · exact dfuStall_keeps ht

theorem execDfuGetstatus_keeps (h : Keeps r s) : NextKeeps r (execDfuGetstatus u s) :=
  dfuReq_keeps (fun _ ht => answer_keeps (ite_self_keeps (fun _ => modStn_keeps) (drawNat_keeps ht))) h

theorem execDfuClrstatus_keeps (h : Keeps r s) : NextKeeps r (execDfuClrstatus u s) :=
  dfuReq_keeps (fun _ ht => ite_keeps (accept_keeps (modStn_keeps ht)) (answer_keeps ht)) h

theorem execDfuAbort_keeps (h : Keeps r s) : NextKeeps r (execDfuAbort u s) :=
  dfuReq_keeps (fun _ ht => ite_keeps (answer_keeps ht) (accept_keeps (modStn_keeps (ite_self_keeps (fun _ => updEnd_keeps) ht)))) h

theorem execDfuDetach_keeps (h : Keeps r s) : NextKeeps r (execDfuDetach u s) :=
  next_keeps (stationReq_keeps (fun _ ht => ite_keeps (answer_keeps ht) (addChange_keeps (modStn_keeps (accept_keeps ht)))) h)

/-! ### Power states and wake (12 R392 to R404) -/

theorem deepResident_keeps (h : Keeps r s) : Keeps r (deepResident s) :=
  modCrp_keeps (modPwr_keeps (resetDie_keeps (fixWords_keeps (takeStamp_keeps (t := none) h))))

theorem execEntryResident_keeps (h : Keeps r s) : NextKeeps r (execEntryResident s) := by
  unfold execEntryResident
  refine next_unless_keeps h ?_
  split
  · exact next_keeps (modCrp_keeps h)
  · exact next_keeps (deepResident_keeps h)
  · exact next_keeps h

theorem offResident_keeps (h : Keeps r s) : Keeps r (offResident s) := modCrp_keeps (modPwr_keeps (resetOff_keeps h))

theorem execWakeMinOffExpire_keeps (h : Keeps r s) : NextKeeps r (execWakeMinOffExpire s) :=
  next_unless_keeps h (next_keeps (ite_self_keeps (fun _ => raiseCore_keeps) (setPhase_keeps h)))

theorem execWakeSource_keeps {x : WakeSrc} (h : Keeps r s) : NextKeeps r (execWakeSource x s) := by
  have hl : Keeps r (latchWake x s) := latchWake_keeps h
  unfold execWakeSource
  refine next_unless_keeps h ?_
  split
  · exact next_keeps (modCrp_keeps hl)
  · exact next_keeps (modCrp_keeps hl)
  · exact next_keeps (ite_self_keeps (fun _ => raiseCore_keeps) hl)
  · exact next_keeps (ite_self_keeps (fun _ => raiseCore_keeps) hl)
  · exact next_keeps hl
  · exact next_keeps h

theorem execSleepWakeComplete_keeps (h : Keeps r s) : NextKeeps r (execSleepWakeComplete s) := by
  refine next_if_keeps (allEv_keeps (fun t ht => ?_) (modCrp_keeps h)) h
  have hw {l : List WakeSrc} : Keeps r (forEach l actWake (completeWake false t)) := forEach_keeps (fun _ _ => actWake_keeps) (completeWake_keeps ht)
  exact resumeArbiter_keeps (forEach_keeps (fun _ _ hp => syncHub_keeps (wakePort_keeps hp)) (endSupWait_keeps hw))

theorem execDeepWakeHandover_keeps (h : Keeps r s) : NextKeeps r (execDeepWakeHandover s) :=
  next_if_keeps (allEv_keeps (fun _ ht => postImage_keeps (latchSup_keeps (handover_keeps ht))) h) h

/-! ### Register accesses, SPI and wake-serial transactions (02) -/

theorem execRegisterWrite_keeps {a : Addr} {v : Word} {w : Width} (h : Keeps r s) : NextKeeps r (execRegisterWrite m a v w s) := by
  cases m with
  | spi => exact next_keeps (masterWrite_keeps h)
  | ws => exact next_keeps (masterWrite_keeps h)
  | sup | weaver t => exact next_unless_keeps h (next_keeps (modAcc_keeps (psiWrite_keeps (hi := 0) h)))

theorem execReadResult_keeps (h : Keeps r s) : NextKeeps r (execReadResult s) :=
  next_unless_keeps h (next_if_keeps (spiAnswer_keeps (drawWord_keeps (noteFrame_keeps h))) (spiAnswer_keeps (noteFrame_keeps h)))

theorem execBadcmd_keeps {code : Byte} (h : Keeps r s) : NextKeeps r (execBadcmd code s) :=
  next_unless_keeps h (next_keeps (spiFramingError_keeps (drawBool_keeps h)))

theorem execFrameErr_keeps {code : Byte} {n : Nat} (h : Keeps r s) : NextKeeps r (execFrameErr code n s) := by
  have hd : Keeps r (drawBool s).2 := drawBool_keeps h
  unfold execFrameErr
  refine next_unless_keeps h (ite_nextKeeps (next_keeps (spiFramingError_keeps hd)) ?_)
  split
  · exact next_if_keeps h (spiFramingError_keeps h)
  · exact next_keeps (spiFramingError_keeps hd)

theorem execSpiReadComplete_keeps (h : Keeps r s) : NextKeeps r (execSpiReadComplete s) := by
  unfold execSpiReadComplete
  split
  · exact next_keeps h
  · exact next_if_keeps h (spiDone_keeps (wordRead_keeps h))

theorem onWs_keeps {dev : BitVec 7} {f : State → State} (hf : ∀ t, Keeps r t → Keeps r (f t)) (h : Keeps r s) : NextKeeps r (onWs dev f s) :=
  next_keeps (ite_keeps (hf _ h) (modWs_keeps h))

theorem execWsReadTimeout_keeps {a : WsAddr} (h : Keeps r s) : NextKeeps r (execWsReadTimeout a s) := by
  unfold execWsReadTimeout
  refine ite_nextKeeps (next_keeps (modWs_keeps h)) (next_unless_keeps h ?_)
  split
  · exact next_keeps (wsBadAddress_keeps h)
  · exact next_keeps (wsEnd_noted_keeps h)

theorem execGuardWindowExpire_keeps {a : Addr} (h : Keeps r s) : NextKeeps r (execGuardWindowExpire a s) := by
  unfold execGuardWindowExpire
  split
  · exact next_keeps h
  · exact next_keeps (breakPair_keeps h)

theorem execMbxTimeout_keeps {b : Fin 24} (h : Keeps r s) : NextKeeps r (execMbxTimeout b s) :=
  next_if_keeps (reportBox_keeps (modBox_keeps h)) h

/-! ### The fault collector, watchdogs and restarts (13) -/

theorem reloadOnFault_keeps {src : Fin 64} {d : Word} (h : Keeps r s) : Keeps r (reloadOnFault src d s) := by
  unfold reloadOnFault
  split
  · refine ite_keeps h (ite_keeps (ite_keeps h (restartThread_keeps h)) (ite_keeps h ?_))
    cases e : reloadTile s.boot.slot _ s with
    | none => exact h
    | some t => exact reloadTile_to e h
  · exact h

theorem execFaultReport_keeps {src : Fin 64} {d : Word} (h : Keeps r s) : NextKeeps r (execFaultReport src d s) := by
  unfold execFaultReport
  refine next_unless_keeps h ?_
  split
  · exact next_keeps (allEv_keeps (fun _ ht => reloadOnFault_keeps (latchReport_keeps ht)) (modFlt_keeps h))
  · exact next_keeps (allEv_keeps (fun _ ht => reloadOnFault_keeps (latchReport_keeps ht)) h)

theorem execLockstepMismatch_keeps (h : Keeps r s) : NextKeeps r (execLockstepMismatch s) :=
  next_unless_keeps h (next_keeps (allEv_keeps (fun _ => latchReport_keeps) (ite_snd_keeps h (drawWord_keeps h))))

theorem execWeaverWatchdog_keeps (h : Keeps r s) : NextKeeps r (execWeaverWatchdog p s) :=
  next_if_keeps (portEv_keeps (fun _ ht => hwRestart_keeps (raiseLine_keeps ht)) h) h

/-! ### Die-to-die links (01 R14, R15, 13 R442, R443) -/

theorem modLink_keeps {f : Link → Link} (h : Keeps r s) : Keeps r (modLink g f s) := modTile_keeps h

theorem linkReport_keeps {n : Nat} {l : Lane} (h : Keeps r s) : Keeps r (linkReport g n l s) := raise_keeps h

theorem secondFailure_keeps {l : Lane} (h : Keeps r s) : Keeps r (secondFailure g l s) := by
  refine ite_keeps ?_ (forEach_keeps (fun p t ht => ?_) (linkReport_keeps (modLink_keeps h)))
  · exact linkReport_keeps (isolateTile_keeps (linkReport_keeps (modLink_keeps h)))
  · split
    · exact ite_keeps (portChange_keeps (stopServing_keeps ht)) ht
    · exact ht

theorem laneFailure_keeps {l : Lane} (h : Keeps r s) : Keeps r (laneFailure g l s) :=
  ite_keeps (linkReport_keeps (modLink_keeps h)) (ite_keeps h (secondFailure_keeps h))

theorem laneFailure_seen_keeps {l : Lane} (h : Keeps r s) : Keeps r (allEv (laneFailure g l) s) := allEv_keeps (fun _ => laneFailure_keeps) h

theorem execControlFrame_keeps {ok : Bool} (h : Keeps r s) : NextKeeps r (execControlFrame g ok s) := by
  have hi := ite_self_keeps (c := injArmed s 5 5 g.val = true) (fun _ => injDone_keeps) h
  refine next_unless_keeps h (ite_nextKeeps (next_keeps (modLink_keeps hi)) (next_if_keeps (modLink_keeps hi) ?_))
  exact laneFailure_seen_keeps (modLink_keeps hi)

theorem execLinkTrainingFailed_keeps (h : Keeps r s) : NextKeeps r (execLinkTrainingFailed g s) :=
  next_unless_keeps h (next_keeps (allEv_keeps (fun _ ht => linkReport_keeps (modLink_keeps ht)) (drawNat_keeps h)))

end Sys2Proof.Machine
end

section
/-!
PROOF. Commands of chapters 03 and 04: teams, hub requests, devices, port moves and transaction translators keep the queue of waiting commands
and the canonical form of memory.
-/
namespace Sys2Proof.Machine

variable {r s : State} {u : TeamId} {g : TileId} {p : PortId} {ok : State → Bool} {f : State → State}

/-! ### SOFs and the repeat path (03 R89, 04 R123, 08 R282) -/

theorem corrSof_keeps (h : Keeps r s) : Keeps r (corrSof u s) :=
  ite_self_keeps (fun _ => modTeam_keeps) (modTeam_keeps (takeStamp_keeps (t := none) h))

theorem repeatDown_keeps {sp : Speed} {sof : Bool} (h : Keeps r s) : Keeps r (repeatDown u sp sof s) :=
  onlyIf_keeps (fun _ => forEach_keeps fun _ _ => portEop_keeps) (modTeam_keeps h)

theorem endLinger_keeps (h : Keeps r s) : Keeps r (endLinger u s) := forEach_keeps (fun _ _ => modHub_keeps) h

theorem nextUframe_keeps (h : Keeps r s) : Keeps r (nextUframe u s) := endLinger_keeps (modTeam_keeps h)

theorem execUfpSof_keeps {n : Nat} (h : Keeps r s) : NextKeeps r (execUfpSof u n s) := by
  refine next_keeps (ite_keeps h (ite_keeps ?_ ?_))
  · exact corrSof_keeps (repeatDown_keeps (nextUframe_keeps (modTeam_keeps h)))
  · exact corrSof_keeps (repeatDown_keeps (endLinger_keeps (modTeam_keeps h)))

theorem execMicroframeTimeout_keeps (h : Keeps r s) : NextKeeps r (execMicroframeTimeout u s) :=
  next_keeps (ite_keeps (nextUframe_keeps (modTeam_keeps h)) h)

theorem startFrame_keeps (h : Keeps r s) : Keeps r (startFrame g u s) := forEach_keeps (fun _ _ => modHub_keeps) h

theorem execMicroframeMarker_keeps (h : Keeps r s) : NextKeeps r (execMicroframeMarker g u s) :=
  next_keeps (ite_keeps h (onlyIf_keeps (fun _ => startFrame_keeps) (modTile_keeps h)))

/-! ### Start-splits and complete-splits (04 R114 to R136) -/

theorem execStartSplitPeriodic_keeps {n d e : Nat} {i low : Bool} {ty : XferType} {part : SplitPart} {data : List Byte} (h : Keeps r s) :
    NextKeeps r (execStartSplitPeriodic u n d e i ty low part data s) := by
  have ha : Keeps r (answer u .none s) := answer_keeps h
  refine next_keeps ?_
  dsimp only
  split
  · exact ha
  · refine ite_keeps (ttcError_keeps ha) (ite_keeps ha ?_)
    split
    · exact openPeriodic_keeps ha
    · exact openPeriodic_keeps ha
    · exact feedOut_keeps ha
    · exact feedOut_keeps ha

theorem execStartSplitNonperiodic_keeps {n d e : Nat} {i setup low crcOk : Bool} {ty : XferType} {data : List Byte} (h : Keeps r s) :
    NextKeeps r (execStartSplitNonperiodic u n d e i setup ty low crcOk data s) := by
  refine next_keeps ?_
  split
  · exact answer_keeps h
  · exact ite_keeps (answer_keeps (ttcError_keeps h)) (openNonperiodic_keeps h)

theorem orphan_keeps {ty : XferType} (h : Keeps r s) : Keeps r (orphan u p ty s) := answer_keeps (ttcError_keeps h)

theorem execCompleteSplit_keeps {n d e : Nat} {i : Bool} {ty : XferType} (h : Keeps r s) : NextKeeps r (execCompleteSplit u n d e i ty s) := by
  refine next_keeps (ite_keeps (answer_keeps h) ?_)
  split
  · exact answer_keeps (modTtc_keeps (raise_keeps h))
  · dsimp only
    split
    · exact orphan_keeps h
    · next c x hf =>
      have hc {q : PortId} : Keeps r (if ctxBad s c.slot then eccDrop q c.slot s else ctxFix c.slot s) := ite_keeps (eccDrop_keeps h) (ctxFix_keeps h)
      split
      · exact hc
      · refine ite_keeps (answer_keeps (eccDrop_keeps hc)) (answer_keeps (modFirst_keeps ?_))
        exact onlyIf_keeps (fun _ => unitsFix_keeps) hc

/-! ### The port bus (04 R124 to R140) -/

theorem execTtDescriptor_keeps (h : Keeps r s) : NextKeeps r (execTtDescriptor p s) := by
  refine next_keeps (ite_keeps h ?_)
  split
  · exact h
  · exact ite_keeps (eccDrop_keeps h) (modFirst_keeps (onlyIf_keeps (fun _ => unitsFix_keeps) (ctxFix_keeps h)))

theorem startTxn_keeps {q : Ctx → Txn → Bool} (h : Keeps r s) : Keeps r (startTxn p q s) := by
  unfold startTxn
  split
  · exact h
  · exact ite_keeps (eccDrop_keeps h) (modTt_keeps (modFirst_keeps (onlyIf_keeps (fun _ => unitsFix_keeps) h)))

theorem execPortBusTxnStart_keeps {fits : Bool} (h : Keeps r s) : NextKeeps r (execPortBusTxnStart p fits s) :=
  next_keeps (ite_keeps h (ite_keeps (startTxn_keeps h) (ite_self_keeps (fun _ => startTxn_keeps) h)))

theorem execTtResult_keeps {b : BusResult} (h : Keeps r s) : NextKeeps r (execTtResult p b s) := by
  refine next_keeps (ite_keeps h ?_)
  split
  · exact ite_self_keeps (fun _ => afterBus_keeps) h
  · refine ite_keeps (afterBus_keeps (modFirst_keeps (pdrop_keeps h))) ?_
    split
    · exact afterBus_keeps (arrive_keeps h)
    · exact arrive_keeps h
    · exact afterBus_keeps (modFirst_keeps (busError_keeps h))
    · exact afterBus_keeps (modFirst_keeps h)

theorem execTtResultLost_keeps (h : Keeps r s) : NextKeeps r (execTtResultLost p s) := by
  refine next_keeps (ite_keeps h ?_)
  split
  · exact ite_keeps (afterBus_keeps (ttcError_keeps h)) h
  · have hd {b : Bool} {n : Nat} {q : Ctx → Txn → Bool} {k : Txn → Txn} : Keeps r (onlyIf b (pdropCount n) (ttcError 5 p (modTxns p q k s))) :=
      onlyIf_keeps (fun _ => pdropCount_keeps) (ttcError_keeps (modTxns_keeps h))
    exact ite_keeps hd (afterBus_keeps hd)

theorem execLateDrop_keeps (h : Keeps r s) : NextKeeps r (execLateDrop p s) :=
  next_keeps (ite_keeps (pdropCount_keeps (ttcError_keeps (modFirst_keeps h))) h)

theorem execPeriodicContextExpire_keeps (h : Keeps r s) : NextKeeps r (execPeriodicContextExpire p s) := by
  refine next_keeps ?_
  split
  · exact freeCtxs_keeps h
  · exact h

theorem execNpHoldExpire_keeps {d e : Nat} {i : Bool} (h : Keeps r s) : NextKeeps r (execNpHoldExpire p d e i s) := by
  refine next_keeps ?_
  split
  · exact ite_self_keeps (fun _ => freeCtxs_keeps) h
  · exact h

/-! ### The three shapes of a hub command -/

theorem onTeam_keeps (hf : ∀ t, Keeps r t → Keeps r (f t)) (h : Keeps r s) : NextKeeps r (onTeam ok f s) :=
  next_keeps (allEv_keeps (fun _ => ite_self_keeps hf) h)

theorem onHub_keeps (hf : ∀ t, Keeps r t → Keeps r (f t)) (h : Keeps r s) : NextKeeps r (onHub ok f s) := onTeam_keeps hf h

theorem onReq_keeps (hf : ∀ t, Keeps r t → Keeps r (f t)) (h : Keeps r s) : NextKeeps r (onReq f s) := next_keeps (allEv_keeps hf h)

theorem onReq_host_keeps (hf : ∀ t, Keeps r t → Keeps r (f t)) (h : Keeps r s) : NextKeeps r (onReq (onHost u f) s) :=
  onReq_keeps (fun _ => onHost_keeps hf) h

theorem onReq_class_keeps {b : Bool} (hf : ∀ t, Keeps r t → Keeps r (f t)) (h : Keeps r s) : NextKeeps r (onReq (classReq u b f) s) :=
  onReq_keeps (fun _ => classReq_keeps hf) h

theorem onReq_port_keeps {n : Nat} {b : Bool} (hf : ∀ t, Keeps r t → Keeps r (f t)) (h : Keeps r s) : NextKeeps r (onReq (portReq u n b f) s) :=
  onReq_keeps (fun _ => portReq_keeps hf) h

/-! ### The upstream port (03 R74 to R77, R96 to R104) -/

theorem corrFresh_keeps (h : Keeps r s) : Keeps r (corrFresh u s) := modTeam_keeps h

theorem corrFresh_resumeTeam_keeps (h : Keeps r s) : Keeps r (corrFresh u (resumeTeam u s)) := corrFresh_keeps (resumeTeam_keeps h)

theorem execTeamAttach_keeps (h : Keeps r s) : NextKeeps r (execTeamAttach u s) :=
  onHub_keeps (fun _ ht => corrFresh_keeps (setTeamSt_keeps (modTeam_keeps ht))) h

theorem execTeamDetach_keeps (h : Keeps r s) : NextKeeps r (execTeamDetach u s) :=
  onTeam_keeps (fun _ ht => ite_keeps (modTeam_keeps ht)
    (ite_keeps (followPower_all_keeps (detachTeam_keeps (modTeam_keeps ht))) (modTeam_keeps (modTeam_keeps ht)))) h

theorem execBusReset_keeps {chirp : Bool} (h : Keeps r s) : NextKeeps r (execBusReset u chirp s) :=
  onHub_keeps (fun _ ht => setTeamSt_keeps (modTeam_keeps (updBusReset_keeps (followPower_all_keeps (busResetEffects_keeps ht))))) h

theorem execTeamSuspend_keeps (h : Keeps r s) : NextKeeps r (execTeamSuspend u s) :=
  onHub_keeps (fun _ ht => stationWake_keeps (setTeamSt_keeps (modTeam_keeps ht))) h

theorem modStation_keeps {k : Station → Station} (h : Keeps r s) : Keeps r (modStation u k s) := modTeam_keeps h

theorem stationResume_keeps (h : Keeps r s) : Keeps r (stationResume u s) := ite_keeps (addChange_keeps (modStation_keeps h)) h

theorem execHostResume_keeps (h : Keeps r s) : NextKeeps r (execHostResume u s) :=
  onHub_keeps (fun _ ht => forEach_keeps (fun _ _ => resumeDone_keeps)
    (onlyIf_keeps (fun _ => stationResume_keeps) (corrFresh_resumeTeam_keeps (modTeam_keeps ht)))) h

theorem leaveL1_keeps (h : Keeps r s) : Keeps r (leaveL1 p s) := ite_keeps (portChange_keeps (modHub_keeps h)) h

theorem remoteWake_keeps (h : Keeps r s) : Keeps r (remoteWake u p s) := by
  unfold remoteWake
  split
  · exact ite_keeps (startWake_keeps (leaveL1_keeps h)) h
  · exact ite_self_keeps (fun _ => modTeam_keeps) (leaveL1_keeps h)
  · exact ite_keeps (leaveL1_keeps h) (ite_self_keeps (fun _ => modHub_keeps) h)

theorem execRemoteWakeK_keeps (h : Keeps r s) : NextKeeps r (execRemoteWakeK p s) := by
  refine onHub_keeps (fun t ht => ?_) h
  split
  · exact remoteWake_keeps ht
  · exact ht

theorem execRemoteWakeDriveEnd_keeps (h : Keeps r s) : NextKeeps r (execRemoteWakeDriveEnd u s) :=
  onHub_keeps (fun _ ht => ite_keeps (corrFresh_resumeTeam_keeps ht) (modTeam_keeps ht)) h

theorem execLpmToken_keeps {l1 w : Bool} {besl : Fin 16} (h : Keeps r s) : NextKeeps r (execLpmToken u l1 besl w s) :=
  onReq_host_keeps (fun _ ht => ite_keeps (answer_keeps ht) (ite_keeps (answer_keeps ht)
    (stationWake_keeps (setTeamSt_keeps (modTeam_keeps (answer_keeps ht)))))) h

/-! ### Standard requests (03 R78, R79, R91, R104) -/

theorem stdReq_keeps {d : TeamDevice} (hf : ∀ t, Keeps r t → Keeps r (f t)) (h : Keeps r s) : Keeps r (stdReq u d f s) := by
  cases d with
  | hub => exact onHost_keeps hf h
  | station => exact stationReq_keeps hf h

theorem execSetInterface_keeps {n : Nat} (h : Keeps r s) : NextKeeps r (execSetInterface u n s) :=
  onReq_host_keeps (fun _ ht => ite_keeps (accept_keeps (modTeam_keeps ht)) (answer_keeps ht)) h

theorem execSetAddress_keeps {d : TeamDevice} {a : BitVec 7} (h : Keeps r s) : NextKeeps r (execSetAddress u d a s) := by
  refine onReq_keeps (fun t => stdReq_keeps fun t ht => ?_) h
  cases d with
  | hub => exact setTeamSt_keeps (modTeam_keeps (accept_keeps ht))
  | station => exact accept_keeps (modTeam_keeps ht)

theorem execSetConfiguration_keeps {d : TeamDevice} {n : Nat} (h : Keeps r s) : NextKeeps r (execSetConfiguration u d n s) := by
  refine onReq_keeps (fun t => stdReq_keeps fun t ht => ?_) h
  cases d with
  | hub => exact ite_keeps (answer_keeps ht) (setTeamSt_keeps (modTeam_keeps (accept_keeps ht)))
  | station => exact ite_keeps (answer_keeps ht) (accept_keeps (modTeam_keeps ht))

theorem execDeviceRemoteWakeup_keeps {d : TeamDevice} {b : Bool} (h : Keeps r s) : NextKeeps r (execDeviceRemoteWakeup u d b s) := by
  refine onReq_keeps (fun t => stdReq_keeps fun t ht => ?_) h
  cases d with
  | hub => exact accept_keeps (modTeam_keeps ht)
  | station => exact accept_keeps (modTeam_keeps ht)

/-! ### Hub class requests (03 R80 to R86, R97, R102, R103) -/

theorem feature_keeps {n : Nat} {k : PortId → State → State} (hf : ∀ t, Keeps r t → Keeps r (f t))
    (hk : ∀ p t, Keeps r t → Keeps r (k p t)) (h : Keeps r s) : Keeps r (feature u n f k s) := by
  refine accept_keeps (ite_keeps (hf s h) ?_)
  split
  · exact hk _ s h
  · exact h

/-- A feature of a port that the request sets or clears (Table 3.8). -/
theorem portFeature_keeps {n : Nat} {k : PortId → State → State} (hf : ∀ t, Keeps r t → Keeps r (f t))
    (hk : ∀ p t, Keeps r t → Keeps r (k p t)) (h : Keeps r s) : NextKeeps r (onReq (portReq u n false (feature u n f k)) s) := onReq_port_keeps (fun _ => feature_keeps hf hk) h

theorem execClearPortEnable_keeps {n : Nat} (h : Keeps r s) : NextKeeps r (execClearPortEnable u n s) :=
  portFeature_keeps (fun _ => modStation_keeps) (fun _ _ => ite_self_keeps fun _ => stopServing_keeps) h

theorem execSetPortSuspend_keeps {n : Nat} (h : Keeps r s) : NextKeeps r (execSetPortSuspend u n s) :=
  portFeature_keeps (fun _ ht => stationWake_keeps (modStation_keeps ht)) (fun _ _ => modHub_keeps) h

theorem execSetPortReset_keeps {n : Nat} (h : Keeps r s) : NextKeeps r (execSetPortReset u n s) :=
  portFeature_keeps (fun _ ht => ite_keeps (addChange_keeps (modStation_keeps ht)) ht) (fun _ _ => ite_self_keeps fun _ => modHub_keeps) h

theorem execPortResetComplete_keeps {sp : Speed} (h : Keeps r s) : NextKeeps r (execPortResetComplete p sp s) :=
  onHub_keeps (fun _ ht => portChange_keeps (modHub_keeps ht)) h

theorem execSetPortPower_keeps {n : Nat} (h : Keeps r s) : NextKeeps r (execSetPortPower u n s) := by
  refine onReq_port_keeps (fun t ht => accept_keeps ?_) h
  split
  · exact followPower_keeps (modHub_keeps (setHubPower_keeps ht))
  · exact setHubPower_keeps ht

theorem execClearPortPower_keeps {n : Nat} (h : Keeps r s) : NextKeeps r (execClearPortPower u n s) := by
  refine onReq_port_keeps (fun t ht => ?_) h
  have hp : Keeps r (setHubPower u n false t) := setHubPower_keeps ht
  dsimp only
  split
  · next q _ =>
    have hw := followPower_keeps (x0 := q) (modHub_keeps (x0 := q) (x1 := fun x => { x with rpOff := true }) hp)
    exact ite_keeps (ite_keeps (answer_keeps (modHub_keeps hw)) (accept_keeps hw)) (accept_keeps hp)
  · exact accept_keeps hp

theorem execSetPortTest_keeps {n : Nat} {x : TestMode} (h : Keeps r s) : NextKeeps r (execSetPortTest u n x s) :=
  onReq_port_keeps (fun _ ht => ite_keeps (answer_keeps ht) (feature_keeps (fun _ => id) (fun _ _ => modHub_keeps) ht)) h

theorem execClearTtBuffer_keeps {n d e : Nat} {ty : XferType} (i : Bool) (h : Keeps r s) : NextKeeps r (execClearTtBuffer u n d e ty i s) := by
  refine onReq_port_keeps (fun t ht => ite_keeps (answer_keeps ht) ?_) h
  have hc {l : List PortId} : Keeps r (forEach l (fun p s => clearBuffer p d e ty s) t) := forEach_keeps (fun _ _ => clearBuffer_keeps) ht
  exact ite_keeps (answer_keeps hc) (accept_keeps hc)

theorem execResetTt_keeps {n : Nat} (h : Keeps r s) : NextKeeps r (execResetTt u n s) := by
  refine onReq_port_keeps (fun t ht => ?_) h
  split
  · exact answer_keeps (modTt_keeps (resetTt_keeps ht))
  · exact accept_keeps ht

theorem execStopTt_keeps {n : Nat} (h : Keeps r s) : NextKeeps r (execStopTt u n s) := by
  refine onReq_port_keeps (fun t ht => ?_) h
  split
  · exact ite_keeps (answer_keeps (modTt_keeps (stopTt_keeps ht))) (accept_keeps (stopTt_keeps ht))
  · exact accept_keeps ht

theorem execSetAndTestPortL1_keeps {n : Nat} {besl : Fin 16} {w : Bool} (d : Nat) {a1 a2 a3 : LpmAnswer} (h : Keeps r s) :
    NextKeeps r (execSetAndTestPortL1 u n besl w d a1 a2 a3 s) := by
  refine onReq_port_keeps (fun t ht => answerBytes_keeps (ite_snd_keeps (stationWake_keeps (modStation_keeps ht)) ?_)) h
  split
  · exact ite_snd_keeps ht (ite_snd_keeps ht (onlyIf_keeps (fun _ => modHub_keeps) ht))
  · exact ht

theorem execStatusChangeIn_keeps (h : Keeps r s) : NextKeeps r (execStatusChangeIn u s) :=
  onReq_host_keeps (fun _ ht => ite_keeps (answer_keeps ht) (ite_keeps (answer_keeps ht) (sendIn_keeps ht))) h

/-! ### Devices on the ports (03 R84, R89, R107, 01 R17) -/

theorem seeDevice_keeps {d : Option Speed} (h : Keeps r s) : Keeps r (seeDevice p d s) := ite_self_keeps (fun _ => syncHub_keeps) (modHub_keeps h)

theorem execPortBabble_keeps (h : Keeps r s) : NextKeeps r (execPortBabble p s) :=
  onHub_keeps (fun _ ht => portChange_keeps (stopServing_keeps ht)) h

theorem execRepeatPathPacket_keeps {up : Option PortId} {sp : Speed} (h : Keeps r s) : NextKeeps r (execRepeatPathPacket u up sp s) := by
  refine next_keeps (ite_keeps h ?_)
  cases up with
  | none => exact repeatDown_keeps h
  | some p => exact ite_keeps (onlyIf_keeps (fun _ => teamEop_keeps) (modTeam_keeps h)) h

/-! ### The station function (03 R92 to R95) -/

theorem execGetInfo_keeps {x : VendorIn} (h : Keeps r s) : NextKeeps r (execGetInfo x s) :=
  onReq_keeps (fun _ => stationReq_keeps fun _ ht => ite_keeps (answer_keeps ht) (answerBytes_keeps ht)) h

theorem execSetQueues_keeps {x : VendorOut} (h : Keeps r s) : NextKeeps r (execSetQueues u x s) :=
  onReq_keeps (fun _ => stationReq_keeps fun _ ht => ite_keeps (answer_keeps ht)
    (ite_keeps (accept_keeps (setQmask_keeps ht)) (answer_keeps (setQmask_keeps ht)))) h

theorem foldl_snd_keeps {α β : Type} {k : α × State → β → α × State} {l : List β} {acc : α × State}
    (hk : ∀ x b, Keeps r x.2 → Keeps r (k x b).2) (h : Keeps r acc.2) : Keeps r (l.foldl k acc).2 := by
  induction l generalizing acc with
  | nil => exact h
  | cons b l ih => exact ih (hk acc b h)

theorem popItem_keeps {q : QueueId} (h : Keeps r s) : Keeps r (popItem q s).2 := by
  have hq : Keeps r (queueCheck q s) := queueCheck_keeps h
  refine ite_snd_keeps hq (ite_snd_keeps (resetQueue_keeps hq) (gapAfterRead_keeps (modQueue_keeps (foldl_snd_keeps (fun x n hx => ?_) hq))))
  split
  · next hpop => exact popWord_to hpop hx
  · exact hx

theorem fillPacket_keeps {n room : Nat} {acc : List Byte} (h : Keeps r s) : Keeps r (fillPacket u n room acc s).2 := by
  induction n generalizing room acc s with
  | zero => exact h
  | succ n ih =>
    unfold fillPacket
    split
    · exact h
    · refine ite_snd_keeps h ?_
      split
      · next hi => exact ih (keeps_of_snd hi (popItem_keeps h))
      · next hi => exact ih (keeps_of_snd hi (popItem_keeps h))

theorem execEventEndpointIn_keeps {x : EventIn} (h : Keeps r s) : NextKeeps r (execEventEndpointIn x s) := by
  refine onReq_keeps (fun _ => onStation_keeps fun t ht => ite_keeps (answer_keeps ht) ?_) h
  have hb {n : Nat} : Keeps r (if (t.team x.team).evBuf.isEmpty then fillPacket x.team 144 n [] t else ((t.team x.team).evBuf, t)).2 :=
    ite_snd_keeps (fillPacket_keeps ht) ht
  exact ite_keeps (answer_keeps (modTeam_keeps hb)) (sendIn_keeps (modTeam_keeps hb))

theorem popCorr_keeps (h : Keeps r s) : Keeps r (popCorr u s).2 := modTeam_keeps h

theorem execCorrelationEndpointIn_keeps (h : Keeps r s) : NextKeeps r (execCorrelationEndpointIn u s) := by
  refine onReq_keeps (fun _ => onStation_keeps fun t ht => ite_keeps (answer_keeps ht) ?_) h
  split
  · exact answer_keeps ht
  · exact sendIn_keeps (popCorr_keeps ht)
  · exact sendIn_keeps (popCorr_keeps (popCorr_keeps ht))

/-! ### Moving a port (03 R110, R111, R113) -/

theorem rpAfterMove_keeps (h : Keeps r s) : Keeps r (rpAfterMove p s) := followPower_keeps (modHub_keeps h)

theorem execMoveRetireEnd_keeps (h : Keeps r s) : NextKeeps r (execMoveRetireEnd p s) :=
  onHub_keeps (fun _ ht => ite_keeps (setMstate_keeps (freeTt_keeps ht))
    (rpAfterMove_keeps (modHub_keeps (setMstate_keeps (freeTt_keeps ht))))) h

theorem execMoveGapExpire_keeps (h : Keeps r s) : NextKeeps r (execMoveGapExpire p s) :=
  onHub_keeps (fun _ ht => rpAfterMove_keeps (setMstate_keeps (syncHub_keeps (modHub_keeps (portChange_keeps (setMstate_keeps ht)))))) h

end Sys2Proof.Machine
end

section
/-!
PROOF. Commands of chapters 06 and 07: Type-C, Power Delivery, budget words, group feeds, ramps and protection keep the queue of waiting
commands and the canonical form of memory.
-/
namespace Sys2Proof.Machine

variable {r s : State} {p : PortId} {g : TileId} {h : BitVec 16} {f : State → State}

/-! ### The shapes of a port's commands -/

theorem portCmd_keeps (hf : ∀ t, Keeps r t → Keeps r (f t)) (hs : Keeps r s) : NextKeeps r (.next (portEv p f s)) :=
  next_keeps (portEv_keeps hf hs)

/-- A message of the partner. -/
theorem msgCmd_keeps {m : PdMsg} (hf : ∀ t, Keeps r t → Keeps r (f t)) (hs : Keeps r s) : NextKeeps r (.next (portEv p (onMsg p m f) s)) :=
  portCmd_keeps (fun _ => onMsg_keeps hf) hs

theorem onTimer_keeps {x : PdTimer} (hf : ∀ t, Keeps r t → Keeps r (f t)) (hs : Keeps r s) : Keeps r (onTimer p x f s) :=
  ite_keeps (hf _ (tOff_keeps hs)) hs

/-- A timer of the policy. -/
theorem timerCmd_keeps {x : PdTimer} (hf : ∀ t, Keeps r t → Keeps r (f t)) (hs : Keeps r s) : NextKeeps r (.next (portEv p (onTimer p x f) s)) :=
  portCmd_keeps (fun _ => onTimer_keeps hf) hs

/-! ### Attach and detach (06 R172 to R176, R214) -/

theorem execCcPatternChange_keeps {c1 c2 : Cc} (hs : Keeps r s) : NextKeeps r (execCcPatternChange p c1 c2 s) := by
  have hl {x : Option Stamp} {k : PortTc → PortTc} {v : Word} :
      Keeps r (latchEv p v (modPhy p (fun y => { y with ccStamp := x }) (modTc p k (takeStamp (some (tileOf p)) s).2))) :=
    latchEv_keeps (modPhy_keeps (modTc_keeps (takeStamp_keeps hs)))
  exact next_unless_keeps hs (next_keeps (ite_keeps (modTc_keeps hl) (modTc_keeps hl)))

theorem execTCcDebounce_keeps (hs : Keeps r s) : NextKeeps r (execTCcDebounce p s) := by
  refine next_keeps (ite_keeps (syncHub_keeps (askBase_keeps (modPd_keeps (weaverPost_keeps (holdVconn_keeps ?_))))) hs)
  exact startBaseline_keeps (modTc_keeps (latchTcCfg_keeps hs))

theorem execTPdDebounce_keeps {v : Nat} (hs : Keeps r s) : NextKeeps r (execTPdDebounce p v s) :=
  portCmd_keeps (fun _ ht => ite_keeps (detach_keeps (modPw_keeps ht)) ht) hs

theorem execTransitionDetach_keeps {v : Nat} (hs : Keeps r s) : NextKeeps r (execTransitionDetach p v s) :=
  portCmd_keeps (fun _ ht => ite_keeps (ite_keeps (detach_keeps (modPw_keeps ht)) (hwDetach_keeps (modPw_keeps ht))) ht) hs

/-! ### The PHY (01 R19, 06 R180, 09 R323 to R325) -/

theorem rxHardReset_keeps (hs : Keeps r s) : Keeps r (rxHardReset p s) :=
  ite_keeps hs (onLate_keeps (postPd_keeps (latchEv_keeps (phyHardReset_keeps (takeStamp_keeps (t := some (tileOf p)) hs)))))

theorem execPdMessageRx_keeps {fr : Frame} {objs : List Word} {ok : Bool} {low : Int} (hs : Keeps r s) :
    NextKeeps r (execPdMessageRx p fr h objs ok low s) := by
  refine portCmd_keeps (fun t ht => ?_) hs
  refine ite_keeps (hearAsleep_keeps ht) (ite_keeps (rxHardReset_keeps ht) (ite_keeps ht (ite_keeps (modPd_keeps ht) ?_)))
  exact onlyIf_keeps (fun _ => overflowed_keeps) (phyReceive_keeps (baselineSample_keeps ht))

theorem execPdTxStart_keeps (hs : Keeps r s) : NextKeeps r (execPdTxStart p s) := by
  have hm {x : Option Stamp} : Keeps r (modPhy p (fun y => { y with txStamp := x }) (takeStamp (some (tileOf p)) s).2) :=
    modPhy_keeps (takeStamp_keeps hs)
  refine next_keeps ?_
  dsimp only
  split
  · refine ite_keeps hs (ite_keeps (nextTx_keeps ?_) (modPhy_keeps (onlyIf_keeps (fun _ => modPhy_keeps) hm)))
    exact ite_keeps (latchEv_keeps (modPhy_keeps hm)) (postPd_keeps (latchEv_keeps (modPhy_keeps hm)))
  · exact hs

theorem postSent_keeps {x : Tx} {b : Bool} (hs : Keeps r s) : Keeps r (postSent p x b s) := ite_keeps hs (postPd_keeps hs)

theorem endTx_keeps {x : Tx} (hs : Keeps r s) : Keeps r (endTx p x s) := nextTx_keeps (stepTxId_keeps (modPhy_keeps hs))

theorem execTReceive_keeps (hs : Keeps r s) : NextKeeps r (execTReceive p s) := by
  refine portCmd_keeps (fun t ht => ?_) hs
  split
  · refine ite_keeps ht (ite_keeps (modPhy_keeps ht) (onlyIf_keeps (fun _ => onLate_keeps) ?_))
    exact endTx_keeps (postSent_keeps (latchEv_keeps (modPd_keeps ht)))
  · exact ht

theorem execGoodcrc_keeps (hs : Keeps r s) : NextKeeps r (execGoodcrc p s) := by
  refine portCmd_keeps (fun t ht => ?_) hs
  split
  · refine ite_keeps ht (onlyIf_keeps (fun _ => onLate_keeps) (onlyIf_keeps (fun _ => modPd_keeps) ?_))
    exact endTx_keeps (postSent_keeps (latchEv_keeps ht))
  · exact ht

/-! ### Messages of the partner (06 R181, R188, R206, R211, R221) -/

theorem execRequest_keeps {rdo : Word} (hs : Keeps r s) : NextKeeps r (execRequest p h rdo s) := by
  refine msgCmd_keeps (fun t ht => ite_keeps ht (ite_keeps (softReset_keeps ht) ?_)) hs
  split
  · exact sendReject_keeps (modPd_keeps (ite_keeps ht (tOff_keeps ht)))
  · exact ask_keeps (tOn_keeps (modPd_keeps (tOff_keeps (tOff_keeps ht))))

theorem execSoftReset_keeps (hs : Keeps r s) : NextKeeps r (execSoftReset p h s) :=
  msgCmd_keeps (fun _ ht => sendCaps_keeps (putTx_keeps (modPhy_keeps (abortSeq_keeps (stCut_keeps (modPd_keeps ht)))))) hs

theorem rev3_keeps (hf : ∀ t, Keeps r t → Keeps r (f t)) (hs : Keeps r s) : Keeps r (rev3 p f s) := ite_keeps (hf s hs) (unsupported_keeps hs)

/-- A message that only Revision 3.x answers. -/
theorem rev3Cmd_keeps {m : PdMsg} (hf : ∀ t, Keeps r t → Keeps r (f t)) (hs : Keeps r s) :
    NextKeeps r (.next (portEv p (onMsg p m (rev3 p f)) s)) := msgCmd_keeps (fun _ => rev3_keeps hf) hs

theorem execGetStatus_keeps (hs : Keeps r s) : NextKeeps r (execGetStatus p h s) :=
  rev3Cmd_keeps (fun _ ht => modPd_keeps (putTx_keeps (ht.upd rfl rfl))) hs

theorem execVconnSwap_keeps {b : Bool} (hs : Keeps r s) : NextKeeps r (execVconnSwap p h b s) :=
  msgCmd_keeps (fun _ ht => ite_keeps (ite_keeps (vconnToPort_keeps (putTx_keeps ht)) (sendReject_keeps ht))
    (ite_keeps (putTx_keeps (modPd_keeps ht)) (sendReject_keeps ht))) hs

theorem execPsRdy_keeps (hs : Keeps r s) : NextKeeps r (execPsRdy p h s) :=
  msgCmd_keeps (fun _ ht => ite_keeps (endSeq_keeps (vconnToPartner_keeps (tOff_keeps ht))) (unsupported_keeps ht)) hs

theorem execPdAccept_keeps {b : Bool} (hs : Keeps r s) : NextKeeps r (execPdAccept p h b s) :=
  msgCmd_keeps (fun _ ht => ite_keeps (sendCaps_keeps (modPd_keeps (tOff_keeps ht)))
    (ite_keeps (ite_keeps (vconnToPort_keeps (tOff_keeps ht)) (tOn_keeps (tOff_keeps ht))) (unsupported_keeps ht))) hs

theorem dropSeq_keeps (hs : Keeps r s) : Keeps r (dropSeq p s) := ite_keeps hs (endSeq_keeps (ite_keeps hs (tOff_keeps hs)))

theorem endVdm_keeps (hs : Keeps r s) : Keeps r (endVdm p s) := ite_keeps (endSeq_keeps (tOff_keeps hs)) (modPd_keeps (tOff_keeps hs))

theorem stFail_keeps {x : Option Stamp} (hs : Keeps r s) : Keeps r (stFail p x s) := endVdm_keeps (postAltAt_keeps hs)

theorem stLeft_keeps {x : Option Stamp} (hs : Keeps r s) : Keeps r (stLeft p x s) := endVdm_keeps (postAltAt_keeps (modPd_keeps hs))

theorem vdmFailed_keeps {x : Option Stamp} (hs : Keeps r s) : Keeps r (vdmFailed p x s) :=
  ite_keeps (stFail_keeps hs) (ite_keeps (stLeft_keeps hs) (endVdm_keeps hs))

theorem refused_keeps (hs : Keeps r s) : Keeps r (refused p s) :=
  ite_keeps (vdmFailed_keeps hs) (ite_keeps (unsupported_keeps hs) (dropSeq_keeps hs))

theorem execNotSupported_keeps (hs : Keeps r s) : NextKeeps r (execNotSupported p h s) :=
  msgCmd_keeps (fun _ ht => ite_keeps (vdmFailed_keeps ht) (ite_keeps ht (dropSeq_keeps ht))) hs

theorem execBist_keeps {w : Word} (hs : Keeps r s) : NextKeeps r (execBist p h w s) :=
  msgCmd_keeps (fun _ ht => ite_keeps ht (ite_keeps (modPhy_keeps ht) (ite_keeps (modPd_keeps ht) ht))) hs

theorem execUnsupportedMessage_keeps (hs : Keeps r s) : NextKeeps r (execUnsupportedMessage p h s) :=
  msgCmd_keeps (fun _ ht => ite_keeps (refused_keeps ht) (ite_keeps (putTx_keeps ht) (unsupported_keeps ht))) hs

theorem execExtendedMessage_keeps {b : Bool} (hs : Keeps r s) : NextKeeps r (execExtendedMessage p h b s) :=
  msgCmd_keeps (fun _ ht => ite_keeps (tOn_keeps ht) (putTx_keeps ht)) hs

theorem execTChunkingNotSupported_keeps (hs : Keeps r s) : NextKeeps r (execTChunkingNotSupported p s) :=
  next_keeps (onTimer_keeps (fun _ ht => ite_keeps (resumeOwn_keeps (putTx_keeps ht)) ht) hs)

/-! ### Discovery (06 R209, R210, R215 to R220) -/

theorem cableAnswer_keeps {n : Nat} {vdos : List Word} (hs : Keeps r s) : Keeps r (cableAnswer p n vdos s) := by
  have he {k : PortPd → PortPd} := ite_self_keeps
    (c := vdmSeq ((modPd p k (tOff p .discoverIdentity s)).port p).pd = .cableId) (fun _ => endVdm_keeps (p := p))
    (modPd_keeps (x0 := p) (x1 := k) (tOff_keeps (x0 := p) (x1 := .discoverIdentity) hs))
  exact ite_keeps hs (ite_keeps (askHold_keeps (modPd_keeps he)) (ite_keeps (startOwn_keeps he) (firstCaps_keeps he)))

theorem stAck_keeps {q : Seq} {vdos : List Word} (hs : Keeps r s) : Keeps r (stAck p q vdos s) := by
  have he : Keeps r (endVdm p s) := endVdm_keeps hs
  refine ite_keeps he ?_
  split
  · exact startOwn_keeps he
  · refine ite_self_keeps (fun _ => startOwn_keeps) ?_
    split
    · exact ite_keeps he (postAltAt_keeps (modPd_keeps he))
    · exact he
  · exact ite_keeps (startOwn_keeps (modPd_keeps he)) he
  · have ha {x : Option Stamp} : Keeps r (postAltAt p x 0 stSvid (modPd p (fun d => { d with alt := true }) (endVdm p s))) :=
      postAltAt_keeps (modPd_keeps he)
    exact ite_keeps (startOwn_keeps ha) (exitMode_keeps ha)
  · exact ite_keeps (sendStStatus_keeps (closeSbu_keeps he)) he
  · exact he

theorem execVdmResponse_keeps {fr : Frame} {w : Word} {vdos : List Word} (hs : Keeps r s) : NextKeeps r (execVdmResponse p fr h w vdos s) := by
  refine msgCmd_keeps (fun t ht => ?_) hs
  refine ite_keeps (cableAnswer_keeps ht) (ite_keeps (stLeft_keeps ht) (ite_keeps (endVdm_keeps ht) (ite_keeps ht (ite_keeps (stAck_keeps ht) ?_))))
  exact ite_self_keeps (fun _ => exitMode_keeps) (stFail_keeps ht)

theorem execTVconnStable_keeps (hs : Keeps r s) : NextKeeps r (execTVconnStable p s) :=
  timerCmd_keeps (fun _ ht => ite_keeps (startOwn_keeps ht) (firstCaps_keeps ht)) hs

theorem execTDiscoverIdentity_keeps (hs : Keeps r s) : NextKeeps r (execTDiscoverIdentity p s) := by
  refine timerCmd_keeps (fun t ht => ite_keeps ht ?_) hs
  have he := ite_self_keeps (c := vdmSeq (t.port p).pd = .cableId) (fun _ => endVdm_keeps (p := p)) ht
  exact ite_keeps (firstCaps_keeps (modPd_keeps he)) (ite_keeps (ite_keeps (startOwn_keeps he) (firstCaps_keeps he)) (firstCaps_keeps he))

/-! ### Timers of the policy (06 Table 6.2) -/

theorem execTSrcSettle_keeps (hs : Keeps r s) : NextKeeps r (execTSrcSettle p s) :=
  portCmd_keeps (fun _ ht => onlyIf_keeps (fun _ => sendHardReset_keeps)
    (ite_self_keeps (fun _ => endTransition_keeps) (onlyIf_keeps (fun _ => tOff_keeps) ht))) hs

theorem execTPsHardReset_keeps (hs : Keeps r s) : NextKeeps r (execTPsHardReset p s) :=
  timerCmd_keeps (fun _ ht => tOn_keeps (modTc_keeps (ite_self_keeps (fun _ => setVconn_keeps) (latchEv_keeps (keeperNone_keeps ht))))) hs

theorem execTSrcRecover_keeps {b : Bool} (hs : Keeps r s) : NextKeeps r (execTSrcRecover p b s) := by
  refine portCmd_keeps (fun t ht => ite_keeps ht (ite_keeps (ite_keeps ht (tOn_keeps ht)) (ite_self_keeps (fun _ => vbusOn_keeps) ?_))) hs
  exact ite_keeps (ite_self_keeps (fun _ => tOn_keeps) (setVconn_keeps (tOff_keeps (tOff_keeps ht)))) (tOff_keeps (tOff_keeps ht))

theorem execTNoResponse_keeps (hs : Keeps r s) : NextKeeps r (execTNoResponse p s) :=
  timerCmd_keeps (fun _ ht => ite_keeps (disablePd_keeps ht) (sendHardReset_keeps ht)) hs

theorem sendCaps_live_keeps {x : PdTimer} {q : Seq} (hs : Keeps r s) :
    NextKeeps r (.next (portEv p (onTimer p x fun s => if pdLive s p then sendCaps p q s else s) s)) :=
  timerCmd_keeps (fun _ => ite_self_keeps fun _ => sendCaps_keeps) hs

/-! ### VCONN faults (06 R205, 14 R466) -/

theorem vconnTrip_keeps (hs : Keeps r s) : Keeps r (vconnTrip p s) := by
  have hl {k : PortTc → PortTc} {v : Word} : Keeps r (latchEv p v (modTc p k s)) := latchEv_keeps (modTc_keeps hs)
  exact ite_keeps (ite_keeps (firstCaps_keeps (postVconn_keeps hl)) (modTc_keeps hl)) hs

theorem execCcOvervoltHold_keeps {x y : Bool} (hs : Keeps r s) : NextKeeps r (execCcOvervoltHold p x y s) :=
  next_keeps (ite_keeps (modTc_keeps hs) (holdVconn_keeps (onlyIf_keeps (fun _ => vconnTrip_keeps) (modTc_keeps hs))))

/-! ### Budget words (06 R189, R194 to R198, R202) -/

theorem toArbiter_keeps {w : BudWord} (hs : Keeps r s) : Keeps r (toArbiter p w s) :=
  ite_keeps (unstall_keeps (decideWord_keeps (arriveUp_keeps hs))) hs

theorem answered_keeps {w : BudWord} {k : Nat → State → State} (hk : ∀ n t, Keeps r t → Keeps r (k n t)) (hs : Keeps r s) :
    Keeps r (answered p w k s) := by
  refine ite_keeps hs ?_
  dsimp only
  split
  · exact arriveDown_keeps hs
  · exact hk _ _ (modPd_keeps (arriveDown_keeps hs))

theorem execGrant_keeps {tag : Byte} {w : BitVec 16} (hs : Keeps r s) : NextKeeps r (execGrant p tag w s) := by
  refine portCmd_keeps (fun t => answered_keeps fun n t ht => ite_keeps ?_ (ite_keeps ?_ (holdKnown_keeps ht))) hs
  · exact ite_keeps (fallToZero_keeps ht) (onlyIf_keeps (fun _ => vbusOn_keeps) ht)
  · exact onlyIf_keeps (fun _ => holdKnown_keeps) (ite_keeps ht (answerAccept_keeps ht))

theorem execShort_keeps {tag : Byte} {w : BitVec 16} (hs : Keeps r s) : NextKeeps r (execShort p tag w s) := by
  refine portCmd_keeps (fun t => answered_keeps fun n t ht => ite_keeps ?_ (ite_keeps ?_ (holdKnown_keeps ht))) hs
  · exact ite_keeps (askBase_keeps (setRp_keeps ht)) ht
  · exact onlyIf_keeps (fun _ => holdKnown_keeps) (ite_keeps ht (answerWait_keeps ht))

theorem newHold_keeps {w : BudWord} (hs : Keeps r s) : Keeps r (newHold p w s) :=
  ite_keeps (holdKnown_keeps (modPd_keeps (arriveDown_keeps hs))) hs

/-! ### Group feeds (07 R229 to R236) -/

variable {ok : State → Bool}

theorem onGroup_keeps (hf : ∀ t, Keeps r t → Keeps r (f t)) (hs : Keeps r s) : NextKeeps r (onGroup g ok f s) :=
  next_keeps (groupEv_keeps (fun _ => ite_self_keeps hf) hs)

theorem onPort_keeps (hf : ∀ t, Keeps r t → Keeps r (f t)) (hs : Keeps r s) : NextKeeps r (onPort p ok f s) :=
  portCmd_keeps (fun _ => ite_self_keeps hf) hs

theorem seeFeedV_keeps {n : Nat} (hs : Keeps r s) : Keeps r (seeFeedV g n s) := modGrp_keeps hs

theorem seeFeedI_keeps {n : Nat} (hs : Keeps r s) : Keeps r (seeFeedI g n s) := modGrp_keeps hs

theorem tripFeed_keeps {a b c : Nat} (hs : Keeps r s) : Keeps r (tripFeed g a b c s) := feedLost_keeps (feedTrip_keeps hs)

theorem feedBack_keeps (hs : Keeps r s) : Keeps r (feedBack p s) := ite_self_keeps (fun _ => orLater_keeps fun _ => askAgain_keeps) hs

theorem execFeedPgood_keeps {n : Nat} (hs : Keeps r s) : NextKeeps r (execFeedPgood g n s) :=
  onGroup_keeps (fun _ ht => forEach_keeps (fun _ _ => syncHub_keeps) (onlyIf_keeps (fun _ => forEach_keeps fun _ _ => feedBack_keeps)
    (settle_keeps (setFeedPg_keeps (setFeed_keeps (seeFeedV_keeps ht)))))) hs

theorem execFeedWarn_keeps {n : Nat} (hs : Keeps r s) : NextKeeps r (execFeedWarn g n s) :=
  onGroup_keeps (fun _ ht => settle_keeps (setFeedPg_keeps (setFeed_keeps (seeFeedV_keeps ht)))) hs

theorem execRailUp_keeps {n : Nat} (hs : Keeps r s) : NextKeeps r (execRailUp g n s) :=
  onGroup_keeps (fun _ ht => forEach_keeps (fun _ _ => onlyIf_keeps fun _ => rewant_keeps) (modGrp_keeps ht)) hs

theorem loseRailPort_keeps (hs : Keeps r s) : Keeps r (loseRailPort p s) :=
  ite_keeps (orLater_keeps (fun _ => sendHardReset_keeps) (tripPort_keeps hs)) hs

theorem execRailLost_keeps {n : Nat} (hs : Keeps r s) : NextKeeps r (execRailLost g n s) :=
  onGroup_keeps (fun _ ht => forEach_keeps (fun _ _ => loseRailPort_keeps) (modGrp_keeps ht)) hs

/-! ### Relay start and ramps (07 R243 to R247) -/

theorem execRelayGrant_keeps (hs : Keeps r s) : NextKeeps r (execRelayGrant s) := by
  refine next_keeps (ite_keeps ?_ hs)
  split
  · exact portEv_keeps (fun _ ht => modBud_keeps (startRamp_keeps ht)) hs
  · exact hs

theorem seePort_keeps {n : Nat} {i : Int} (hs : Keeps r s) : Keeps r (seePort p n i s) := modPw_keeps hs

theorem tripAndTell_keeps {a b c : Nat} {x : Path} (hs : Keeps r s) : Keeps r (tripAndTell p a b c x s) :=
  vbusLost_keeps (modPd_keeps (tripPort_keeps hs))

theorem tripNow_keeps {a b : Nat} (hs : Keeps r s) : Keeps r (tripNow p a b s) := tripAndTell_keeps hs

theorem execRampProbeEnd_keeps {a b c : Nat} (hs : Keeps r s) : NextKeeps r (execRampProbeEnd p a b c s) := by
  refine onPort_keeps (fun t ht => ?_) hs
  have hd : Keeps r (if b = 0 ∧ c = 0 then drawNat (seePort p a b t) else (0, seePort p a b t)).2 :=
    ite_snd_keeps (drawNat_keeps (seePort_keeps ht)) (seePort_keeps ht)
  exact ite_keeps (modPw_keeps hd) (ite_keeps (tripNow_keeps (modPw_keeps hd)) (modPw_keeps hd))

theorem execRampCheck_keeps {a b : Nat} (hs : Keeps r s) : NextKeeps r (execRampCheck p a b s) := by
  refine onPort_keeps (fun t ht => ?_) hs
  have hv : Keeps r (seePort p a b t) := seePort_keeps ht
  exact ite_keeps (modPw_keeps hv) (ite_keeps (tripNow_keeps hv) (modPw_keeps hv))

theorem execRampComplete_keeps {n : Nat} (hs : Keeps r s) : NextKeeps r (execRampComplete p n s) :=
  onPort_keeps (fun _ ht => contractMade_keeps (startHeld_keeps (modPw_keeps ht))) hs

theorem learnHeldRamp_keeps (hs : Keeps r s) : Keeps r (learnHeldRamp p s) := ite_keeps (modPw_keeps (drawNat_keeps hs)) hs

theorem execTransitionEnd_keeps {n : Nat} (hs : Keeps r s) : NextKeeps r (execTransitionEnd p n s) :=
  onPort_keeps (fun _ ht => contractMade_keeps (endTransition_keeps (learnHeldRamp_keeps (modPw_keeps ht)))) hs

/-! ### Power-good, breakers, pass-FET checks and cooldown (07 R242, R248 to R255) -/

theorem execPgoodRise_keeps {n : Nat} (hs : Keeps r s) : NextKeeps r (execPgoodRise p n s) :=
  onPort_keeps (fun _ ht => vbusGood_keeps (syncHub_keeps (postPgood_keeps (modPw_keeps ht)))) hs

theorem execPgoodFall_keeps {n : Nat} (hs : Keeps r s) : NextKeeps r (execPgoodFall p n s) :=
  onPort_keeps (fun _ ht => syncHub_keeps (postPgood_keeps (modPw_keeps ht))) hs

theorem execFetShort_keeps {n : Nat} (hs : Keeps r s) : NextKeeps r (execFetShort p n s) := by
  refine next_keeps (groupEv_keeps (fun t ht => ite_keeps ht ?_) hs)
  have hd {x : Path} : Keeps r (disableTc p (tripAndTell p 8 0 0 x (latchPfet p x true t))) :=
    disableTc_keeps (tripAndTell_keeps (latchPfet_keeps ht))
  exact ite_keeps (feedLost_keeps (feedDisable_keeps hd)) (syncHub_keeps hd)

theorem execPortCooldownEnd_keeps (hs : Keeps r s) : NextKeeps r (execPortCooldownEnd p s) :=
  onPort_keeps (fun _ ht => syncHub_keeps (vbusAgain_keeps (modPw_keeps ht))) hs

theorem execDischargeEnd_keeps (hs : Keeps r s) : NextKeeps r (execDischargeEnd p s) :=
  onPort_keeps (fun _ ht => modHub_keeps (modPw_keeps (drawNat_keeps ht))) hs

end Sys2Proof.Machine
end

section
/-!
PROOF. Instructions of the PSI cores (09) keep the queue of waiting commands and the canonical form of memory.
-/
namespace Sys2Proof.Machine

variable {r s : State} {k : Core} {rd ra rb : Reg} {b : Bool} {f : State → State}

/-! ### Issue of an instruction (09 R288 to R300) -/

theorem finish_keeps {x : Cpu → Cpu} (h : Keeps r s) : Keeps r (finish k x s) := modCpu_keeps h

theorem issue_keeps (hf : ∀ t, Keeps r t → Keeps r (f t)) (h : Keeps r s) : NextKeeps r (issue k f s) := by
  refine next_keeps (ite_keeps h (ite_keeps (latchReport_keeps (injDone_keeps h)) ?_))
  dsimp only
  split
  · exact busError'_keeps h
  · next x _ =>
    have he : Keeps r (eccLocal x s).2 := eccLocal_to rfl h
    exact ite_keeps (memError_keeps he) (ite_keeps (illegal_keeps he) (hf _ he))

theorem legal_keeps (hf : ∀ t, Keeps r t → Keeps r (f t)) (h : Keeps r s) : Keeps r (legal k b f s) := ite_keeps (hf s h) (illegal_keeps h)

theorem issue_legal_keeps {c : Bool} (hf : ∀ t, Keeps r t → Keeps r (f t)) (h : Keeps r s) : NextKeeps r (issue k (legal k c f) s) :=
  issue_keeps (fun _ => legal_keeps hf) h

theorem onWeaver_keeps {f : PortId → State → State} (hf : ∀ p t, Keeps r t → Keeps r (f p t)) (h : Keeps r s) : Keeps r (onWeaver k f s) := by
  cases k with
  | sup => exact illegal_keeps h
  | weaver p => exact hf p s h

theorem issue_onWeaver_keeps {f : PortId → State → State} (hf : ∀ p t, Keeps r t → Keeps r (f p t)) (h : Keeps r s) :
    NextKeeps r (issue k (onWeaver k f) s) := issue_keeps (fun _ => onWeaver_keeps hf) h

theorem onSup_keeps (hf : ∀ t, Keeps r t → Keeps r (f t)) (h : Keeps r s) : Keeps r (onSup k f s) := by
  cases k with
  | sup => exact hf s h
  | weaver p => exact illegal_keeps h

theorem onBox_keeps {box : Core → Nat → Option (Fin 24)} {imm : BitVec 12} {f : Fin 24 → State → State}
    (hf : ∀ x t, Keeps r t → Keeps r (f x t)) (h : Keeps r s) : NextKeeps r (issue k (onBox k box ra imm f) s) := by
  refine issue_keeps (fun t ht => ?_) h
  unfold onBox
  split
  · exact hf _ t ht
  · exact illegal_keeps ht

/-! ### The ALU, branches and jumps (09 R301 to R305) -/

theorem alu_keeps {x : Cpu → AluOut} (h : Keeps r s) : NextKeeps r (alu k rd b x s) := issue_keeps (fun _ => finish_keeps) h

theorem aluTest_keeps {x : Cpu → AluOut} (h : Keeps r s) : NextKeeps r (aluTest k rd x s) := issue_legal_keeps (fun _ => finish_keeps) h

theorem aluOne_keeps {x : Cpu → AluOut} (h : Keeps r s) : NextKeeps r (aluOne k rd rb b x s) := issue_legal_keeps (fun _ => finish_keeps) h

theorem execCrc_keeps {n : BitVec 6} (h : Keeps r s) : NextKeeps r (execCrc k rd ra rb n b s) :=
  issue_legal_keeps (fun _ ht => ite_keeps (finish_keeps ht) (finish_keeps (drawWord_keeps ht))) h

theorem execJlr_keeps {imm : BitVec 18} (h : Keeps r s) : NextKeeps r (execJlr k rd ra imm s) :=
  issue_keeps (fun _ ht => ite_keeps (busError'_keeps ht) (modCpu_keeps ht)) h

/-! ### Local memory (09 R296, R306) -/

theorem eccLocal_keeps {x : LocalPlace} (h : Keeps r s) : Keeps r (eccLocal x s).2 := eccLocal_to rfl h

theorem eccLoad_keeps {n : Nat} {x : LocalPlace} (h : Keeps r s) : Keeps r (eccLoad n x s).2 :=
  ite_snd_keeps (eccLocal_keeps (eccLocal_keeps h)) (eccLocal_keeps h)

theorem loadLocal_keeps {n : Nat} {imm : BitVec 18} {x : Nat → Cpu → Cpu} (h : Keeps r s) : Keeps r (loadLocal k n ra imm x s) := by
  refine ite_keeps (busError'_keeps h) ?_
  split
  · exact busError'_keeps h
  · exact ite_keeps (memError_keeps (eccLoad_keeps h)) (finish_keeps (eccLoad_keeps h))

theorem eccWritten_keeps {n w : Nat} {m : EccMem} (h : Keeps r s) : Keeps r (eccWritten n m w s) :=
  ite_keeps (eccStore_keeps (eccStore_keeps h)) (ite_keeps (eccStore_keeps h) (ite_keeps h (eccStore_keeps (eccFix_keeps h))))

theorem storeLocal_keeps {n v : Nat} {imm : BitVec 18} (h : Keeps r s) : Keeps r (storeLocal k n ra imm v s) := by
  refine ite_keeps (busError'_keeps h) ?_
  split
  · exact finish_keeps (eccWritten_keeps (h.updMem (memPutBytes_wf _ _) rfl))
  · exact busError'_keeps h

theorem load_keeps {n : Nat} {imm : BitVec 18} {x : Nat → Cpu → Cpu} (h : Keeps r s) : NextKeeps r (issue k (loadLocal k n ra imm x) s) :=
  issue_keeps (fun _ => loadLocal_keeps) h

theorem execStw_keeps {imm : BitVec 18} (h : Keeps r s) : NextKeeps r (execStw k rd ra imm s) := issue_keeps (fun _ => storeLocal_keeps) h

theorem execSth_keeps {imm : BitVec 18} (h : Keeps r s) : NextKeeps r (execSth k rd ra imm s) := issue_keeps (fun _ => storeLocal_keeps) h

theorem execStb_keeps {imm : BitVec 18} (h : Keeps r s) : NextKeeps r (execStb k rd ra imm s) := issue_keeps (fun _ => storeLocal_keeps) h

theorem execStd_keeps {imm : BitVec 18} (h : Keeps r s) : NextKeeps r (execStd k rd ra imm s) := issue_legal_keeps (fun _ => storeLocal_keeps) h

/-! ### Device registers and FENCE (09 R307 to R310) -/

theorem readDevice_keeps {w : Width} {a : Word} (h : Keeps r s) : Keeps r (readDevice k rd w a s) :=
  have hr := modAcc_keeps (psiRead_keeps h)
  ite_keeps (finish_keeps hr) (busError'_keeps hr)

theorem rldRun_keeps {imm : BitVec 18} (h : Keeps r s) : Keeps r (rldRun k rd ra imm s) :=
  ite_keeps (busError'_keeps h) (ite_keeps (modCpu_keeps h) (readDevice_keeps h))

theorem execRldComplete_keeps (h : Keeps r s) : NextKeeps r (execRldComplete k s) := by
  refine next_keeps ?_
  split
  · exact ite_self_keeps (fun _ => readDevice_keeps) h
  · exact h

theorem execRldTimeout_keeps (h : Keeps r s) : NextKeeps r (execRldTimeout s) := by
  refine next_keeps ?_
  split
  · exact ite_self_keeps (fun _ => busError'_keeps) h
  · exact h

theorem rstRun_keeps {imm : BitVec 18} (h : Keeps r s) : Keeps r (rstRun k rd ra imm s) := by
  have hw {m : Master} {w : Width} {a : Nat} {v hi : Word} : Keeps r (psiWrite m w a v hi (modCpu k advance s)).2 :=
    psiWrite_keeps (modCpu_keeps h)
  exact ite_keeps (busError'_keeps h) (ite_keeps (busError'_keeps (modCpu_keeps (modAcc_keeps hw))) (modAcc_keeps hw))

theorem execFence_keeps (h : Keeps r s) : NextKeeps r (execFence k s) :=
  issue_keeps (fun _ ht => ite_keeps (modCpu_keeps ht) (finish_keeps ht)) h

/-! ### PD buffers and the port (09 R323 to R327) -/

theorem execPdrd_keeps {w : BitVec 12} (h : Keeps r s) : NextKeeps r (execPdrd k rd w s) :=
  issue_onWeaver_keeps (fun _ _ ht => ite_keeps (finish_keeps (drawWord_keeps ht)) (finish_keeps ht)) h

theorem execPdsend_keeps {x : PdsendArg} (h : Keeps r s) : NextKeeps r (execPdsend k x s) := by
  refine issue_onWeaver_keeps (fun p t ht => ?_) h
  split
  · exact illegal_keeps ht
  · exact ite_keeps (finish_keeps ht) (finish_keeps (modPhy_keeps ht))

theorem pctl_keeps {n : Nat} {x : Byte} {f : PortId → State → State} (hf : ∀ p t, Keeps r t → Keeps r (f p t)) (h : Keeps r s) :
    NextKeeps r (pctl k n x f s) := issue_onWeaver_keeps (fun p _ => legal_keeps fun _ ht => hf p _ (finish_keeps ht)) h

theorem execPctlVconn_keeps {x : Byte} (h : Keeps r s) : NextKeeps r (execPctlVconn k x b s) :=
  issue_onWeaver_keeps (fun _ _ => legal_keeps fun _ ht => ite_keeps (finish_keeps ht)
    (finish_keeps (onlyIf_keeps (fun _ => holdVconn_keeps) (modTc_keeps ht)))) h

theorem execPctlState_keeps {x : Byte} (h : Keeps r s) : NextKeeps r (execPctlState k x s) :=
  pctl_keeps (fun _ _ => allEv_keeps fun _ ht => ite_keeps (enterRecovery_keeps ht) (syncHub_keeps (modTc_keeps ht))) h

/-! ### Special registers, exceptions and waiting (09 R295, R311 to R314, R329 to R331) -/

theorem execSrd_keeps {n : BitVec 12} (h : Keeps r s) : NextKeeps r (execSrd k rd n s) := by
  refine issue_keeps (fun t ht => ?_) h
  split
  · exact finish_keeps ht
  · exact illegal_keeps ht

theorem execSwr_keeps {n : BitVec 12} (h : Keeps r s) : NextKeeps r (execSwr k ra n s) := issue_keeps (fun _ => legal_keeps fun _ => finish_keeps) h

theorem execWdog_keeps (h : Keeps r s) : NextKeeps r (execWdog k s) := issue_keeps (fun _ => finish_keeps) h

theorem beginWait_keeps {x : RunState} (h : Keeps r s) : Keeps r (beginWait k x rd ra s) := ite_keeps (endWait_keeps h) (modCpu_keeps h)

theorem supWait_keeps (h : Keeps r s) : Keeps r (supWait rd ra s) :=
  ite_keeps (beginWait_keeps h) (ite_keeps (ite_self_keeps (fun _ => modCrp_keeps) (beginWait_keeps h)) (requestEntry_keeps (modCpu_keeps h)))

theorem execWait_keeps (h : Keeps r s) : NextKeeps r (execWait k rd ra s) := by
  refine issue_keeps (fun t ht => ?_) h
  cases k with
  | sup => exact supWait_keeps ht
  | weaver p => exact beginWait_keeps ht

theorem execEwaitResume_keeps (h : Keeps r s) : NextKeeps r (execEwaitResume k s) :=
  next_keeps (ite_keeps (ite_self_keeps (fun _ => modCrp_keeps) (endWait_keeps h)) h)

/-! ### Timers, stamps, records, mailboxes and semaphores (09 R315 to R322, R328) -/

theorem execTset_keeps {n : Reg} (h : Keeps r s) : NextKeeps r (execTset k n ra s) :=
  issue_legal_keeps (fun _ ht => finish_keeps (timerStart_keeps ht)) h

theorem execTseti_keeps {n : Reg} {imm : BitVec 18} (h : Keeps r s) : NextKeeps r (execTseti k n ra imm s) :=
  issue_legal_keeps (fun _ ht => finish_keeps (timerStart_keeps ht)) h

theorem execTclr_keeps {n : BitVec 12} (h : Keeps r s) : NextKeeps r (execTclr k n s) :=
  issue_keeps (fun _ ht => finish_keeps (timerStop_keeps ht)) h

theorem execTrd_keeps {n : BitVec 12} (h : Keeps r s) : NextKeeps r (execTrd k rd n s) := issue_keeps (fun _ => finish_keeps) h

theorem execTstamp_keeps {n : BitVec 12} (h : Keeps r s) : NextKeeps r (execTstamp k rd n s) := by
  refine issue_legal_keeps (fun t ht => ite_keeps (finish_keeps (takeStamp_keeps (t := coreTile k) ht)) ?_) h
  split
  · exact finish_keeps ht
  · exact illegal_keeps ht

theorem postStamp_keeps (h : Keeps r s) : Keeps r (postStamp k rd s).2 := ite_snd_keeps (takeStamp_keeps h) h

theorem execEpost_keeps {n : BitVec 12} (h : Keeps r s) : NextKeeps r (execEpost k ra rd n s) := by
  refine issue_legal_keeps (fun t ht => ?_) h
  split
  · exact illegal_keeps ht
  · exact finish_keeps (epost_keeps (postStamp_keeps ht))

theorem execMsend_keeps {imm : BitVec 12} (h : Keeps r s) : NextKeeps r (execMsend k rd ra imm s) :=
  onBox_keeps (fun _ _ ht => ite_keeps (modCpu_keeps ht) (finish_keeps (storeBox_keeps ht))) h

theorem goesOn_keeps (h : Keeps r s) : Keeps r (goesOn k s) := by
  cases k with
  | sup => exact h
  | weaver p => exact catchUp_keeps h

theorem execMsendComplete_keeps (h : Keeps r s) : NextKeeps r (execMsendComplete k s) := by
  refine next_keeps ?_
  split
  · exact ite_keeps h (goesOn_keeps (finish_keeps (storeBox_keeps h)))
  · exact h

theorem execMtry_keeps {imm : BitVec 12} (h : Keeps r s) : NextKeeps r (execMtry k rd ra imm s) :=
  onBox_keeps (fun _ _ ht => ite_keeps (finish_keeps ht) (finish_keeps (storeBox_keeps ht))) h

theorem execMrecv_keeps {imm : BitVec 12} (h : Keeps r s) : NextKeeps r (execMrecv k rd ra imm s) :=
  onBox_keeps (fun _ _ ht => finish_keeps (ite_keeps (pumpBox_keeps (takeBox_keeps (modBox_keeps ht))) (modBox_keeps ht))) h

theorem onStatus_keeps {imm : BitVec 12} {f : Fin 24 → State → State} (hf : ∀ x t, Keeps r t → Keeps r (f x t)) (h : Keeps r s) :
    NextKeeps r (issue k (onStatus k ra imm f) s) := by
  refine issue_keeps (fun t ht => ?_) h
  unfold onStatus
  split
  · next hx => exact legal_keeps (hf _) (keeps_of_snd hx (drawBool_keeps ht))
  · next hx => exact illegal_keeps (keeps_of_snd hx (drawBool_keeps ht))

theorem execSema_keeps {n : BitVec 12} (h : Keeps r s) : NextKeeps r (execSema k rd n s) :=
  issue_keeps (fun _ => onSup_keeps fun _ => legal_keeps fun _ ht => finish_keeps (wordRead_keeps ht)) h

theorem execSemr_keeps {n : BitVec 12} (h : Keeps r s) : NextKeeps r (execSemr k rd n s) :=
  issue_keeps (fun _ => onSup_keeps fun _ => legal_keeps fun _ ht => finish_keeps (wordWrite_keeps ht)) h

end Sys2Proof.Machine
end

section
/-!
PROOF. The event queues, the scrubbers and station time (05, 08), the tick, and the dispatch: every command and every step keeps the queue of
waiting commands and the canonical form of memory; with it the obligations on memory (05 R148, 12 R405).
-/
namespace Sys2Proof.Machine

variable {r s : State} {q : QueueId} {g : TileId} {p : PortId}

/-! ### The event-queue engine and the scrubbers (05 R155 to R168, 13 R414) -/

theorem execRecordEnqueue_keeps {src : PostSource} (h : Keeps r s) : NextKeeps r (execRecordEnqueue src s) := by
  unfold execRecordEnqueue
  split
  · exact next_keeps h
  · next x _ =>
    have hp : Keeps r { s with posts := s.posts.erase x } := h.upd rfl rfl
    refine next_unless_keeps h (next_keeps ?_)
    split
    · exact stationWake_keeps (route_keeps (ite_self_keeps (fun _ => abortEntry_keeps) hp))
    · exact route_keeps (ite_self_keeps (fun _ => abortEntry_keeps) hp)

theorem execHoldTimeout_keeps (h : Keeps r s) : NextKeeps r (execHoldTimeout q s) :=
  next_unless_keeps h (next_keeps (modQueue_keeps (endHold_keeps h)))

theorem scrubFatal_keeps {m : EccMem} {w : Nat} (h : Keeps r s) : Keeps r (scrubFatal m w s) := by
  cases m with
  | creel => exact ite_keeps (resetQueue_keeps h) (crlError_keeps h)
  | context =>
    unfold scrubFatal
    dsimp only
    split
    · exact eccDrop_keeps h
    · exact ttcError_keeps (drawNat_keeps h)
  | retention => exact raise_keeps (modCrp_keeps h)
  | _ => exact raise_keeps h

theorem execScrubWord_keeps {m : EccMem} {w : Nat} (h : Keeps r s) : NextKeeps r (execScrubWord m w s) := by
  unfold execScrubWord
  refine next_unless_keeps h ?_
  split
  · exact next_keeps (scrubFatal_keeps h)
  · exact next_keeps (eccFix_keeps h)

/-! ### References and the counter (08 R262 to R286) -/

theorem execPpsEdge_keeps {i : PpsInput} {sec n : Nat} (h : Keeps r s) : NextKeeps r (execPpsEdge i sec n s) := by
  refine next_keeps (allEv_keeps (fun t ht => ite_keeps ht (ite_self_keeps (fun _ => refEdge_keeps) (measureDiff_keeps ?_))) h)
  exact ite_keeps (refRecordDue_keeps (modPps_keeps (modTim_keeps (modPps_keeps ht)))) (modTim_keeps (modPps_keeps ht))

theorem execIrigFrame_keeps {f : IrigFrame} (h : Keeps r s) : NextKeeps r (execIrigFrame f s) := by
  refine next_keeps (allEv_keeps (fun t ht => ite_keeps ht ?_) h)
  dsimp only
  split
  · exact ite_keeps (goodFrame_keeps ht) (badFrame_keeps ht)
  · exact badFrame_keeps ht

theorem execRef10mGate_keeps {i : Int} (h : Keeps r s) : NextKeeps r (execRef10mGate i s) := by
  refine next_keeps (ite_keeps h (ite_keeps (loseRef10m_keeps (modTim_keeps h)) (modTim_keeps ?_)))
  exact ite_keeps (refRecordDue_keeps (modTim_keeps (modTim_keeps h))) (modTim_keeps h)

theorem execSecondBoundary_keeps (h : Keeps r s) : NextKeeps r (execSecondBoundary s) :=
  next_keeps (allEv_keeps (fun _ ht => secondTurn_keeps (ite_self_keeps (fun _ => startPps_keeps) ht)) h)

theorem execReplicaSync_keeps {i : Int} (h : Keeps r s) : NextKeeps r (execReplicaSync g i s) :=
  next_keeps (ite_keeps h (ite_keeps (modTile_keeps h) (raise_keeps (modTile_keeps h))))

/-! ### The tick (08 R259, log 8) -/

theorem romTick_keeps (h : Keeps r s) : Keeps r (romTick s) :=
  ite_keeps (allEv_keeps (fun _ => bootResume_keeps) h)
    (ite_keeps (allEv_keeps (fun _ => activationGoesOn_keeps) h) (ite_self_keeps (fun _ => firmwareConfirm_keeps) h))

theorem trstRises_keeps (h : Keeps r s) : Keeps r (trstRises s) := ite_self_keeps (fun _ => modPwr_keeps) h

theorem tick_keeps (h : Keeps r s) : Keeps r (tick s) := by
  have hn : Keeps r { s with now := s.now + 1 } := h.upd rfl rfl
  have hr := romTick_keeps (trstRises_keeps (ite_self_keeps (c := clocksRun { s with now := s.now + 1 } = true) (fun _ => scanTick_keeps) hn))
  have hc {c : Prop} [Decidable c] := ite_self_keeps (c := c) (fun _ => collectorCheck_keeps) hr
  refine ite_keeps hc (ite_keeps (ite_self_keeps (fun _ => startPps_keeps) (modTim_keeps hc)) ?_)
  exact allEv_keeps (fun _ ht => modTim_keeps (secondTurn_keeps ht)) hc

/-! ### Every command and every step -/

/-- Every command that goes on leaves the queue of waiting commands as it is and memory canonical. -/
theorem exec_keeps (c : Instr) (h : Keeps r s) : NextKeeps r (exec c s) := by
  cases c with
  -- one access to a register or a window by the master that the row names
  | accLockWrite _ _ _ | semForce _ _ _ | portMove _ _ _ _ | keeperWrite _ _ _ _ | chip _ | sup _ | tile _ _ | begin _ | write _ | verify _
  | activate _ | abort _ | confirm _ | retry _ _ _ | fltSrcWrite _ _ _ _ | faultInject _ _ _ | spiGuardedWrite _ _ _ =>
    exact next_keeps (masterPair_keeps h)
  | spiWrite _ _ | semRelease _ _ | mbxDataWrite _ _ _ | teamEnable _ _ _ | teamDisable _ _ _ | teamQmaskWrite _ _ _ | ttStop _ _ | ttReset _ _
  | queueFlush _ _ | queueEnable _ _ _ | queueDisable _ _ _ | queueCapChange _ _ _ | debugWindowWrite _ _ _ | tcEnWrite _ _ _ | pdEnWrite _ _ _
  | stEnWrite _ _ _ | budHoldWrite _ _ _ | feedEnWrite _ _ _ | railChange _ _ _ | clrPfet _ _ | clrLatch _ _ | fwOffSet _ _ | fwOffClear _ _
  | immediate _ | atEdge _ | timFreqWrite _ _ | tileRun _ _ _ | tileRestart _ _ _ _ | programWindowWrite _ _ _ | phyCfgWrite _ _ _
  | fltStatClear _ _ _ | fltLostClear _ | swFault _ _ | done _ => exact next_keeps (masterWrite_keeps h)
  | semAcquire _ _ | mbxDataRead _ _ | ttcPdropCntRead _ | ttcTtCntRead _ _ | crlNorouteCntRead _ | crlQDropRead _ _ | portPdCntRead _ _
  | budCntRead _ | tileCntRead _ _ | crpPsRefuseRead _ | queueRead _ _ => exact next_keeps (masterRead_keeps h)
  | retDataAccess _ _ _ => exact next_keeps (ite_keeps (masterWrite_keeps h) (masterRead_keeps h))
  -- chapter 02
  | registerWrite _ _ _ _ => exact execRegisterWrite_keeps h
  | spiRead _ => exact next_keeps (spiLoad_keeps h)
  | readResult => exact execReadResult_keeps h
  | spiStatus => exact next_unless_keeps h (next_keeps (spiEnd_keeps (noteFrame_keeps h)))
  | badcmd _ => exact execBadcmd_keeps h
  | frameErr _ _ => exact execFrameErr_keeps h
  | spiReadComplete => exact execSpiReadComplete_keeps h
  | wsWrite _ _ _ _ => exact onWs_keeps (fun _ => wsStore_keeps) h
  | wsGuardedWrite _ _ _ => exact onWs_keeps (fun _ => masterPair_keeps) h
  | wsRead _ _ _ => exact onWs_keeps (fun _ => wsLoad_keeps) h
  | wsReadTimeout _ => exact execWsReadTimeout_keeps h
  | mgmtPathLost _ => exact next_unless_keeps h (next_keeps (pathLost_keeps h))
  | postedWriteComplete _ => exact next_keeps (ite_keeps h (postedDone_keeps h))
  | guardWindowExpire _ => exact execGuardWindowExpire_keeps h
  | mbxTimeout _ => exact execMbxTimeout_keeps h
  -- chapter 03
  | teamAttach _ => exact execTeamAttach_keeps h
  | teamDetach _ => exact execTeamDetach_keeps h
  | busReset _ _ => exact execBusReset_keeps h
  | teamSuspend _ => exact execTeamSuspend_keeps h
  | hostResume _ => exact execHostResume_keeps h
  | remoteWakeK _ => exact execRemoteWakeK_keeps h
  | remoteWakeDriveEnd _ => exact execRemoteWakeDriveEnd_keeps h
  | lpmToken _ _ _ _ => exact execLpmToken_keeps h
  | l1Exit _ => exact onHub_keeps (fun _ => corrFresh_resumeTeam_keeps) h
  | uuVbusValid _ => exact onTeam_keeps (fun _ => modTeam_keeps) h
  | getDescriptor _ _ _ _ => exact onReq_keeps (fun _ => stdReq_keeps fun _ => answerBytes_keeps) h
  | setInterface _ _ => exact execSetInterface_keeps h
  | setAddress _ _ _ => exact execSetAddress_keeps h
  | setConfiguration _ _ _ => exact execSetConfiguration_keeps h
  | deviceRemoteWakeup _ _ _ => exact execDeviceRemoteWakeup_keeps h
  | clearHubFeature _ _ => exact onReq_class_keeps (fun _ ht => ite_keeps (accept_keeps ht) (answer_keeps ht)) h
  | clearPortEnable _ _ => exact execClearPortEnable_keeps h
  | setPortSuspend _ _ => exact execSetPortSuspend_keeps h
  | clearPortSuspend _ _ => exact portFeature_keeps (fun _ => stationResume_keeps) (fun _ _ => modHub_keeps) h
  | portResumeComplete _ => exact onHub_keeps (fun _ => resumeDone_keeps) h
  | setPortReset _ _ => exact execSetPortReset_keeps h
  | portResetComplete _ _ => exact execPortResetComplete_keeps h
  | clearPortL1 _ _ => exact portFeature_keeps (fun _ => modStation_keeps) (fun _ _ => modHub_keeps) h
  | l1ResumeEnd _ => exact onHub_keeps (fun _ => modHub_keeps) h
  | setPortPower _ _ => exact execSetPortPower_keeps h
  | clearPortPower _ _ => exact execClearPortPower_keeps h
  | setPortTest _ _ _ => exact execSetPortTest_keeps h
  | clearPortChange _ _ _ => exact onReq_port_keeps (fun _ ht => accept_keeps (clrChange_keeps ht)) h
  | clearTtBuffer _ _ _ _ _ i => exact execClearTtBuffer_keeps i h
  | getBusState _ | setHubDescriptor _ | setHubFeature _ _ | hubRequestUnsupported _ _ => exact onReq_class_keeps (fun _ => answer_keeps) h
  | getHubDescriptor _ _ | getHubStatus _ => exact onReq_class_keeps (fun _ => answerBytes_keeps) h
  | getPortStatus _ _ | getTtState _ _ => exact onReq_port_keeps (fun _ => answerBytes_keeps) h
  | resetTt _ _ => exact execResetTt_keeps h
  | stopTt _ _ => exact execStopTt_keeps h
  | setAndTestPortL1 _ _ _ _ d _ _ _ => exact execSetAndTestPortL1_keeps d h
  | statusChangeIn _ => exact execStatusChangeIn_keeps h
  | deviceConnect _ _ | deviceDisconnect _ => exact onTeam_keeps (fun _ => seeDevice_keeps) h
  | portBabble _ => exact execPortBabble_keeps h
  | portContextFree _ => exact next_keeps (ite_self_keeps (fun _ => freeTt_keeps) h)
  | repeatPathPacket _ _ _ => exact execRepeatPathPacket_keeps h
  | getInfo _ => exact execGetInfo_keeps h
  | setQueues _ _ => exact execSetQueues_keeps h
  | eventEndpointIn _ => exact execEventEndpointIn_keeps h
  | correlationEndpointIn _ => exact execCorrelationEndpointIn_keeps h
  | moveRetireEnd _ => exact execMoveRetireEnd_keeps h
  | moveGapExpire _ => exact execMoveGapExpire_keeps h
  -- chapter 04
  | ufpSof _ _ => exact execUfpSof_keeps h
  | microframeTimeout _ => exact execMicroframeTimeout_keeps h
  | startSplitPeriodic _ _ _ _ _ _ _ _ _ => exact execStartSplitPeriodic_keeps h
  | startSplitNonperiodic _ _ _ _ _ _ _ _ _ _ => exact execStartSplitNonperiodic_keeps h
  | completeSplit _ _ _ _ _ _ => exact execCompleteSplit_keeps h
  | ttDescriptor _ => exact execTtDescriptor_keeps h
  | microframeMarker _ _ => exact execMicroframeMarker_keeps h
  | portBusTxnStart _ _ => exact execPortBusTxnStart_keeps h
  | ttResult _ _ => exact execTtResult_keeps h
  | ttResultLost _ => exact execTtResultLost_keeps h
  | lateDrop _ => exact execLateDrop_keeps h
  | periodicContextExpire _ => exact execPeriodicContextExpire_keeps h
  | npHoldExpire _ _ _ _ => exact execNpHoldExpire_keeps h
  | ttResetEnd _ => exact next_keeps (ite_self_keeps (fun _ => endResetTt_keeps) h)
  -- chapter 05
  | recordEnqueue _ => exact execRecordEnqueue_keeps h
  | holdTimeout _ => exact execHoldTimeout_keeps h
  | queuePtrMismatch _ _ => exact next_keeps (ite_self_keeps (fun _ => resetQueue_keeps) h)
  | queueReclaimEnd _ => exact next_keeps (ite_self_keeps (fun _ => endReclaim_keeps) h)
  | freelistRebuild => exact next_keeps (ite_self_keeps (fun _ => startRebuild_keeps) h)
  | freelistRebuildEnd => exact next_keeps (ite_self_keeps (fun _ => endRebuild_keeps) h)
  | scrubWord _ _ => exact execScrubWord_keeps h
  -- chapter 06
  | ccPatternChange _ _ _ => exact execCcPatternChange_keeps h
  | attachWait _ => exact next_keeps (ite_self_keeps (fun _ => modTc_keeps) h)
  | tCcDebounce _ => exact execTCcDebounce_keeps h
  | ccUnsupported _ => exact next_keeps (ite_keeps (weaverPost_keeps (modTc_keeps h)) h)
  | tPdDebounce _ _ => exact execTPdDebounce_keeps h
  | errorRecoveryEnd _ => exact next_keeps (onTimer_keeps (fun _ => ite_self_keeps fun _ => restTc_keeps) h)
  | transitionDetach _ _ => exact execTransitionDetach_keeps h
  | pdMessageRx _ _ _ _ _ _ => exact execPdMessageRx_keeps h
  | hardReset _ => exact portCmd_keeps (fun _ ht => ite_keeps (rxHardReset_keeps ht) (hearAsleep_keeps ht)) h
  | pdTxStart _ => exact execPdTxStart_keeps h
  | tReceive _ => exact execTReceive_keeps h
  | goodcrc _ => exact execGoodcrc_keeps h
  | bistCarrierModeEnd _ => exact next_keeps (modPhy_keeps h)
  | request _ _ _ => exact execRequest_keeps h
  | softReset _ _ => exact execSoftReset_keeps h
  | getSourceCap _ _ => exact msgCmd_keeps (fun _ => sendCaps_keeps) h
  | getSourceCapExtended _ _ | getSourceInfo _ _ | getRevision _ _ => exact rev3Cmd_keeps (fun _ => putTx_keeps) h
  | getStatus _ _ => exact execGetStatus_keeps h
  | drSwap _ _ | prSwap _ _ => exact msgCmd_keeps (fun _ => sendReject_keeps) h
  | vconnSwap _ _ _ => exact execVconnSwap_keeps h
  | psRdy _ _ => exact execPsRdy_keeps h
  | pdAccept _ _ _ => exact execPdAccept_keeps h
  | pdReject _ _ => exact msgCmd_keeps (fun _ => refused_keeps) h
  | notSupported _ _ => exact execNotSupported_keeps h
  | bist _ _ _ => exact execBist_keeps h
  | alert _ _ => exact msgCmd_keeps (fun _ => id) h
  | unsupportedMessage _ _ => exact execUnsupportedMessage_keeps h
  | extendedMessage _ _ _ => exact execExtendedMessage_keeps h
  | tChunkingNotSupported _ => exact execTChunkingNotSupported_keeps h
  | discoverIdentity _ _ | discoverSvids _ _ | discoverModes _ _ _ | enterMode _ _ _ | unstructuredVdm _ _ =>
    exact msgCmd_keeps (fun _ => putTx_keeps) h
  | attention _ _ => exact msgCmd_keeps (fun _ => ite_self_keeps fun _ => startOwn_keeps) h
  | vdmResponse _ _ _ _ _ => exact execVdmResponse_keeps h
  | tVdmSenderResponse _ => exact timerCmd_keeps (fun _ => vdmFailed_keeps) h
  | tVconnStable _ => exact execTVconnStable_keeps h
  | tDiscoverIdentity _ => exact execTDiscoverIdentity_keeps h
  | tSourceCapability _ | waitSourceCapTimeout _ => exact sendCaps_live_keeps h
  | tSenderResponse _ | tVconnSourceTimeout _ => exact timerCmd_keeps (fun _ => sendHardReset_keeps) h
  | commitLate _ => exact timerCmd_keeps (fun _ => answerWait_keeps) h
  | tSrcTransition _ => exact timerCmd_keeps (fun _ => takeContract_keeps) h
  | tSrcSettle _ => exact execTSrcSettle_keeps h
  | tPsHardReset _ => exact execTPsHardReset_keeps h
  | tSrcRecover _ _ => exact execTSrcRecover_keeps h
  | tNoResponse _ => exact execTNoResponse_keeps h
  | tSinkTx _ => exact timerCmd_keeps (fun _ => resumeOwn_keeps) h
  | vconnPinWaitTimeout _ => exact timerCmd_keeps (fun _ ht => enterRecovery_keeps (postVconn_keeps (tOff_keeps ht))) h
  | vconnOc _ => exact next_keeps (vconnTrip_keeps h)
  | ccOvervoltHold _ _ _ => exact execCcOvervoltHold_keeps h
  | base _ _ _ | hold _ _ _ | commit _ _ _ | release _ _ _ => exact next_keeps (toArbiter_keeps h)
  | grant _ _ _ => exact execGrant_keeps h
  | short _ _ _ => exact execShort_keeps h
  | offer _ _ | reclaim _ _ => exact portCmd_keeps (fun _ => newHold_keeps) h
  -- chapter 07
  | feedQualify _ _ | feedQualifyBreak _ _ => exact onGroup_keeps (fun _ ht => setFeed_keeps (seeFeedV_keeps ht)) h
  | feedRampStart _ | feedCooldownEnd _ => exact onGroup_keeps (fun _ => setFeed_keeps) h
  | feedOn _ => exact onGroup_keeps (fun _ ht => settle_keeps (setFeed_keeps ht)) h
  | feedPgood _ _ => exact execFeedPgood_keeps h
  | feedWarn _ _ => exact execFeedWarn_keeps h
  | feedLimit _ | feedLimitEnd _ => exact onGroup_keeps (fun _ ht => modGrp_keeps (seeFeedI_keeps ht)) h
  | feedFaultTimer _ | feedGateRiseFail _ => exact onGroup_keeps (fun _ => tripFeed_keeps) h
  | feedFastTrip _ _ => exact onGroup_keeps (fun _ ht => tripFeed_keeps (seeFeedI_keeps ht)) h
  | feedUv _ _ | feedOv _ _ => exact onGroup_keeps (fun _ ht => tripFeed_keeps (seeFeedV_keeps ht)) h
  | feedStageReset _ => exact onGroup_keeps (fun _ => modGrp_keeps) h
  | railUp _ _ => exact execRailUp_keeps h
  | railLost _ _ => exact execRailLost_keeps h
  | relayGrant => exact execRelayGrant_keeps h
  | rampProbeEnd _ _ _ _ => exact execRampProbeEnd_keeps h
  | rampCheck _ _ _ => exact execRampCheck_keeps h
  | gateLoopTick _ _ | breakersArm _ | breakerCurrentCrossing _ _ | portStageReset _ => exact onPort_keeps (fun _ => modPw_keeps) h
  | rampComplete _ _ => exact execRampComplete_keeps h
  | rampTimeout _ _ | classATrip _ _ => exact onPort_keeps (fun _ => tripNow_keeps) h
  | transitionEnd _ _ => exact execTransitionEnd_keeps h
  | pgoodRise _ _ => exact execPgoodRise_keeps h
  | pgoodFall _ _ => exact execPgoodFall_keeps h
  | fastTrip _ _ | reverseTrip _ _ | ovTrip _ _ => exact onPort_keeps (fun _ ht => tripNow_keeps (modPw_keeps ht)) h
  | curveTrip _ _ _ => exact onPort_keeps (fun _ => tripAndTell_keeps) h
  | gateRiseFail _ | fetOpen _ => exact onPort_keeps (fun _ ht => tripAndTell_keeps (latchPfet_keeps ht)) h
  | fetShort _ _ => exact execFetShort_keeps h
  | portCooldownEnd _ => exact execPortCooldownEnd_keeps h
  | dischargeEnd _ => exact execDischargeEnd_keeps h
  -- chapter 08
  | ppsEdge _ _ _ => exact execPpsEdge_keeps h
  | ppsLost _ => exact next_keeps (losePps_keeps h)
  | irigFrame _ => exact execIrigFrame_keeps h
  | irigLost => exact next_keeps (loseIrig_keeps h)
  | ref10mGate _ => exact execRef10mGate_keeps h
  | ref10mLost => exact next_keeps (loseRef10m_keeps h)
  | secondBoundary => exact execSecondBoundary_keeps h
  | holdoverExpire => exact next_keeps (ite_keeps (endHoldover_keeps (modTim_keeps h)) h)
  | atEdgeTimeout => exact next_keeps (ite_keeps (refuseSet_keeps (modTim_keeps h)) h)
  | replicaSync _ _ => exact execReplicaSync_keeps h
  | ppsOutPulseEnd => exact next_keeps (modTim_keeps h)
  | sbuSignalElement _ => exact next_keeps (modTc_keeps h)
  -- chapter 09
  | add _ _ _ _ _ | adc _ _ _ _ _ | sub _ _ _ _ _ | sbc _ _ _ _ _ | and _ _ _ _ _ | or _ _ _ _ _ | xor _ _ _ _ _ | andn _ _ _ _ _
  | shl _ _ _ _ _ | shr _ _ _ _ _ | sar _ _ _ _ _ | ror _ _ _ _ _ | mul _ _ _ _ _ | mulhu _ _ _ _ _ | min _ _ _ _ _ | max _ _ _ _ _
  | minu _ _ _ _ _ | maxu _ _ _ _ _ | addi _ _ _ _ | andi _ _ _ _ | ori _ _ _ _ | xori _ _ _ _ => exact alu_keeps h
  | clz _ _ _ _ _ | popc _ _ _ _ _ => exact aluOne_keeps h
  | cmp _ _ _ _ | tst _ _ _ _ | cmpi _ _ _ _ | tsti _ _ _ _ => exact aluTest_keeps h
  | shi _ _ _ _ => exact issue_legal_keeps (fun _ => finish_keeps) h
  | lui _ _ _ | addpc _ _ _ => exact issue_keeps (fun _ => finish_keeps) h
  | crc _ _ _ _ _ _ => exact execCrc_keeps h
  | b _ _ _ | bl _ _ _ => exact issue_legal_keeps (fun _ => modCpu_keeps) h
  | jlr _ _ _ _ => exact execJlr_keeps h
  | ldw _ _ _ _ | ldh _ _ _ _ | ldhu _ _ _ _ | ldb _ _ _ _ | ldbu _ _ _ _ => exact load_keeps h
  | ldd _ _ _ _ => exact issue_legal_keeps (fun _ => loadLocal_keeps) h
  | stw _ _ _ _ => exact execStw_keeps h
  | sth _ _ _ _ => exact execSth_keeps h
  | stb _ _ _ _ => exact execStb_keeps h
  | std _ _ _ _ => exact execStd_keeps h
  | rld _ _ _ _ => exact issue_legal_keeps (fun _ => rldRun_keeps) h
  | rldComplete _ => exact execRldComplete_keeps h
  | rldTimeout => exact execRldTimeout_keeps h
  | rst _ _ _ _ => exact issue_legal_keeps (fun _ => rstRun_keeps) h
  | fence _ => exact execFence_keeps h
  | fenceComplete _ => exact next_keeps (ite_self_keeps (fun _ => finish_keeps) h)
  | pdrd _ _ _ => exact execPdrd_keeps h
  | pdwr _ _ _ | pdrel _ | pdstat _ _ => exact issue_onWeaver_keeps (fun _ _ ht => finish_keeps (modPhy_keeps ht)) h
  | pdsend _ _ => exact execPdsend_keeps h
  | pdcfg _ _ => exact issue_onWeaver_keeps (fun _ _ => legal_keeps fun _ ht => finish_keeps (modPhy_keeps ht)) h
  | pctlRp _ _ => exact pctl_keeps (fun _ _ => setRp_keeps) h
  | pctlCcsel _ _ | pctlSbu _ _ => exact pctl_keeps (fun _ _ => modTc_keeps) h
  | pctlVconn _ _ _ => exact execPctlVconn_keeps h
  | pctlState _ _ => exact execPctlState_keeps h
  | pctlBase _ _ => exact pctl_keeps (fun _ _ ht => ite_keeps (startBaseline_keeps ht) (modTc_keeps ht)) h
  | pstat _ _ | portb _ _ => exact issue_onWeaver_keeps (fun _ _ => finish_keeps) h
  | srd _ _ _ => exact execSrd_keeps h
  | swr _ _ _ => exact execSwr_keeps h
  | trap _ _ => exact issue_keeps (fun _ => takeException_keeps) h
  | eret _ => exact issue_keeps (fun _ => returnException_keeps) h
  | interrupt => exact next_keeps (ite_self_keeps (fun _ => takeException_keeps) h)
  | nmi => exact next_keeps (ite_keeps (takeException_keeps (modCrp_keeps (modFlt_keeps h))) h)
  | wdog _ => exact execWdog_keeps h
  | sig _ _ => exact issue_onWeaver_keeps (fun _ _ => legal_keeps fun _ ht => finish_keeps (latchEv_keeps ht)) h
  | ewait _ _ _ => exact issue_keeps (fun _ => beginWait_keeps) h
  | ewaitResume _ => exact execEwaitResume_keeps h
  | wait _ _ _ => exact execWait_keeps h
  | tset _ _ _ => exact execTset_keeps h
  | tseti _ _ _ _ => exact execTseti_keeps h
  | tclr _ _ => exact execTclr_keeps h
  | trd _ _ _ => exact execTrd_keeps h
  | timerExpire _ _ => exact next_keeps (ite_self_keeps (fun _ => timerDone_keeps) h)
  | tstamp _ _ _ => exact execTstamp_keeps h
  | epost _ _ _ _ => exact execEpost_keeps h
  | msend _ _ _ _ => exact execMsend_keeps h
  | msendComplete _ => exact execMsendComplete_keeps h
  | mtry _ _ _ _ => exact execMtry_keeps h
  | mrecv _ _ _ _ => exact execMrecv_keeps h
  | mstat _ _ _ _ => exact onStatus_keeps (fun _ _ => finish_keeps) h
  | mclr _ _ _ _ => exact onStatus_keeps (fun _ _ ht => finish_keeps (modBox_keeps ht)) h
  | sema _ _ _ => exact execSema_keeps h
  | semr _ _ _ => exact execSemr_keeps h
  -- chapter 10
  | vrimPor => exact next_keeps (vrimReset_keeps h)
  | rimPorRelease | coreEnOffExpire => exact next_if_keeps (modPwr_keeps h) h
  | pwrOkAssert => exact next_if_keeps (setPhase_keeps h) h
  | pwrOkLoss => exact next_unless_keeps h (next_keeps (allEv_keeps (fun _ => powerLost_keeps) h))
  | pwrTimeout | oscTimeout => exact next_if_keeps (powerFailed_keeps h) h
  | oscReady => exact next_if_keeps (modTim_keeps (setPhase_keeps h)) h
  | coreResetRelease => exact execCoreResetRelease_keeps h
  | bootStart _ _ => exact execBootStart_keeps h
  | bootStepTimeout _ => exact execBootStepTimeout_keeps h
  | tileSwitchOn _ => exact next_if_keeps (modTile_keeps h) h
  | tileReady _ => exact execTileReady_keeps h
  | resetPin => exact next_unless_keeps h (next_keeps (resetPinLow_keeps h))
  | resetPinRelease => exact execResetPinRelease_keeps h
  | tapReset => exact next_keeps (modPwr_keeps h)
  -- chapter 11
  | writeComplete _ _ => exact next_keeps (dfuFollow_keeps (updWritten_keeps h))
  | verifyComplete => exact execVerifyComplete_keeps h
  | activationCommit _ => exact execActivationCommit_keeps h
  | sessionTimeout => exact next_if_keeps (updEnd_keeps h) h
  | dfuDetach _ => exact execDfuDetach_keeps h
  | dfuDnload _ _ _ => exact execDfuDnload_keeps h
  | dfuManifest _ => exact execDfuManifest_keeps h
  | dfuUpload _ => exact dfuReq_keeps (fun _ => answer_keeps) h
  | dfuGetstatus _ => exact execDfuGetstatus_keeps h
  | dfuClrstatus _ => exact execDfuClrstatus_keeps h
  | dfuAbort _ => exact execDfuAbort_keeps h
  | confirmWindowExpire _ => exact next_if_keeps (allEv_keeps (fun _ => windowExpired_keeps) h) h
  -- chapter 12
  | entryResident => exact execEntryResident_keeps h
  | offDischargeDone => exact next_if_keeps (offResident_keeps h) h
  | wakeSource _ => exact execWakeSource_keeps h
  | sleepWakeComplete => exact execSleepWakeComplete_keeps h
  | wakeMinOffExpire => exact execWakeMinOffExpire_keeps h
  | deepWakeHandover => exact execDeepWakeHandover_keeps h
  -- chapter 13 and the links of chapter 01
  | faultReport _ _ => exact execFaultReport_keeps h
  | scorecardRecord => exact next_keeps (ite_self_keeps (fun _ => recordEntry_keeps) h)
  | collectorMismatch _ => exact next_keeps (ite_keeps (allEv_keeps (fun _ ht => collectorCheck_keeps (spoilCopy_keeps ht)) h) h)
  | lockstepMismatch => exact execLockstepMismatch_keeps h
  | supWatchdog => exact next_if_keeps (allEv_keeps (fun _ => latchReport_keeps) h) h
  | warmScrubEnd _ _ => exact next_if_keeps (warmPath_keeps h) h
  | doneTimeout => exact next_if_keeps (allEv_keeps (fun _ => enterSafe_keeps) h) h
  | weaverWatchdog _ => exact execWeaverWatchdog_keeps h
  | rimDetach _ _ => exact next_if_keeps (portEv_keeps (fun _ => hwDetach_keeps) h) h
  | controlFrame _ _ => exact execControlFrame_keeps h
  | linkLaneFault _ _ => exact next_keeps (ite_keeps (laneFailure_seen_keeps h) h)
  | spareLaneSwitchDone _ => exact next_keeps (modLink_keeps h)
  | linkSecondFailure _ _ => exact next_if_keeps (laneFailure_seen_keeps h) h
  | linkTrainingFailed _ => exact execLinkTrainingFailed_keeps h

/-- A step that goes on keeps canonical memory canonical: it is a tick, or the front command on the state with the rest of the queue. -/
theorem step_keeps_inv {t : State} (hs : s.Inv) (e : step s = .next t) : t.Inv := by
  unfold step at e
  split at e
  · cases e
    exact (tick_keeps (Keeps.refl s)).2 hs
  · next c rest _ => exact (exec_keeps c (Keeps.refl { s with pending := rest }) t e).2 hs

/-- Settles O59: every command and the tick of an empty queue keep canonical memory canonical. -/
theorem stepKeepsMemoryCanonical : Obligations.StepKeepsMemoryCanonical := by
  unfold Obligations.StepKeepsMemoryCanonical
  exact fun _ _ => step_keeps_inv

/-- Settles O57: reset lists nothing in memory and no command in the queue, and the empty memory is canonical. -/
theorem resetMeetsTheInvariant : Obligations.ResetMeetsTheInvariant := by
  unfold Obligations.ResetMeetsTheInvariant
  have hm : State.reset.mem = [] := rfl
  have hp : State.reset.pending = [] := rfl
  refine ⟨?_, hm, hp⟩
  unfold State.Inv
  rw [hm]
  rfl

end Sys2Proof.Machine
end

section
/-!
PROOF. BUD_PORTn (06 R226, Table 6.24).
-/
namespace Sys2Proof.Machine

theorem SameButEvents.bud {a b : State} (h : SameButEvents a b) : a.bud = b.bud :=
  congrArg State.bud (a₁ := withoutEvents a) (a₂ := withoutEvents b) h

theorem SameButEvents.mem {a b : State} (h : SameButEvents a b) : a.mem = b.mem :=
  congrArg State.mem (a₁ := withoutEvents a) (a₂ := withoutEvents b) h

theorem modBp_port_self (p : PortId) (f : BudPort → BudPort) (s : State) : (modBp p f s).bud.port[p] = f s.bud.port[p] := by
  simp [modBp]

theorem modBp_port_of_ne {p q : PortId} (h : q ≠ p) (f : BudPort → BudPort) (s : State) : (modBp p f s).bud.port[q] = s.bud.port[q] := by
  have hne : (p : Nat) ≠ (q : Nat) := fun e => h (Fin.ext e.symm)
  simp only [modBp, modBud_bud, Fin.getElem_fin]
  exact Vector.getElem_set_ne _ _ hne

/-- PRIO as BUD_PORTn reads it. -/
theorem budPortReg_prio (s : State) (p : PortId) : fld (budPortReg s p) 31 24 = s.bud.port[p].prio.toNat := by
  have hp := s.bud.port[p].prio.isLt
  have hh := s.bud.port[p].hold.isLt
  have b2n_le (b : Bool) : b2n b ≤ 1 := by cases b <;> decide
  have hs := b2n_le s.bud.port[p].starved
  have hw := b2n_le s.bud.port[p].waiting
  simp only [budPortReg, pack, fld, List.foldl, BitVec.toNat_ofNat]
  omega

/-- A locked PRIO stays what it is where the write gives it no new value. -/
theorem writeBudPort_port {s : State} {p : PortId} {v : Word} (hl : prioLocked s (.budPort p) v = false) :
    (writeBudPort p v s).bud.port[p] = { s.bud.port[p] with prio := BitVec.ofNat 8 (fld v 31 24), hold := BitVec.ofNat 16 (fld v 15 0) } := by
  have hhold : v.setWidth 16 = BitVec.ofNat 16 (fld v 15 0) := BitVec.eq_of_toNat_eq (by simp [fld])
  have hprio : (if bitOf s.acc.lock 8 then s.bud.port[p].prio else BitVec.ofNat 8 (fld v 31 24)) = BitVec.ofNat 8 (fld v 31 24) := by
    split
    · next h =>
      simp only [prioLocked, h, Bool.true_and, bne_eq_false_iff_eq, budPortReg_prio] at hl
      simp [hl]
    · rfl
  rw [writeBudPort, modBp_port_self, hhold, hprio]

/-- Settles O38: PRIO and HOLD take the written values, and no other field of the arbiter's port changes. -/
theorem budgetPortRegister : Obligations.BudgetPortRegister := by
  unfold Obligations.BudgetPortRegister
  intro p s v a b hw
  obtain ⟨-, -, -, -, -, -, hlock, -⟩ := writable_iff.mp hw
  have hsame := allEv_same (regWrite .sup (.budPort p) v) s
  refine ⟨_, congrArg Host.Outcome.next (masterWrite_sup_of_writable hw), rfl, ?_, fun q hq => ?_, hsame.ports, hsame.mem⟩
  · exact (congrArg (fun x : Bud => x.port[p]) hsame.bud).trans (writeBudPort_port hlock)
  · exact (congrArg (fun x : Bud => x.port[q]) hsame.bud).trans (modBp_port_of_ne hq _ _)

end Sys2Proof.Machine
end

section
/-!
PROOF. Ports of a policy: the parts of a port after each update, timers that expire, and the two statements on Power Delivery that the steps of
a running or a waiting sequence contradict (06 R191, R213, R215).
-/
namespace Sys2Proof.Machine

/-! ### The parts of a port -/

section
variable (p q : PortId) (s : State)

@[simp] theorem modTc_port_self (f : PortTc → PortTc) : (modTc p f s).port p = { s.port p with tc := f (s.port p).tc } := modPort_port_self ..
@[simp] theorem modPd_port_self (f : PortPd → PortPd) : (modPd p f s).port p = { s.port p with pd := f (s.port p).pd } := modPort_port_self ..
@[simp] theorem modPhy_port_self (f : PdPhy → PdPhy) : (modPhy p f s).port p = { s.port p with phy := f (s.port p).phy } := modPort_port_self ..
@[simp] theorem modPw_port_self (f : PortPwr → PortPwr) : (modPw p f s).port p = { s.port p with pw := f (s.port p).pw } := modPort_port_self ..

@[simp] theorem latchEv_port (bits : Word) : (latchEv p bits s).port q = s.port q := rfl
@[simp] theorem portEv_port (f : State → State) : (portEv p f s).port q = (f s).port q :=
  congrArg (fun v : Vector Port 64 => v[q]) (portEv_same p f s).ports

@[simp] theorem epost_port (place : PostSource) (x : Record) : (epost place x s).port q = s.port q :=
  congrArg (fun v : Vector Port 64 => v[q]) (epost_apart place x (.refl s)).2.1

@[simp] theorem weaverPostAt_port (st : Stamp) (cls : Nat) (payload : Word) : (weaverPostAt p st cls payload s).port q = s.port q := epost_port ..
@[simp] theorem weaverPost_port (cls : Nat) (payload : Word) : (weaverPost p cls payload s).port q = s.port q := epost_port ..

end

/-! ### Timers that expire (06 Table 6.2) -/

theorem expires_iff {x : PdTimer} {p : PortId} {s : State} : expires x p s = true ↔ tHas s p x = true ∧ weaverActs s p = true := by
  simp [expires]

theorem onTimer_of_expires {x : PdTimer} {p : PortId} {s : State} (h : expires x p s = true) (f : State → State) :
    onTimer p x f s = f (tOff p x s) := if_pos (expires_iff.mp h)

/-! ### A VDM that gets no answer, where none is awaited (06 R215, Table 6.2) -/

/-- tVDMSenderResponse ends no other sequence: what runs goes on. -/
theorem exec_tVdmSenderResponse_other {p : PortId} {s : State} (he : expires .vdm p s = true) (hv : vdmSeq (s.port p).pd = .none) :
    ∃ t, exec (.tVdmSenderResponse p) s = .next t ∧ (t.port p).pd.seq = (s.port p).pd.seq := by
  have hseq : isVdm (s.port p).pd.seq = false := by
    cases h : isVdm (s.port p).pd.seq with
    | false => rfl
    | true =>
      simp only [vdmSeq, h, if_true] at hv
      simp [hv, isVdm, stStep] at h
  have hv' : vdmSeq ((tOff p .vdm s).port p).pd = .none := by simpa [tOff, vdmSeq] using hv
  refine ⟨_, rfl, ?_⟩
  rw [portEv_port, onTimer_of_expires he, vdmFailed, hv']
  simp [stStep, endVdm, tOff, hseq]

/-- Refutes O33: its clause on tVDMSenderResponse leaves open which sequence runs, and a VCONN_Swap of the port, which is no VDM, goes on. -/
theorem not_pdVendorMessages : ¬ Obligations.PdVendorMessages := by
  intro h
  let s : State :=
    { State.reset with
      pwr := { State.reset.pwr with phase := .run }
      tiles := State.reset.tiles.set 0 { thr := Vector.replicate 8 { st := .running, run := true } }
      ports := State.reset.ports.set 0 { pd := { seq := .vconnSwap, timers := [.vdm] } } }
  obtain ⟨-, -, -, -, hvdm, -⟩ := h 0 s 0 0 0 [] []
  obtain ⟨t, ht, hclaimed, -⟩ := hvdm (by decide) (by decide) (by decide) (by decide)
  obtain ⟨t', ht', hseq⟩ := exec_tVdmSenderResponse_other (p := 0) (s := s) (by decide) (by decide)
  obtain rfl : t' = t := Host.Outcome.next.inj (ht'.symm.trans ht)
  exact absurd (hclaimed.symm.trans hseq) (by decide)

/-! ### The answer to a multi-chunk message, and a sequence that waits for it (06 R182, R191) -/

/-- An Exit Mode that waits for the end of a multi-chunk message opens the SBU switches with the Not_Supported that answers it. -/
theorem exec_tChunkingNotSupported_exit {p : PortId} {s : State} {l : List Seq} (he : expires .chunk p s = true) (hl : pdLive s p = true)
    (hn : (s.port p).pd.sinkNg = true) (hr : (s.port p).pd.ownRun = false) (ht : (s.port p).pd.timers = [.chunk])
    (hq : inSequence s p = false) (hreq : (s.port p).pd.req = none) (ho : (s.port p).pd.own = .stExit :: l)
    (htx : (s.port p).phy.tx = none) :
    ∃ t, exec (.tChunkingNotSupported p) s = .next t ∧ (t.port p).tc.sbu = .isOpen := by
  have hl' : pdLive (tOff p .chunk s) p = true := by simpa [pdLive, tOff] using hl
  have hseq : ((s.port p).pd.seq == .none) = true ∧ ((s.port p).pd.pe == .transition) = false ∧ (s.port p).pd.swapToPort = false := by
    simpa [inSequence, and_assoc] using hq
  obtain ⟨h1, h2, h3⟩ := hseq
  refine ⟨_, rfl, ?_⟩
  rw [onTimer_of_expires he, if_pos hl', resumeOwn, if_pos]
  · simp [launchOwn, putTx, tOff, htx, ho, launch, openSbu]
  · simp_all [putTx, tOff, tHas, seqRuns, inSequence]

/-- Refutes O34: its clause on tChunkingNotSupported lets nothing but the policy change, and an Exit Mode of the port that waited for the
end of the multi-chunk message starts with it and opens the SBU switches. -/
theorem not_pdTimerExpiry : ¬ Obligations.PdTimerExpiry := by
  intro h
  let s : State :=
    { State.reset with
      pwr := { State.reset.pwr with phase := .run }
      tiles := State.reset.tiles.set 0 { thr := Vector.replicate 8 { st := .running, run := true } }
      ports := State.reset.ports.set 0 {
        tc := { st := .attached, sbu := .straight }
        pd := { pe := .ready, rev := 2, objpos := 1, alt := true, sinkNg := true, own := [.stExit], timers := [.chunk] } } }
  obtain ⟨-, -, hchunk, -⟩ := h 0 s ⟨0, 0, 0, false, false⟩ .none []
  obtain ⟨t, ht, ⟨-, -, hclaimed, -⟩, -⟩ := hchunk (by decide) (by decide) (by decide)
  obtain ⟨t', ht', hsbu⟩ := exec_tChunkingNotSupported_exit (p := 0) (s := s) (by decide) (by decide) (by decide) (by decide) (by decide)
    (by decide) (by decide) (l := []) (by decide) (by decide)
  obtain rfl : t' = t := Host.Outcome.next.inj (ht'.symm.trans ht)
  have hsame : (t'.port 0).tc.sbu = (s.port 0).tc.sbu := (congrArg PortTc.sbu hclaimed :)
  exact absurd (hsame.symm.trans hsbu) (by decide)

end Sys2Proof.Machine
end

section
/-!
PROOF. What the policy of one port leaves as it is: operations beside the ports (records, budget words, events), and operations on one port and
beside it. Event bits that a core has latched stay latched through all of them (09 R317).
-/
namespace Sys2Proof.Machine

/-! ### Latched events stay latched -/

/-- Every event bit of a weaver that is latched in `r` is latched in `t`. -/
def Latches (r t : State) : Prop := ∀ q n, eventLatched (.weaver q) n r → eventLatched (.weaver q) n t

theorem Latches.refl (s : State) : Latches s s := fun _ _ => id

theorem Latches.trans {r s t : State} (h : Latches r s) (k : Latches s t) : Latches r t := fun q n e => k q n (h q n e)

theorem tileOf_laneOf_inj {p q : PortId} (ht : tileOf q = tileOf p) (hl : laneOf q = laneOf p) : q = p := by
  have ht' : q.val / 8 = p.val / 8 := congrArg Fin.val ht
  have hl' : q.val % 8 = p.val % 8 := congrArg Fin.val hl
  exact Fin.ext (by omega)

theorem cpuOf_weaver (q : PortId) (s : State) : cpuOf s (.weaver q) = (s.tile (tileOf q)).thr[laneOf q] := rfl

/-- The core that lane `l` of a tile holds. -/
theorem cpuOf_of_tile {q : PortId} {s t : State} (h : (t.tile (tileOf q)).thr = (s.tile (tileOf q)).thr) :
    cpuOf t (.weaver q) = cpuOf s (.weaver q) := congrArg (fun v : Vector Cpu 8 => v[laneOf q]) h

/-- An update of one weaver's core changes that core alone. -/
theorem cpuOf_modThr (p q : PortId) (f : Cpu → Cpu) (s : State) :
    cpuOf (modThr p f s) (.weaver q) = if q = p then f (cpuOf s (.weaver p)) else cpuOf s (.weaver q) := by
  have hset : ((modThr p f s).tile (tileOf p)).thr = (s.tile (tileOf p)).thr.set (laneOf p) (f (cpuOf s (.weaver p))) :=
    congrArg Tile.thr (modTile_tile_self ..)
  by_cases ht : tileOf q = tileOf p
  · have hq : cpuOf (modThr p f s) (.weaver q) = ((s.tile (tileOf p)).thr.set (laneOf p) (f (cpuOf s (.weaver p))))[laneOf q] := by
      rw [cpuOf_weaver, ← hset, ht]
    have hs : cpuOf s (.weaver q) = (s.tile (tileOf p)).thr[laneOf q] := by rw [cpuOf_weaver, ht]
    rw [hq, hs]
    by_cases hl : laneOf q = laneOf p
    · rw [if_pos (tileOf_laneOf_inj ht hl)]
      simp [hl]
    · have hne : (laneOf p : Nat) ≠ (laneOf q : Nat) := fun e => hl (Fin.ext e.symm)
      rw [if_neg (fun e => hl (congrArg laneOf e))]
      simp only [Fin.getElem_fin]
      exact Vector.getElem_set_ne _ _ hne
  · rw [if_neg (fun e => ht (congrArg tileOf e))]
    exact cpuOf_of_tile (congrArg Tile.thr (modTile_tile_of_ne _ _ _ ht))

theorem modThr_latches (p : PortId) {f : Cpu → Cpu} (hf : ∀ c n, c.epend.getLsbD n = true → (f c).epend.getLsbD n = true) (s : State) :
    Latches s (modThr p f s) := by
  intro q n e
  unfold eventLatched at *
  rw [cpuOf_modThr]
  split
  · next hq => exact hf _ n (hq ▸ e)
  · exact e

theorem latchEv_latches (p : PortId) (bits : Word) (s : State) : Latches s (latchEv p bits s) :=
  modThr_latches p (fun c n e => by simp [e]) s

/-- The bit that is latched is latched. -/
theorem latchEv_latched (p : PortId) (n : Nat) (hn : n < 32) (s : State) : eventLatched (.weaver p) n (latchEv p (BitVec.ofNat 32 (2 ^ n)) s) := by
  unfold eventLatched latchEv
  rw [cpuOf_modThr, if_pos rfl]
  rw [BitVec.getLsbD_or, BitVec.getLsbD_ofNat, Nat.testBit_two_pow_self]
  simp [hn]

theorem followStall_latches (p : PortId) (s : State) : Latches s (followStall p s) := by
  refine modThr_latches p (fun c n e => ?_) s
  split
  · exact e
  · split
    · exact e
    · exact e

theorem notePort_latches (s₀ : State) (p : PortId) (s : State) : Latches s (notePort s₀ p s) := by
  unfold notePort
  split
  · exact latchEv_latches p _ s
  · exact .refl s

theorem portEv_latches (p : PortId) (f : State → State) (s : State) : Latches (f s) (portEv p f s) := notePort_latches s p (f s)

/-! ### Operations beside the ports -/

/-- The state without the ports and without what their policies share with others: mailboxes, budget words and allocations, cores and
records on their way. BUD_CTL stays. -/
def sansPolicy (s : State) : State :=
  { s with ports := Vector.replicate 64 {}, mbx := {}, bud := { ctl := s.bud.ctl }, tiles := Vector.replicate 8 {}, posts := [], free := 0 }

/-- From `r` to `t` records are posted, budget words sent or events latched; no port changes. -/
structure Aside (r t : State) : Prop where
  rest : sansPolicy t = sansPolicy r
  ports : t.ports = r.ports
  latches : Latches r t

theorem Aside.refl (s : State) : Aside s s := ⟨rfl, rfl, .refl s⟩

theorem Aside.trans {r s t : State} (h : Aside r s) (k : Aside s t) : Aside r t :=
  ⟨k.rest.trans h.rest, k.ports.trans h.ports, h.latches.trans k.latches⟩

theorem Aside.port {r t : State} (h : Aside r t) (q : PortId) : t.port q = r.port q := congrArg (fun v : Vector Port 64 => v[q]) h.ports

section
variable {r s : State} (h : Aside r s)
include h

/-- An update of what is left out of `sansPolicy`, the cores apart. -/
theorem Aside.upd {t : State} (hr : sansPolicy t = sansPolicy s) (hp : t.ports = s.ports) (ht : t.tiles = s.tiles) : Aside r t :=
  h.trans ⟨hr, hp, fun q n e => by
    unfold eventLatched cpuOf State.tile at *
    rwa [ht]⟩

theorem modThr_aside (p : PortId) {f : Cpu → Cpu} (hf : ∀ c n, c.epend.getLsbD n = true → (f c).epend.getLsbD n = true) : Aside r (modThr p f s) :=
  h.trans ⟨rfl, rfl, modThr_latches p hf s⟩

theorem latchEv_aside (p : PortId) (bits : Word) : Aside r (latchEv p bits s) := h.trans ⟨rfl, rfl, latchEv_latches p bits s⟩

theorem followStall_aside (p : PortId) : Aside r (followStall p s) := h.trans ⟨rfl, rfl, followStall_latches p s⟩

theorem draw_aside (n : Nat) : Aside r { s with free := n } := h.upd rfl rfl rfl

theorem modBp_aside (p : PortId) (f : BudPort → BudPort) : Aside r (modBp p f s) := h.upd rfl rfl rfl

theorem modBud_aside {f : Bud → Bud} (hf : ∀ b, (f b).ctl = b.ctl) : Aside r (modBud f s) :=
  h.upd (by simp [sansPolicy, modBud, hf]) rfl rfl

omit h in
theorem ite_aside {c : Prop} [Decidable c] {a b : State} (ha : Aside r a) (hb : Aside r b) : Aside r (if c then a else b) := by
  split
  · exact ha
  · exact hb

theorem onlyIf_aside {c : Bool} {f : State → State} (hf : ∀ t, Aside r t → Aside r (f t)) : Aside r (onlyIf c f s) := by
  unfold onlyIf
  split
  · exact hf s h
  · exact h

theorem forEach_aside {β : Type} {l : List β} {f : β → State → State} (hf : ∀ b t, Aside r t → Aside r (f b t)) : Aside r (forEach l f s) := by
  unfold forEach
  induction l generalizing s with
  | nil => exact h
  | cons b bs ih => exact ih (hf b s h)

/-! Records -/

theorem epost_aside (place : PostSource) (x : Record) : Aside r (epost place x s) := by
  unfold epost
  split
  · exact h.upd rfl rfl rfl
  · split
    · next g _ =>
      refine h.trans ⟨rfl, rfl, fun q n e => ?_⟩
      have hthr : ((modTile g (fun x => { x with postLost := satInc x.postLost 0xFFFF }) s).tile (tileOf q)).thr = (s.tile (tileOf q)).thr := by
        by_cases ht : tileOf q = g
        · rw [ht, modTile_tile_self]
        · rw [modTile_tile_of_ne _ _ _ ht]
      unfold eventLatched at *
      rwa [cpuOf_of_tile hthr]
    · exact h

theorem weaverPostAt_aside (p : PortId) (st : Stamp) (cls : Nat) (payload : Word) : Aside r (weaverPostAt p st cls payload s) := epost_aside h _ _

theorem weaverPost_aside (p : PortId) (cls : Nat) (payload : Word) : Aside r (weaverPost p cls payload s) := epost_aside (draw_aside h _) _ _

theorem postAltAt_aside (p : PortId) (st : Option Stamp) (kind svid : Nat) : Aside r (postAltAt p st kind svid s) := by
  unfold postAltAt
  split
  · exact weaverPostAt_aside h _ _ _ _
  · exact weaverPost_aside h _ _ _

theorem budgetRecord_aside (kind : Nat) (p : PortId) (power : Nat) : Aside r (budgetRecord kind p power s) := epost_aside (draw_aside h _) _ _

theorem postPort_aside (p : PortId) (cls : Nat) (payload : Word) : Aside r (postPort p cls payload s) := h.upd rfl rfl rfl

/-! Budget words -/

theorem storeBox_aside (b : Fin 24) (v : Word) (thread : Option (Fin 8)) : Aside r (storeBox b v thread s) := h.upd rfl rfl rfl

theorem takeBox_aside (b : Fin 24) : Aside r (takeBox b s) := h.upd rfl rfl rfl

theorem pumpUp_aside (g : TileId) : Aside r (pumpUp g s) := by
  unfold pumpUp
  split
  · exact h
  · split
    · next x _ =>
      have hs : Aside r (modBox (boxUp g) (fun m => { m with budget := true }) (storeBox (boxUp g) (budWord x.1 x.2) (some (laneOf x.1))
          (modBud (fun b => { b with up := b.up.erase x }) s))) := h.upd rfl rfl rfl
      exact followStall_aside hs x.1
    · exact h

theorem pumpDown_aside (g : TileId) : Aside r (pumpDown g s) := by
  unfold pumpDown
  split
  · exact h
  · split
    · exact h.upd rfl rfl rfl
    · exact h

theorem sendUp_aside (p : PortId) (op power : Nat) : Aside r (sendUp p op power s) :=
  followStall_aside (pumpUp_aside (modBud_aside (draw_aside h _) (by exact fun _ => rfl)) _) _

theorem sendDown_aside (p : PortId) (op : Nat) (tag : Byte) (power : Nat) : Aside r (sendDown p op tag power s) :=
  pumpDown_aside (modBud_aside h (by exact fun _ => rfl)) _

/-! Allocations (06 R196 to R198) -/

theorem reclaimPort_aside (excess : State → Nat) (p : PortId) : Aside r (reclaimPort excess p s) := by
  simp only [reclaimPort]
  split
  · exact budgetRecord_aside (sendDown_aside (modBp_aside (modBp_aside h _ _) _ _) _ _ _ _) _ _ _
  · exact h

theorem reclaimAll_aside : Aside r (reclaimAll s) := by
  simp only [reclaimAll]
  split
  · exact forEach_aside (forEach_aside h fun _ _ k => forEach_aside k fun p _ k => reclaimPort_aside k _ p) fun p _ k => reclaimPort_aside k _ p
  · exact h

theorem offerPort_aside (p : PortId) : Aside r (offerPort p s) := by
  unfold offerPort
  extract_lets b fresh n
  split
  · exact budgetRecord_aside (sendDown_aside (modBp_aside (modBp_aside h _ _) _ _) _ _ _ _) _ _ _
  · exact h

theorem offerAll_aside : Aside r (offerAll s) := by
  unfold offerAll
  split
  · exact forEach_aside h fun p _ k => offerPort_aside k p
  · exact h

theorem settle_aside : Aside r (settle s) := (offerAll_aside (reclaimAll_aside h)).upd rfl rfl rfl

theorem fallToBase_aside (p : PortId) : Aside r (fallToBase p s) := settle_aside (modBp_aside (modBp_aside h _ _) _ _)

theorem fallToZero_aside (p : PortId) : Aside r (fallToZero p s) := settle_aside (modBp_aside (modBp_aside h _ _) _ _)

end

/-! ### Operations on one port, and beside it -/

/-- From `r` to `t` no port but p changes, and nothing outside the ports that is not beside them. -/
structure OnPort (p : PortId) (r t : State) : Prop where
  rest : sansPolicy t = sansPolicy r
  others : ∀ q, q ≠ p → t.port q = r.port q
  latches : Latches r t

theorem OnPort.refl (p : PortId) (s : State) : OnPort p s s := ⟨rfl, fun _ _ => rfl, .refl s⟩

theorem OnPort.trans {p : PortId} {r s t : State} (h : OnPort p r s) (k : OnPort p s t) : OnPort p r t :=
  ⟨k.rest.trans h.rest, fun q hq => (k.others q hq).trans (h.others q hq), h.latches.trans k.latches⟩

theorem Aside.onPort {r t : State} (h : Aside r t) (p : PortId) : OnPort p r t := ⟨h.rest, fun q _ => h.port q, h.latches⟩

theorem modPort_onPort (p : PortId) (f : Port → Port) (s : State) : OnPort p s (modPort p f s) :=
  ⟨rfl, fun _ hq => modPort_port_of_ne _ _ _ hq, .refl s⟩

section
variable {p : PortId} {r t : State} (h : OnPort p r t)
include h

theorem OnPort.teams : t.teams = r.teams := congrArg State.teams (a₁ := sansPolicy t) (a₂ := sansPolicy r) h.rest
theorem OnPort.grps : t.grps = r.grps := congrArg State.grps (a₁ := sansPolicy t) (a₂ := sansPolicy r) h.rest
theorem OnPort.tim : t.tim = r.tim := congrArg State.tim (a₁ := sansPolicy t) (a₂ := sansPolicy r) h.rest
theorem OnPort.boot : t.boot = r.boot := congrArg State.boot (a₁ := sansPolicy t) (a₂ := sansPolicy r) h.rest
theorem OnPort.mem : t.mem = r.mem := congrArg State.mem (a₁ := sansPolicy t) (a₂ := sansPolicy r) h.rest
theorem OnPort.ctl : t.bud.ctl = r.bud.ctl := congrArg (fun x : State => x.bud.ctl) (a₁ := sansPolicy t) (a₂ := sansPolicy r) h.rest
theorem OnPort.pwr : t.pwr = r.pwr := congrArg State.pwr (a₁ := sansPolicy t) (a₂ := sansPolicy r) h.rest
theorem OnPort.crp : t.crp = r.crp := congrArg State.crp (a₁ := sansPolicy t) (a₂ := sansPolicy r) h.rest

end

end Sys2Proof.Machine
end

section
/-!
PROOF. The policy of a port: what starting, ending and refusing its message sequences leaves of the port, and of the rest of the state
(06 R187, R191, R192, R205, R213, R225).
-/
namespace Sys2Proof.Machine

/-! ### The port outside its policy -/

/-- What no message sequence of the policy changes: the hub's part and the power path, the Type-C state but for the configuration in
effect, Rp, VCONN and the SBU switches; the written configuration and the count of failed sends; the receive slots. -/
def Port.outsidePolicy (x : Port) : Port :=
  { hub := x.hub, pw := x.pw
    tc := { x.tc with eff := 0, rp := .none, vconnOn := false, vconnPartner := false, vconnOc := false, sbu := .isOpen }
    pd := { cfg := x.pd.cfg, txFail := x.pd.txFail }
    phy := { slots := x.phy.slots, rxOvf := x.phy.rxOvf } }

/-- From `r` to `t` the policy of port p acts, on the port and beside it. -/
structure Policy (p : PortId) (r t : State) : Prop where
  on : OnPort p r t
  outside : (t.port p).outsidePolicy = (r.port p).outsidePolicy

theorem Policy.refl (p : PortId) (s : State) : Policy p s s := ⟨.refl p s, rfl⟩

theorem Policy.trans {p : PortId} {r s t : State} (h : Policy p r s) (k : Policy p s t) : Policy p r t :=
  ⟨h.on.trans k.on, k.outside.trans h.outside⟩

section
variable {p : PortId} {r t : State} (h : Policy p r t)
include h

theorem Policy.pdCfg : (t.port p).pd.cfg = (r.port p).pd.cfg := (congrArg (fun x : Port => x.pd.cfg) h.outside :)
theorem Policy.txFail : (t.port p).pd.txFail = (r.port p).pd.txFail := (congrArg (fun x : Port => x.pd.txFail) h.outside :)
theorem Policy.slots : (t.port p).phy.slots = (r.port p).phy.slots := (congrArg (fun x : Port => x.phy.slots) h.outside :)
theorem Policy.rxOvf : (t.port p).phy.rxOvf = (r.port p).phy.rxOvf := (congrArg (fun x : Port => x.phy.rxOvf) h.outside :)
theorem Policy.tcCfg : (t.port p).tc.cfg = (r.port p).tc.cfg := (congrArg (fun x : Port => x.tc.cfg) h.outside :)
theorem Policy.ccHold : (t.port p).tc.ccHold = (r.port p).tc.ccHold := (congrArg (fun x : Port => x.tc.ccHold) h.outside :)

end

/-- What an own sequence of the port, started or ended, leaves besides: a standing contract stays ready, an idle monitor of R214 idle, and
VCONN with a partner that sources it. -/
structure Port.Follows (x y : Port) : Prop where
  outside : y.outsidePolicy = x.outsidePolicy
  ready : x.pd.pe = .ready → y.pd.pe = .ready
  idle : x.pd.transMon = false → y.pd.transMon = false
  away : x.tc.vconnOn = false ∧ x.tc.vconnPartner = true → y.tc.vconnOn = false ∧ y.tc.vconnPartner = true

theorem Port.Follows.refl (x : Port) : x.Follows x := ⟨rfl, id, id, id⟩

theorem Port.Follows.trans {x y z : Port} (h : x.Follows y) (k : y.Follows z) : x.Follows z :=
  ⟨k.outside.trans h.outside, fun e => k.ready (h.ready e), fun e => k.idle (h.idle e), fun e => k.away (h.away e)⟩

/-- The part of it that stands in the policy's own state. -/
structure PortPd.Follows (d e : PortPd) : Prop where
  cfg : e.cfg = d.cfg
  txFail : e.txFail = d.txFail
  ready : d.pe = .ready → e.pe = .ready
  idle : d.transMon = false → e.transMon = false

/-- From `r` to `t` message sequences of port p's policy start or end. -/
structure Launches (p : PortId) (r t : State) : Prop where
  on : OnPort p r t
  port : (r.port p).Follows (t.port p)

theorem Launches.refl (p : PortId) (s : State) : Launches p s s := ⟨.refl p s, .refl _⟩

theorem Launches.trans {p : PortId} {r s t : State} (h : Launches p r s) (k : Launches p s t) : Launches p r t :=
  ⟨h.on.trans k.on, h.port.trans k.port⟩

theorem Launches.policy {p : PortId} {r t : State} (h : Launches p r t) : Policy p r t := ⟨h.on, h.port.outside⟩

section
variable {p : PortId} {r s : State}

theorem Policy.aside (h : Policy p r s) {t : State} (k : Aside s t) : Policy p r t :=
  h.trans ⟨k.onPort p, congrArg _ (k.port p)⟩

/-- An update of port p that leaves the port outside its policy. -/
theorem Policy.upd (h : Policy p r s) {f : Port → Port} (hf : ∀ x, (f x).outsidePolicy = x.outsidePolicy) : Policy p r (modPort p f s) :=
  h.trans ⟨modPort_onPort p f s, by rw [modPort_port_self, hf]⟩

variable (h : Launches p r s)
include h

theorem Launches.aside {t : State} (k : Aside s t) : Launches p r t := h.trans ⟨k.onPort p, by rw [k.port p]; exact .refl _⟩

theorem Launches.upd {f : Port → Port} (hf : ∀ x : Port, x.Follows (f x)) : Launches p r (modPort p f s) :=
  h.trans ⟨modPort_onPort p f s, by rw [modPort_port_self]; exact hf _⟩

/-- An update of the policy's own state. -/
theorem Launches.pd {f : PortPd → PortPd} (hf : ∀ d : PortPd, d.Follows (f d)) : Launches p r (modPd p f s) :=
  h.upd fun x => ⟨by simp [Port.outsidePolicy, (hf x.pd).cfg, (hf x.pd).txFail], (hf _).ready, (hf _).idle, id⟩

/-- An update of the Type-C state that the policy makes. -/
theorem Launches.tc {f : PortTc → PortTc} (hf : ∀ x : Port, x.Follows { x with tc := f x.tc }) : Launches p r (modTc p f s) :=
  h.upd hf

/-- An update of the PHY that leaves its slots. -/
theorem Launches.phy {f : PdPhy → PdPhy} (hf : ∀ x, (f x).slots = x.slots ∧ (f x).rxOvf = x.rxOvf) : Launches p r (modPhy p f s) :=
  h.upd fun x => ⟨by simp [Port.outsidePolicy, hf], id, id, id⟩

omit h in
theorem ite_launches {c : Prop} [Decidable c] {a b : State} (ha : c → Launches p r a) (hb : ¬c → Launches p r b) :
    Launches p r (if c then a else b) := by
  split
  · next e => exact ha e
  · next e => exact hb e

theorem onlyIf_launches {c : Bool} {f : State → State} (hf : ∀ t, Launches p r t → Launches p r (f t)) : Launches p r (onlyIf c f s) := by
  unfold onlyIf
  split
  · exact hf s h
  · exact h

theorem tOff_launches (x : PdTimer) : Launches p r (tOff p x s) := h.pd fun _ => ⟨rfl, rfl, id, id⟩
theorem tOn_launches (x : PdTimer) : Launches p r (tOn p x s) := h.pd fun _ => ⟨rfl, rfl, id, id⟩
theorem setRp_launches (x : Rp) : Launches p r (setRp p x s) := h.tc fun _ => ⟨rfl, id, id, id⟩
theorem openSbu_launches : Launches p r (openSbu p s) := h.tc fun _ => ⟨rfl, id, id, id⟩
theorem phyOpts_launches (sop1 rev2 : Bool) : Launches p r (phyOpts p sop1 rev2 s) := h.phy fun _ => ⟨rfl, rfl⟩
theorem latchTcCfg_launches : Launches p r (latchTcCfg p s) := (h.tc (by exact fun _ => ⟨rfl, id, id, id⟩)).pd fun _ => ⟨rfl, rfl, id, id⟩

theorem postAlt_launches (kind svid : Nat) : Launches p r (postAlt p kind svid s) := h.aside (weaverPost_aside (.refl s) _ _ _)

theorem ask_launches (op power : Nat) : Launches p r (ask p op power s) :=
  Launches.aside (h.pd (f := fun d => { d with asked := d.asked ++ [op] }) fun _ => ⟨rfl, rfl, id, id⟩) (sendUp_aside (.refl _) _ _ _)

theorem putTx_launches (m : PdMsg) : Launches p r (putTx p m s) := by
  unfold putTx
  split
  · exact h.phy fun _ => ⟨rfl, rfl⟩
  · exact h.pd fun _ => ⟨rfl, rfl, id, id⟩

/-- VCONN goes on only where the partner does not source it, and off only where it is on. -/
theorem setVconn_launches {on : Bool} {cause : Nat} (hv : (s.port p).tc.vconnOn = true ∨ (s.port p).tc.vconnPartner = false) :
    Launches p r (setVconn p on cause s) := by
  have hstep : Launches p r (modTc p (fun t => { t with vconnOn := on, vconnPartner := t.vconnPartner && !on }) s) := by
    refine h.trans ⟨modPort_onPort p _ s, ?_⟩
    rw [modTc_port_self]
    refine ⟨rfl, id, id, fun ⟨h₁, h₂⟩ => ?_⟩
    rcases hv with e | e
    · exact absurd (h₁.symm.trans e) (by decide)
    · exact absurd (h₂.symm.trans e) (by decide)
  exact hstep.aside (weaverPost_aside (.refl _) _ _ _)

theorem vconnFollow_launches : Launches p r (vconnFollow p s) := by
  unfold vconnFollow
  split
  · next e =>
    have hs := setVconn_launches h (on := true) (cause := 0) (.inr (by simpa using e.2.2))
    exact ite_launches (fun _ => tOn_launches hs _) fun _ => hs
  · exact h

theorem takeCfg_launches : Launches p r (takeCfg p s) := by
  unfold takeCfg
  extract_lets s₁ s₂ s₃ w
  have h₁ : Launches p r s₁ := latchTcCfg_launches h
  have h₂ : Launches p r s₂ := ite_launches (fun _ => ask_launches (setRp_launches h₁ _) _ _) fun _ => h₁
  have h₃ : Launches p r s₃ := ite_launches (fun e => setVconn_launches h₂ (.inl e.1)) fun _ => onlyIf_launches h₂ fun _ k => vconnFollow_launches k
  refine ite_launches (fun _ => h₃) fun _ => ite_launches (fun _ => ask_launches h₃ _ _) fun _ => ite_launches (fun _ => ?_) fun _ => h₃
  exact Launches.aside (h₃.pd (f := fun d => { d with hold := w }) fun _ => ⟨rfl, rfl, id, id⟩) (sendUp_aside (.refl _) _ _ _)

theorem sendCaps_launches (q : Seq) : Launches p r (sendCaps p q s) := by
  unfold sendCaps
  extract_lets s₁ w basis caps s₂ s₃ s₄ s₅
  have h₁ : Launches p r s₁ := takeCfg_launches h
  have h₂ : Launches p r s₂ := onlyIf_launches h₁ fun t k => k.aside (modBud_aside (.refl t) (by exact fun _ => rfl))
  have h₃ : Launches p r s₃ := onlyIf_launches h₂ fun t k => k.aside (budgetRecord_aside (.refl t) _ _ _)
  have h₄ : Launches p r s₄ := tOff_launches (tOff_launches h₃ _) _
  have h₅ : Launches p r s₅ := h₄.pd fun _ => ⟨rfl, rfl, fun e => by simp [e], id⟩
  exact putTx_launches h₅ _

theorem launch_launches (q : Seq) : Launches p r (launch p q s) := by
  have hmsg (m : PdMsg) : Launches p r (putTx p m (modPd p (fun d => { d with seq := q }) s)) := putTx_launches (h.pd (by exact fun _ => ⟨rfl, rfl, id, id⟩)) m
  cases q with
  | none => exact h
  | request | capsHold | capsReduced => exact sendCaps_launches h _
  | cableId =>
    have hs : Launches p r (modPd p (fun d => { d with seq := .cableId, discCount := d.discCount + 1 }) s) := h.pd fun _ => ⟨rfl, rfl, id, id⟩
    exact tOn_launches (putTx_launches (phyOpts_launches hs _ _) _) _
  | softReset =>
    have hs : Launches p r (modPd p (fun d => { d with seq := .softReset, softResets := satInc d.softResets 255 }) s) := h.pd fun _ => ⟨rfl, rfl, id, id⟩
    exact putTx_launches hs _
  | stExit => exact putTx_launches (openSbu_launches (h.pd (by exact fun _ => ⟨rfl, rfl, id, id⟩))) _
  | vconnSwap | stIdentity | stSvids | stModes | stEnter | stConfig | stStatus => exact hmsg _

theorem beginNg_launches : Launches p r (beginNg p s) := tOn_launches (setRp_launches (h.pd (by exact fun _ => ⟨rfl, rfl, id, id⟩)) _) _

theorem launchOwn_launches : Launches p r (launchOwn p s) := by
  unfold launchOwn
  split
  · exact h
  · exact launch_launches (h.pd (by exact fun _ => ⟨rfl, rfl, id, id⟩)) _

theorem startOwn_launches (q : Seq) : Launches p r (startOwn p q s) := by
  have hs : Launches p r (modPd p (fun d => { d with own := if d.own.contains q then d.own else d.own ++ [q] }) s) := h.pd fun _ => ⟨rfl, rfl, id, id⟩
  unfold startOwn
  refine ite_launches (fun _ => ite_launches (fun _ => hs) fun _ => beginNg_launches hs) fun _ => ?_
  exact ite_launches (fun _ => launch_launches h q) fun _ => hs

theorem endSeq_launches : Launches p r (endSeq p s) := by
  unfold endSeq
  extract_lets d s₁ s₂
  have h₁ : Launches p r s₁ := h.pd fun _ => ⟨rfl, rfl, id, id⟩
  refine ite_launches (fun _ => h.pd (by exact fun _ => ⟨rfl, rfl, id, id⟩)) fun _ => ite_launches (fun _ => launchOwn_launches (h₁.pd (by exact fun _ => ⟨rfl, rfl, id, id⟩))) fun _ => ?_
  refine ite_launches (fun _ => ite_launches (fun _ => h₁) fun _ => launchOwn_launches h₁) fun _ => ?_
  have h₂ : Launches p r s₂ := setRp_launches (h₁.pd (by exact fun _ => ⟨rfl, rfl, id, id⟩)) _
  exact ite_launches (fun _ => h₂) fun _ => beginNg_launches h₂

theorem stCut_launches : Launches p r (stCut p s) := ite_launches (fun _ => postAlt_launches h _ _) fun _ => h

theorem abortSeq_launches : Launches p r (abortSeq p s) := h.pd fun _ => ⟨rfl, rfl, fun e => by simp [e], id⟩

theorem softReset_launches : Launches p r (softReset p s) := by
  have hs := abortSeq_launches (stCut_launches h)
  exact ite_launches (fun _ => launch_launches hs _) fun _ => startOwn_launches hs _

theorem startSt_launches : Launches p r (startSt p s) := ite_launches (fun _ => startOwn_launches (h.pd (by exact fun _ => ⟨rfl, rfl, id, id⟩)) _) fun _ => h

theorem exitMode_launches : Launches p r (exitMode p s) := ite_launches (fun _ => startOwn_launches (openSbu_launches h) _) fun _ => h

theorem moreDiscovery_launches : Launches p r (moreDiscovery p s) := ite_launches (fun _ => startOwn_launches h _) fun _ => h

theorem firstCaps_launches : Launches p r (firstCaps p s) := ite_launches (fun _ => sendCaps_launches h _) fun _ => h

omit h in
/-- What follows PS_RDY of a contract starts from the state in which the contract stands. -/
theorem contractReady_launches_from (p : PortId) (s : State) :
    Launches p (tOff p .srcSettle (modPd p (fun d => { d with pe := .ready, transMon := false }) s)) (contractReady p s) := by
  unfold contractReady
  extract_lets s₁ s₂ s₃
  have h₂ : Launches p s₁ s₂ := endSeq_launches (.refl p s₁)
  have h₃ : Launches p s₁ s₃ := ite_launches (fun _ => setRp_launches h₂ _) fun _ => h₂
  exact moreDiscovery_launches (startSt_launches h₃)

theorem contractReady_launches : Launches p r (contractReady p s) :=
  (tOff_launches (h.pd (by exact fun _ => ⟨rfl, rfl, fun _ => rfl, fun _ => rfl⟩)) _).trans (contractReady_launches_from p s)

theorem afterWait_launches : Launches p r (afterWait p s) :=
  ite_launches (fun _ => startOwn_launches (endSeq_launches (h.pd (by exact fun _ => ⟨rfl, rfl, id, id⟩))) _) fun _ =>
    ite_launches (fun _ => tOn_launches (endSeq_launches h) _) fun _ => endSeq_launches h

theorem onSent_launches (m : PdMsg) : Launches p r (onSent p m s) := by
  unfold onSent
  extract_lets d ty answered s₁ s₂
  have h₁ : Launches p r s₁ := endSeq_launches (h.pd (by exact fun _ => ⟨rfl, rfl, id, id⟩))
  have h₂ : Launches p r s₂ := tOff_launches (h.pd (by exact fun _ => ⟨rfl, rfl, id, id⟩)) _
  refine ite_launches (fun _ => h) fun _ => ite_launches (fun _ => ?control) fun _ => ?data
  case data =>
    exact ite_launches (fun _ => ite_launches (fun _ => h₂) fun _ => tOn_launches h₂ _) fun _ =>
      ite_launches (fun _ => tOn_launches h _) fun _ => h
  case control =>
    refine ite_launches (fun _ => ite_launches (fun _ => tOn_launches h _) fun _ => ite_launches (fun _ => tOn_launches h _) fun _ => h)
      fun _ => ite_launches (fun _ => ?rdy) fun _ => ite_launches (fun _ => ?wait) fun _ => ite_launches (fun _ => ?reject) fun _ => ?own
    case rdy =>
      exact ite_launches (fun _ => contractReady_launches h) fun _ => ite_launches (fun _ => endSeq_launches (h.pd (by exact fun _ => ⟨rfl, rfl, id, id⟩))) fun _ => h
    case wait => exact ite_launches (fun _ => afterWait_launches (h.pd (by exact fun _ => ⟨rfl, rfl, id, id⟩))) fun _ => h
    case reject => exact ite_launches (fun _ => ite_launches (fun _ => tOn_launches h₁ _) fun _ => h₁) fun _ => h
    case own =>
      refine ite_launches (fun _ => tOn_launches (h.pd fun _ => ⟨?_, ?_, fun e => ?_, fun e => ?_⟩) _) fun _ => h
      · split <;> rfl
      · split <;> rfl
      · split <;> exact e
      · split <;> exact e

end

end Sys2Proof.Machine
end

section
/-!
PROOF. The policy of a port, continued: Hard Reset, a send that failed, the enables of Power Delivery, and acts that wait for the weaver
(06 R174, R205, R212, R213, R225; 01 R20).
-/
namespace Sys2Proof.Machine

/-! ### The weaver goes on acting (01 R20) -/

theorem weaverActs_congr {s t : State} {q : PortId} (hr : (cpuOf t (.weaver q)).run = (cpuOf s (.weaver q)).run)
    (hst : (cpuOf t (.weaver q)).st = (cpuOf s (.weaver q)).st) (hs : t.flt.safe = s.flt.safe) (hk : clocksRun t = clocksRun s)
    (hu : t.bud.up = s.bud.up) : weaverActs t q = weaverActs s q := by
  simp only [weaverActs, weaverUp, weaverLives, sendStalled, wordPends, hr, hst, hs, hk, hu]

@[simp] theorem weaverActs_modPort (p q : PortId) (f : Port → Port) (s : State) : weaverActs (modPort p f s) q = weaverActs s q := rfl
@[simp] theorem weaverActs_modTc (p q : PortId) (f : PortTc → PortTc) (s : State) : weaverActs (modTc p f s) q = weaverActs s q := rfl
@[simp] theorem weaverActs_modPd (p q : PortId) (f : PortPd → PortPd) (s : State) : weaverActs (modPd p f s) q = weaverActs s q := rfl
@[simp] theorem weaverActs_modPhy (p q : PortId) (f : PdPhy → PdPhy) (s : State) : weaverActs (modPhy p f s) q = weaverActs s q := rfl
@[simp] theorem weaverActs_modPw (p q : PortId) (f : PortPwr → PortPwr) (s : State) : weaverActs (modPw p f s) q = weaverActs s q := rfl
@[simp] theorem weaverActs_draw (n : Nat) (q : PortId) (s : State) : weaverActs { s with free := n } q = weaverActs s q := rfl

@[simp] theorem weaverActs_latchEv (p q : PortId) (bits : Word) (s : State) : weaverActs (latchEv p bits s) q = weaverActs s q := by
  refine weaverActs_congr ?_ ?_ rfl rfl rfl <;> rw [latchEv, cpuOf_modThr] <;> split
  · next e => rw [e]
  · rfl
  · next e => rw [e]
  · rfl

@[simp] theorem weaverActs_epost (place : PostSource) (x : Record) (q : PortId) (s : State) : weaverActs (epost place x s) q = weaverActs s q := by
  unfold epost
  split
  · rfl
  · split
    · next g _ =>
      have hc : cpuOf (modTile g (fun x => { x with postLost := satInc x.postLost 0xFFFF }) s) (.weaver q) = cpuOf s (.weaver q) := by
        apply cpuOf_of_tile
        by_cases ht : tileOf q = g
        · rw [ht, modTile_tile_self]
        · rw [modTile_tile_of_ne _ _ _ ht]
      exact weaverActs_congr (congrArg _ hc) (congrArg _ hc) rfl rfl rfl
    · rfl

@[simp] theorem weaverActs_weaverPostAt (p q : PortId) (st : Stamp) (cls : Nat) (payload : Word) (s : State) :
    weaverActs (weaverPostAt p st cls payload s) q = weaverActs s q := weaverActs_epost ..

@[simp] theorem weaverActs_weaverPost (p q : PortId) (cls : Nat) (payload : Word) (s : State) :
    weaverActs (weaverPost p cls payload s) q = weaverActs s q := weaverActs_epost ..

theorem orLater_of_acts {p : PortId} {x : Late} {f : State → State} {s : State} (h : weaverActs s p = true) : orLater p x f s = f s := if_pos h

theorem onLate_of_acts {p : PortId} {x : Late} {s : State} (h : weaverActs s p = true) : onLate p x s = lateAct p x s := if_pos h

/-- A record of the shipped program waits in the policy of a weaver that cannot act, and is posted by one that can. -/
theorem postPd_port (p : PortId) (cls : Nat) (st : Stamp) (f : Frame) (failed : Bool) (h : BitVec 16) (s : State) :
    ∃ l, (postPd p cls st f failed h s).port p = { s.port p with pd := { (s.port p).pd with late := l } } := by
  simp only [postPd, orLater]
  split
  · exact ⟨(s.port p).pd.late, weaverPostAt_port ..⟩
  · exact ⟨_, modPd_port_self ..⟩

@[simp] theorem weaverActs_postPd (p q : PortId) (cls : Nat) (st : Stamp) (f : Frame) (failed : Bool) (h : BitVec 16) (s : State) :
    weaverActs (postPd p cls st f failed h s) q = weaverActs s q := by
  simp only [postPd, orLater]
  split
  · simp
  · simp

/-! ### Hard Reset, a failed send and PD off -/

section
variable {p : PortId} {r s : State} (h : Policy p r s)
include h

theorem Policy.launches {t : State} (k : Launches p s t) : Policy p r t := h.trans k.policy

theorem Policy.pd {f : PortPd → PortPd} (hf : ∀ d, (f d).cfg = d.cfg ∧ (f d).txFail = d.txFail) : Policy p r (modPd p f s) :=
  h.upd fun x => by simp [Port.outsidePolicy, hf]

theorem Policy.phy {f : PdPhy → PdPhy} (hf : ∀ x, (f x).slots = x.slots ∧ (f x).rxOvf = x.rxOvf) : Policy p r (modPhy p f s) :=
  h.upd fun x => by simp [Port.outsidePolicy, hf]

omit h in
theorem ite_policy {c : Prop} [Decidable c] {a b : State} (ha : Policy p r a) (hb : Policy p r b) : Policy p r (if c then a else b) := by
  split
  · exact ha
  · exact hb

theorem orLater_policy {x : Late} {f : State → State} (hf : ∀ t, Policy p r t → Policy p r (f t)) : Policy p r (orLater p x f s) :=
  ite_policy (hf s h) (h.pd fun _ => ⟨rfl, rfl⟩)

theorem phyHardReset_policy : Policy p r (phyHardReset p s) := (h.phy (by exact fun _ => ⟨rfl, rfl⟩)).pd fun _ => ⟨rfl, rfl⟩

theorem hardResetSeq_policy (sent : Bool) : Policy p r (hardResetSeq p sent s) := by
  unfold hardResetSeq
  extract_lets s₁ s₂ s₃ s₄ s₅
  have h₁ : Policy p r s₁ := ite_policy (h.launches (postAlt_launches (.refl p s) _ _)) h
  have h₂ : Policy p r s₂ := (phyHardReset_policy h₁).launches (openSbu_launches (.refl p _))
  have h₃ : Policy p r s₃ := h₂.pd fun _ => ⟨rfl, rfl⟩
  have h₄ : Policy p r s₄ := h₃.launches (setRp_launches (phyOpts_launches (.refl p _) _ _) _)
  have h₅ : Policy p r s₅ := ite_policy (h₄.launches (putTx_launches (.refl p _) _)) h₄
  exact h₅.aside (sendUp_aside (fallToBase_aside (.refl _) _) _ _ _)

theorem sendHardReset_policy : Policy p r (sendHardReset p s) := ite_policy (hardResetSeq_policy h true) h

theorem disablePd_policy : Policy p r (disablePd p s) := h.pd fun _ => ⟨rfl, rfl⟩

theorem onFailed_policy (m : PdMsg) : Policy p r (onFailed p m s) := by
  unfold onFailed
  extract_lets ty s₁
  have h₁ : Policy p r s₁ := h.pd fun _ => ⟨rfl, rfl⟩
  refine ite_policy h (ite_policy (ite_policy (disablePd_policy h₁) (h₁.launches (tOn_launches (.refl p _) _))) ?_)
  exact ite_policy (sendHardReset_policy h) (h.launches (softReset_launches (.refl p s)))

/-! ### The enables of Power Delivery (06 R174, R225) -/

theorem holdVconn_policy : Policy p r (holdVconn p s) :=
  ite_policy ((h.upd (f := fun x => { x with tc := { x.tc with vconnOc := true } }) fun _ => rfl).aside (latchEv_aside (.refl _) _ _)) h

theorem vbusGood_policy : Policy p r (vbusGood p s) := by
  unfold vbusGood
  extract_lets s₁
  have h₁ : Policy p r s₁ := (holdVconn_policy h).launches (vconnFollow_launches (.refl p _))
  refine ite_policy h (ite_policy h₁ (ite_policy (h₁.pd (by exact fun _ => ⟨rfl, rfl⟩)) (ite_policy ?_ h₁)))
  exact Policy.launches (h₁.pd (f := fun d => { d with pe := .negotiating }) fun _ => ⟨rfl, rfl⟩) (ask_launches (.refl p _) _ _)

theorem enablePd_policy : Policy p r (enablePd p s) := by
  unfold enablePd
  extract_lets s₁
  have h₁ : Policy p r s₁ := h.pd fun _ => ⟨rfl, rfl⟩
  refine ite_policy h (ite_policy ?_ (ite_policy (vbusGood_policy h₁) h₁))
  exact Policy.launches (h.pd (f := fun d => { d with pe := .ready }) fun _ => ⟨rfl, rfl⟩) (startOwn_launches (.refl p _) _)

theorem followSt_policy : Policy p r (followSt p s) :=
  ite_policy (h.launches (exitMode_launches (.refl p s))) (ite_policy (h.launches (startSt_launches (.refl p s))) h)

theorem onLate_pdEn_policy : Policy p r (onLate p .pdEn s) := orLater_policy h fun _ k => enablePd_policy k

theorem onLate_stEn_policy : Policy p r (onLate p .stEn s) := orLater_policy h fun _ k => followSt_policy k

theorem onLate_sent_policy (m : PdMsg) : Policy p r (onLate p (.sent m) s) :=
  orLater_policy h fun t k => ite_policy (k.launches (onSent_launches (.refl p t) m)) k

theorem onLate_failed_policy (m : PdMsg) : Policy p r (onLate p (.failed m) s) :=
  orLater_policy h fun _ k => ite_policy (onFailed_policy k m) k

theorem onLate_hardReset_policy : Policy p r (onLate p .hardReset s) :=
  orLater_policy h fun _ k => ite_policy (hardResetSeq_policy k false) k

theorem overflowed_policy : Policy p r (overflowed p s) :=
  ite_policy (orLater_policy h fun t k => ite_policy (k.launches (softReset_launches (.refl p t))) k) h

theorem onlyIf_policy {c : Bool} {f : State → State} (hf : ∀ t, Policy p r t → Policy p r (f t)) : Policy p r (onlyIf c f s) := by
  unfold onlyIf
  split
  · exact hf s h
  · exact h

theorem postPd_policy (cls : Nat) (st : Stamp) (f : Frame) (failed : Bool) (x : BitVec 16) : Policy p r (postPd p cls st f failed x s) :=
  orLater_policy h fun t k => k.aside (weaverPostAt_aside (.refl t) _ _ _ _)

theorem nextTx_policy : Policy p r (nextTx p s) := by
  unfold nextTx
  split
  · next m l _ _ => exact (h.pd (f := fun d => { d with outq := l }) fun _ => ⟨rfl, rfl⟩).phy fun _ => ⟨rfl, rfl⟩
  · exact h

theorem stepTxId_policy (f : Frame) : Policy p r (stepTxId p f s) := by
  refine h.phy fun _ => ⟨?_, ?_⟩
  · split <;> rfl
  · split <;> rfl

theorem endTx_policy (x : Tx) : Policy p r (endTx p x s) := nextTx_policy (stepTxId_policy (h.phy (by exact fun _ => ⟨rfl, rfl⟩)) _)

theorem postSent_policy (x : Tx) (failed : Bool) : Policy p r (postSent p x failed s) := ite_policy h (postPd_policy h _ _ _ _ _)

end

end Sys2Proof.Machine
end

section
/-!
PROOF. The arbiter's share of a port that falls: to its base with Hard Reset, to 0 with a detach (06 R196, R212).
-/
namespace Sys2Proof.Machine

/-! ### Budget words change no share (06 R201) -/

section
variable (p : PortId) (s : State)

@[simp] theorem pumpUp_budPort (g : TileId) : (pumpUp g s).bud.port = s.bud.port := by
  unfold pumpUp
  split
  · rfl
  · split
    · rfl
    · rfl

@[simp] theorem sendUp_budPort (op power : Nat) : (sendUp p op power s).bud.port = s.bud.port := pumpUp_budPort ..

@[simp] theorem pumpDown_budPort (g : TileId) : (pumpDown g s).bud.port = s.bud.port := by
  unfold pumpDown
  split
  · rfl
  · split
    · rfl
    · rfl

@[simp] theorem sendDown_budPort (op : Nat) (tag : Byte) (power : Nat) : (sendDown p op tag power s).bud.port = s.bud.port := pumpDown_budPort ..

@[simp] theorem epost_bud (place : PostSource) (x : Record) : (epost place x s).bud = s.bud := by
  unfold epost
  split
  · rfl
  · split <;> rfl

@[simp] theorem budgetRecord_bud (kind power : Nat) : (budgetRecord kind p power s).bud = s.bud := epost_bud ..

@[simp] theorem weaverPost_bud (cls : Nat) (payload : Word) : (weaverPost p cls payload s).bud = s.bud := epost_bud ..

end

/-! ### The arbiter's share of a port -/

/-- What the arbiter holds of port p. -/
def State.share (s : State) (p : PortId) : BudPort := s.bud.port[p]

theorem share_congr {s t : State} (h : t.bud.port = s.bud.port) (p : PortId) : t.share p = s.share p :=
  congrArg (fun v : Vector BudPort 64 => v[p]) h

theorem modBp_share_self (p : PortId) (f : BudPort → BudPort) (s : State) : (modBp p f s).share p = f (s.share p) := modBp_port_self ..

theorem modBp_share_of_ne {p q : PortId} (h : q ≠ p) (f : BudPort → BudPort) (s : State) : (modBp p f s).share q = s.share q :=
  modBp_port_of_ne h f s

theorem allocOf_congr {s t : State} (h : t.bud.port = s.bud.port) (p : PortId) : allocOf t p = allocOf s p :=
  congrArg BudPort.alloc (share_congr h p)

/-! ### A share at or below its base, of a port that is not starved, stands (06 R197, R198) -/

/-- The arbiter neither reclaims from the share nor offers to it. -/
def Settled (b : BudPort) : Prop := b.starved = false ∧ b.alloc ≤ b.base

section
variable {b : BudPort} (hb : Settled b) {p : PortId} {s : State} (h : s.share p = b)
include hb h

omit hb in
/-- A change of another port's share, with its word and its record. -/
theorem otherShare_settled {q : PortId} (hq : p ≠ q) (f : BudPort → BudPort) (n kind op : Nat) :
    (budgetRecord kind q n (sendDown q op 0 n (modBp q f (setAlloc q n s)))).share p = b := by
  have hword : (budgetRecord kind q n (sendDown q op 0 n (modBp q f (setAlloc q n s)))).bud.port = (modBp q f (setAlloc q n s)).bud.port := by simp
  rw [share_congr hword, modBp_share_of_ne hq, setAlloc, modBp_share_of_ne hq, h]

theorem reclaimPort_settled (excess : State → Nat) (q : PortId) : (reclaimPort excess q s).share p = b := by
  obtain ⟨-, hle⟩ := hb
  unfold reclaimPort
  extract_lets x n
  split
  · next hlt =>
    refine otherShare_settled h ?_ _ _ _ _
    rintro rfl
    have hx : x = b := h
    simp only [n, hx] at hlt
    omega
  · exact h

theorem offerPort_settled (q : PortId) : (offerPort q s).share p = b := by
  obtain ⟨hst, -⟩ := hb
  unfold offerPort
  extract_lets x fresh n
  split
  · next hc =>
    refine otherShare_settled h ?_ _ _ _ _
    rintro rfl
    have hx : x = b := h
    rw [hx, hst] at hc
    exact absurd hc.1 (by decide)
  · exact h

theorem settle_settled : (settle s).share p = b := by
  have hreclaim : (reclaimAll s).share p = b := by
    unfold reclaimAll
    split
    · exact forEach_invariant (P := fun t => t.share p = b) (fun q _ k => reclaimPort_settled hb k _ q)
        (forEach_invariant (P := fun t => t.share p = b)
          (fun _ _ k => forEach_invariant (P := fun t => t.share p = b) (fun q _ k => reclaimPort_settled hb k _ q) k) h)
    · exact h
  have hoffer : (offerAll (reclaimAll s)).share p = b := by
    unfold offerAll
    split
    · exact forEach_invariant (P := fun t => t.share p = b) (fun q _ k => offerPort_settled hb k q) hreclaim
    · exact hreclaim
  exact hoffer

end

/-- R212: the share falls to its base, where it is above it. -/
theorem fallToBase_alloc (p : PortId) (s : State) : allocOf (fallToBase p s) p = min (allocOf s p) (s.share p).base := by
  refine congrArg BudPort.alloc (settle_settled (b := { s.share p with
    alloc := min (s.share p).alloc (s.share p).base, hold := BitVec.ofNat 16 (min (s.share p).alloc (s.share p).base)
    want := (s.share p).base, starved := false, waiting := false }) ⟨rfl, Nat.min_le_right _ _⟩ ?_)
  rw [modBp_share_self, setAlloc, modBp_share_self]
  rfl

/-- R196: the share falls to 0. -/
theorem fallToZero_alloc (p : PortId) (s : State) : allocOf (fallToZero p s) p = 0 := by
  refine congrArg BudPort.alloc (settle_settled (b := { s.share p with
    alloc := 0, hold := 0, base := 0, want := 0, starved := false, waiting := false }) ⟨rfl, Nat.le_refl _⟩ ?_)
  rw [modBp_share_self, setAlloc, modBp_share_self]
  rfl

end Sys2Proof.Machine
end

section
/-!
PROOF. What a port's policy sends: a message before the transmitter, and Source_Capabilities with the configuration they bring into effect
(06 R184, R185, R202, R225, 09 R324).
-/
namespace Sys2Proof.Machine

/-! ### What goes on beside the ports leaves every port as it is -/

section
variable {p q : PortId} {s : State}

@[simp] theorem followStall_port : (followStall p s).port q = s.port q := (followStall_aside (.refl s) p).port q
@[simp] theorem modBud_port {f : Bud → Bud} : (modBud f s).port q = s.port q := rfl
@[simp] theorem modBp_ports {f : BudPort → BudPort} : (modBp p f s).port q = s.port q := rfl
@[simp] theorem sendUp_port {op power : Nat} : (sendUp p op power s).port q = s.port q := (sendUp_aside (.refl s) p op power).port q
@[simp] theorem budgetRecord_port {kind power : Nat} : (budgetRecord kind p power s).port q = s.port q :=
  (budgetRecord_aside (.refl s) kind p power).port q
@[simp] theorem fallToBase_port : (fallToBase p s).port q = s.port q := (fallToBase_aside (.refl s) p).port q
@[simp] theorem fallToZero_port : (fallToZero p s).port q = s.port q := (fallToZero_aside (.refl s) p).port q

theorem arriveDown_aside (p : PortId) (w : BudWord) (s : State) : Aside s (arriveDown p w s) := by
  unfold arriveDown
  exact ite_aside (pumpDown_aside (takeBox_aside (.refl s) _) _) (.refl s)

@[simp] theorem arriveDown_port {w : BudWord} : (arriveDown p w s).port q = s.port q := (arriveDown_aside p w s).port q

theorem ask_port {op power : Nat} : (ask p op power s).port p = { s.port p with pd := { (s.port p).pd with asked := (s.port p).pd.asked ++ [op] } } := by
  simp [ask]

end

/-! ### A message before the transmitter -/

section
variable {p : PortId} {m : PdMsg} {s : State}

/-- A free transmitter takes the message up. -/
theorem putTx_free (h : (s.port p).phy.tx = none) : putTx p m s = modPhy p (fun x => { x with tx := some { msg := m } }) s := by
  simp [putTx, h]

/-- A busy transmitter lets it wait. -/
theorem putTx_busy {x : Tx} (h : (s.port p).phy.tx = some x) : putTx p m s = modPd p (fun d => { d with outq := d.outq ++ [m] }) s := by
  simp [putTx, h]

/-- Wherever the message goes, the policy's state but for the messages that wait is as it was. -/
theorem putTx_pd : ∃ l, ((putTx p m s).port p).pd = { (s.port p).pd with outq := l } := by
  cases h : (s.port p).phy.tx with
  | none => exact ⟨(s.port p).pd.outq, by simp [putTx_free h]⟩
  | some x => exact ⟨_, by rw [putTx_busy h, modPd_port_self]⟩

end

/-! ### Source_Capabilities -/

/-- The power that Source_Capabilities are built from: the want of a port that POLICY = WAIT lets ask, or its hold (06 R202). -/
def capsBasis (q : Seq) (s : State) (p : PortId) : Nat := if policyWait s ∧ q = .request then wantOf s p else holdNow s p

/-- The policy's state as Source_Capabilities leave it. -/
def PortPd.offering (caps : List Pdo) (d : PortPd) : PortPd :=
  { takeOver .request { d with timers := (d.timers.filter (· != .sourceCapability)).filter (· != .waitCap) } with
    capsDue := false, caps := caps, pe := if d.pe = .ready then .ready else .negotiating }

/-- Source_Capabilities: the written configuration takes effect, and the message goes before the transmitter. -/
theorem sendCaps_eq (p : PortId) (q : Seq) (s : State) :
    let u := takeCfg p s
    let caps := pdosOf u p (capsBasis q u p)
    ∃ v, Launches p s v ∧ v.port p = { u.port p with pd := (u.port p).pd.offering caps } ∧
      sendCaps p q s = putTx p (dataMsg v p .sop dSourceCaps (pdoWords caps)) v := by
  intro u caps
  let v₁ := onlyIf (decide (capsBasis q u p < wantOf u p)) (budgetRecord 2 p (capsBasis q u p)) (onlyIf (decide (capsBasis q u p < wantOf u p)) countReduced u)
  have hv₁ : Aside u v₁ := onlyIf_aside (onlyIf_aside (.refl u) fun t k => modBud_aside k (by exact fun _ => rfl)) fun t k => budgetRecord_aside k _ _ _
  let f : PortPd → PortPd := fun d => { takeOver .request d with capsDue := false, caps := caps, pe := if d.pe = .ready then .ready else .negotiating }
  refine ⟨modPd p f (tOff p .waitCap (tOff p .sourceCapability v₁)), ?_, ?_, rfl⟩
  · have h₁ : Launches p s v₁ := (takeCfg_launches (.refl p s)).aside hv₁
    exact (tOff_launches (tOff_launches h₁ _) _).pd fun _ => ⟨rfl, rfl, fun e => by simp [f, e], id⟩
  · rw [modPd_port_self, tOff, modPd_port_self, tOff, modPd_port_self, hv₁.port p]
    rfl

/-- Source_Capabilities leave the port ready or negotiating: no transition of a contract goes on behind them (06 R185). -/
theorem sendCaps_pe (p : PortId) (q : Seq) (s : State) :
    ((sendCaps p q s).port p).pd.pe = if ((takeCfg p s).port p).pd.pe = .ready then .ready else .negotiating := by
  obtain ⟨v, -, hv, heq⟩ := sendCaps_eq p q s
  obtain ⟨l, hl⟩ := putTx_pd (p := p) (m := dataMsg v p .sop dSourceCaps (pdoWords (pdosOf (takeCfg p s) p (capsBasis q (takeCfg p s) p)))) (s := v)
  rw [heq, hl, hv]
  rfl

end Sys2Proof.Machine
end

section
/-!
PROOF. The power arbiter: a word that leaves its mailbox lets the next one in, and the weaver that waited with it acts again
(01 R20, 06 R194, R201).
-/
namespace Sys2Proof.Machine

/-- Where one weaver alone is stalled in a send, it alone sees what came about meanwhile. -/
theorem unstall_of_only {p : PortId} {r s : State} (h : ∀ q, sendStalled r q = (q == p)) : unstall r s = catchUp p s := by
  have hone : (fins 64).filter (· == p) = [p] := by
    rw [List.filter_beq, fins, List.count_eq_one_of_mem (List.nodup_finRange 64) (List.mem_finRange p), List.replicate_one]
  calc unstall r s = forEach ((fins 64).filter (· == p)) catchUp s := by
        simp only [unstall, forEach, List.foldl_filter, h]
    _ = catchUp p s := by rw [hone]; rfl

/-- A weaver in AttachWait that finds its pins open takes the attach back (06 R173). -/
theorem catchUp_attachWait_open {p : PortId} {s : State} (ha : weaverActs s p = true) (hw : withdrawn s p = false) (he : tcEn s p = true)
    (hs : (s.port p).tc.st = .attachWait) (hpin : attachPin (s.port p).tc = .none) (hl : (s.port p).pd.late = [])
    (ho : (s.port p).tc.ocDue = false) : ((catchUp p s).port p).tc.st = .unattached := by
  simp [catchUp, runLate, forEach, followPins, ha, hw, he, hs, hpin, hl, ho]

/-- A state with two words of port 0, one in the mailbox and one that waits for it, so that its weaver is stalled; the port is in
AttachWait, and its pins have opened. -/
def secondWordWaits : State :=
  let w : BudWord := { op := opBase, tag := 0, power := 0 }
  { State.reset with
    pwr := { State.reset.pwr with phase := .run }
    sup := { State.reset.sup with st := .running, run := true }
    bud := { State.reset.bud with up := [(0, w)] }
    mbx := { State.reset.mbx with box := State.reset.mbx.box.set 16 { full := true, data := budWord 0 w } }
    tiles := State.reset.tiles.set 0 { thr := Vector.replicate 8 { st := .running, run := true } }
    ports := State.reset.ports.set 0 { tc := { st := .attachWait, cfg := 0x8000 } } }

theorem secondWordWaits_stalled : ∀ q, sendStalled secondWordWaits q = (q == 0) := by decide

theorem exec_base_secondWordWaits : ∃ t, exec (.base 0 0 0) secondWordWaits = .next t ∧ (t.port 0).tc.st = .unattached := by
  have hsup : supUp secondWordWaits = true := by decide
  refine ⟨_, rfl, ?_⟩
  rw [toArbiter, if_pos hsup, unstall_of_only secondWordWaits_stalled]
  exact catchUp_attachWait_open (by decide) (by decide) (by decide) (by decide) (by decide) (by decide) (by decide)

/-- Refutes O36: its clauses let no port change, and where a word that is taken from its mailbox lets in the next word of a stalled weaver,
that weaver acts again: here it goes from AttachWait back to Unattached. -/
theorem not_arbiterDecisions : ¬ Obligations.ArbiterDecisions := by
  intro h
  obtain ⟨hbase, -⟩ := h 0 secondWordWaits 0 0 (by decide)
  obtain ⟨t, ht, hports, -⟩ := hbase (by decide)
  obtain ⟨t', ht', hst⟩ := exec_base_secondWordWaits
  obtain rfl : t' = t := Host.Outcome.next.inj (ht'.symm.trans ht)
  have hsame : (t'.port 0).tc.st = (secondWordWaits.port 0).tc.st := congrArg (fun v : Vector Port 64 => v[(0 : PortId)].tc.st) hports
  exact absurd (hsame.symm.trans hst) (by decide)

end Sys2Proof.Machine
end

section
/-!
PROOF. The arbiter's words at the port: a COMMIT granted before any capabilities stand brings the first ones, which end the transition
(06 R187, R189).
-/
namespace Sys2Proof.Machine

theorem sendCaps_pe_ne_transition (p : PortId) (q : Seq) (s : State) : ((sendCaps p q s).port p).pd.pe ≠ .transition := by
  rw [sendCaps_pe]
  split <;> decide

/-- The hold becomes known where no capabilities stand: the first ones are sent (06 R187). -/
theorem holdKnown_first {p : PortId} {s : State} (hl : pdLive s p = true) (hc : (s.port p).pd.caps = [])
    (hd : discFirst (modPd p (fun d => { d with capsDue := true }) s) p = false) :
    holdKnown p s = sendCaps p .request (modPd p (fun d => { d with capsDue := true }) s) := by
  simp [holdKnown, firstCaps, hl, hc, hd]

/-- The answer to what was asked first (06 R201). -/
theorem answered_of_acts {p : PortId} {w : BudWord} {f : Nat → State → State} {s : State} {op : Nat} {l : List Nat} (ha : weaverActs s p = true)
    (hask : (s.port p).pd.asked = op :: l) :
    answered p w f s = f op (modPd p (fun d => { d with asked := l, hold := w.power.toNat }) (arriveDown p w s)) := by
  simp [answered, ha, hask]

/-- A state in which a COMMIT of port 0 waits for its answer before any capabilities stand. -/
def commitBeforeCaps : State :=
  { State.reset with
    pwr := { State.reset.pwr with phase := .run }
    tiles := State.reset.tiles.set 0 { thr := Vector.replicate 8 { st := .running, run := true } }
    ports := State.reset.ports.set 0 {
      tc := { st := .attached }
      pd := { pe := .negotiating, asked := [opCommit], req := some { objpos := 1, volt := 100, cur := 10, mismatch := false } } } }

/-- The port's state as the grant's word is taken, before Accept. -/
def commitGranted : State :=
  modPd 0 (fun d => { d with asked := [], hold := 5 }) (arriveDown 0 { op := opGrant, tag := 0, power := 5 } commitBeforeCaps)

theorem exec_grant_commitBeforeCaps : ∃ t, exec (.grant 0 0 5) commitBeforeCaps = .next t ∧ (t.port 0).pd.pe ≠ .transition := by
  have hacts : weaverActs commitBeforeCaps 0 = true := by decide
  have hlate : ¬(lateCommit commitGranted 0 = true ∨ ¬openReq commitGranted 0 = true) := by decide
  have hgoes : exec (.grant 0 0 5) commitBeforeCaps = .next (portEv 0 (fun _ => holdKnown 0 (answerAccept 0 commitGranted)) commitBeforeCaps) := by
    refine congrArg Host.Outcome.next (congrArg (notePort commitBeforeCaps 0) ?_)
    rw [answered_of_acts hacts (l := []) (op := opCommit) (by decide), if_neg (by decide), if_pos rfl]
    change onlyIf _ _ (if lateCommit commitGranted 0 = true ∨ ¬openReq commitGranted 0 = true then _ else _) = _
    rw [if_neg hlate]
    exact if_pos (by decide)
  refine ⟨_, hgoes, ?_⟩
  rw [portEv_port, holdKnown_first (by decide) (by decide) (by decide)]
  exact sendCaps_pe_ne_transition _ _ _

/-- Refutes O37: it claims that a granted COMMIT leaves the policy in the transition of the contract; where no capabilities stand and the
grant changes the hold, the first Source_Capabilities follow the Accept, and the policy negotiates. -/
theorem not_budgetWordsAtThePort : ¬ Obligations.BudgetWordsAtThePort := by
  intro h
  obtain ⟨-, -, -, hcommit, -⟩ := h 0 commitBeforeCaps 0 5 opCommit [] { objpos := 1, volt := 100, cur := 10, mismatch := false } (by decide)
  obtain ⟨⟨t, ht, -, hpe, -⟩, -⟩ := hcommit (by decide) (by decide) (by decide) (by decide) (by decide)
  obtain ⟨t', ht', hne⟩ := exec_grant_commitBeforeCaps
  obtain rfl : t' = t := Host.Outcome.next.inj (ht'.symm.trans ht)
  exact hne hpe

end Sys2Proof.Machine
end

section
/-!
PROOF. Messages of Power Delivery on the wire: reception into the slots of the PHY, Hard Reset signalling, and a send with its retries
(06 R180, R190, R212, R213, 09 R323 to R325).
-/
namespace Sys2Proof.Machine

/-! ### A command that notes its events -/

/-- `t` is `u` with events of weaver p noted: only event bits differ, and none is lost. -/
structure Noted (u t : State) : Prop where
  same : SameButEvents t u
  latches : Latches u t

theorem goes_portEv {i : Instr} {p : PortId} {f : State → State} {s u : State} (h : exec i s = .next (portEv p f s)) (hu : f s = u) :
    ∃ t, exec i s = .next t ∧ Noted u t := ⟨_, h, hu ▸ ⟨portEv_same p f s, portEv_latches p f s⟩⟩

section
variable {u t : State} (h : Noted u t)
include h

theorem Noted.port (q : PortId) : t.port q = u.port q := congrArg (fun v : Vector Port 64 => v[q]) h.same.ports
theorem Noted.bud : t.bud = u.bud := h.same.bud
theorem Noted.mem : t.mem = u.mem := h.same.mem
theorem Noted.teams : t.teams = u.teams := h.same.teams
theorem Noted.grps : t.grps = u.grps := congrArg State.grps (a₁ := withoutEvents t) (a₂ := withoutEvents u) h.same

end

/-! ### Stamps of now (01 R22) -/

theorem clampInt_range {lo hi n : Int} (h : lo ≤ hi) : lo ≤ clampInt lo hi n ∧ clampInt lo hi n ≤ hi := by
  unfold clampInt
  omega

@[simp] theorem takeStamp_port (tile : Option TileId) (q : PortId) (s : State) : (takeStamp tile s).2.port q = s.port q := rfl
@[simp] theorem weaverActs_takeStamp (tile : Option TileId) (q : PortId) (s : State) : weaverActs (takeStamp tile s).2 q = weaverActs s q := rfl

theorem takeStamp_now (tile : Option TileId) (s : State) : StampNow tile (takeStamp tile s).1 s := by
  obtain ⟨hlo, hhi⟩ := clampInt_range (lo := -100) (hi := 100) (n := Config.stampError s.free) (by decide)
  simp only [StampNow, takeStamp, nsPerSec]
  generalize clampInt (-100) 100 (Config.stampError s.free) = e at *
  generalize hn : ((counterNs s : Int) + e).toNat = n
  have hdiv : n / 1000000000 * 1000000000 + n % 1000000000 = n := Nat.div_add_mod' n _
  rw [hdiv]
  exact ⟨by omega, by omega, Nat.mod_lt _ (by decide), trivial⟩

/-! ### Reception (06 R180, 09 R325) -/

theorem phyHears_iff {s : State} {p : PortId} {f : Frame} : phyHears s p f = true ↔
    clocksRun s = true ∧ (s.port p).tc.ccsel ≠ .none ∧ (f ≠ .sop1 ∨ (s.port p).phy.optSop1 = true) := by
  simp [phyHears, and_assoc]

theorem modPort_of_eq {p : PortId} {f : Port → Port} {s : State} (h : f (s.port p) = s.port p) : modPort p f s = s := by
  have hset : s.ports.set p (f s.ports[p]) = s.ports := by
    have h' : f s.ports[p] = s.ports[p] := h
    rw [h']
    exact Vector.set_getElem_self _
  unfold modPort
  rw [hset]

/-- A sample of the CC baseline changes the baseline alone (06 R177). -/
theorem baselineSample_eq (p : PortId) (mv : Int) (s : State) :
    ∃ f : PortTc → PortTc, (∀ t, sansBaseline (f t) = sansBaseline t) ∧ baselineSample p mv s = modTc p f s := by
  unfold baselineSample
  split
  · exact ⟨id, fun _ => rfl, (modPort_of_eq rfl).symm⟩
  · refine ⟨_, fun t => ?_, rfl⟩
    dsimp only
    split
    · split <;> rfl
    · rfl

/-- The PHY after GoodCRC for a new message: its MessageID is remembered. -/
def PdPhy.acked (m : PdMsg) (x : PdPhy) : PdPhy :=
  let x := { x with goodcrc := some (m.frame, mId m.header) }
  if m.frame = .sop1 then { x with rxId1 := some (mId m.header) } else { x with rxId := some (mId m.header) }

@[simp] theorem PdPhy.acked_slots (m : PdMsg) (x : PdPhy) : (x.acked m).slots = x.slots := by
  unfold PdPhy.acked
  split <;> rfl

@[simp] theorem PdPhy.acked_rxOvf (m : PdMsg) (x : PdPhy) : (x.acked m).rxOvf = x.rxOvf := by
  unfold PdPhy.acked
  split <;> rfl

@[simp] theorem PdPhy.acked_tx (m : PdMsg) (x : PdPhy) : (x.acked m).tx = x.tx := by
  unfold PdPhy.acked
  split <;> rfl

theorem PdPhy.lastRx_acked (m : PdMsg) (x : PdPhy) (l : List Slot) : lastRx { x.acked m with slots := l } m.frame = some (mId m.header) := by
  unfold lastRx PdPhy.acked
  split <;> rfl

section
variable {p : PortId} {m : PdMsg} {s : State}

theorem modPhy_modPhy (p : PortId) (f g : PdPhy → PdPhy) (s : State) : modPhy p f (modPhy p g s) = modPhy p (fun x => f (g x)) s := by
  simp [modPhy, modPort]

/-- A message that is no repetition is acknowledged, and seeks a slot. -/
theorem phyReceive_of_new (hr : isRepeat s p m = false) : phyReceive p m s = fillSlot p m (modPhy p (PdPhy.acked m) s) := by
  simp only [phyReceive, hr, Bool.false_eq_true, if_false, setLastRx, modPhy_modPhy]
  rfl

/-- A message that finds a free slot stands in it. -/
theorem fillSlot_free (hs : (s.port p).phy.slots.length < 3) : ∃ st l, StampNow (some (tileOf p)) st s ∧ (fillSlot p m s).port p =
    { s.port p with phy := { (s.port p).phy with slots := (s.port p).phy.slots ++ [{ msg := m, stamp := st }] }
                    pd := { (s.port p).pd with late := l } } := by
  obtain ⟨l, hl⟩ := postPd_port p clsPdRx (takeStamp (some (tileOf p)) s).1 m.frame false m.header
    (modPhy p (fun x => { x with slots := x.slots ++ [{ msg := m, stamp := (takeStamp (some (tileOf p)) s).1 }] }) (takeStamp (some (tileOf p)) s).2)
  refine ⟨_, l, takeStamp_now (some (tileOf p)) s, Eq.trans (congrArg (fun t => State.port t p) (if_pos hs)) (hl.trans ?_)⟩
  rw [modPhy_port_self]
  rfl

/-- A message that finds no slot is counted, and PD_RXOVF latches. -/
theorem fillSlot_full (hs : ¬(s.port p).phy.slots.length < 3) :
    (fillSlot p m s).port p = { s.port p with phy := { (s.port p).phy with rxOvf := satInc (s.port p).phy.rxOvf 255 } } ∧
    eventLatched (.weaver p) 8 (fillSlot p m s) := by
  have heq : fillSlot p m s = latchEv p (BitVec.ofNat 32 (2 ^ 8)) (modPhy p (fun x => { x with rxOvf := satInc x.rxOvf 255 })
      (takeStamp (some (tileOf p)) s).2) := if_neg hs
  rw [heq]
  exact ⟨by rw [latchEv_port, modPhy_port_self]; rfl, latchEv_latched p 8 (by decide) _⟩

/-- A message on the wire that passes CRC, with the sample of the CC baseline that it brings, and the Soft_Reset that a lost one brings. -/
def received (p : PortId) (m : PdMsg) (low : Int) (s : State) : State :=
  onlyIf (isOverflow s p m) (overflowed p) (phyReceive p m (baselineSample p low s))

end

section
variable {p : PortId} {s : State} {f : Frame} {h : BitVec 16} {objs : List Word} {low : Int}

/-- The message that a reception brings. -/
def wireMsg (f : Frame) (h : BitVec 16) (objs : List Word) : PdMsg := { frame := f, header := h, objs := objs.take (mObjs h) }

theorem exec_pdMessageRx_badCrc (hf : f ≠ .hardReset) (hh : phyHears s p f = true) : ∃ t, exec (.pdMessageRx p f h objs false low) s = .next t ∧
    SameButEvents t (setPort p { s.port p with pd := { (s.port p).pd with rxCrc := satInc (s.port p).pd.rxCrc 255 } } s) := by
  obtain ⟨hc, -⟩ := phyHears_iff.mp hh
  obtain ⟨t, ht, hn⟩ := goes_portEv (i := .pdMessageRx p f h objs false low) (s := s) (p := p)
    (u := modPd p (fun d => { d with rxCrc := satInc d.rxCrc 255 }) s) rfl (by simp [hc, hf, hh])
  exact ⟨t, ht, hn.same⟩

theorem exec_pdMessageRx_good (hf : f ≠ .hardReset) (hh : phyHears s p f = true) :
    ∃ t, exec (.pdMessageRx p f h objs true low) s = .next t ∧ Noted (received p (wireMsg f h objs) low s) t := by
  obtain ⟨hc, -⟩ := phyHears_iff.mp hh
  exact goes_portEv (u := received p (wireMsg f h objs) low s) rfl (by simp [hc, hf, hh, received, wireMsg])

theorem isRepeat_eq_false (hl : lastRx (s.port p).phy f ≠ some (mId h)) : isRepeat s p (wireMsg f h objs) = false := by
  simp [isRepeat, wireMsg, hl]

/-- A reception is seen by the PHY as it stands: a sample of the baseline changes no part of it. -/
theorem exec_pdMessageRx_slot (hf : f ≠ .hardReset) (hh : phyHears s p f = true) (hl : lastRx (s.port p).phy f ≠ some (mId h))
    (hs : (s.port p).phy.slots.length < 3) : ∃ t, exec (.pdMessageRx p f h objs true low) s = .next t ∧
      (∃ st, StampNow (some (tileOf p)) st s ∧ (t.port p).phy.slots = (s.port p).phy.slots ++ [{ msg := wireMsg f h objs, stamp := st }]) ∧
      lastRx (t.port p).phy f = some (mId h) := by
  obtain ⟨t, ht, hn⟩ := exec_pdMessageRx_good (objs := objs) (low := low) (h := h) hf hh
  have hr := isRepeat_eq_false (objs := objs) hl
  have ho : isOverflow s p (wireMsg f h objs) = false := by simp [isOverflow, hr, hs]
  obtain ⟨g, -, hg⟩ := baselineSample_eq p low s
  have hr' : isRepeat (modTc p g s) p (wireMsg f h objs) = false := by simpa [isRepeat] using hr
  obtain ⟨st, l, hst, hport⟩ := fillSlot_free (p := p) (m := wireMsg f h objs) (s := modPhy p (PdPhy.acked (wireMsg f h objs)) (modTc p g s))
    (by simpa using hs)
  simp only [received, ho, onlyIf, hg, phyReceive_of_new hr'] at hn
  have hp := (hn.port p).trans hport
  refine ⟨t, ht, ⟨st, hst, ?_⟩, ?_⟩
  · rw [hp]
    simp
  · rw [hp, modPhy_port_self]
    exact PdPhy.lastRx_acked (wireMsg f h objs) _ _

theorem exec_pdMessageRx_full (hf : f ≠ .hardReset) (hh : phyHears s p f = true) (hl : lastRx (s.port p).phy f ≠ some (mId h))
    (hs : (s.port p).phy.slots.length = 3) : ∃ t, exec (.pdMessageRx p f h objs true low) s = .next t ∧
      (t.port p).phy.slots = (s.port p).phy.slots ∧ (t.port p).phy.rxOvf = satInc (s.port p).phy.rxOvf 255 ∧ eventLatched (.weaver p) 8 t := by
  obtain ⟨t, ht, hn⟩ := exec_pdMessageRx_good (objs := objs) (low := low) (h := h) hf hh
  have hr := isRepeat_eq_false (objs := objs) hl
  have ho : isOverflow s p (wireMsg f h objs) = true := by simp [isOverflow, hr, hs]
  obtain ⟨g, -, hg⟩ := baselineSample_eq p low s
  have hr' : isRepeat (modTc p g s) p (wireMsg f h objs) = false := by simpa [isRepeat] using hr
  obtain ⟨hport, hev⟩ := fillSlot_full (p := p) (m := wireMsg f h objs) (s := modPhy p (PdPhy.acked (wireMsg f h objs)) (modTc p g s)) (by simp [hs])
  simp only [received, ho, onlyIf, if_true, hg, phyReceive_of_new hr'] at hn
  have hpol := overflowed_policy (.refl p (fillSlot p (wireMsg f h objs) (modPhy p (PdPhy.acked (wireMsg f h objs)) (modTc p g s))))
  refine ⟨t, ht, ?_, ?_, hn.latches p 8 (hpol.on.latches p 8 hev)⟩
  · rw [hn.port, hpol.slots, hport]
    simp
  · rw [hn.port, hpol.rxOvf, hport]
    simp

/-- A repetition is acknowledged and brings nothing to a policy. -/
theorem exec_pdMessageRx_repeat (hf : f ≠ .hardReset) (hh : phyHears s p f = true) (hl : lastRx (s.port p).phy f = some (mId h))
    (hm : ¬(mType h = 13 ∧ mObjs h = 0)) : ∃ t, exec (.pdMessageRx p f h objs true low) s = .next t ∧
      (t.port p).phy.slots = (s.port p).phy.slots ∧ (t.port p).pd = (s.port p).pd := by
  obtain ⟨t, ht, hn⟩ := exec_pdMessageRx_good (objs := objs) (low := low) (h := h) hf hh
  have hrep : ∀ r : State, (r.port p).phy = (s.port p).phy → isRepeat r p (wireMsg f h objs) = true := fun r hr => by
    simpa [isRepeat, wireMsg, hr, hl, cSoftReset] using not_and_or.mp hm
  have ho : isOverflow s p (wireMsg f h objs) = false := by simp [isOverflow, hrep s rfl]
  obtain ⟨g, -, hg⟩ := baselineSample_eq p low s
  simp only [received, ho, onlyIf, hg, phyReceive, hrep (modTc p g s) (by simp)] at hn
  refine ⟨t, ht, ?_, ?_⟩
  · rw [hn.port]
    simp
  · rw [hn.port]
    simp

end

end Sys2Proof.Machine
end

section
/-!
PROOF. Hard Reset signalling received by a port (06 R208, R212).
-/
namespace Sys2Proof.Machine

/-- The policy's state as Hard Reset leaves it. -/
def PortPd.inHardReset (sent : Bool) (d : PortPd) : PortPd :=
  { d with
    outq := [], pe := .hardReset, alt := false, seq := .none, own := [], ownRun := false, sinkNg := false, req := none, waits := 0, caps := []
    after := .none, capsDue := false, transMon := false, swapToPort := false, rev := 0, bistMode := false
    hrCount := if sent then d.hrCount + 1 else 0, hardResets := satInc d.hardResets 255
    timers := if sent then [.psHardReset, .noResponse] else [.psHardReset] }

/-- The PHY as Hard Reset leaves it. -/
def PdPhy.inHardReset (sent : Bool) (x : PdPhy) : PdPhy :=
  { phyIdle x with tx := if sent then some { msg := { frame := .hardReset } } else none, optRev2 := false }

section
variable {p : PortId} {s : State}

theorem attachRp_congr {s t : State} {p : PortId} (hb : t.share p = s.share p) (he : (t.port p).tc.eff = (s.port p).tc.eff) :
    attachRp t p = attachRp s p := by
  have hb' : t.bud.port[p].base = s.bud.port[p].base := congrArg BudPort.base hb
  have hrp : rpAdv t p = rpAdv s p := by simp [rpAdv, he]
  simp only [attachRp, hb', hrp]

/-- What comes before the policy's own part of Hard Reset: the end of the station-time mode. -/
theorem endAlt_aside (p : PortId) (s : State) : Aside s (if (s.port p).pd.alt then postAlt p 1 stSvid s else s) :=
  ite_aside (weaverPost_aside (.refl s) _ _ _) (.refl s)

theorem endAlt_bud (p : PortId) (s : State) : (if (s.port p).pd.alt then postAlt p 1 stSvid s else s).bud = s.bud := by
  split
  · exact weaverPost_bud ..
  · rfl

/-- Hard Reset up to its budget words. -/
theorem hardResetSeq_eq (sent : Bool) (p : PortId) (s : State) : ∃ u, hardResetSeq p sent s = sendUp p opRelease u.bud.port[p].base (fallToBase p u) ∧
    u.bud = s.bud ∧ u.port p =
    { s.port p with
      tc := { (s.port p).tc with sbu := .isOpen, rp := attachRp s p }
      pd := (s.port p).pd.inHardReset sent
      phy := (s.port p).phy.inHardReset sent } := by
  unfold hardResetSeq
  extract_lets s₁ s₂ s₃ s₄ s₅
  have hp₁ : s₁.port p = s.port p := (endAlt_aside p s).port p
  have hb₁ : s₁.bud = s.bud := endAlt_bud p s
  clear_value s₁
  have hrp : attachRp s₃ p = attachRp s p := attachRp_congr (congrArg (fun b : Bud => b.port[p]) hb₁) (by simp [s₃, s₂, openSbu, phyHardReset, hp₁])
  have hp₄ : s₄.port p = { s.port p with
      tc := { (s.port p).tc with sbu := .isOpen, rp := attachRp s p }
      pd := (s.port p).pd.inHardReset sent
      phy := (s.port p).phy.inHardReset false } := by
    simp only [s₄, hrp]
    simp [s₃, s₂, setRp, phyOpts, openSbu, phyHardReset, hp₁]
    exact ⟨rfl, rfl⟩
  have hb₄ : s₄.bud = s.bud := hb₁
  clear_value s₄
  refine ⟨s₅, rfl, ?_⟩
  cases sent with
  | false => exact ⟨hb₄, hp₄⟩
  | true =>
    have hput : s₅ = modPhy p (fun x => { x with tx := some { msg := { frame := .hardReset } } }) s₄ := putTx_free (by rw [hp₄]; rfl)
    rw [hput]
    exact ⟨hb₄, by rw [modPhy_port_self, hp₄]; rfl⟩

theorem hardResetSeq_port (sent : Bool) (p : PortId) (s : State) : (hardResetSeq p sent s).port p =
    { s.port p with
      tc := { (s.port p).tc with sbu := .isOpen, rp := attachRp s p }
      pd := (s.port p).pd.inHardReset sent
      phy := (s.port p).phy.inHardReset sent } := by
  obtain ⟨u, heq, -, hu⟩ := hardResetSeq_eq sent p s
  rw [heq, sendUp_port, fallToBase_port, hu]

theorem hardResetSeq_alloc (sent : Bool) (p : PortId) (s : State) : allocOf (hardResetSeq p sent s) p = min (allocOf s p) (s.share p).base := by
  obtain ⟨u, heq, hb, -⟩ := hardResetSeq_eq sent p s
  rw [heq, allocOf_congr (sendUp_budPort ..), fallToBase_alloc, allocOf_congr (congrArg Bud.port hb), share_congr (congrArg Bud.port hb)]

/-! ### Hard Reset signalling arrives -/

@[simp] theorem postPd_bud (cls : Nat) (st : Stamp) (f : Frame) (failed : Bool) (x : BitVec 16) : (postPd p cls st f failed x s).bud = s.bud := by
  unfold postPd orLater
  split
  · exact epost_bud ..
  · rfl

/-- The PHY and the record, before the policy acts on the Hard Reset. -/
theorem rxHardReset_eq (hc : (s.port p).tc.ccsel ≠ .none) : ∃ u l, rxHardReset p s = onLate p .hardReset u ∧ weaverActs u p = weaverActs s p ∧
    eventLatched (.weaver p) 7 u ∧ u.bud = s.bud ∧ u.boot = s.boot ∧ u.port p =
    { s.port p with
      phy := { phyIdle (s.port p).phy with bist := false }
      pd := { (s.port p).pd with outq := [], late := l } } := by
  let v := latchEv p (BitVec.ofNat 32 (2 ^ 7)) (phyHardReset p (takeStamp (some (tileOf p)) s).2)
  have hvp : v.port p = { s.port p with phy := { phyIdle (s.port p).phy with bist := false }, pd := { (s.port p).pd with outq := [] } } := by
    simp only [v, phyHardReset, latchEv_port, modPd_port_self, modPhy_port_self, takeStamp_port]
  obtain ⟨l, hl⟩ := postPd_port p clsPdRx (takeStamp (some (tileOf p)) s).1 .hardReset false 0 v
  have hpol := postPd_policy (.refl p v) clsPdRx (takeStamp (some (tileOf p)) s).1 .hardReset false 0
  refine ⟨postPd p clsPdRx (takeStamp (some (tileOf p)) s).1 .hardReset false 0 v, l, if_neg hc, ?_, ?_, postPd_bud .., hpol.on.boot, ?_⟩
  · rw [weaverActs_postPd, weaverActs_latchEv]
    rfl
  · exact hpol.on.latches p 7 (latchEv_latched p 7 (by decide) _)
  · rw [hl, hvp]

/-- Hard Reset signalling ends a send, and is noted. -/
theorem rxHardReset_phy (hc : (s.port p).tc.ccsel ≠ .none) : eventLatched (.weaver p) 7 (rxHardReset p s) ∧
    ((rxHardReset p s).port p).phy.tx = none ∧ ((rxHardReset p s).port p).phy.idSop = 0 ∧ ((rxHardReset p s).port p).phy.rxId = none := by
  obtain ⟨u, l, heq, -, hev, -, -, hu⟩ := rxHardReset_eq hc
  refine ⟨heq ▸ (onLate_hardReset_policy (.refl p u)).on.latches p 7 hev, ?_⟩
  have hphy : ((onLate p .hardReset u).port p).phy = (u.port p).phy ∨
      ((onLate p .hardReset u).port p).phy = (u.port p).phy.inHardReset false := by
    unfold onLate orLater lateAct
    split
    · dsimp only
      split
      · exact .inr (by rw [hardResetSeq_port])
      · exact .inl rfl
    · exact .inl (by simp)
  rw [heq]
  rcases hphy with e | e <;> rw [e, hu] <;> exact ⟨rfl, rfl, rfl⟩

/-- A policy in PD that acts starts its Hard Reset. -/
theorem rxHardReset_inHardReset (hc : (s.port p).tc.ccsel ≠ .none) (ha : weaverActs s p = true) (hst : (s.port p).tc.st = .attached)
    (hen : pdEn s p = true) : InHardReset p s (rxHardReset p s) ∧ ((rxHardReset p s).port p).pd.hrCount = 0 ∧
    allocOf (rxHardReset p s) p = min (allocOf s p) (s.share p).base := by
  obtain ⟨u, l, heq, hact, -, hb, hboot, hu⟩ := rxHardReset_eq hc
  have henu : pdEn u p = true := by simpa [pdEn, hu, hboot] using hen
  have hseq : rxHardReset p s = hardResetSeq p false u := by
    rw [heq, onLate_of_acts (hact.trans ha)]
    exact if_pos ⟨by rw [hu]; exact hst, .inl henu⟩
  have hrp : attachRp u p = attachRp s p := attachRp_congr (share_congr (congrArg Bud.port hb) p) (by rw [hu])
  have hport := hardResetSeq_port false p u
  rw [hu, hrp] at hport
  rw [hseq]
  refine ⟨⟨?_, ?_, ?_, ?_, ?_, ?_, ?_, ?_⟩, ?_, ?_⟩
  · rw [hport]; rfl
  · rw [hport]; rfl
  · rw [hport]; rfl
  · rw [hport]; rfl
  · rw [hport]
  · rw [hport]
  · rw [hport]; rfl
  · simp only [tHas, hport]; rfl
  · rw [hport]; rfl
  · rw [hardResetSeq_alloc, allocOf_congr (congrArg Bud.port hb), share_congr (congrArg Bud.port hb)]
end

theorem exec_pdMessageRx_hardReset (p : PortId) (h : BitVec 16) (objs : List Word) (low : Int) (s : State) :
    exec (.pdMessageRx p .hardReset h objs true low) s = exec (.hardReset p) s := by
  show execPdMessageRx p .hardReset h objs true low s = execHardReset p s
  by_cases hc : clocksRun s = true
  · simp [execPdMessageRx, execHardReset, portEv, hc]
  · simp [execPdMessageRx, execHardReset, portEv, hc]

theorem exec_hardReset {p : PortId} {s : State} (hc : clocksRun s = true) : ∃ t, exec (.hardReset p) s = .next t ∧ Noted (rxHardReset p s) t :=
  goes_portEv (s := s) (p := p) (u := rxHardReset p s) rfl (by simp [hc])

end Sys2Proof.Machine
end

section
/-!
PROOF. A send of the port: its start with the MessageID of its frame, its retries, its GoodCRC and its end (06 R180, R190, R213, 09 R323,
R324).
-/
namespace Sys2Proof.Machine

/-! ### The header that the PHY sends (09 R324) -/

/-- A header with the MessageID that the PHY gives it. -/
def withId (h : BitVec 16) (id : Nat) : BitVec 16 := BitVec.ofNat 16 (h.toNat - mId h * 512 + id * 512)

section
variable (h : BitVec 16) {id : Nat} (hid : id < 8)
include hid

theorem withId_toNat : (withId h id).toNat = h.toNat - mId h * 512 + id * 512 := by
  have hlt := h.isLt
  rw [withId, BitVec.toNat_ofNat]
  exact Nat.mod_eq_of_lt (by unfold mId; omega)

theorem mId_withId : mId (withId h id) = id := by
  have e := withId_toNat h hid
  unfold mId at *
  omega

theorem mType_withId : mType (withId h id) = mType h := by
  have e := withId_toNat h hid
  unfold mId at e
  unfold mType
  omega

theorem mObjs_withId : mObjs (withId h id) = mObjs h := by
  have e := withId_toNat h hid
  unfold mId at e
  unfold mObjs
  omega

end

/-! ### The next message, the end of a send and its record -/

section
variable {p : PortId} {s : State}

theorem nextTx_nil (h : (s.port p).pd.outq = []) : nextTx p s = s := by
  unfold nextTx
  split
  · next e => rw [h] at e; cases e
  · rfl

theorem nextTx_pd : ∃ l, ((nextTx p s).port p).pd = { (s.port p).pd with outq := l } := by
  unfold nextTx
  split
  · exact ⟨_, by rw [modPhy_port_self, modPd_port_self]⟩
  · exact ⟨_, rfl⟩

@[simp] theorem nextTx_tc : ((nextTx p s).port p).tc = (s.port p).tc := by
  unfold nextTx
  split
  · rw [modPhy_port_self, modPd_port_self]
  · rfl

@[simp] theorem weaverActs_nextTx (q : PortId) : weaverActs (nextTx p s) q = weaverActs s q := by
  unfold nextTx
  split <;> rfl

theorem postSent_port (x : Tx) (failed : Bool) : ∃ l, (postSent p x failed s).port p = { s.port p with pd := { (s.port p).pd with late := l } } := by
  unfold postSent
  split
  · exact ⟨_, rfl⟩
  · exact postPd_port ..

@[simp] theorem weaverActs_postSent (x : Tx) (failed : Bool) (q : PortId) : weaverActs (postSent p x failed s) q = weaverActs s q := by
  unfold postSent
  split
  · rfl
  · exact weaverActs_postPd ..

end

/-! ### A send starts -/

section
variable {p : PortId} {s : State} {x : Tx} (hc : clocksRun s = true) (hx : (s.port p).phy.tx = some x)
include hc hx

section
variable (hs : x.started = false) (hb : (s.port p).phy.bist = false) (hsel : (s.port p).tc.ccsel ≠ .none)
include hs hb hsel

/-- The first preamble of a message is stamped, and its header carries the MessageID of its frame; a Soft_Reset's is 0. -/
theorem exec_pdTxStart_message (hf : x.msg.frame ≠ .hardReset) : ∃ t, exec (.pdTxStart p) s = .next t ∧ (t.port p).phy.txStamp.isSome = true ∧
    (t.port p).phy.tx = some { x with started := true, msg := { x.msg with
      header := withId x.msg.header (if isSoftReset x.msg then 0 else txId (s.port p).phy x.msg.frame) } } := by
  refine ⟨_, rfl, ?_⟩
  have hgo : ¬(¬clocksRun s = true ∨ x.started = true ∨ (s.port p).phy.bist = true ∨ (s.port p).tc.ccsel = .none) := by simp [hc, hs, hb, hsel]
  simp only [hx, if_neg hgo, if_neg hf]
  cases hr : isSoftReset x.msg with
  | false => simp [onlyIf, withId, txId]
  | true =>
    have hsop : x.msg.frame = .sop := by simp [isSoftReset] at hr; exact hr.1.1.1
    simp [onlyIf, withId, txId, hsop]

/-- Hard Reset signalling is over with its sending. -/
theorem exec_pdTxStart_hardReset (hf : x.msg.frame = .hardReset) (hq : (s.port p).pd.outq = []) : ∃ t, exec (.pdTxStart p) s = .next t ∧
    (t.port p).phy.tx = none ∧ (t.port p).phy.idSop = 0 ∧ eventLatched (.weaver p) 5 t := by
  refine ⟨_, rfl, ?_⟩
  have hgo : ¬(¬clocksRun s = true ∨ x.started = true ∨ (s.port p).phy.bist = true ∨ (s.port p).tc.ccsel = .none) := by simp [hc, hs, hb, hsel]
  simp only [hx, if_neg hgo, if_pos hf]
  generalize hu : latchEv p (BitVec.ofNat 32 (2 ^ 5)) (modPhy p (fun y => { phyIdle y with tx := none })
    (modPhy p (fun y => { y with txStamp := some (takeStamp (some (tileOf p)) s).1 }) (takeStamp (some (tileOf p)) s).2)) = u
  have hev : eventLatched (.weaver p) 5 u := hu ▸ latchEv_latched p 5 (by decide) _
  have hup : (u.port p).pd.outq = [] ∧ (u.port p).phy.tx = none ∧ (u.port p).phy.idSop = 0 := by
    rw [← hu]
    simp [hq, phyIdle]
  obtain ⟨hout, htx, hid⟩ := hup
  cases x.bySend with
  | true =>
    rw [if_pos rfl, nextTx_nil hout]
    exact ⟨htx, hid, hev⟩
  | false =>
    obtain ⟨l, hl⟩ := postPd_port p clsPdTx (takeStamp (some (tileOf p)) s).1 .hardReset false 0 u
    rw [if_neg Bool.false_ne_true, nextTx_nil (by rw [hl]; exact hout), hl]
    exact ⟨htx, hid, (postPd_policy (.refl p u) _ _ _ _ _).on.latches p 5 hev⟩

end

/-! ### A send ends (06 R190, R213) -/

section
variable (hs : x.started = true)
include hs

/-- Without GoodCRC the message is sent again. -/
theorem exec_tReceive_retry (hn : x.retries < retryLimit s p) : ∃ t, exec (.tReceive p) s = .next t ∧
    SameButEvents t (modPhy p (fun y => { y with tx := some { x with retries := x.retries + 1 } }) s) := by
  obtain ⟨t, ht, hnoted⟩ := goes_portEv (i := .tReceive p) (s := s) (p := p)
    (u := modPhy p (fun y => { y with tx := some { x with retries := x.retries + 1 } }) s) rfl (by simp [hx, hc, hs, hn])
  exact ⟨t, ht, hnoted.same⟩

/-- After its last retry the send has failed. -/
theorem exec_tReceive_failed (hn : ¬x.retries < retryLimit s p) : ∃ t, exec (.tReceive p) s = .next t ∧
    (t.port p).pd.txFail = satInc (s.port p).pd.txFail 255 ∧ eventLatched (.weaver p) 6 t := by
  let u := latchEv p (BitVec.ofNat 32 (2 ^ 6)) (modPd p (fun d => { d with txFail := satInc d.txFail 255 }) s)
  let v := endTx p x (postSent p x true u)
  obtain ⟨t, ht, hnoted⟩ := goes_portEv (i := .tReceive p) (s := s) (p := p) (u := onlyIf (ofPolicy x && pdLive v p) (onLate p (.failed x.msg)) v) rfl
    (by simp [hx, hc, hs, hn, u, v])
  have hpol : Policy p u (onlyIf (ofPolicy x && pdLive v p) (onLate p (.failed x.msg)) v) :=
    onlyIf_policy (endTx_policy (postSent_policy (.refl p u) x true) x) fun _ k => onLate_failed_policy k x.msg
  refine ⟨t, ht, ?_, hnoted.latches p 6 (hpol.on.latches p 6 (latchEv_latched p 6 (by decide) _))⟩
  rw [hnoted.port, hpol.txFail]
  simp [u]

end
end

/-! ### GoodCRC -/

/-- The PHY has taken the GoodCRC of a send, and the policy does not know of it yet; that of a PS_RDY ends the monitor (06 R214). -/
def acknowledged (p : PortId) (x : Tx) (s : State) : State :=
  let s := endTx p x (postSent p x false (latchEv p (BitVec.ofNat 32 (2 ^ 5)) s))
  onlyIf (isPsRdy x.msg && !(s.port p).pd.swapToPort) (modPd p fun d => { d with transMon := false }) s

section
variable {p : PortId} {s : State} {x : Tx}

theorem acknowledged_policy : Policy p (latchEv p (BitVec.ofNat 32 (2 ^ 5)) s) (acknowledged p x s) :=
  onlyIf_policy (endTx_policy (postSent_policy (.refl p _) x false) x) fun _ k => k.pd fun _ => ⟨rfl, rfl⟩

@[simp] theorem weaverActs_endTx : weaverActs (endTx p x s) p = weaverActs s p := by simp [endTx, stepTxId]

@[simp] theorem weaverActs_acknowledged : weaverActs (acknowledged p x s) p = weaverActs s p := by
  unfold acknowledged onlyIf
  dsimp only
  split <;> simp

theorem endTx_tc : ((endTx p x s).port p).tc = (s.port p).tc := by simp [endTx, stepTxId]

theorem endTx_pd : ∃ l, ((endTx p x s).port p).pd = { (s.port p).pd with outq := l } := by
  obtain ⟨l, hl⟩ := nextTx_pd (p := p) (s := stepTxId p x.msg.frame (modPhy p (fun y => { y with tx := none }) s))
  exact ⟨l, by simpa [endTx, stepTxId] using hl⟩

/-- With no message waiting the transmitter is free, and the next MessageID of the frame stands. -/
theorem endTx_phy (hq : (s.port p).pd.outq = []) : ((endTx p x s).port p).phy.tx = none ∧
    txId ((endTx p x s).port p).phy x.msg.frame = (txId (s.port p).phy x.msg.frame + 1) % 8 := by
  have hnil : endTx p x s = stepTxId p x.msg.frame (modPhy p (fun y => { y with tx := none }) s) := nextTx_nil (by simpa [stepTxId] using hq)
  rw [hnil, stepTxId, modPhy_port_self, modPhy_port_self]
  by_cases hf : x.msg.frame = .sop1
  · simp [hf, txId]
  · simp [hf, txId]

theorem acknowledged_tc : ((acknowledged p x s).port p).tc = (s.port p).tc := by
  obtain ⟨l, hl⟩ := postSent_port (p := p) (s := latchEv p (BitVec.ofNat 32 (2 ^ 5)) s) x false
  have h : ((endTx p x (postSent p x false (latchEv p (BitVec.ofNat 32 (2 ^ 5)) s))).port p).tc = (s.port p).tc := by
    rw [endTx_tc, hl, latchEv_port]
  unfold acknowledged onlyIf
  dsimp only
  split
  · rw [modPd_port_self]; exact h
  · exact h

theorem acknowledged_pd : ∃ q l m, ((acknowledged p x s).port p).pd = { (s.port p).pd with outq := q, late := l, transMon := m } := by
  obtain ⟨l, hl⟩ := postSent_port (p := p) (s := latchEv p (BitVec.ofNat 32 (2 ^ 5)) s) x false
  obtain ⟨q, hq⟩ := endTx_pd (p := p) (x := x) (s := postSent p x false (latchEv p (BitVec.ofNat 32 (2 ^ 5)) s))
  rw [hl, latchEv_port] at hq
  unfold acknowledged onlyIf
  dsimp only
  split
  · exact ⟨q, l, false, by rw [modPd_port_self, hq]⟩
  · exact ⟨q, l, (s.port p).pd.transMon, hq⟩

theorem acknowledged_phy (hq : (s.port p).pd.outq = []) : ((acknowledged p x s).port p).phy.tx = none ∧
    txId ((acknowledged p x s).port p).phy x.msg.frame = (txId (s.port p).phy x.msg.frame + 1) % 8 := by
  obtain ⟨l, hl⟩ := postSent_port (p := p) (s := latchEv p (BitVec.ofNat 32 (2 ^ 5)) s) x false
  have h := endTx_phy (p := p) (x := x) (s := postSent p x false (latchEv p (BitVec.ofNat 32 (2 ^ 5)) s)) (by rw [hl]; exact hq)
  rw [hl, latchEv_port] at h
  unfold acknowledged onlyIf
  dsimp only
  split
  · rw [modPd_port_self]; exact h
  · exact h

theorem pdLive_congr {s t : State} {p : PortId} (ht : (t.port p).tc = (s.port p).tc) (hp : (t.port p).pd.pe = (s.port p).pd.pe) :
    pdLive t p = pdLive s p := by
  simp only [pdLive, ht, hp]

theorem pdLive_acknowledged : pdLive (acknowledged p x s) p = pdLive s p := by
  obtain ⟨q, l, m, h⟩ := acknowledged_pd (p := p) (x := x) (s := s)
  exact pdLive_congr acknowledged_tc (by rw [h])

section
variable (hc : clocksRun s = true) (hx : (s.port p).phy.tx = some x) (hs : x.started = true)
include hc hx hs

theorem exec_goodcrc : ∃ t, exec (.goodcrc p) s = .next t ∧
    Noted (onlyIf (ofPolicy x && pdLive s p) (onLate p (.sent x.msg)) (acknowledged p x s)) t := by
  rw [← pdLive_acknowledged (x := x)]
  exact goes_portEv (i := .goodcrc p) (s := s) (p := p)
    (u := onlyIf (ofPolicy x && pdLive (acknowledged p x s) p) (onLate p (.sent x.msg)) (acknowledged p x s)) rfl
    (by simp [hx, hc, hs, acknowledged])

theorem exec_goodcrc_latched : ∃ t, exec (.goodcrc p) s = .next t ∧ eventLatched (.weaver p) 5 t := by
  obtain ⟨t, ht, hnoted⟩ := exec_goodcrc hc hx hs
  have hpol := onlyIf_policy (c := ofPolicy x && pdLive s p) (acknowledged_policy (p := p) (s := s) (x := x)) fun _ k => onLate_sent_policy k x.msg
  exact ⟨t, ht, hnoted.latches p 5 (hpol.on.latches p 5 (latchEv_latched p 5 (by decide) _))⟩

/-- The policy in PD learns of the acknowledgement of its own message at once where its weaver acts. -/
theorem exec_goodcrc_live (ha : weaverActs s p = true) (hl : pdLive s p = true) (hb : x.bySend = false) :
    ∃ t, exec (.goodcrc p) s = .next t ∧ Noted (onSent p x.msg (acknowledged p x s)) t := by
  have hact : onLate p (.sent x.msg) (acknowledged p x s) = onSent p x.msg (acknowledged p x s) := by
    rw [onLate_of_acts (by simpa using ha)]
    exact if_pos (pdLive_acknowledged.trans hl)
  have h := exec_goodcrc hc hx hs
  simpa [ofPolicy, hb, hl, onlyIf, hact] using h

end

/-- A VCONN_Swap that is acknowledged starts its timer, and leaves the PHY alone. -/
theorem onSent_vconnSwap_phy {m : PdMsg} (hm : isVconnSwap m = true) (s : State) : ((onSent p m s).port p).phy = (s.port p).phy := by
  obtain ⟨⟨⟨hf, he⟩, ho⟩, hty⟩ : ((m.frame = .sop ∧ mExt m.header = false) ∧ mObjs m.header = 0) ∧ mType m.header = cVconnSwap := by
    simpa [isVconnSwap] using hm
  simp [onSent, hf, he, ho, hty, cVconnSwap, cAccept, cPsRdy, cWait, cReject, cSoftReset, tOn]

/-- Where the message is not the policy's, or its weaver does not act, the policy's part leaves the PHY alone. -/
theorem onLate_sent_phy {m : PdMsg} {s : State} (h : weaverActs s p = false ∨ isVconnSwap m = true) :
    ((onLate p (.sent m) s).port p).phy = (s.port p).phy := by
  unfold onLate orLater
  split
  · next ha =>
    rcases h with hn | hm
    · exact absurd (ha.symm.trans hn) (by decide)
    · unfold lateAct
      dsimp only
      split
      · exact onSent_vconnSwap_phy hm s
      · rfl
  · rw [modPd_port_self]

theorem exec_goodcrc_free (hc : clocksRun s = true) (hx : (s.port p).phy.tx = some x) (hs : x.started = true)
    (hl : (weaverActs s p && pdLive s p && !x.bySend) = false) (hq : (s.port p).pd.outq = []) : ∃ t, exec (.goodcrc p) s = .next t ∧
      (t.port p).phy.tx = none ∧ txId (t.port p).phy x.msg.frame = (txId (s.port p).phy x.msg.frame + 1) % 8 := by
  obtain ⟨t, ht, hnoted⟩ := exec_goodcrc hc hx hs
  have hphy : ((onlyIf (ofPolicy x && pdLive s p) (onLate p (.sent x.msg)) (acknowledged p x s)).port p).phy = ((acknowledged p x s).port p).phy := by
    cases hcond : ofPolicy x && pdLive s p with
    | false => rfl
    | true =>
      refine onLate_sent_phy ?_
      obtain ⟨hof, hlive⟩ : ofPolicy x = true ∧ pdLive s p = true := by simpa using hcond
      cases ha : weaverActs s p with
      | false => exact .inl (by simpa using ha)
      | true =>
        have hby : x.bySend = true := by simpa [ha, hlive] using hl
        exact .inr (by simpa [ofPolicy, hby] using hof)
  refine ⟨t, ht, ?_⟩
  rw [hnoted.port, hphy]
  exact acknowledged_phy hq

end

end Sys2Proof.Machine
end

section
/-!
PROOF. What an acknowledged message brings to the policy in PD, a preamble in SLEEP, and the messages of a port on the wire as a whole
(06 R180, R190, R212 to R214, 09 R323 to R325, 12 R393).
-/
namespace Sys2Proof.Machine

section
variable {p : PortId} {s : State} {m : PdMsg}

@[simp] theorem tHas_tOn (x : PdTimer) : tHas (tOn p x s) p x = true := by simp [tHas, tOn]

theorem awaitsAccept_iff {d : PortPd} : awaitsAccept d = true ↔ d.seq = .softReset ∨ d.after = .softReset := by simp [awaitsAccept]

section
variable (hf : m.frame = .sop) (he : mExt m.header = false)
include hf he

/-- Source_Capabilities: the count of Hard Resets is over, and the Request is awaited, unless an Accept is. -/
theorem onSent_caps (ho : mObjs m.header ≠ 0) (hty : mType m.header = 1) :
    (((s.port p).pd.seq = .softReset ∨ (s.port p).pd.after = .softReset) ∨ tHas (onSent p m s) p .senderResponse = true) ∧
    ((onSent p m s).port p).pd.hrCount = 0 := by
  rw [← awaitsAccept_iff]
  cases hw : awaitsAccept (s.port p).pd <;> simp [onSent, hf, he, ho, hty, hw, dSourceCaps, tOff, tOn, tHas]

/-- Accept of a Request: tSrcTransition runs. -/
theorem onSent_accept (ho : mObjs m.header = 0) (hty : mType m.header = 3) (hpe : (s.port p).pd.pe = .transition) :
    onSent p m s = tOn p .srcTransition s := by
  simp [onSent, hf, he, ho, hty, hpe, cAccept]

/-- PS_RDY of a contract: it stands. -/
theorem onSent_psRdy (ho : mObjs m.header = 0) (hty : mType m.header = 6) (hpe : (s.port p).pd.pe = .transition) :
    onSent p m s = contractReady p s := by
  simp [onSent, hf, he, ho, hty, hpe, cAccept, cPsRdy]

end

theorem contractReady_ready (p : PortId) (s : State) : ((contractReady p s).port p).pd.pe = .ready ∧ ((contractReady p s).port p).pd.transMon = false := by
  have h := (contractReady_launches_from p s).port
  exact ⟨h.ready (by simp [tOff]), h.idle (by simp [tOff])⟩

/-- A preamble in SLEEP is heard, and PD_RXOVF latches for the wake. -/
theorem exec_pdMessageRx_asleep {f : Frame} {h : BitVec 16} {objs : List Word} {low : Int} (hu : coreUp s = true) (hc : clocksRun s = false)
    (hsel : (s.port p).tc.ccsel ≠ .none) : ∃ t, exec (.pdMessageRx p f h objs true low) s = .next t ∧
      SameButEvents t (modPhy p (fun x => { x with heard := true }) s) ∧ eventLatched (.weaver p) 8 t := by
  obtain ⟨t, ht, hn⟩ := goes_portEv (i := .pdMessageRx p f h objs true low) (s := s) (p := p)
    (u := latchEv p (BitVec.ofNat 32 (2 ^ 8)) (modPhy p (fun x => { x with heard := true }) s)) rfl (by simp [hearAsleep, hc, hu, hsel])
  exact ⟨t, ht, hn.same.trans (latchEv_same p _ _), hn.latches p 8 (latchEv_latched p 8 (by decide) _)⟩

/-- What a message of the policy in PD brings with its GoodCRC. -/
theorem exec_goodcrc_policy {x : Tx} (hc : clocksRun s = true) (hx : (s.port p).phy.tx = some x) (hs : x.started = true)
    (hl : (weaverActs s p && pdLive s p && !x.bySend) = true) (hf : x.msg.frame = .sop) (he : mExt x.msg.header = false) :
    (mObjs x.msg.header ≠ 0 → mType x.msg.header = 1 → ∃ t, exec (.goodcrc p) s = .next t ∧
      (((s.port p).pd.seq = .softReset ∨ (s.port p).pd.after = .softReset) ∨ tHas t p .senderResponse = true) ∧ (t.port p).pd.hrCount = 0) ∧
    (mObjs x.msg.header = 0 → mType x.msg.header = 3 → (s.port p).pd.pe = .transition → ∃ t, exec (.goodcrc p) s = .next t ∧
      tHas t p .srcTransition = true) ∧
    (mObjs x.msg.header = 0 → mType x.msg.header = 6 → (s.port p).pd.pe = .transition → ∃ t, exec (.goodcrc p) s = .next t ∧
      (t.port p).pd.pe = .ready ∧ (t.port p).pd.transMon = false) := by
  obtain ⟨⟨ha, hlive⟩, hb⟩ : (weaverActs s p = true ∧ pdLive s p = true) ∧ x.bySend = false := by simpa using hl
  obtain ⟨t, ht, hn⟩ := exec_goodcrc_live hc hx hs ha hlive hb
  obtain ⟨q, l, m, hd⟩ := acknowledged_pd (p := p) (x := x) (s := s)
  have hpe : ((acknowledged p x s).port p).pd.pe = (s.port p).pd.pe := by rw [hd]
  have htim : ∀ z, tHas t p z = tHas (onSent p x.msg (acknowledged p x s)) p z := fun z => by simp only [tHas, hn.port]
  refine ⟨fun ho hty => ⟨t, ht, ?_⟩, fun ho hty htr => ⟨t, ht, ?_⟩, fun ho hty htr => ⟨t, ht, ?_⟩⟩
  · have hcaps := onSent_caps (s := acknowledged p x s) (p := p) hf he ho hty
    rw [htim, hn.port]
    simpa only [hd] using hcaps
  · rw [htim, onSent_accept hf he ho hty (hpe.trans htr), tHas_tOn]
  · rw [hn.port, onSent_psRdy hf he ho hty (hpe.trans htr)]
    exact contractReady_ready ..

end

/-- Hard Reset is a matter of the port alone. -/
theorem InHardReset.of_port {p : PortId} {s t u : State} (h : InHardReset p s t) (hp : u.port p = t.port p) : InHardReset p s u := by
  unfold InHardReset tHas at *
  rw [hp]
  exact h

/-- Settles O31, command by command: reception by the branches of the PHY, a send by its start, its retries and its GoodCRC. -/
theorem pdMessagesOnTheWire : Obligations.PdMessagesOnTheWire := by
  unfold Obligations.PdMessagesOnTheWire
  intro p s f h objs low x
  refine ⟨fun hf hh => ⟨?_, ?_, ?_, ?_⟩, fun hh => ?_, rfl, fun hc hx => ⟨?_, ?_, fun hs => ?_⟩, ?_⟩
  · exact exec_pdMessageRx_badCrc hf hh
  · exact exec_pdMessageRx_slot hf hh
  · exact exec_pdMessageRx_full hf hh
  · exact fun hl _ => exec_pdMessageRx_repeat hf hh hl
  · obtain ⟨hc, hsel, -⟩ := phyHears_iff.mp hh
    obtain ⟨t, ht, hn⟩ := exec_hardReset (p := p) hc
    obtain ⟨hev, hphy⟩ := rxHardReset_phy hsel
    have hport : t.port p = (rxHardReset p s).port p := hn.port p
    refine ⟨⟨t, ht, hn.latches p 7 hev, by simpa only [hport] using hphy⟩, fun ha hst hen => ⟨t, ht, ?_⟩, exec_pdMessageRx_hardReset p h objs low s⟩
    obtain ⟨hin, hcount, halloc⟩ := rxHardReset_inHardReset hsel ha hst hen
    exact ⟨hin.of_port hport, hport ▸ hcount, (allocOf_congr (congrArg Bud.port hn.bud) p).trans halloc⟩
  · intro hs hb hsel hf hid
    obtain ⟨t, ht, hst, htx⟩ := exec_pdTxStart_message hc hx hs hb hsel hf
    have hid' : (if isSoftReset x.msg then 0 else txId (s.port p).phy x.msg.frame) < 8 := by
      split
      · decide
      · exact hid
    exact ⟨t, ht, hst, _, htx, mId_withId _ hid', mType_withId _ hid', mObjs_withId _ hid'⟩
  · exact exec_pdTxStart_hardReset hc hx
  · refine ⟨exec_tReceive_retry hc hx hs, fun hn => exec_tReceive_failed hc hx hs (Nat.not_lt.mpr hn), exec_goodcrc_latched hc hx hs,
      exec_goodcrc_free hc hx hs, exec_goodcrc_policy hc hx hs⟩
  · exact exec_pdMessageRx_asleep

end Sys2Proof.Machine
end

section
/-!
PROOF. Detach: what the hub's status that follows it leaves of a port, the keeper at none, and the port without a partner (06 R175, 07 R239).
-/
namespace Sys2Proof.Machine

/-! ### The hub's status follows the port (03 R107) -/

/-- A port without the hub's part of it. -/
def Port.sansHub (x : Port) : Port := { x with hub := {} }

/-- From `s` to `t` the hub's part of port p follows other state: nothing else of the ports changes, and no budget word. -/
structure HubOnly (p : PortId) (s t : State) : Prop where
  others : ∀ q, q ≠ p → t.port q = s.port q
  port : (t.port p).sansHub = (s.port p).sansHub
  bud : t.bud = s.bud
  mbx : t.mbx = s.mbx

theorem HubOnly.refl (p : PortId) (s : State) : HubOnly p s s := ⟨fun _ _ => rfl, rfl, rfl, rfl⟩

section
variable {p : PortId} {r s t : State}

theorem HubOnly.tc (h : HubOnly p s t) : (t.port p).tc = (s.port p).tc := (congrArg Port.tc h.port :)
theorem HubOnly.pd (h : HubOnly p s t) : (t.port p).pd = (s.port p).pd := (congrArg Port.pd h.port :)
theorem HubOnly.phy (h : HubOnly p s t) : (t.port p).phy = (s.port p).phy := (congrArg Port.phy h.port :)
theorem HubOnly.pw (h : HubOnly p s t) : (t.port p).pw = (s.port p).pw := (congrArg Port.pw h.port :)

variable (h : HubOnly p r s)
include h

theorem HubOnly.aside (hp : t.ports = s.ports) (hb : t.bud = s.bud) (hm : t.mbx = s.mbx) : HubOnly p r t := by
  have hport (q : PortId) : t.port q = s.port q := congrArg (fun v : Vector Port 64 => v[q]) hp
  exact ⟨fun q hq => (hport q).trans (h.others q hq), hport p ▸ h.port, hb.trans h.bud, hm.trans h.mbx⟩

theorem modHub_hubOnly (f : HubPort → HubPort) : HubOnly p r (modHub p f s) :=
  ⟨fun q hq => (modHub_port_of_ne f s hq).trans (h.others q hq), by rw [modHub_port_self]; exact h.port, h.bud, h.mbx⟩

theorem portChange_hubOnly (bits : BitVec 16) : HubOnly p r (portChange p bits s) := by
  unfold portChange
  split
  · exact h.aside rfl rfl rfl
  · split
    · exact h
    · exact modHub_hubOnly h _

theorem stopServing_hubOnly : HubOnly p r (stopServing p s) := by
  unfold stopServing
  extract_lets s₁
  have h₁ : HubOnly p r s₁ := modHub_hubOnly h _
  exact h₁.aside rfl rfl rfl

theorem syncConnection_hubOnly : HubOnly p r (syncConnection p s) := by
  unfold syncConnection
  extract_lets now s₁ s₂
  split
  · exact h
  · have h₂ : HubOnly p r s₂ := (portChange_hubOnly (modHub_hubOnly h _) _).aside rfl rfl rfl
    split
    · exact modHub_hubOnly h₂ _
    · exact modHub_hubOnly (stopServing_hubOnly h₂) _

theorem syncOverCurrent_hubOnly : HubOnly p r (syncOverCurrent p s) := by
  unfold syncOverCurrent onlyIf
  extract_lets now s₁
  split
  · exact h
  · have h₁ : HubOnly p r s₁ := portChange_hubOnly (modHub_hubOnly h _) _
    split
    · exact stopServing_hubOnly h₁
    · exact h₁

theorem syncHub_hubOnly : HubOnly p r (syncHub p s) := syncConnection_hubOnly (syncOverCurrent_hubOnly h)

end

/-! ### The keeper at none (07 R239) -/

/-- From `s` to `t` both paths of port p go off with its keeper. -/
structure KeeperOff (p : PortId) (s t : State) : Prop where
  others : ∀ q, q ≠ p → t.port q = s.port q
  tc : (t.port p).tc = (s.port p).tc
  short : (t.port p).pw.fetShort = (s.port p).pw.fetShort
  keeper : (t.port p).pw.keeper = 0
  path : (t.port p).pw.pathNow = .none

theorem keeperNone_off (p : PortId) (s : State) : KeeperOff p s (keeperNone p 0 s) := by
  unfold keeperNone endContract pathsOff
  extract_lets s₁ s₂ s₃ w was s₄ s₅
  have hs₁ (q : PortId) : s₁.port q = s.port q := by
    simp only [s₁, onlyIf]
    split <;> rfl
  have hs₅ (q : PortId) : s₅.port q = s₄.port q := by
    simp only [s₅, onlyIf]
    split <;> rfl
  have hub := syncHub_hubOnly (.refl p s₅)
  have hport : (s₅.port p).tc = (s.port p).tc ∧ (s₅.port p).pw.fetShort = (s.port p).pw.fetShort ∧ (s₅.port p).pw.keeper = 0 ∧
      (s₅.port p).pw.pathNow = .none := by
    rw [hs₅]
    simp [s₄, s₃, s₂, hs₁]
  obtain ⟨htc, hshort, hkeeper, hpath⟩ := hport
  refine ⟨fun q hq => ?_, hub.tc.trans htc, ?_, ?_, ?_⟩
  · rw [hub.others q hq, hs₅]
    simp only [s₄, s₃, s₂, modPw, modPd, modPort_port_of_ne _ _ _ hq, hs₁]
  · rw [hub.pw, hshort]
  · rw [hub.pw, hkeeper]
  · rw [hub.pw, hpath]

end Sys2Proof.Machine
end

section
/-!
PROOF. Detach of a port by its weaver (06 R175, R176).
-/
namespace Sys2Proof.Machine

/-- No partner, no contract and no path, whatever the port does next: what `Detached` says of the port itself. -/
def Port.Cleared (x : Port) : Prop :=
  x.tc.orient = .none ∧ x.tc.ra = false ∧ x.tc.vconnOn = false ∧ x.tc.vconnPartner = false ∧ x.tc.vconnOc = false ∧ x.tc.sbu = .isOpen ∧
    x.tc.ccsel = .none ∧ x.pd.pe = .noPd ∧ x.pd.objpos = 0 ∧ x.pd.alt = false ∧ x.pd.caps = [] ∧ x.pw.keeper = 0 ∧ x.pw.pathNow = .none ∧
    x.phy.tx = none

theorem detached_iff {p : PortId} {t : State} : Detached p t ↔ (t.port p).Cleared ∧ allocOf t p = 0 := by
  simp only [Detached, Port.Cleared, and_assoc]

/-- The port keeps off after its detach: TC_EN = 0, or a FET short (06 R175, R225). -/
def Port.staysOff (x : Port) : Bool := !bitOf x.tc.cfg 15 || x.pw.fetShort

/-- A port without a partner takes up its state and its Rp. -/
structure AtRest (p : PortId) (s t : State) : Prop where
  others : ∀ q, q ≠ p → t.port q = s.port q
  detached : Detached p t
  cfg : (t.port p).tc.cfg = (s.port p).tc.cfg
  st : (t.port p).tc.st = if (s.port p).staysOff then .disabled else .unattached
  rp : (s.port p).staysOff = true → (t.port p).tc.rp = .none

section
variable {p : PortId} {s : State}

theorem restTc_port : (restTc p s).port p = { s.port p with tc := { (s.port p).tc with
    st := if (s.port p).staysOff then .disabled else .unattached, rp := if (s.port p).staysOff then .none else idleRp s p } } := by
  simp only [restTc, modTc_port_self]
  rfl

theorem modTc_port_of_ne {q : PortId} (hq : q ≠ p) (f : PortTc → PortTc) : (modTc p f s).port q = s.port q := modPort_port_of_ne _ _ _ hq
theorem modPd_port_of_ne {q : PortId} (hq : q ≠ p) (f : PortPd → PortPd) : (modPd p f s).port q = s.port q := modPort_port_of_ne _ _ _ hq
theorem modPhy_port_of_ne {q : PortId} (hq : q ≠ p) (f : PdPhy → PdPhy) : (modPhy p f s).port q = s.port q := modPort_port_of_ne _ _ _ hq
theorem modPw_port_of_ne {q : PortId} (hq : q ≠ p) (f : PortPwr → PortPwr) : (modPw p f s).port q = s.port q := modPort_port_of_ne _ _ _ hq

/-- A latch-off that ends leaves the port but for its hub and the marks of its protection. -/
theorem clearLatch_port : (∀ q, q ≠ p → (clearLatch p s).port q = s.port q) ∧ ((clearLatch p s).port p).tc = (s.port p).tc ∧
    ((clearLatch p s).port p).pw.fetShort = (s.port p).pw.fetShort ∧ ((s.port p).Cleared → ((clearLatch p s).port p).Cleared) := by
  unfold clearLatch
  extract_lets u
  have hu : u.port p = { s.port p with pw := (u.port p).pw } ∧ (u.port p).pw.fetShort = (s.port p).pw.fetShort ∧
      (u.port p).pw.keeper = (s.port p).pw.keeper ∧ (u.port p).pw.pathNow = (s.port p).pw.pathNow := by simp [u]
  obtain ⟨hport, hshort, hkeeper, hpath⟩ := hu
  have hub := syncHub_hubOnly (.refl p u)
  have htc : ((syncHub p u).port p).tc = (s.port p).tc := by rw [hub.tc, hport]
  refine ⟨fun q hq => (hub.others q hq).trans (modPw_port_of_ne hq _), htc, by rw [hub.pw, hshort], fun h => ?_⟩
  unfold Port.Cleared at *
  rw [htc, hub.pd, hub.phy, hub.pw, hkeeper, hpath, hport]
  exact h

/-- A detach (06 R175). -/
theorem detach_atRest (p : PortId) (cause : Nat) (trans : Bool) (vbus : Nat) (s : State) : AtRest p s (detach p cause trans vbus s) := by
  unfold detach
  extract_lets s₁ s₂ s₃ s₄ s₅ s₆ s₇
  have hs₂ (q : PortId) : s₂.port q = s.port q := (endAlt_aside p s₁).port q |>.trans (weaverPost_port ..)
  have hoff : KeeperOff p s₂ s₃ := keeperNone_off p s₂
  clear_value s₂ s₃
  have hs₄ : ∀ q, q ≠ p → s₄.port q = s₃.port q := fun q hq => by
    simp only [s₄]
    split
    · simp only [setVconn, postVconn, weaverPost_port, modTc_port_of_ne hq]
    · rfl
  have hs₄p : ∃ b, s₄.port p = { s₃.port p with tc := { (s₃.port p).tc with vconnOn := false, vconnPartner := b } } := by
    simp only [s₄]
    split
    · exact ⟨_, by simp only [setVconn, postVconn, weaverPost_port, modTc_port_self]; rfl⟩
    · next hv => exact ⟨(s₃.port p).tc.vconnPartner, by simp at hv; simp [← hv]⟩
  clear_value s₄
  obtain ⟨b, hs₄p⟩ := hs₄p
  have hs₆ : ∀ q, q ≠ p → s₆.port q = s.port q := fun q hq => by
    simp only [s₆, s₅, phyOpts, modPhy_port_of_ne hq, modPd_port_of_ne hq, modTc_port_of_ne hq, hs₄ q hq, hoff.others q hq, hs₂ q]
  have hs₆p : (s₆.port p).Cleared ∧ (s₆.port p).tc.cfg = (s.port p).tc.cfg ∧ (s₆.port p).pw.fetShort = (s.port p).pw.fetShort := by
    simp only [s₆, s₅, phyOpts, modPhy_port_self, modPd_port_self, modTc_port_self, hs₄p, hoff.tc, hs₂]
    refine ⟨⟨rfl, rfl, rfl, rfl, rfl, rfl, rfl, rfl, rfl, rfl, rfl, hoff.keeper, hoff.path, rfl⟩, trivial, ?_⟩
    rw [hoff.short, hs₂]
  clear_value s₆
  obtain ⟨hclear, hcfg, hshort⟩ := hs₆p
  have hs₇ : (∀ q, q ≠ p → s₇.port q = s₆.port q) ∧ (s₇.port p).tc = (s₆.port p).tc ∧ (s₇.port p).pw.fetShort = (s₆.port p).pw.fetShort ∧
      (s₇.port p).Cleared := by
    have hp : (modPw p (fun w => { w with tripped := false }) s₆).port p = { s₆.port p with pw := { (s₆.port p).pw with tripped := false } } :=
      modPw_port_self ..
    obtain ⟨ho, htc, hsh, hcl⟩ := clearLatch_port (p := p) (s := modPw p (fun w => { w with tripped := false }) s₆)
    rw [hp] at htc hsh hcl
    simp only [s₇, onlyIf]
    split
    · exact ⟨fun q hq => (ho q hq).trans (modPw_port_of_ne hq _), htc, hsh, hcl hclear⟩
    · exact ⟨fun q hq => modPw_port_of_ne hq _, by rw [hp], by rw [hp], by rw [hp]; exact hclear⟩
  clear_value s₇
  obtain ⟨ho₇, htc₇, hsh₇, hcl₇⟩ := hs₇
  have hstays : (s₇.port p).staysOff = (s.port p).staysOff := by simp only [Port.staysOff, htc₇, hsh₇, hcfg, hshort]
  have hub := syncHub_hubOnly (.refl p (sendUp p opRelease 0 (fallToZero p (restTc p s₇))))
  have hsend (q : PortId) : (sendUp p opRelease 0 (fallToZero p (restTc p s₇))).port q = (restTc p s₇).port q := by
    rw [sendUp_port, fallToZero_port]
  have htc := hub.tc.trans (congrArg Port.tc ((hsend p).trans restTc_port))
  refine ⟨fun q hq => ?_, detached_iff.mpr ⟨?_, ?_⟩, ?_, ?_, fun hst => ?_⟩
  · rw [hub.others q hq, hsend, restTc, modTc_port_of_ne hq, ho₇ q hq, hs₆ q hq]
  · unfold Port.Cleared at *
    rw [htc, hub.pd, hub.phy, hub.pw, hsend, restTc_port]
    exact hcl₇
  · rw [allocOf_congr (congrArg Bud.port hub.bud), allocOf_congr (sendUp_budPort ..), fallToZero_alloc]
  · rw [htc]
    exact (congrArg PortTc.cfg htc₇).trans hcfg
  · rw [htc, hstays]
  · rw [htc, hstays, hst]
    rfl

end

end Sys2Proof.Machine
end

section
/-!
PROOF. Attach, detach and ErrorRecovery of a port, command by command (06 R172 to R177, R195, R214).
-/
namespace Sys2Proof.Machine

/-! ### Budget words to the arbiter (06 R201, 01 R20) -/

/-- A word that waits enters the mailbox, or goes on waiting. -/
theorem pumpUp_wordUp {p : PortId} {w : BudWord} {s : State} (g : TileId) (h : (p, w) ∈ s.bud.up) :
    (p, w) ∈ (pumpUp g s).bud.up ∨ ((pumpUp g s).mbx.box[boxUp (tileOf p)].full = true ∧ (pumpUp g s).mbx.box[boxUp (tileOf p)].data = budWord p w) := by
  unfold pumpUp
  split
  · exact .inl h
  · split
    · next x hx =>
      by_cases he : (p, w) = x
      · subst he
        obtain ⟨ht, -⟩ : tileOf p = g ∧ _ := by simpa using List.find?_some hx
        subst ht
        right
        simp [followStall, modThr, modTile, modBox, modMbx, storeBox]
      · exact .inl ((List.mem_erase_of_ne he).mpr h)
    · exact .inl h

theorem sendUp_wordUp (p : PortId) (op power : Nat) (s : State) : WordUp p op power (sendUp p op power s) :=
  ⟨_, pumpUp_wordUp (tileOf p) (List.mem_append_right _ (List.mem_singleton.mpr rfl))⟩

theorem ask_wordUp (p : PortId) (op power : Nat) (s : State) : WordUp p op power (ask p op power s) := sendUp_wordUp ..

theorem WordUp.hubOnly {p q : PortId} {op power : Nat} {s t : State} (h : WordUp p op power s) (k : HubOnly q s t) : WordUp p op power t := by
  unfold WordUp at *
  rw [k.bud, k.mbx]
  exact h

/-! ### The pins change (06 R172) -/

/-- The state with the new pins, before the port's state follows them. -/
def newPins (p : PortId) (a b : Cc) (s : State) : State :=
  latchEv p (BitVec.ofNat 32 (2 ^ 9)) (modPhy p (fun x => { x with ccStamp := some (takeStamp (some (tileOf p)) s).1 })
    (modTc p (fun t => { t with cc1 := a, cc2 := b }) (takeStamp (some (tileOf p)) s).2))

/-- What a change of the pins makes of the Type-C state of a port whose weaver acts; `held` is the attached pin before. -/
def PortTc.follow (a b : Cc) (held : Pin) (x : PortTc) : PortTc :=
  match x.st with
  | .attachWait => if attachPin x = held ∧ held ≠ .none then x else { x with st := .unattached, ccDebounce := false }
  | .unsupported => { x with st := if a = .vOpen ∧ b = .vOpen then .unattached else .unsupported }
  | .attached => { x with pdDebounce := attachedCc x == .vOpen }
  | _ => x

section
variable {p : PortId} {s : State} {a b : Cc}

theorem exec_ccPatternChange_same (ha : (s.port p).tc.cc1 = a) (hb : (s.port p).tc.cc2 = b) : exec (.ccPatternChange p a b) s = .next s :=
  if_pos ⟨ha, hb⟩

/-- What a change of the pins makes of the Type-C state. -/
def PortTc.seePins (acts : Bool) (held : Pin) (x : PortTc) : PortTc :=
  if acts then x.follow x.cc1 x.cc2 held else { x with ccDebounce := x.ccDebounce && attachPin x == held }

theorem exec_ccPatternChange (h : (s.port p).tc.cc1 ≠ a ∨ (s.port p).tc.cc2 ≠ b) : ∃ t, exec (.ccPatternChange p a b) s = .next t ∧
    (∀ q, q ≠ p → t.port q = s.port q) ∧ eventLatched (.weaver p) 9 t ∧
    (t.port p).tc = { (s.port p).tc with cc1 := a, cc2 := b }.seePins (weaverActs s p) (attachPin (s.port p).tc) := by
  have hne : ¬((s.port p).tc.cc1 = a ∧ (s.port p).tc.cc2 = b) := not_and_or.mpr h
  have hacts : weaverActs (newPins p a b s) p = weaverActs s p := by simp [newPins]
  have hport : (newPins p a b s).port p =
      { s.port p with tc := { (s.port p).tc with cc1 := a, cc2 := b }, phy := ((newPins p a b s).port p).phy } := by simp [newPins]
  have hothers : ∀ q, q ≠ p → (newPins p a b s).port q = s.port q := fun q hq => by
    simp [newPins, modPhy_port_of_ne hq, modTc_port_of_ne hq]
  have hev : eventLatched (.weaver p) 9 (newPins p a b s) := latchEv_latched p 9 (by decide) _
  have hexec : exec (.ccPatternChange p a b) s = .next (if ¬weaverActs (newPins p a b s) p
      then modTc p (fun x => { x with ccDebounce := x.ccDebounce && attachPin x == attachPin (s.port p).tc }) (newPins p a b s)
      else modTc p (fun x => x.follow a b (attachPin (s.port p).tc)) (newPins p a b s)) := if_neg hne
  refine ⟨_, hexec, ?_⟩
  rw [hacts]
  cases weaverActs s p with
  | true =>
    rw [if_neg (by decide)]
    exact ⟨fun q hq => (modTc_port_of_ne hq _).trans (hothers q hq), hev, by rw [modTc_port_self, hport]; rfl⟩
  | false =>
    rw [if_pos (by decide)]
    exact ⟨fun q hq => (modTc_port_of_ne hq _).trans (hothers q hq), hev, by rw [modTc_port_self, hport]; rfl⟩

end

/-! ### Attach (06 R172, R174, R177, R195) -/

section
variable {p : PortId} {s : State}

/-- Attached, the hold of the VCONN switch shows in VCONN_OC (14 R466). -/
theorem holdVconn_port (hst : (s.port p).tc.st = .attached) : (holdVconn p s).port p =
    { s.port p with tc := { (s.port p).tc with vconnOc := (s.port p).tc.vconnOc || (s.port p).tc.ccHold } } := by
  unfold holdVconn
  dsimp only
  split
  · next h =>
    have hon : ((s.port p).tc.vconnOc || (s.port p).tc.ccHold) = true := by rw [h.1, Bool.or_true]
    rw [latchEv_port, modTc_port_self, hon]
  · next h =>
    have hsame : ((s.port p).tc.vconnOc || (s.port p).tc.ccHold) = (s.port p).tc.vconnOc := by
      cases ho : (s.port p).tc.vconnOc with
      | true => rfl
      | false => simpa [hst, ho] using h
    rw [hsame]

theorem startBaseline_onPort : OnPort p s (startBaseline p s) := by
  unfold startBaseline
  exact modPort_onPort p _ s

/-- RP_ADV of a PORT_TC_CFG (06 Table 6.12). -/
def advOf (w : Word) : Rp :=
  match fld w 9 8 with
  | 0 => .dflt
  | 1 => .a15
  | _ => .a30

theorem rpAdv_eq : rpAdv s p = advOf (s.port p).tc.eff := rfl

/-- The Type-C state of a port at its attach. -/
def PortTc.attach (x : PortTc) : PortTc :=
  { x with
    eff := x.cfg, st := .attached, ccDebounce := false, orient := attachPin x, ccsel := attachPin x, ra := otherCc x (attachPin x) == .vRa
    rp := advOf x.cfg }

/-- Attached.SRC, before the base is asked. -/
theorem attached_eq (h : weaverActs s p = true ∧ (s.port p).tc.st = .attachWait ∧ (s.port p).tc.ccDebounce = true ∧ attachPin (s.port p).tc ≠ .none) :
    ∃ u, exec (.tCcDebounce p) s = .next (syncHub p (askBase p u)) ∧ OnPort p s u ∧
      (u.port p).pd.pe = (if pdEn s p then .noPd else .pdDisabled) ∧
      ∃ n l m, (u.port p).tc = { (s.port p).tc.attach with
        vconnOc := (s.port p).tc.vconnOc || (s.port p).tc.ccHold, baseline := n, samples := l, baseLearn := m, baseFrozen := false } := by
  let s₁ := latchTcCfg p s
  let s₂ := modTc p (fun t => { t with
    st := .attached, ccDebounce := false, orient := attachPin (s₁.port p).tc, ccsel := attachPin (s₁.port p).tc
    ra := otherCc t (attachPin (s₁.port p).tc) == .vRa, rp := rpAdv s₁ p }) s₁
  let s₃ := holdVconn p (startBaseline p s₂)
  let s₄ := weaverPost p clsAttach (pack [(pinCode (attachPin (s₁.port p).tc), 28), (rpCode (s₃.port p).tc.rp, 26), (b2n (s₃.port p).tc.ra, 25)]) s₃
  let s₅ := modPd p (fun d => { pdIdle d with pe := if pdEn s₄ p then .noPd else .pdDisabled }) s₄
  let r := startBaseline p s₂
  have hon₁ : OnPort p s s₁ := (latchTcCfg_launches (.refl p s)).on
  have hon₂ : OnPort p s₁ s₂ := modPort_onPort p _ s₁
  have honr : OnPort p s₂ r := startBaseline_onPort
  have hon₄ : OnPort p s s₄ := ((hon₁.trans hon₂).trans honr).trans
    ((holdVconn_policy (.refl p r)).on.trans ((weaverPost_aside (.refl s₃) _ _ _).onPort p))
  have htc : (r.port p).tc = { (s.port p).tc.attach with
      baseLearn := true, baseFrozen := false, samples := [], baseline := clampInt (-250) 250 (Config.factoryBaseline p) } := by
    simp only [r, startBaseline, s₂, s₁, latchTcCfg, rpAdv_eq, modPd_port_self, modTc_port_self]
    rfl
  have hcfg : (r.port p).pd.cfg = (s.port p).pd.cfg := by simp [r, startBaseline, s₂, s₁, latchTcCfg]
  have hs₄ : s₄.port p = { r.port p with tc := { (r.port p).tc with vconnOc := (r.port p).tc.vconnOc || (r.port p).tc.ccHold } } :=
    (weaverPost_port ..).trans (holdVconn_port (by rw [htc]; rfl))
  have hen : pdEn s₄ p = pdEn s p := by rw [pdEn, pdEn, hs₄, hcfg, hon₄.boot]
  refine ⟨s₅, congrArg Host.Outcome.next (if_pos h), hon₄.trans (modPort_onPort p _ s₄), ?_, ?_⟩
  · simp only [s₅, modPd_port_self, hen]
  · refine ⟨clampInt (-250) 250 (Config.factoryBaseline p), [], true, ?_⟩
    simp only [s₅, modPd_port_self, hs₄, htc]
    rfl

end

end Sys2Proof.Machine
end

section
/-!
PROOF. Type-C attach, detach and ErrorRecovery of a port as a whole (06 R172 to R177, R195, R214).
-/
namespace Sys2Proof.Machine

/-! ### The pins and the port's state -/

section
variable {x : PortTc} {held : Pin} {acts : Bool}

theorem PortTc.seePins_pins (acts : Bool) (held : Pin) (x : PortTc) : (x.seePins acts held).cc1 = x.cc1 ∧ (x.seePins acts held).cc2 = x.cc2 := by
  unfold seePins follow
  split
  · split
    · split
      · exact ⟨rfl, rfl⟩
      · exact ⟨rfl, rfl⟩
    · exact ⟨rfl, rfl⟩
    · exact ⟨rfl, rfl⟩
    · exact ⟨rfl, rfl⟩
  · exact ⟨rfl, rfl⟩

theorem PortTc.seePins_lost (hst : x.st = .attachWait) (h : held = .none ∨ attachPin x ≠ held) :
    (x.seePins true held).st = .unattached ∧ (x.seePins true held).ccDebounce = false := by
  have hneg : ¬(attachPin x = held ∧ held ≠ .none) := by tauto
  simp [seePins, follow, hst, hneg]

theorem PortTc.seePins_kept (hst : x.st = .attachWait) (hh : held ≠ .none) (h : attachPin x = held) :
    (x.seePins acts held).st = .attachWait ∧ (x.seePins acts held).ccDebounce = x.ccDebounce := by
  cases acts <;> simp [seePins, follow, hst, hh, h]

theorem PortTc.seePins_attached (hst : x.st = .attached) : (x.seePins true held).st = .attached ∧
    (x.seePins true held).pdDebounce = (attachedCc (x.seePins true held) == .vOpen) := by
  simp [seePins, follow, hst, attachedCc]

end

/-! ### Attach, detach and ErrorRecovery -/

section
variable {p : PortId} {s : State}

/-- Attached.SRC: what the port and the arbiter then know. -/
theorem exec_tCcDebounce (ha : weaverActs s p = true) (hst : (s.port p).tc.st = .attachWait) (hd : (s.port p).tc.ccDebounce = true)
    (hpin : attachPin (s.port p).tc ≠ .none) : ∃ t, exec (.tCcDebounce p) s = .next t ∧ (∀ q, q ≠ p → t.port q = s.port q) ∧
      WordUp p opBase (baseFor (t.port p).tc.rp) t ∧ (t.port p).pd.pe = (if pdEn s p then .noPd else .pdDisabled) ∧
      ∃ n l m, (t.port p).tc = { (s.port p).tc.attach with
        vconnOc := (s.port p).tc.vconnOc || (s.port p).tc.ccHold, baseline := n, samples := l, baseLearn := m, baseFrozen := false } := by
  obtain ⟨u, hexec, hon, hpe, htc⟩ := attached_eq ⟨ha, hst, hd, hpin⟩
  have hub := syncHub_hubOnly (.refl p (askBase p u))
  have hask : (askBase p u).port p = { u.port p with pd := { (u.port p).pd with asked := (u.port p).pd.asked ++ [opBase] } } := ask_port
  have htc' : ((syncHub p (askBase p u)).port p).tc = (u.port p).tc := by rw [hub.tc, hask]
  refine ⟨_, hexec, fun q hq => ?_, ?_, ?_, ?_⟩
  · have hq' : (askBase p u).port q = u.port q := (ask_launches (.refl p u) opBase _).on.others q hq
    rw [hub.others q hq, hq', hon.others q hq]
  · rw [htc']
    exact (ask_wordUp p opBase _ u).hubOnly hub
  · rw [hub.pd, hask, hpe]
  · rw [htc']
    exact htc

theorem exec_ccUnsupported (ha : weaverActs s p = true) (hst : (s.port p).tc.st = .unattached ∨ (s.port p).tc.st = .attachWait)
    (hrp : (s.port p).tc.rp ≠ .none) (hpins : unsupportedPins (s.port p).tc = true) : ∃ t, exec (.ccUnsupported p) s = .next t ∧
      (∀ q, q ≠ p → t.port q = s.port q) ∧ (t.port p).tc = { (s.port p).tc with st := .unsupported, ccDebounce := false } := by
  refine ⟨_, congrArg Host.Outcome.next (if_pos ⟨ha, hst, hrp, hpins⟩), fun q hq => ?_, ?_⟩
  · rw [weaverPost_port, modTc_port_of_ne hq]
  · rw [weaverPost_port, modTc_port_self]

theorem AtRest.noted {t u : State} (h : AtRest p s u) (k : Noted u t) : AtRest p s t where
  others q hq := (k.port q).trans (h.others q hq)
  detached := by
    obtain ⟨hc, ha⟩ := detached_iff.mp h.detached
    exact detached_iff.mpr ⟨by rw [k.port]; exact hc, (allocOf_congr (congrArg Bud.port k.bud) p).trans ha⟩
  cfg := (congrArg (fun x : Port => x.tc.cfg) (k.port p)).trans h.cfg
  st := (congrArg (fun x : Port => x.tc.st) (k.port p)).trans h.st
  rp hs := (congrArg (fun x : Port => x.tc.rp) (k.port p)).trans (h.rp hs)

/-- A voltage that the detach reads before it changes nothing of it. -/
theorem AtRest.of_modPw {f : PortPwr → PortPwr} {t : State} (h : AtRest p (modPw p f s) t) (hf : ∀ w, (f w).fetShort = w.fetShort) : AtRest p s t := by
  have hp : (modPw p f s).port p = { s.port p with pw := f (s.port p).pw } := modPw_port_self ..
  have hoff : ((modPw p f s).port p).staysOff = (s.port p).staysOff := by simp only [Port.staysOff, hp, hf]
  refine ⟨fun q hq => (h.others q hq).trans (modPw_port_of_ne hq f), h.detached, ?_, ?_, fun e => h.rp (hoff.trans e)⟩
  · rw [h.cfg, hp]
  · rw [h.st, hoff]

theorem exec_tPdDebounce {vbus : Nat} (ha : weaverActs s p = true) (hst : (s.port p).tc.st = .attached) (hd : (s.port p).tc.pdDebounce = true)
    (ho : attachedCc (s.port p).tc = .vOpen) : ∃ t, exec (.tPdDebounce p vbus) s = .next t ∧ AtRest p s t := by
  obtain ⟨t, ht, hn⟩ := goes_portEv (i := .tPdDebounce p vbus) (s := s) (p := p)
    (u := detach p 0 false vbus (modPw p (fun w => { w with vbus := vbus }) s)) rfl (if_pos ⟨ha, hst, hd, ho⟩)
  exact ⟨t, ht, ((detach_atRest ..).noted hn).of_modPw fun _ => rfl⟩

theorem exec_transitionDetach {vbus : Nat} (ha : weaverActs s p = true) (hm : (s.port p).pd.transMon = true)
    (ho : attachedCc (s.port p).tc = .vOpen) (hc : (s.port p).pw.cur < noloadOf (s.port p).pw.effProt) :
    ∃ t, exec (.transitionDetach p vbus) s = .next t ∧ AtRest p s t := by
  obtain ⟨t, ht, hn⟩ := goes_portEv (i := .transitionDetach p vbus) (s := s) (p := p)
    (u := detach p 0 true vbus (modPw p (fun w => { w with vbus := vbus }) s)) rfl ((if_pos ⟨hm, ho, hc⟩).trans (if_pos ha))
  exact ⟨t, ht, ((detach_atRest ..).noted hn).of_modPw fun _ => rfl⟩

theorem exec_errorRecoveryEnd (ha : weaverActs s p = true) (ht : tHas s p .errorRecovery = true) (hst : (s.port p).tc.st = .errorRecovery) :
    ∃ t, exec (.errorRecoveryEnd p) s = .next t ∧ (∀ q, q ≠ p → t.port q = s.port q) ∧ tHas t p .errorRecovery = false ∧
      (t.port p).tc.st = (if (s.port p).staysOff then .disabled else .unattached) ∧ ((s.port p).staysOff = true → (t.port p).tc.rp = .none) := by
  have hp : (tOff p .errorRecovery s).port p = { s.port p with pd := { (s.port p).pd with
      timers := (s.port p).pd.timers.filter (· != .errorRecovery) } } := modPd_port_self ..
  have hexec : exec (.errorRecoveryEnd p) s = .next (restTc p (tOff p .errorRecovery s)) :=
    congrArg Host.Outcome.next ((if_pos ⟨ht, ha⟩).trans (if_pos (by rw [hp]; exact hst)))
  have hoff : ((tOff p .errorRecovery s).port p).staysOff = (s.port p).staysOff := by rw [hp]; rfl
  refine ⟨_, hexec, fun q hq => ?_, ?_, ?_, fun e => ?_⟩
  · rw [restTc, modTc_port_of_ne hq, tOff, modPd_port_of_ne hq]
  · rw [tHas, restTc_port, hp]
    simp
  · rw [restTc_port, hoff]
  · rw [restTc_port, hoff, e]
    rfl

end

/-- Settles O30, command by command: the pins by what the port's state makes of them, attach by the state that it takes up, detach by the
port without a partner. -/
theorem typecAttachAndDetach : Obligations.TypecAttachAndDetach := by
  unfold Obligations.TypecAttachAndDetach
  intro p s a b vbus
  refine ⟨exec_ccPatternChange_same, fun h => ?_, fun ha => ⟨?_, ?_, ?_, ?_, ?_, ?_, ?_⟩⟩
  · obtain ⟨t, ht, ho, hev, htc⟩ := exec_ccPatternChange h
    have goes {P : State → Prop} (hP : P t) : ∃ t, exec (.ccPatternChange p a b) s = .next t ∧ (∀ q, q ≠ p → t.port q = s.port q) ∧ P t :=
      ⟨t, ht, ho, hP⟩
    refine ⟨goes ?_, fun ha hst hpin => goes ?_, fun hst hpin hsame => goes ?_, fun ha hst => goes ?_⟩
    · dsimp only
      rw [htc]
      exact ⟨(PortTc.seePins_pins ..).1, (PortTc.seePins_pins ..).2, hev⟩
    · dsimp only
      rw [htc, ha]
      exact PortTc.seePins_lost hst hpin
    · dsimp only
      rw [htc]
      exact PortTc.seePins_kept hst hpin hsame
    · dsimp only
      rw [htc, ha]
      exact PortTc.seePins_attached hst
  · rintro hst hrp hpin
    exact congrArg Host.Outcome.next (if_pos ⟨ha, hst, hrp, hpin⟩)
  · intro _ hpin
    exact congrArg Host.Outcome.next (if_neg fun h => h.2.2.2 hpin)
  · intro hst hd hpin
    obtain ⟨t, ht, ho, hword, hpe, n, l, m, htc⟩ := exec_tCcDebounce ha hst hd hpin
    refine ⟨t, ht, ho, ?_, ?_, ?_, ?_, ?_, ?_, ?_, hword, hpe⟩ <;> dsimp only <;> rw [htc] <;> rfl
  · exact exec_ccUnsupported ha
  · intro hst hd ho
    obtain ⟨t, ht, hr⟩ := exec_tPdDebounce (vbus := vbus) ha hst hd ho
    exact ⟨t, ht, hr.others, hr.detached, hr.st⟩
  · intro hm ho hc
    obtain ⟨t, ht, hr⟩ := exec_transitionDetach (vbus := vbus) ha hm ho hc
    exact ⟨t, ht, hr.others, hr.detached, hr.st⟩
  · exact exec_errorRecoveryEnd ha

end Sys2Proof.Machine
end

section
/-!
PROOF. The VCONN switch trips, or is held open (06 R205, 14 R466).
-/
namespace Sys2Proof.Machine

section
variable {p : PortId} {s : State}

@[simp] theorem putTx_tc {m : PdMsg} : ((putTx p m s).port p).tc = (s.port p).tc := by
  unfold putTx
  split
  · rw [modPhy_port_self]
  · rw [modPd_port_self]

theorem sendCaps_tc (p : PortId) (q : Seq) (s : State) : ((sendCaps p q s).port p).tc = ((takeCfg p s).port p).tc := by
  obtain ⟨v, -, hv, heq⟩ := sendCaps_eq p q s
  rw [heq, putTx_tc, hv]

/-- VCONN that has tripped: it is off, and VCONN_OC stands until detach. -/
def PortTc.TrippedOff (x : PortTc) : Prop := x.vconnOn = false ∧ x.vconnOc = true

/-- VCONN that has tripped does not follow VCONN_EN (06 R205). -/
theorem vconnFollow_of_tripped (h : (s.port p).tc.TrippedOff) : vconnFollow p s = s :=
  if_neg fun e => by simp [vconnWanted, h.2] at e

theorem ask_tc {op power : Nat} : ((ask p op power s).port p).tc = (s.port p).tc := by rw [ask_port]

theorem takeCfg_tripped (h : (s.port p).tc.TrippedOff) : ((takeCfg p s).port p).tc.TrippedOff := by
  unfold takeCfg
  extract_lets s₁ s₂ s₃ w
  have h₁ : (s₁.port p).tc.TrippedOff := by
    simp only [s₁, latchTcCfg, modPd_port_self, modTc_port_self]
    exact h
  have h₂ : (s₂.port p).tc.TrippedOff := by
    simp only [s₂]
    split
    · rw [askBase, ask_tc, setRp, modTc_port_self]
      exact h₁
    · exact h₁
  have h₃ : s₃ = s₂ := by
    simp only [s₃, onlyIf, h₂.1, vconnFollow_of_tripped h₂, Bool.false_eq_true, false_and, if_false, ite_self]
  rw [← h₃] at h₂
  split
  · exact h₂
  · split
    · rw [askHold, ask_tc]
      exact h₂
    · split
      · rw [sendUp_port, modPd_port_self]
        exact h₂
      · exact h₂

theorem firstCaps_tripped (h : (s.port p).tc.TrippedOff) : ((firstCaps p s).port p).tc.TrippedOff := by
  unfold firstCaps
  split
  · rw [sendCaps_tc]
    exact takeCfg_tripped h
  · exact h

/-- A trip of the VCONN switch: VCONN is off, the event is latched, and capabilities that waited for the discovery of the cable go out. -/
theorem vconnTrip_spec (hon : (s.port p).tc.vconnOn = true) : eventLatched (.weaver p) 17 (vconnTrip p s) ∧
    ((vconnTrip p s).port p).tc.TrippedOff ∧ ((vconnTrip p s).port p).tc.ccHold = (s.port p).tc.ccHold ∧
    ((s.port p).pd.capsDue = false → ((vconnTrip p s).port p).tc =
      { (s.port p).tc with vconnOn := false, vconnOc := true, ocDue := (s.port p).tc.ocDue || !weaverActs s p }) := by
  let u := latchEv p (BitVec.ofNat 32 (2 ^ 17)) (modTc p (fun t => { t with vconnOn := false, vconnOc := true }) s)
  have hev : eventLatched (.weaver p) 17 u := latchEv_latched p 17 (by decide) _
  have hu : u.port p = { s.port p with tc := { (s.port p).tc with vconnOn := false, vconnOc := true } } :=
    (latchEv_port ..).trans (modTc_port_self ..)
  have hacts : weaverActs u p = weaverActs s p := by simp [u]
  have htrip : vconnTrip p s = if weaverActs u p then firstCaps p (postVconn p 4 u) else modTc p (fun t => { t with ocDue := true }) u := if_pos hon
  rw [htrip, hacts]
  cases ha : weaverActs s p with
  | true =>
    have hv : (postVconn p 4 u).port p = u.port p := weaverPost_port ..
    have hl := firstCaps_launches (.refl p (postVconn p 4 u))
    rw [if_pos rfl]
    refine ⟨hl.on.latches p 17 ((weaverPost_aside (.refl u) _ _ _).latches p 17 hev), firstCaps_tripped ?_, ?_, fun hd => ?_⟩
    · rw [hv, hu]
      exact ⟨rfl, rfl⟩
    · rw [hl.policy.ccHold, hv, hu]
    · have hnot : firstCaps p (postVconn p 4 u) = postVconn p 4 u := if_neg fun e => by simp [hv, hu, hd] at e
      rw [hnot, hv, hu, Bool.not_true, Bool.or_false]
  | false =>
    rw [if_neg (by decide), modTc_port_self, hu]
    exact ⟨hev, ⟨rfl, rfl⟩, rfl, fun _ => by rw [Bool.not_false, Bool.or_true]⟩

theorem holdVconn_of_held (h : (s.port p).tc.vconnOc = true) : holdVconn p s = s := if_neg fun e => e.2.2 h

/-- The hold of the CC pins cuts VCONN off as a trip does (log 172). -/
theorem ccHold_trips (hon : (s.port p).tc.vconnOn = true) : ∃ t, exec (.ccOvervoltHold p false true) s = .next t ∧
    (t.port p).tc.ccHold = true ∧ (t.port p).tc.vconnOn = false ∧ (t.port p).tc.vconnOc = true ∧
    ((s.port p).pd.capsDue = false → (t.port p).tc =
      { (s.port p).tc with ccHold := true, vconnOn := false, vconnOc := true, ocDue := (s.port p).tc.ocDue || !weaverActs s p }) := by
  let u := modTc p (fun t => { t with ccHold := true }) s
  have hu : u.port p = { s.port p with tc := { (s.port p).tc with ccHold := true } } := modTc_port_self ..
  obtain ⟨-, htrip, hhold, hexact⟩ := vconnTrip_spec (p := p) (s := u) (by rw [hu]; exact hon)
  refine ⟨vconnTrip p u, congrArg Host.Outcome.next (holdVconn_of_held htrip.2), ?_, htrip.1, htrip.2, fun hd => ?_⟩
  · rw [hhold, hu]
  · have h := hexact (by rw [hu]; exact hd)
    rw [hu] at h
    exact h

/-- VCONN that is off: the hold of its switch shows in VCONN_OC only on an attached port. -/
theorem ccHold_off (hon : (s.port p).tc.vconnOn = false) : exec (.ccOvervoltHold p false true) s = .next (holdVconn p (modTc p (fun t => { t with ccHold := true }) s)) := by
  have h : vconnTrip p (modTc p (fun t => { t with ccHold := true }) s) = modTc p (fun t => { t with ccHold := true }) s :=
    if_neg (by simp [hon])
  exact congrArg Host.Outcome.next (congrArg (holdVconn p) h)

theorem ccHold_shows (hon : (s.port p).tc.vconnOn = false) (hst : (s.port p).tc.st = .attached) (hoc : (s.port p).tc.vconnOc = false) :
    ∃ t, exec (.ccOvervoltHold p false true) s = .next t ∧ (t.port p).tc = { (s.port p).tc with ccHold := true, vconnOc := true } ∧
      eventLatched (.weaver p) 17 t := by
  have hu : (modTc p (fun t => { t with ccHold := true }) s).port p = { s.port p with tc := { (s.port p).tc with ccHold := true } } :=
    modTc_port_self ..
  have hshow : holdVconn p (modTc p (fun t => { t with ccHold := true }) s) =
      latchEv p (BitVec.ofNat 32 (2 ^ 17)) (modTc p (fun t => { t with vconnOc := true }) (modTc p (fun t => { t with ccHold := true }) s)) :=
    if_pos ⟨by rw [hu], by rw [hu]; exact hst, by rw [hu]; simp [hoc]⟩
  rw [ccHold_off hon, hshow]
  exact ⟨_, rfl, by rw [latchEv_port, modTc_port_self, hu], latchEv_latched p 17 (by decide) _⟩

end

end Sys2Proof.Machine
end

section
/-!
PROOF. The enables of PORT_TC_CFG and PORT_PD_CFG, posted and local (02 R48, R49, 06 R225).
-/
namespace Sys2Proof.Machine

/-! ### Posted writes of the supervisor, and writes of a tile's own weavers (02 R48, R49) -/

/-- A posted write that nothing bars waits under its BUSY flag. -/
theorem masterWrite_sup_of_postable {r : Rg} {a : Nat} {v : Word} {i : Fin 10} {s : State} (h : postable .sup r a s = true)
    (hi : busyOf a = some i) (hb : barred s r v = false) : masterWrite .sup a v s = posting .sup i a v s := by
  obtain ⟨⟨⟨⟨⟨⟨hp, ha⟩, hg⟩, hq⟩, hl⟩, hc⟩, hm⟩ : ((((((placeFor .sup true a s = .reg r ∧ a % 4 = 0) ∧ r.guarded = false) ∧ isPosted .sup r a = true) ∧
    isLocked s r = false) ∧ pathClear s a = true) ∧ masterUp .sup s = true) := by simpa [postable] using h
  have hc' : clocksRun s = true := hm
  have hfree : s.acc.busy[i] = none := by
    simp only [pathClear, hi, Bool.and_eq_true] at hc
    exact Option.isNone_iff_eq_none.mp hc.2
  have hdone : postedDone i s = s := by simp [postedDone, hfree]
  simp [masterWrite, hc', psiWrite_word ha, wordWrite_reg hp hg (apart_of_pathClear hc), checkWrite_ok hl hb (busyAt_of_pathClear hc), takeWrite, hq, hi,
    hdone, modAcc_answer, posting]
  rfl

theorem masterWrite_weaver_of_writable {g : TileId} {r : Rg} {a : Nat} {v : Word} {s : State} (h : writable (.weaver g) r a v s = true) :
    masterWrite (.weaver g) a v s = withAnswer .ok (allEv (regWrite (.weaver g) r v) s) := by
  obtain ⟨-, ha, -, -, -, -, -, -, -, hc⟩ := writable_iff.mp h
  have hc' : clocksRun s = true := hc
  simp [masterWrite, hc', psiWrite_word ha, wordWrite_of_writable h, modAcc_answer]

/-- The BUSY flag of a port's block is that of its tile. -/
theorem busyOf_addrPort (p : PortId) {off : Nat} (h : off < 0x1000) : busyOf (addrPort p off) = some ⟨(tileOf p).val, by omega⟩ := by
  have hp := p.isLt
  have hlt : p.val / 8 < 10 := by omega
  have hdiv : (0x100000 + 0x1000 * p.val + off - 0x100000) / 0x8000 = p.val / 8 := by omega
  unfold busyOf addrPort
  rw [if_neg (by omega), if_neg (by omega), if_neg (by omega), if_pos (by omega), hdiv]
  exact congrArg some (Fin.ext (Nat.mod_eq_of_lt hlt))

/-! ### One bit of a word -/

/-- The field of one bit is that bit. -/
theorem bitOf_setFld_one {i : Nat} (hi : i < 32) (w : Word) (b : Bool) : bitOf (setFld w i i (b2n b)) i = b := by
  have hm : (maskOf i i).getLsbD i = true := by
    rw [maskOf, Nat.add_sub_cancel_left, BitVec.getLsbD_ofNat]
    simp [hi, Nat.testBit_two_pow_self]
  have hb : (BitVec.ofNat 32 (b2n b * 2 ^ i)).getLsbD i = b := by
    rw [BitVec.getLsbD_ofNat]
    cases b with
    | false => simp [b2n]
    | true => simp [b2n, hi, Nat.testBit_two_pow_self]
  simp [bitOf, setFld, mix, hm, hb]

/-! ### PORT_TC_CFG (06 R225) -/

section
variable {p : PortId} {s : State}

theorem setTcEn_cfg : ((setTcEn p s).port p).tc.cfg = (s.port p).tc.cfg := by
  unfold setTcEn
  split
  · rfl
  · split
    · rw [modTc_port_self]
      dsimp only
      split
      · exact (detach_atRest ..).cfg
      · rfl
    · split
      · rw [restTc_port]
        simp [latchTcCfg]
      · rfl

/-- TC_EN = 0 disables the port at once, after the detach of its partner. -/
theorem setTcEn_off (ha : weaverActs s p = true) (he : tcEn s p = false) : ((setTcEn p s).port p).tc.st = .disabled ∧
    ((setTcEn p s).port p).tc.rp = .none ∧ ((s.port p).tc.st = .attached → Detached p (setTcEn p s)) := by
  have hset : setTcEn p s = modTc p (fun t => { t with st := .disabled, rp := .none, ccDebounce := false })
      (if (s.port p).tc.st = .attached then detach p 3 false (s.port p).pw.vbus s else s) := by
    simp [setTcEn, ha, he]
  rw [hset]
  refine ⟨by rw [modTc_port_self], by rw [modTc_port_self], fun hst => ?_⟩
  rw [if_pos hst]
  have hd := (detach_atRest p 3 false (s.port p).pw.vbus s).detached
  generalize detach p 3 false (s.port p).pw.vbus s = u at hd
  obtain ⟨hc, hz⟩ := detached_iff.mp hd
  exact detached_iff.mpr ⟨by rw [modTc_port_self]; exact hc, hz⟩

theorem writeTcCfg_cfg (v : Word) : ((writeTcCfg p v s).port p).tc.cfg = v &&& 0x0000E33F#32 := by
  unfold writeTcCfg
  dsimp only
  split
  · rw [setTcEn_cfg, modTc_port_self]
  · rw [modTc_port_self]

/-- TC_EN from 1 to 0 disables the port at once. -/
theorem writeTcCfg_off {v : Word} (ha : weaverActs s p = true) (he : tcEn s p = true) (hv : tcEn (writeTcCfg p v s) p = false) :
    ((writeTcCfg p v s).port p).tc.st = .disabled ∧ ((writeTcCfg p v s).port p).tc.rp = .none ∧
    ((s.port p).tc.st = .attached → Detached p (writeTcCfg p v s)) := by
  let u := modTc p (fun t => { t with cfg := v &&& 0x0000E33F#32 }) s
  have hu : u.port p = { s.port p with tc := { (s.port p).tc with cfg := v &&& 0x0000E33F#32 } } := modTc_port_self ..
  have hen : tcEn u p = false := by
    rw [← hv, tcEn, tcEn, writeTcCfg_cfg, hu]
  have hw : writeTcCfg p v s = setTcEn p u := if_pos (by rw [he]; exact bne_iff_ne.mpr (by rw [hen]; decide))
  obtain ⟨hst, hrp, hd⟩ := setTcEn_off (s := u) (p := p) (by simpa [u] using ha) hen
  rw [hw]
  exact ⟨hst, hrp, fun h => hd (by rw [hu]; exact h)⟩

theorem tcEn_writeTcCfg (w : Word) (on : Bool) : tcEn (writeTcCfg p (setFld w 15 15 (b2n on)) s) p = on := by
  have h := bitOf_setFld_one (i := 15) (by decide) w on
  unfold bitOf at h
  rw [tcEn, writeTcCfg_cfg, bitOf, BitVec.getLsbD_and, h, show (0x0000E33F#32).getLsbD 15 = true by decide, Bool.and_true]

end

/-! ### PORT_PD_CFG (06 R220, R225) -/

section
variable {p : PortId} {s : State}

theorem writePdCfg_cfg (v : Word) : ((writePdCfg p v s).port p).pd.cfg = v &&& 0xF0FF13FF#32 := by
  let u := modPd p (fun d => { d with cfg := v &&& 0xF0FF13FF#32 }) s
  have hu : (u.port p).pd.cfg = v &&& 0xF0FF13FF#32 := by simp [u]
  have hpol : Policy p u (writePdCfg p v s) := by
    refine onlyIf_policy (ite_policy (disablePd_policy (.refl p u)) ?_) fun _ k => onLate_stEn_policy k
    exact ite_policy (.refl p u) (onLate_pdEn_policy (.refl p u))
  rw [hpol.pdCfg, hu]

theorem bitOf_writePdCfg {i : Nat} (hi : i < 32) (hm : (0xF0FF13FF#32).getLsbD i = true) (w : Word) (on : Bool) :
    bitOf ((writePdCfg p (setFld w i i (b2n on)) s).port p).pd.cfg i = on := by
  have h := bitOf_setFld_one hi w on
  unfold bitOf at h
  rw [writePdCfg_cfg, bitOf, BitVec.getLsbD_and, hm, h, Bool.and_true]

end

/-! ### The commands -/

theorem Detached.of_port {p : PortId} {s t : State} (h : Detached p s) (hp : t.port p = s.port p) (hb : t.bud = s.bud) : Detached p t := by
  obtain ⟨hc, ha⟩ := detached_iff.mp h
  exact detached_iff.mpr ⟨hp ▸ hc, (allocOf_congr (congrArg Bud.port hb) p).trans ha⟩

theorem holdVconn_of_free {p : PortId} {s : State} (h : (s.port p).tc.ccHold = false) : holdVconn p s = s := if_neg fun e => by simp [h] at e

/-- A weaver of the tile writes a register of its own port at once. -/
theorem masterWrite_own {p : PortId} {r : Rg} {a : Nat} {v : Word} {s u : State} (h : writable (.weaver (tileOf p)) r a v s = true)
    (hr : regWrite (.weaver (tileOf p)) r v s = u) : ∃ t, masterWrite (.weaver (tileOf p)) a v s = t ∧ t.acc.answer = .ok ∧
      t.port p = u.port p ∧ t.bud = u.bud := by
  refine ⟨_, masterWrite_weaver_of_writable h, rfl, ?_, ?_⟩
  · rw [withAnswer_port, allEv_port, hr]
  · exact (allEv_same _ s).bud.trans (congrArg State.bud hr)

/-- Settles O35: the switch by its trip, the holds by theirs, the enables by the path of their write. -/
theorem vconnAndPortEnables : Obligations.VconnAndPortEnables := by
  unfold Obligations.VconnAndPortEnables
  intro p s on
  refine ⟨fun hon => ?_, fun hon => congrArg Host.Outcome.next (if_neg (by simp [hon])), rfl, ?_, fun hon h => ?_, ccHold_shows,
    ccHold_trips, fun h => ?_, fun h => ⟨?_, ?_⟩, fun h => ?_, fun h => ?_, fun h => ?_⟩
  · obtain ⟨hev, htrip, -, hexact⟩ := vconnTrip_spec hon
    exact ⟨_, rfl, htrip.1, htrip.2, hev, hexact⟩
  · exact congrArg Host.Outcome.next (holdVconn_of_free (by rw [onlyIf, if_neg (by decide), modTc_port_self]))
  · rw [ccHold_off hon]
    refine congrArg Host.Outcome.next (if_neg fun e => ?_)
    simp only [modTc_port_self] at e
    exact h.elim (fun hst => hst e.2.1) fun hoc => e.2.2 hoc
  · exact congrArg Host.Outcome.next (masterWrite_sup_of_postable h (busyOf_addrPort p (by decide)) rfl)
  · exact congrArg Host.Outcome.next (masterWrite_sup_of_postable h (busyOf_addrPort p (by decide)) rfl)
  · exact congrArg Host.Outcome.next (masterWrite_sup_of_postable h (busyOf_addrPort p (by decide)) rfl)
  · obtain ⟨t, ht, hok, hp, hb⟩ := masterWrite_own (u := writeTcCfg p (setFld (s.port p).tc.cfg 15 15 (b2n on)) s) h rfl
    have hen : tcEn (writeTcCfg p (setFld (s.port p).tc.cfg 15 15 (b2n on)) s) p = on := tcEn_writeTcCfg _ _
    refine ⟨⟨t, congrArg Host.Outcome.next ht, hok, ?_⟩, fun ha he hoff => ⟨t, congrArg Host.Outcome.next ht, ?_⟩⟩
    · rw [tcEn, hp]
      exact hen
    · obtain ⟨hst, hrp, hd⟩ := writeTcCfg_off ha he (hen.trans hoff)
      rw [hp]
      exact ⟨hst, hrp, fun e => (hd e).of_port hp hb⟩
  · obtain ⟨t, ht, hok, hp, -⟩ := masterWrite_own (u := writePdCfg p (setFld (s.port p).pd.cfg 31 31 (b2n on)) s) h rfl
    exact ⟨t, congrArg Host.Outcome.next ht, hok, by rw [hp]; exact bitOf_writePdCfg (by decide) (by decide) _ _⟩
  · obtain ⟨t, ht, hok, hp, -⟩ := masterWrite_own (u := writePdCfg p (setFld (s.port p).pd.cfg 30 30 (b2n on)) s) h rfl
    exact ⟨t, congrArg Host.Outcome.next ht, hok, by rw [hp]; exact bitOf_writePdCfg (by decide) (by decide) _ _⟩

end Sys2Proof.Machine
end

section
/-!
PROOF. Messages of the partner on their way to the policy, and the messages that answer them (06 R180, R181, 09 R324).
-/
namespace Sys2Proof.Machine

/-! ### Headers of the port's messages (09 R324) -/

section
variable (s : State) (p : PortId) (f : Frame) {ty n : Nat} (ext : Bool) (hty : ty < 32) (hn : n < 8)
include hty hn

theorem mHeader_toNat : (mHeader s p f ty n ext).toNat =
    ty + (if f = .sop then 0x120 else 0) + (if (s.port p).pd.rev = 1 then 1 else 2) * 64 + n * 4096 + b2n ext * 32768 := by
  have he : b2n ext ≤ 1 := by cases ext <;> decide
  rw [mHeader, BitVec.toNat_ofNat]
  apply Nat.mod_eq_of_lt
  split <;> split <;> omega

theorem mType_mHeader : mType (mHeader s p f ty n ext) = ty := by
  rw [mType, mHeader_toNat s p f ext hty hn]
  split <;> split <;> omega

theorem mObjs_mHeader : mObjs (mHeader s p f ty n ext) = n := by
  rw [mObjs, mHeader_toNat s p f ext hty hn]
  split <;> split <;> omega

theorem mExt_mHeader : mExt (mHeader s p f ty n ext) = ext := by
  rw [mExt, BitVec.getLsbD, mHeader_toNat s p f ext hty hn, Nat.testBit_eq_decide_div_mod_eq]
  cases ext <;> simp only [b2n, decide_eq_true_eq, decide_eq_false_iff_not, if_true, if_false, Bool.false_eq_true] <;> split <;> split <;> omega

end

/-! ### A message before a free transmitter -/

section
variable {p : PortId} {s : State}

/-- A free transmitter takes up a control message. -/
theorem putTx_sends_ctl {ty : Nat} (hty : ty < 32) {v : State} (h : (v.port p).phy.tx = none) : Sends p .sop ty [] (putTx p (ctlMsg s p ty) v) :=
  ⟨ctlMsg s p ty, by rw [putTx_free h, modPhy_port_self], rfl, mType_mHeader s p .sop false hty (by decide), mObjs_mHeader s p .sop false hty (by decide),
    mExt_mHeader s p .sop false hty (by decide), rfl⟩

/-- A free transmitter takes up a data message. -/
theorem putTx_sends_data {ty : Nat} {objs : List Word} (hty : ty < 32) (hn : objs.length < 8) {v : State} (h : (v.port p).phy.tx = none) :
    Sends p .sop ty objs (putTx p (dataMsg s p .sop ty objs) v) :=
  ⟨dataMsg s p .sop ty objs, by rw [putTx_free h, modPhy_port_self], rfl, mType_mHeader s p .sop false hty hn, mObjs_mHeader s p .sop false hty hn,
    mExt_mHeader s p .sop false hty hn, rfl⟩

/-- A free transmitter takes up an extended message. -/
theorem putTx_sends_ext {ty : Nat} {bytes : List Byte} (hty : ty < 32) (hn : (2 + bytes.length + 3) / 4 < 8) {v : State} (h : (v.port p).phy.tx = none) :
    SendsBlock p ty bytes (putTx p (extMsg s p ty bytes) v) :=
  ⟨extMsg s p ty bytes, by rw [putTx_free h, modPhy_port_self], rfl, mType_mHeader s p .sop true hty hn, mExt_mHeader s p .sop true hty hn,
    mObjs_mHeader s p .sop true hty hn, rfl⟩

theorem Sends.of_phy {f : Frame} {ty : Nat} {objs : List Word} {u t : State} (h : Sends p f ty objs u) (hp : (t.port p).phy = (u.port p).phy) :
    Sends p f ty objs t := by
  unfold Sends at *
  rw [hp]
  exact h

theorem SendsBlock.of_phy {ty : Nat} {bytes : List Byte} {u t : State} (h : SendsBlock p ty bytes u) (hp : (t.port p).phy = (u.port p).phy) :
    SendsBlock p ty bytes t := by
  unfold SendsBlock at *
  rw [hp]
  exact h

end

/-! ### A message reaches the policy (06 R180, R181) -/

/-- The port as a message on its way to the policy leaves it: the CC baseline, the PHY but for the transmitter, and what the policy does later
may have changed. -/
structure Port.OnWay (x y : Port) : Prop where
  hub : y.hub = x.hub
  tc : sansBaseline y.tc = sansBaseline x.tc
  pw : y.pw = x.pw
  pd : ∃ l, y.pd = { x.pd with late := l }
  tx : y.phy.tx = x.phy.tx

/-- A message is on its way to the policy of port p, whose weaver acts. -/
structure OnWay (p : PortId) (s v : State) : Prop where
  on : OnPort p s v
  port : (s.port p).OnWay (v.port p)
  acts : weaverActs v p = weaverActs s p
  major : ∀ g, (v.tile g).major = (s.tile g).major

theorem OnWay.refl (p : PortId) (s : State) : OnWay p s s := ⟨.refl p s, ⟨rfl, rfl, rfl, ⟨_, rfl⟩, rfl⟩, rfl, fun _ => rfl⟩

theorem epost_major (place : PostSource) (x : Record) (g : TileId) (s : State) : ((epost place x s).tile g).major = (s.tile g).major := by
  unfold epost
  split
  · rfl
  · split
    · next k _ =>
      by_cases hg : g = k
      · rw [hg, modTile_tile_self]
      · rw [modTile_tile_of_ne _ _ _ hg]
    · rfl

theorem postPd_major (p : PortId) (cls : Nat) (st : Stamp) (f : Frame) (failed : Bool) (h : BitVec 16) (g : TileId) (s : State) :
    ((postPd p cls st f failed h s).tile g).major = (s.tile g).major := by
  unfold postPd orLater
  split
  · exact epost_major ..
  · rfl

section
variable {p : PortId} {r s : State}

theorem OnWay.trans {t : State} (h : OnWay p r s) (k : OnWay p s t) : OnWay p r t := by
  obtain ⟨l, hl⟩ := h.port.pd
  obtain ⟨l', hl'⟩ := k.port.pd
  exact ⟨h.on.trans k.on, ⟨k.port.hub.trans h.port.hub, k.port.tc.trans h.port.tc, k.port.pw.trans h.port.pw, ⟨l', by rw [hl', hl]⟩,
    k.port.tx.trans h.port.tx⟩, k.acts.trans h.acts, fun g => (k.major g).trans (h.major g)⟩

theorem draw_onWay (n : Nat) : OnWay p s { s with free := n } :=
  ⟨(draw_aside (.refl s) n).onPort p, ⟨rfl, rfl, rfl, ⟨_, rfl⟩, rfl⟩, rfl, fun _ => rfl⟩

theorem modPhy_onWay {f : PdPhy → PdPhy} (hf : ∀ x, (f x).tx = x.tx) : OnWay p s (modPhy p f s) :=
  ⟨modPort_onPort p _ s, by rw [modPhy_port_self]; exact ⟨rfl, rfl, rfl, ⟨_, rfl⟩, hf _⟩, rfl, fun _ => rfl⟩

theorem modTc_onWay {f : PortTc → PortTc} (hf : ∀ x, sansBaseline (f x) = sansBaseline x) : OnWay p s (modTc p f s) :=
  ⟨modPort_onPort p _ s, by rw [modTc_port_self]; exact ⟨rfl, hf _, rfl, ⟨_, rfl⟩, rfl⟩, rfl, fun _ => rfl⟩

theorem postPd_onWay (cls : Nat) (st : Stamp) (f : Frame) (failed : Bool) (h : BitVec 16) : OnWay p s (postPd p cls st f failed h s) := by
  obtain ⟨l, hl⟩ := postPd_port p cls st f failed h s
  exact ⟨(postPd_policy (.refl p s) cls st f failed h).on, by rw [hl]; exact ⟨rfl, rfl, rfl, ⟨l, rfl⟩, rfl⟩, weaverActs_postPd .., fun _ => postPd_major ..⟩

theorem openSample_eq : ∃ g, (∀ x, sansBaseline (g x) = sansBaseline x) ∧ openSample p s = modTc p g { s with free := s.free + 1 } :=
  baselineSample_eq p (Config.preambleLow s.free) { s with free := s.free + 1 }

theorem heardMsg_eq (m : PdMsg) (s : State) : ∃ objs n, heardMsg m s = ({ m with objs := objs }, { s with free := n }) := by
  unfold heardMsg
  dsimp only
  split
  · exact ⟨_, _, rfl⟩
  · exact ⟨m.objs, s.free, rfl⟩

theorem fillSlot_onWay {m : PdMsg} (hs : (s.port p).phy.slots.length < 3) : OnWay p s (fillSlot p m s) := by
  have heq : fillSlot p m s = postPd p clsPdRx (takeStamp (some (tileOf p)) s).1 m.frame false m.header
      (modPhy p (fun x => { x with slots := x.slots ++ [{ msg := m, stamp := (takeStamp (some (tileOf p)) s).1 }] })
        { s with free := s.free + 1 }) := if_pos hs
  rw [heq]
  exact ((draw_onWay _).trans (modPhy_onWay (by exact fun _ => rfl))).trans (postPd_onWay ..)

/-- A new message finds its slot. -/
theorem hearMsg_onWay {m : PdMsg} (hr : isRepeat s p m = false) (hs : (s.port p).phy.slots.length < 3) : OnWay p s (hearMsg p m s) := by
  obtain ⟨g, hg, hopen⟩ := openSample_eq (p := p) (s := s)
  obtain ⟨objs, n, hmsg⟩ := heardMsg_eq m (openSample p s)
  let w : State := { modTc p g { s with free := s.free + 1 } with free := n }
  have hw : OnWay p s w := ((draw_onWay _).trans (modTc_onWay hg)).trans (draw_onWay n)
  have hphy : (w.port p).phy = (s.port p).phy := by
    show ((modTc p g _).port p).phy = _
    rw [modTc_port_self]
    rfl
  have hnew : isRepeat w p { m with objs := objs } = false := by simpa only [isRepeat, hphy] using hr
  have heq : hearMsg p m s = phyReceive p { m with objs := objs } w := by
    unfold hearMsg
    rw [hmsg, hopen]
  rw [heq, phyReceive_of_new hnew]
  refine (hw.trans (modPhy_onWay fun x => PdPhy.acked_tx _ x)).trans (fillSlot_onWay ?_)
  rw [modPhy_port_self, PdPhy.acked_slots, hphy]
  exact hs

end

end Sys2Proof.Machine
end

section
/-!
PROOF. What the policy of a port acts from when a message of the partner has reached it (06 R180, R181, R213).
-/
namespace Sys2Proof.Machine

/-- The policy of port p acts on a message: nothing has changed but the CC baseline, the PHY, an answer's end of the count of Hard Resets, and
a Revision that was open. -/
structure Heard (p : PortId) (s v : State) : Prop where
  on : OnPort p s v
  hub : (v.port p).hub = (s.port p).hub
  tc : sansBaseline (v.port p).tc = sansBaseline (s.port p).tc
  pw : (v.port p).pw = (s.port p).pw
  pd : ∃ l n, (v.port p).pd =
    { (s.port p).pd with late := l, hrCount := 0, rev := n, timers := (s.port p).pd.timers.filter (· != .noResponse) }
  rev : (s.port p).pd.rev ≠ 0 → (v.port p).pd.rev = (s.port p).pd.rev
  tx : (v.port p).phy.tx = (s.port p).phy.tx
  major : ∀ g, (v.tile g).major = (s.tile g).major

/-- The message leaves its slot, and the policy is ready to act on it. -/
def taken (p : PortId) (m : PdMsg) (s : State) : State :=
  let s := tOff p .noResponse (modPd p (fun d => { d with
    hrCount := 0
    rev := if m.frame = .sop ∧ d.rev = 0 then (if mRev m.header = 1 then 1 else 2) else d.rev }) (takeMsg p m s))
  phyOpts p (s.port p).phy.optSop1 ((s.port p).pd.rev == 1) s

section
variable {p : PortId} {m : PdMsg} {s r : State}

theorem taken_heard (h : OnWay p r s) : Heard p r (taken p m s) := by
  obtain ⟨l, hl⟩ := h.port.pd
  have htake : OnPort p s (takeMsg p m s) := by
    unfold takeMsg
    exact modPort_onPort p _ s
  have hpd : OnPort p (takeMsg p m s) (modPd p (fun d => { d with
      hrCount := 0, rev := if m.frame = .sop ∧ d.rev = 0 then (if mRev m.header = 1 then 1 else 2) else d.rev }) (takeMsg p m s)) :=
    modPort_onPort p _ _
  have hon : OnPort p r (taken p m s) :=
    ((h.on.trans htake).trans hpd).trans (phyOpts_launches (tOff_launches (.refl p _) _) _ _).on
  have hport : (taken p m s).port p = { s.port p with
      pd := { (s.port p).pd with
        hrCount := 0
        rev := if m.frame = .sop ∧ (s.port p).pd.rev = 0 then (if mRev m.header = 1 then 1 else 2) else (s.port p).pd.rev
        timers := (s.port p).pd.timers.filter (· != .noResponse) }
      phy := ((taken p m s).port p).phy } := by
    simp [taken, takeMsg, tOff, phyOpts]
  have htx : ((taken p m s).port p).phy.tx = (s.port p).phy.tx := by simp [taken, takeMsg, tOff, phyOpts]
  refine ⟨hon, ?_, ?_, ?_, ⟨l, ((taken p m s).port p).pd.rev, ?_⟩, fun hr => ?_, htx.trans h.port.tx, h.major⟩
  · rw [hport]; exact h.port.hub
  · rw [hport]; exact h.port.tc
  · rw [hport]; exact h.port.pw
  · rw [hport, hl]
  · rw [hport, hl]
    exact if_neg fun e => hr e.2

/-- The policy acts on a message that it hears. -/
theorem onMsg_of_taken {f : State → State} (hc : clocksRun s = true) (ha : weaverActs s p = true) (hl : pdLive s p = true)
    (hb : (s.port p).pd.bistMode = false) (hin : (s.port p).phy.slots.any (inSlot m) = true) : onMsg p m f s = f (taken p m s) := by
  have hl' : pdLive (takeMsg p m s) p = true := by simpa [takeMsg, pdLive] using hl
  have hb' : ((takeMsg p m s).port p).pd.bistMode = false := by simpa [takeMsg] using hb
  simp [onMsg, hc, hin, ha, hl', hb', taken]

theorem onMsg_of_arriving {f : State → State} (hc : clocksRun s = true) (ha : weaverActs s p = true) (hl : pdLive s p = true)
    (hb : (s.port p).pd.bistMode = false) (hin : (s.port p).phy.slots.any (inSlot m) = false) (hr : isRepeat s p m = false)
    (ho : isOverflow s p m = false) (hw : OnWay p s (hearMsg p m s)) : onMsg p m f s = f (taken p m (hearMsg p m s)) := by
  obtain ⟨l, hpd⟩ := hw.port.pd
  have ha' : weaverActs (hearMsg p m s) p = true := hw.acts.trans ha
  have htc : ((hearMsg p m s).port p).tc.st = (s.port p).tc.st := (congrArg PortTc.st hw.port.tc :)
  have hl' : pdLive (takeMsg p m (hearMsg p m s)) p = true := by
    simpa [takeMsg, pdLive, hpd, htc] using hl
  have hb' : ((takeMsg p m (hearMsg p m s)).port p).pd.bistMode = false := by simpa [takeMsg, hpd] using hb
  simp [onMsg, hc, hin, hr, ho, ha', hl', hb', taken]

/-- The policy that hears a message acts on it from a state of `Heard`, whatever the act. -/
theorem onMsg_heard {h : BitVec 16} (hp : policyHears p .sop h s = true) (hf : m.frame = .sop) (hh : m.header = h) :
    ∃ v, Heard p s v ∧ ∀ f, onMsg p m f s = f v := by
  have hslot : inSlot m = inSlot { frame := .sop, header := h } := by
    funext x
    simp only [inSlot, hf, hh]
  have hrep : isRepeat s p m = isRepeat s p { frame := .sop, header := h } := by simp only [isRepeat, hf, hh]
  have hover : isOverflow s p m = isOverflow s p { frame := .sop, header := h } := by simp only [isOverflow, hrep]
  obtain ⟨⟨⟨ha, hl⟩, hb⟩, hin⟩ : ((weaverActs s p = true ∧ pdLive s p = true) ∧ (s.port p).pd.bistMode = false) ∧
      ((s.port p).phy.slots.any (inSlot m) = true ∨ (isRepeat s p m = false ∧ isOverflow s p m = false)) := by
    simpa only [policyHears, ← hslot, ← hrep, ← hover, Bool.and_eq_true, Bool.or_eq_true, Bool.not_eq_true'] using hp
  have hc : clocksRun s = true := by
    simp only [weaverActs, weaverUp, Bool.and_eq_true] at ha
    exact ha.1.2
  cases hs : (s.port p).phy.slots.any (inSlot m) with
  | true => exact ⟨_, taken_heard (.refl p s), fun f => onMsg_of_taken hc ha hl hb hs⟩
  | false =>
    obtain ⟨hr, ho⟩ : isRepeat s p m = false ∧ isOverflow s p m = false := hin.resolve_left (by rw [hs]; decide)
    have hfree : (s.port p).phy.slots.length < 3 := by
      simpa [isOverflow, hr] using ho
    have hw := hearMsg_onWay hr hfree
    exact ⟨_, taken_heard hw, fun f => onMsg_of_arriving hc ha hl hb hs hr ho hw⟩

end

end Sys2Proof.Machine
end

section
/-!
PROOF. Source_Capabilities of a port: what they bring into effect, and the message (06 R184, R185, R202, R225).
-/
namespace Sys2Proof.Machine

/-! ### What the want and the capabilities are built from (06 R184, R185) -/

/-- Two states in which port p wants, holds and offers the same. -/
structure SameWant (p : PortId) (s t : State) : Prop where
  grps : t.grps = s.grps
  ctl : t.bud.ctl = s.bud.ctl
  eff : (t.port p).pd.eff = (s.port p).pd.eff
  cableId : (t.port p).pd.cableId = (s.port p).pd.cableId
  cable : (t.port p).pd.cable = (s.port p).pd.cable
  hold : (t.port p).pd.hold = (s.port p).pd.hold
  pfetH : (t.port p).pw.pfetH = (s.port p).pw.pfetH

section
variable {p : PortId} {s t : State} (h : SameWant p s t)
include h

theorem SameWant.railUsable : railUsable t p = railUsable s p := by
  have hg : t.grp (tileOf p) = s.grp (tileOf p) := congrArg (fun v : Vector Group 8 => v[tileOf p]) h.grps
  simp only [Machine.railUsable, classB, h.eff, h.pfetH, hg]

theorem SameWant.railVolt : railVolt t (tileOf p) = railVolt s (tileOf p) := by
  have hg : t.grp (tileOf p) = s.grp (tileOf p) := congrArg (fun v : Vector Group 8 => v[tileOf p]) h.grps
  unfold Machine.railVolt
  rw [hg]

theorem SameWant.icable : icable t p = icable s p := by 
  rw [Machine.icable, Machine.icable, cable5A, cable5A, h.cableId, h.cable]

theorem SameWant.wantOf : wantOf t p = wantOf s p := by
  unfold Machine.wantOf imax5 classMax classB
  rw [h.railUsable, h.railVolt, h.icable, h.eff]

theorem SameWant.holdNow : holdNow t p = holdNow s p := by simp only [Machine.holdNow, h.hold, h.wantOf]

theorem SameWant.pdosOf (n : Nat) : pdosOf t p n = pdosOf s p n := by
  simp only [Machine.pdosOf, imax5, h.railUsable, h.railVolt, h.icable, h.eff]

theorem SameWant.policyWait : policyWait t = policyWait s := by rw [Machine.policyWait, Machine.policyWait, h.ctl]

theorem SameWant.capsBasis (q : Seq) : capsBasis q t p = capsBasis q s p := by
  simp only [Machine.capsBasis, h.policyWait, h.wantOf, h.holdNow]

theorem SameWant.classWatts : classWatts t p = classWatts s p := by 
  rw [Machine.classWatts, Machine.classWatts, classB, classB, h.eff]

theorem SameWant.sourceInfo : sourceInfo t p = sourceInfo s p := by simp only [Machine.sourceInfo, h.classWatts, h.holdNow]

theorem SameWant.trans {u : State} (k : SameWant p t u) : SameWant p s u :=
  ⟨k.grps.trans h.grps, k.ctl.trans h.ctl, k.eff.trans h.eff, k.cableId.trans h.cableId, k.cable.trans h.cable, k.hold.trans h.hold,
    k.pfetH.trans h.pfetH⟩

end

@[simp] theorem putTx_pw {p : PortId} {m : PdMsg} {s : State} : ((putTx p m s).port p).pw = (s.port p).pw := by
  unfold putTx
  split
  · rw [modPhy_port_self]
  · rw [modPd_port_self]

theorem putTx_sameWant (p : PortId) (m : PdMsg) (s : State) : SameWant p s (putTx p m s) := by
  obtain ⟨l, hl⟩ := putTx_pd (p := p) (m := m) (s := s)
  have hon := (putTx_launches (.refl p s) m).on
  exact ⟨hon.grps, hon.ctl, by rw [hl], by rw [hl], by rw [hl], by rw [hl], by rw [putTx_pw]⟩

/-! ### A configuration is taken up (06 R225) -/

/-- What taking up a configuration leaves of the PHY and of the policy's state. -/
structure Port.TakesUp (x y : Port) : Prop where
  phy : y.phy = x.phy
  pd : ∃ a h l, y.pd = { x.pd with asked := a, hold := h, timers := l } ∧ ∀ z, z ≠ .vconnStable → z ∈ l → z ∈ x.pd.timers

theorem Port.TakesUp.refl (x : Port) : x.TakesUp x := ⟨rfl, _, _, _, rfl, fun _ _ h => h⟩

section
variable {p : PortId} {x : Port} {s : State} (h : x.TakesUp (s.port p))
include h

theorem Port.TakesUp.of_pd {t : State} (hy : (t.port p).phy = (s.port p).phy) (hd : ∃ a n l, (t.port p).pd =
    { (s.port p).pd with asked := a, hold := n, timers := l } ∧ ∀ z, z ≠ .vconnStable → z ∈ l → z ∈ (s.port p).pd.timers) :
    x.TakesUp (t.port p) := by
  obtain ⟨a, n, l, hpd, hl⟩ := h.pd
  obtain ⟨a', n', l', hpd', hl'⟩ := hd
  refine ⟨hy.trans h.phy, a', n', l', by rw [hpd', hpd], fun z hz hm => hl z hz ?_⟩
  have hmem := hl' z hz hm
  rw [hpd] at hmem
  exact hmem

theorem Port.TakesUp.same {t : State} (hy : (t.port p).phy = (s.port p).phy) (hd : (t.port p).pd = (s.port p).pd) : x.TakesUp (t.port p) :=
  h.of_pd hy ⟨_, _, _, hd, fun _ _ hz => hz⟩

theorem ask_takesUp (op power : Nat) : x.TakesUp ((ask p op power s).port p) :=
  h.of_pd (by rw [ask_port]) ⟨_, _, _, by rw [ask_port], fun _ _ hz => hz⟩

theorem setRp_takesUp (r : Rp) : x.TakesUp ((setRp p r s).port p) := h.same (by rw [setRp, modTc_port_self]) (by rw [setRp, modTc_port_self])

theorem setVconn_takesUp (on : Bool) (cause : Nat) : x.TakesUp ((setVconn p on cause s).port p) := by
  have hp : (setVconn p on cause s).port p = { s.port p with tc := { (s.port p).tc with
      vconnOn := on, vconnPartner := (s.port p).tc.vconnPartner && !on } } := (weaverPost_port ..).trans (modTc_port_self ..)
  exact h.same (by rw [hp]) (by rw [hp])

theorem vconnFollow_takesUp : x.TakesUp ((vconnFollow p s).port p) := by
  unfold vconnFollow
  split
  · have hv := setVconn_takesUp h true 0
    dsimp only
    split
    · refine hv.of_pd (by rw [tOn, modPd_port_self]) ⟨_, _, _, by rw [tOn, modPd_port_self], fun z hz hm => ?_⟩
      simp only [List.mem_append, List.mem_filter, List.mem_singleton] at hm
      exact hm.elim And.left fun e => absurd e hz
    · exact hv
  · exact h

end

theorem takeCfg_takesUp {p : PortId} {s : State} {x : Port} (hx : x = { s.port p with pd := { (s.port p).pd with eff := (s.port p).pd.cfg } }) :
    x.TakesUp ((takeCfg p s).port p) := by
  unfold takeCfg
  extract_lets s₁ s₂ s₃ w
  have h₁ : x.TakesUp (s₁.port p) := by
    rw [hx]
    simp only [s₁, latchTcCfg, modPd_port_self, modTc_port_self]
    exact ⟨rfl, _, _, _, rfl, fun _ _ hz => hz⟩
  have h₂ : x.TakesUp (s₂.port p) := by
    simp only [s₂]
    split
    · exact ask_takesUp (setRp_takesUp h₁ _) _ _
    · exact h₁
  have h₃ : x.TakesUp (s₃.port p) := by
    simp only [s₃, onlyIf]
    split
    · exact setVconn_takesUp h₂ _ _
    · split
      · exact vconnFollow_takesUp h₂
      · exact h₂
  split
  · exact h₃
  · split
    · exact ask_takesUp h₃ _ _
    · split
      · exact h₃.of_pd (by rw [sendUp_port, modPd_port_self]) ⟨_, _, _, by rw [sendUp_port, modPd_port_self], fun _ _ hz => hz⟩
      · exact h₃

/-! ### Source_Capabilities -/

theorem pdoWords_length (l : List Pdo) : (pdoWords l).length = l.length := by
  cases l with
  | nil => rfl
  | cons x r => rw [pdoWords, List.length_cons, List.length_map, List.length_cons]

/-- Capabilities fit one message. -/
theorem pdosOf_length (s : State) (p : PortId) (n : Nat) : (pdoWords (pdosOf s p n)).length < 8 := by
  have hrail (c : Prop) [Decidable c] (x : Pdo) : (if c then [x] else []).length ≤ 1 := by
    split
    · exact Nat.le_refl 1
    · exact Nat.zero_le 1
  rw [pdoWords_length]
  exact Nat.lt_of_le_of_lt (Nat.succ_le_succ (hrail _ _)) (by decide)

theorem offering_sameWant {p : PortId} {u v : State} {x : Port} {caps : List Pdo} (hu : u.port p = x) (hv : v.port p = { x with pd := x.pd.offering caps })
    (hg : v.grps = u.grps) (hc : v.bud.ctl = u.bud.ctl) : SameWant p u v :=
  ⟨hg, hc, by rw [hv, hu]; rfl, by rw [hv, hu]; rfl, by rw [hv, hu]; rfl, by rw [hv, hu]; rfl, by rw [hv, hu]⟩

section
variable (p : PortId) (q : Seq) (s : State)

/-- The policy's state after Source_Capabilities, what it asks of the arbiter and the waiting messages apart. -/
theorem sendCaps_pd : ∃ a h o l caps, ((sendCaps p q s).port p).pd =
    { ({ (s.port p).pd with eff := (s.port p).pd.cfg, asked := a, hold := h, timers := l } : PortPd).offering caps with outq := o } ∧
    (∀ z, z ≠ .vconnStable → z ∈ l → z ∈ (s.port p).pd.timers) ∧ caps = pdosOf (sendCaps p q s) p (capsBasis q (sendCaps p q s) p) ∧
    ((s.port p).phy.tx = none → o = (s.port p).pd.outq ∧ Sends p .sop 1 (pdoWords caps) (sendCaps p q s)) ∧
    ((s.port p).phy.tx ≠ none → o.length = (s.port p).pd.outq.length + 1 ∧ ((sendCaps p q s).port p).phy = (s.port p).phy) := by
  have htakes := takeCfg_takesUp (p := p) (s := s) rfl
  obtain ⟨a, n, l, hpd, hl⟩ := htakes.pd
  obtain ⟨v, hlaunch, hv, heq⟩ := sendCaps_eq p q s
  have hon := (takeCfg_launches (.refl p s)).on
  have hcaps : SameWant p (takeCfg p s) v :=
    offering_sameWant rfl hv (hlaunch.on.grps.trans hon.grps.symm) (hlaunch.on.ctl.trans hon.ctl.symm)
  have hphy : (v.port p).phy = (s.port p).phy := by
    rw [hv]
    exact htakes.phy
  have hall : pdosOf (takeCfg p s) p (capsBasis q (takeCfg p s) p) = pdosOf (sendCaps p q s) p (capsBasis q (sendCaps p q s) p) := by
    rw [heq, (hcaps.trans (putTx_sameWant ..)).pdosOf, (hcaps.trans (putTx_sameWant ..)).capsBasis]
  have hvpd : (v.port p).pd = ({ (s.port p).pd with eff := (s.port p).pd.cfg, asked := a, hold := n, timers := l } : PortPd).offering
      (pdosOf (takeCfg p s) p (capsBasis q (takeCfg p s) p)) := by
    rw [hv]
    exact congrArg (PortPd.offering _) hpd
  refine ⟨a, n, ((sendCaps p q s).port p).pd.outq, l, _, ?_, hl, hall, fun htx => ⟨?_, ?_⟩, fun htx => ⟨?_, ?_⟩⟩
  · obtain ⟨o, ho⟩ := putTx_pd (p := p) (m := dataMsg v p .sop dSourceCaps (pdoWords (pdosOf (takeCfg p s) p (capsBasis q (takeCfg p s) p)))) (s := v)
    rw [heq, ho, hvpd]
  · rw [heq, putTx_free (hphy ▸ htx), modPhy_port_self, hvpd]
    rfl
  · rw [heq]
    exact putTx_sends_data (by decide) (pdosOf_length ..) (hphy ▸ htx)
  · obtain ⟨x, hx⟩ := Option.ne_none_iff_exists'.1 htx
    rw [heq, putTx_busy (hphy ▸ hx), modPd_port_self, hvpd, List.length_append]
    rfl
  · obtain ⟨x, hx⟩ := Option.ne_none_iff_exists'.1 htx
    rw [heq, putTx_busy (hphy ▸ hx), modPd_port_self, hphy]

end

end Sys2Proof.Machine
end

section
/-!
PROOF. What the policy of a port answers a message with at once: Reject, Not_Supported, or a word of information (06 R179, R181, Table 6.4).
-/
namespace Sys2Proof.Machine

/-! ### The policy acts on a message within itself -/

/-- From `r` to `t` the policy of port p changes its own state only; the contract that stands and the written configuration stay. -/
structure Internal (p : PortId) (r t : State) : Prop where
  on : OnPort p r t
  hub : (t.port p).hub = (r.port p).hub
  tc : (t.port p).tc = (r.port p).tc
  pw : (t.port p).pw = (r.port p).pw
  objpos : (t.port p).pd.objpos = (r.port p).pd.objpos
  cfg : (t.port p).pd.cfg = (r.port p).pd.cfg

theorem Internal.refl (p : PortId) (s : State) : Internal p s s := ⟨.refl p s, rfl, rfl, rfl, rfl, rfl⟩

section
variable {p : PortId} {r s : State} (k : Internal p r s)
include k

theorem Internal.trans {t : State} (l : Internal p s t) : Internal p r t :=
  ⟨k.on.trans l.on, l.hub.trans k.hub, l.tc.trans k.tc, l.pw.trans k.pw, l.objpos.trans k.objpos, l.cfg.trans k.cfg⟩

theorem Internal.pd {f : PortPd → PortPd} (hf : ∀ d, (f d).objpos = d.objpos ∧ (f d).cfg = d.cfg) : Internal p r (modPd p f s) :=
  k.trans ⟨modPort_onPort p _ s, by rw [modPd_port_self], by rw [modPd_port_self], by rw [modPd_port_self],
    by rw [modPd_port_self]; exact (hf _).1, by rw [modPd_port_self]; exact (hf _).2⟩

theorem Internal.phy (f : PdPhy → PdPhy) : Internal p r (modPhy p f s) :=
  k.trans ⟨modPort_onPort p _ s, by rw [modPhy_port_self], by rw [modPhy_port_self], by rw [modPhy_port_self], by rw [modPhy_port_self],
    by rw [modPhy_port_self]⟩

theorem tOn_internal (x : PdTimer) : Internal p r (tOn p x s) := k.pd fun _ => ⟨rfl, rfl⟩
theorem tOff_internal (x : PdTimer) : Internal p r (tOff p x s) := k.pd fun _ => ⟨rfl, rfl⟩

theorem putTx_internal (m : PdMsg) : Internal p r (putTx p m s) := by
  unfold putTx
  split
  · exact k.phy _
  · exact k.pd fun _ => ⟨rfl, rfl⟩

end

section
variable {p : PortId} {h : BitVec 16} {i : Instr} {m : PdMsg} {f : State → State} {s : State}

/-- What a message that the policy hears comes to is what the policy makes of it from a state of `Heard`. -/
theorem goes_onMsg (hp : policyHears p .sop h s = true) {P : State → Prop} (hi : exec i s = .next (portEv p (onMsg p m f) s)) (hf : m.frame = .sop)
    (hh : m.header = h) (hP : ∀ v t, Heard p s v → Noted (f v) t → P t) : ∃ t, exec i s = .next t ∧ P t := by
  obtain ⟨v, hv, heq⟩ := onMsg_heard hp hf hh
  obtain ⟨t, ht, hn⟩ := goes_portEv hi (heq f)
  exact ⟨t, ht, hP v t hv hn⟩

section
variable {v : State} (hv : Heard p s v)
include hv

theorem Heard.onlyPolicy {u t : State} (k : Internal p v u) (hn : Noted u t) : OnlyPolicy p s t := by
  have hon := hv.on.trans k.on
  obtain ⟨l, n, hpd⟩ := hv.pd
  refine ⟨fun q hq => (hn.port q).trans (hon.others q hq), ?_, ?_, ?_, ?_, ?_, hn.teams.trans hon.teams, hn.grps.trans hon.grps, hn.mem.trans hon.mem⟩
  · rw [hn.port, k.hub, hv.hub]
  · rw [hn.port, k.tc, hv.tc]
  · rw [hn.port, k.pw, hv.pw]
  · rw [hn.port, k.objpos, hpd]
  · rw [hn.port, k.cfg, hpd]

/-- What the policy reads of the port from which it acts. -/
theorem Heard.seq : (v.port p).pd.seq = (s.port p).pd.seq := by obtain ⟨l, n, h⟩ := hv.pd; rw [h]
theorem Heard.after : (v.port p).pd.after = (s.port p).pd.after := by obtain ⟨l, n, h⟩ := hv.pd; rw [h]
theorem Heard.own : (v.port p).pd.own = (s.port p).pd.own := by obtain ⟨l, n, h⟩ := hv.pd; rw [h]
theorem Heard.pe : (v.port p).pd.pe = (s.port p).pd.pe := by obtain ⟨l, n, h⟩ := hv.pd; rw [h]
theorem Heard.swapToPort : (v.port p).pd.swapToPort = (s.port p).pd.swapToPort := by obtain ⟨l, n, h⟩ := hv.pd; rw [h]
theorem Heard.eff : (v.port p).pd.eff = (s.port p).pd.eff := by obtain ⟨l, n, h⟩ := hv.pd; rw [h]
theorem Heard.cfg : (v.port p).pd.cfg = (s.port p).pd.cfg := by obtain ⟨l, n, h⟩ := hv.pd; rw [h]
theorem Heard.objpos : (v.port p).pd.objpos = (s.port p).pd.objpos := by obtain ⟨l, n, h⟩ := hv.pd; rw [h]
theorem Heard.volt : (v.port p).pd.volt = (s.port p).pd.volt := by obtain ⟨l, n, h⟩ := hv.pd; rw [h]
theorem Heard.req : (v.port p).pd.req = (s.port p).pd.req := by obtain ⟨l, n, h⟩ := hv.pd; rw [h]
theorem Heard.caps : (v.port p).pd.caps = (s.port p).pd.caps := by obtain ⟨l, n, h⟩ := hv.pd; rw [h]
theorem Heard.outq : (v.port p).pd.outq = (s.port p).pd.outq := by obtain ⟨l, n, h⟩ := hv.pd; rw [h]
theorem Heard.softResets : (v.port p).pd.softResets = (s.port p).pd.softResets := by obtain ⟨l, n, h⟩ := hv.pd; rw [h]
theorem Heard.discDone : (v.port p).pd.discDone = (s.port p).pd.discDone := by obtain ⟨l, n, h⟩ := hv.pd; rw [h]
theorem Heard.ocp : (v.port p).pd.ocp = (s.port p).pd.ocp := by obtain ⟨l, n, h⟩ := hv.pd; rw [h]
theorem Heard.ovp : (v.port p).pd.ovp = (s.port p).pd.ovp := by obtain ⟨l, n, h⟩ := hv.pd; rw [h]
theorem Heard.timers : (v.port p).pd.timers = (s.port p).pd.timers.filter (· != .noResponse) := by obtain ⟨l, n, h⟩ := hv.pd; rw [h]

theorem Heard.inSequence : inSequence v p = inSequence s p := by simp only [Machine.inSequence, hv.seq, hv.pe, hv.swapToPort]

theorem Heard.sameWant : SameWant p s v := by
  obtain ⟨l, n, hpd⟩ := hv.pd
  exact ⟨hv.on.grps, hv.on.ctl, by rw [hpd], by rw [hpd], by rw [hpd], by rw [hpd], by rw [hv.pw]⟩

theorem Heard.scedb : scedb v p = scedb s p := by
  simp only [Machine.scedb, portPid, servedBy, hv.hub, hv.major, hv.sameWant.classWatts]

/-- An answer before the free transmitter. -/
theorem Heard.answers {ty : Nat} (hty : ty < 32) (htx : (s.port p).phy.tx = none) {t : State} (hn : Noted (putTx p (ctlMsg v p ty) v) t) :
    OnlyPolicy p s t ∧ Sends p .sop ty [] t :=
  ⟨hv.onlyPolicy (putTx_internal (.refl p v) _) hn, (putTx_sends_ctl hty (hv.tx.trans htx)).of_phy (by rw [hn.port])⟩

theorem Heard.answersData {ty : Nat} {objs : List Word} (hty : ty < 32) (ho : objs.length < 8) (htx : (s.port p).phy.tx = none) {t : State}
    (hn : Noted (putTx p (dataMsg v p .sop ty objs) v) t) : OnlyPolicy p s t ∧ Sends p .sop ty objs t :=
  ⟨hv.onlyPolicy (putTx_internal (.refl p v) _) hn, (putTx_sends_data hty ho (hv.tx.trans htx)).of_phy (by rw [hn.port])⟩

end

section
variable (hp : policyHears p .sop h s = true) (htx : (s.port p).phy.tx = none)
include hp htx

/-- A message that the policy answers with a control message. -/
theorem control_of {ty : Nat} (hi : exec i s = .next (portEv p (onMsg p m f) s)) (hf : m.frame = .sop) (hh : m.header = h) (hty : ty < 32)
    (hfv : ∀ v, Heard p s v → f v = putTx p (ctlMsg v p ty) v) : ∃ t, exec i s = .next t ∧ OnlyPolicy p s t ∧ Sends p .sop ty [] t :=
  goes_onMsg hp hi hf hh fun v t hv hn => hv.answers hty htx (by rwa [hfv v hv] at hn)

/-- A message that the policy takes, and answers nothing. -/
theorem quiet_of (hi : exec i s = .next (portEv p (onMsg p m f) s)) (hf : m.frame = .sop) (hh : m.header = h)
    (hfv : ∀ v, Heard p s v → Internal p v (f v) ∧ ((f v).port p).phy.tx = (v.port p).phy.tx) :
    ∃ t, exec i s = .next t ∧ OnlyPolicy p s t ∧ (t.port p).phy.tx = none :=
  goes_onMsg hp hi hf hh fun v t hv hn => ⟨hv.onlyPolicy (hfv v hv).1 hn, by rw [hn.port, (hfv v hv).2, hv.tx, htx]⟩

end

theorem unsupported_of_calm (h : inSequence s p = false) : unsupported p s = putTx p (ctlMsg s p cNotSupported) s := by
  simp [unsupported, h]

end

/-- No sequence of the port goes on, and none waits. -/
def PortPd.Calm (d : PortPd) : Prop := d.seq = .none ∧ d.pe ≠ .transition ∧ d.swapToPort = false ∧ d.after = .none

theorem inSequence_of_calm {p : PortId} {s : State} (h : (s.port p).pd.Calm) : inSequence s p = false := by
  obtain ⟨hs, hpe, hsw, -⟩ := h
  simp [inSequence, hs, hpe, hsw]

end Sys2Proof.Machine
end

section
/-!
PROOF. Messages of the partner that the policy answers from Ready, with Soft_Reset inside a sequence, or with words of information
(06 R179, R181, R206, R213, Table 6.4).
-/
namespace Sys2Proof.Machine

/-! ### Soft_Reset (06 R181, R213) -/

section
variable {p : PortId} {s : State}

@[simp] theorem postAlt_port {kind svid : Nat} {q : PortId} : (postAlt p kind svid s).port q = s.port q := weaverPost_port ..

@[simp] theorem stCut_port {q : PortId} : (stCut p s).port q = s.port q := by
  unfold stCut
  split
  · exact postAlt_port
  · rfl

/-- A Soft_Reset of the port has gone before its transmitter. -/
structure ResetSent (p : PortId) (n : Nat) (t : State) : Prop where
  sends : Sends p .sop 13 [] t
  seq : (t.port p).pd.seq = .softReset
  softResets : (t.port p).pd.softResets = n

/-- Inside a sequence the port sends Soft_Reset at once. -/
theorem softReset_sends (hin : inSequence s p = true) (htx : (s.port p).phy.tx = none) :
    ResetSent p (satInc (s.port p).pd.softResets 255) (softReset p s) := by
  have heq : softReset p s = launch p .softReset (abortSeq p (stCut p s)) := if_pos hin
  have hfree : ((modPd p (fun d => { d with seq := .softReset, softResets := satInc d.softResets 255 }) (abortSeq p (stCut p s))).port p).phy.tx = none := by
    rw [modPd_port_self, abortSeq, modPd_port_self, stCut_port]
    exact htx
  rw [heq, launch]
  refine ⟨putTx_sends_ctl (by decide) hfree, ?_, ?_⟩
  · rw [putTx_free hfree, modPhy_port_self, modPd_port_self]
  · rw [putTx_free hfree, modPhy_port_self, modPd_port_self, abortSeq, modPd_port_self, stCut_port]

theorem ResetSent.noted {n : Nat} {t : State} (h : ResetSent p n s) (k : Noted s t) : ResetSent p n t :=
  ⟨h.sends.of_phy (by rw [k.port]), by rw [k.port, h.seq], by rw [k.port, h.softResets]⟩

end

section
variable {p : PortId} {h : BitVec 16} {s : State} (hp : policyHears p .sop h s = true) (htx : (s.port p).phy.tx = none)
include hp htx

/-- A message that is not expected, inside a sequence. -/
theorem reset_of {i : Instr} {m : PdMsg} {f : State → State} (hi : exec i s = .next (portEv p (onMsg p m f) s)) (hf : m.frame = .sop)
    (hh : m.header = h) (hin : inSequence s p = true) (hfv : ∀ v, Heard p s v → f v = softReset p v) :
    ∃ t, exec i s = .next t ∧ ResetSent p (satInc (s.port p).pd.softResets 255) t :=
  goes_onMsg hp hi hf hh fun v t hv hn => by
    rw [hfv v hv] at hn
    have hreset := softReset_sends (hv.inSequence.trans hin) (hv.tx.trans htx)
    rw [hv.softResets] at hreset
    exact hreset.noted hn

/-! ### Messages that the port does not support -/

omit hp htx in
theorem refused_of_idle {v : State} (hs : (v.port p).pd.seq = .none) : refused p v = unsupported p v := by
  simp [refused, hs, isVdm, stStep]

/-- A message outside any sequence. -/
theorem notSupported_of {i : Instr} {m : PdMsg} {f : State → State} (hi : exec i s = .next (portEv p (onMsg p m f) s)) (hf : m.frame = .sop)
    (hh : m.header = h) (hcalm : (s.port p).pd.Calm) (hfv : ∀ v, Heard p s v → f v = unsupported p v) :
    ∃ t, exec i s = .next t ∧ OnlyPolicy p s t ∧ Sends p .sop 16 [] t :=
  control_of hp htx hi hf hh (by decide) fun v hv =>
    (hfv v hv).trans (unsupported_of_calm (hv.inSequence.trans (inSequence_of_calm hcalm)))

theorem exec_unsupportedMessage_calm (hcalm : (s.port p).pd.Calm) :
    ∃ t, exec (.unsupportedMessage p h) s = .next t ∧ OnlyPolicy p s t ∧ Sends p .sop 16 [] t :=
  control_of hp htx (m := rxCtl h) rfl rfl rfl (by decide) fun v hv => by
    have hin : inSequence v p = false := hv.inSequence.trans (inSequence_of_calm hcalm)
    rw [refused_of_idle (hv.seq.trans hcalm.1), unsupported_of_calm hin, ite_self, ite_self]
    rfl

omit hp htx in
/-- Wait is not among the messages that Table 6.1 answers with Not_Supported. -/
theorem not_wait_of_tableUnsupported (ht : tableUnsupported h = true) : ¬(mType h = cWait ∧ mObjs h = 0 ∧ ¬mExt h = true) := by
  rintro ⟨hty, ho, -⟩
  rw [tableUnsupported, if_pos ho, hty, Bool.and_eq_true] at ht
  exact absurd ht.2 (by decide)

theorem exec_unsupportedMessage_table (ht : tableUnsupported h = true) :
    ∃ t, exec (.unsupportedMessage p h) s = .next t ∧ OnlyPolicy p s t ∧ Sends p .sop 16 [] t :=
  control_of hp htx (m := rxCtl h) rfl rfl rfl (by decide) fun v _ => by
    rw [if_neg (not_wait_of_tableUnsupported ht), if_pos ht]
    rfl

theorem exec_unsupportedMessage_inSequence (hin : (s.port p).pd.seq ≠ .none ∨ (s.port p).pd.pe = .transition ∨ (s.port p).pd.swapToPort = true)
    (ht : tableUnsupported h = false) (hw : ¬(mType h = 12 ∧ mObjs h = 0 ∧ mExt h = false)) :
    ∃ t, exec (.unsupportedMessage p h) s = .next t ∧ Sends p .sop 13 [] t ∧ (t.port p).pd.seq = .softReset ∧
      (t.port p).pd.softResets = satInc (s.port p).pd.softResets 255 := by
  have hseq : inSequence s p = true := by simpa [inSequence, or_assoc] using hin
  obtain ⟨t, hx, hreset⟩ := reset_of hp htx (i := .unsupportedMessage p h) (m := rxCtl h) rfl rfl rfl hseq fun v hv => by
    have hv' : inSequence v p = true := hv.inSequence.trans hseq
    rw [if_neg (by simpa [cWait] using hw), if_neg (by simp [ht]), unsupported, if_pos hv']
  exact ⟨t, hx, hreset.sends, hreset.seq, hreset.softResets⟩

theorem exec_extendedMessage : (∃ t, exec (.extendedMessage p h false) s = .next t ∧ OnlyPolicy p s t ∧ Sends p .sop 16 [] t) ∧
    ∃ t, exec (.extendedMessage p h true) s = .next t ∧ OnlyPolicy p s t ∧ tHas t p .chunk = true :=
  ⟨control_of hp htx (m := rxCtl h) rfl rfl rfl (by decide) fun v _ => by
      rw [if_neg (by decide)]
      rfl,
    goes_onMsg hp (m := rxCtl h) rfl rfl rfl fun v t hv hn => by
      rw [if_pos rfl] at hn
      refine ⟨hv.onlyPolicy (tOn_internal (.refl p v) _) hn, ?_⟩
      rw [tHas, hn.port]
      exact tHas_tOn ..⟩

/-! ### Words of information (06 R179, Table 6.4) -/

omit hp htx in
theorem capsBasis_request : capsBasis .request s p = if policyWait s then wantOf s p else holdNow s p := by simp [capsBasis]

theorem exec_getSourceCap : ∃ t, exec (.getSourceCap p h) s = .next t ∧
    (t.port p).pd.caps = pdosOf t p (if policyWait s then wantOf t p else holdNow t p) ∧ (t.port p).pd.eff = (s.port p).pd.cfg ∧
    Sends p .sop 1 (pdoWords (t.port p).pd.caps) t :=
  goes_onMsg hp (m := rxCtl h) rfl rfl rfl fun v t hv hn => by
    obtain ⟨a, n, o, l, caps, hpd, -, hcaps, hfree, -⟩ := sendCaps_pd p .request v
    obtain ⟨-, hsends⟩ := hfree (hv.tx.trans htx)
    have hwant : SameWant p (sendCaps p .request v) t :=
      ⟨hn.grps, by rw [hn.bud], by rw [hn.port], by rw [hn.port], by rw [hn.port], by rw [hn.port], by rw [hn.port]⟩
    have hctl : policyWait (sendCaps p .request v) = policyWait s := by
      rw [policyWait, policyWait, (sendCaps_launches (.refl p v) .request).on.ctl, hv.on.ctl]
    have hc : (t.port p).pd.caps = caps := by
      rw [hn.port, hpd]
      rfl
    refine ⟨?_, ?_, ?_⟩
    · rw [hc, hcaps, hwant.pdosOf, hwant.wantOf, hwant.holdNow, capsBasis_request, hctl]
    · rw [hn.port, hpd, ← hv.cfg]
      rfl
    · rw [hc]
      exact hsends.of_phy (by rw [hn.port])

omit hp htx in
theorem rev3_of_rev3 {f : State → State} {v : State} (hv : Heard p s v) (hr : (s.port p).pd.rev = 2) : rev3 p f v = f v :=
  if_pos ((hv.rev (by rw [hr]; decide)).trans hr)

omit hp htx in
theorem rev3_of_rev2 {f : State → State} {v : State} (hv : Heard p s v) (hr : (s.port p).pd.rev = 1) : rev3 p f v = unsupported p v :=
  if_neg (by rw [hv.rev (by rw [hr]; decide), hr]; decide)

/-- A partner of Revision 2 gets Not_Supported. -/
theorem exec_rev2 (hr : (s.port p).pd.rev = 1) (hcalm : (s.port p).pd.Calm) {i : Instr} {f : State → State}
    (hi : exec i s = .next (portEv p (onMsg p (rxCtl h) (rev3 p f)) s)) : ∃ t, exec i s = .next t ∧ OnlyPolicy p s t ∧ Sends p .sop 16 [] t :=
  notSupported_of hp htx hi rfl rfl hcalm fun _ hv => rev3_of_rev2 hv hr

section
variable (hr : (s.port p).pd.rev = 2)
include hr

theorem exec_getSourceCapExtended : ∃ t, exec (.getSourceCapExtended p h) s = .next t ∧ OnlyPolicy p s t ∧ SendsBlock p 1 (scedb s p) t :=
  goes_onMsg hp (m := rxCtl h) rfl rfl rfl fun v t hv hn => by
    rw [rev3_of_rev3 hv hr, hv.scedb] at hn
    exact ⟨hv.onlyPolicy (putTx_internal (.refl p v) _) hn,
      (putTx_sends_ext (by decide) (by simp [scedb, le16, toBytes]) (hv.tx.trans htx)).of_phy (by rw [hn.port])⟩

theorem exec_getStatus : ∃ t, exec (.getStatus p h) s = .next t ∧ (t.port p).pd.ocp = false ∧ (t.port p).pd.ovp = false ∧
    ∃ temp, SendsBlock p 2 [lowByte temp, 0x02, 0x00, lowByte (2 * b2n (s.port p).pd.ocp + 8 * b2n (s.port p).pd.ovp),
      if 115 ≤ temp then 4 else 2, 0, 0] t :=
  goes_onMsg hp (m := rxCtl h) rfl rfl rfl fun v t hv hn => by
    rw [rev3_of_rev3 hv hr] at hn
    refine ⟨by rw [hn.port, modPd_port_self], by rw [hn.port, modPd_port_self], Config.junction v.free, ?_⟩
    have hsends : SendsBlock p 2 (statusBlock (v.port p).pd (Config.junction v.free))
        (putTx p (extMsg v p 2 (statusBlock (v.port p).pd (Config.junction v.free))) { v with free := v.free + 1 }) :=
      putTx_sends_ext (by decide) (by exact (by decide : (2 + 7 + 3) / 4 < 8)) (hv.tx.trans htx)
    rw [← hv.ocp, ← hv.ovp]
    refine hsends.of_phy ?_
    rw [hn.port, modPd_port_self]

theorem exec_getSourceInfo : ∃ t, exec (.getSourceInfo p h) s = .next t ∧ OnlyPolicy p s t ∧ Sends p .sop 11 [sourceInfo s p] t :=
  goes_onMsg hp (m := rxCtl h) rfl rfl rfl fun v t hv hn => by
    rw [rev3_of_rev3 hv hr, hv.sameWant.sourceInfo] at hn
    exact hv.answersData (by decide) (by exact (by decide : 1 < 8)) htx hn

theorem exec_getRevision : ∃ t, exec (.getRevision p h) s = .next t ∧ OnlyPolicy p s t ∧ Sends p .sop 12 [0x31180000#32] t :=
  goes_onMsg hp (m := rxCtl h) rfl rfl rfl fun v t hv hn => by
    rw [rev3_of_rev3 hv hr] at hn
    exact hv.answersData (by decide) (by exact (by decide : 1 < 8)) htx hn

end

end

end Sys2Proof.Machine
end

section
/-!
PROOF. The partner's Soft_Reset and Request, and the answers to a sequence of the port's own (06 R185, R186, R213, Table 6.1).
-/
namespace Sys2Proof.Machine

section
variable {p : PortId} {h : BitVec 16} {s : State} (hp : policyHears p .sop h s = true)
include hp

/-! ### Soft_Reset of the partner (06 R213) -/

/-- The policy has taken a Soft_Reset of the partner, which it is about to accept. -/
def resetTaken (p : PortId) (v : State) : State :=
  modPhy p (fun x => { x with tx := none, idSop := 0 })
    (abortSeq p (stCut p (modPd p (fun d => { d with softResets := satInc d.softResets 255 }) v)))

/-- Accept stands before its transmitter. -/
def resetAccepted (p : PortId) (v : State) : State := putTx p (ctlMsg (resetTaken p v) p cAccept) (resetTaken p v)

omit hp in
theorem resetTaken_port (p : PortId) (v : State) : ((resetTaken p v).port p).phy.tx = none ∧ ((resetTaken p v).port p).phy.idSop = 0 ∧
    ((resetTaken p v).port p).pd.req = none ∧ ((resetTaken p v).port p).pd.outq = [] ∧
    ((resetTaken p v).port p).pd.softResets = satInc (v.port p).pd.softResets 255 := by
  rw [resetTaken, modPhy_port_self, abortSeq, modPd_port_self, stCut_port, modPd_port_self]
  exact ⟨rfl, rfl, rfl, rfl, rfl⟩

omit hp in
theorem resetAccepted_port (p : PortId) (v : State) : ((resetAccepted p v).port p).phy.tx ≠ none ∧ ((resetAccepted p v).port p).phy.idSop = 0 ∧
    ((resetAccepted p v).port p).pd.req = none ∧ ((resetAccepted p v).port p).pd.outq = [] ∧
    ((resetAccepted p v).port p).pd.softResets = satInc (v.port p).pd.softResets 255 ∧ Sends p .sop 3 [] (resetAccepted p v) := by
  obtain ⟨hfree, hid, hreq, hout, hcount⟩ := resetTaken_port p v
  refine ⟨?_, ?_, ?_, ?_, ?_, putTx_sends_ctl (by decide) hfree⟩ <;> rw [resetAccepted, putTx_free hfree, modPhy_port_self]
  · exact Option.some_ne_none _
  · exact hid
  · exact hreq
  · exact hout
  · exact hcount

theorem exec_softReset : ∃ t, exec (.softReset p h) s = .next t ∧ Sends p .sop 3 [] t ∧ (t.port p).pd.softResets = satInc (s.port p).pd.softResets 255 ∧
    (t.port p).pd.req = none ∧ (t.port p).phy.idSop = 0 ∧ (t.port p).pd.seq = .request ∧ (t.port p).pd.outq.length = 1 :=
  goes_onMsg hp (m := rxCtl h) (f := fun v => sendCaps p .capsHold (resetAccepted p v)) rfl rfl rfl fun v t hv hn => by
    obtain ⟨htx, hid, hreq, hout, hcount, hsends⟩ := resetAccepted_port p v
    generalize resetAccepted p v = u at *
    obtain ⟨a, n, o, l, caps, hpd, -, -, -, hbusy⟩ := sendCaps_pd p .capsHold u
    obtain ⟨ho, hphy⟩ := hbusy htx
    have hpt : (t.port p).pd = _ := (congrArg Port.pd (hn.port p)).trans hpd
    have hphyt : (t.port p).phy = (u.port p).phy := (congrArg Port.phy (hn.port p)).trans hphy
    refine ⟨hsends.of_phy hphyt, ?_, ?_, by rw [hphyt, hid], ?_, ?_⟩
    · rw [hpt, ← hv.softResets]
      exact hcount
    · rw [hpt]
      exact hreq
    · rw [hpt]
      rfl
    · rw [hpt]
      exact ho.trans (by rw [hout]; rfl)

/-! ### Request (06 R185, R186) -/

omit hp in
theorem Heard.awaitsAccept {v : State} (hv : Heard p s v) : awaitsAccept (v.port p).pd = awaitsAccept (s.port p).pd := by
  simp only [Machine.awaitsAccept, hv.seq, hv.after]

/-- While the port's own Soft_Reset awaits Accept, a Request changes nothing but that the partner has answered (log 154). -/
theorem exec_request_awaits {rdo : Word} (haw : (s.port p).pd.seq = .softReset ∨ (s.port p).pd.after = .softReset) :
    ∃ t, exec (.request p h rdo) s = .next t ∧ OnlyPolicy p s t ∧ (t.port p).pd.timers = (s.port p).pd.timers.filter (· != .noResponse) :=
  goes_onMsg hp (m := rxData .sop h [rdo]) rfl rfl rfl fun v t hv hn => by
    rw [if_pos (hv.awaitsAccept.trans (awaitsAccept_iff.2 haw))] at hn
    exact ⟨hv.onlyPolicy (.refl p v) hn, by rw [hn.port, hv.timers]⟩

section
variable {rdo : Word} (haw : ¬((s.port p).pd.seq = .softReset ∨ (s.port p).pd.after = .softReset))
include haw

omit hp in
theorem Heard.not_awaits {v : State} (hv : Heard p s v) : ¬Machine.awaitsAccept (v.port p).pd = true := by
  rw [hv.awaitsAccept, awaitsAccept_iff]
  exact haw

theorem exec_request_transition (htx : (s.port p).phy.tx = none) (hpe : (s.port p).pd.pe = .transition) :
    ∃ t, exec (.request p h rdo) s = .next t ∧ Sends p .sop 13 [] t ∧ (t.port p).pd.seq = .softReset := by
  obtain ⟨t, hx, hreset⟩ := reset_of hp htx (i := .request p h rdo) (m := rxData .sop h [rdo]) rfl rfl rfl (by simp [inSequence, hpe])
    fun v hv => by rw [if_neg (hv.not_awaits haw), if_pos (.inr (hv.pe.trans hpe))]
  exact ⟨t, hx, hreset.sends, hreset.seq⟩

variable (hreq : (s.port p).pd.req = none) (hpe : (s.port p).pd.pe ≠ .transition)
include hreq hpe

omit hp haw in
theorem Heard.ready {v : State} (hv : Heard p s v) : ¬((v.port p).pd.req.isSome = true ∨ (v.port p).pd.pe = .transition) := by
  rw [hv.req, hv.pe, hreq]
  exact fun e => e.elim (by decide) hpe

/-- A Request of a position that Source_Capabilities do not hold is rejected. -/
theorem exec_request_invalid (htx : (s.port p).phy.tx = none) (hpos : rdoPos rdo = 0 ∨ (s.port p).pd.caps.length < rdoPos rdo) :
    ∃ t, exec (.request p h rdo) s = .next t ∧ OnlyPolicy p s t ∧ Sends p .sop 4 [] t :=
  goes_onMsg hp (m := rxData .sop h [rdo]) rfl rfl rfl fun v t hv hn => by
    have hnone : validReq (v.port p).pd rdo = none := by
      rw [validReq, hv.caps]
      split
      · next hle =>
        have hlt : (s.port p).pd.caps.length < rdoPos rdo := hpos.resolve_left (by omega)
        rw [List.getElem?_eq_none (by omega)]
      · rfl
    rw [if_neg (hv.not_awaits haw), if_neg (hv.ready hreq hpe), hnone] at hn
    dsimp only at hn
    have hu (u : State) (hu : u = if exceeds (v.port p).pd then v else tOff p .senderResponse v) : Internal p v u ∧ (u.port p).phy.tx = none := by
      rw [hu]
      split
      · exact ⟨.refl p v, hv.tx.trans htx⟩
      · exact ⟨tOff_internal (.refl p v) _, by rw [tOff, modPd_port_self, hv.tx, htx]⟩
    obtain ⟨hk, hfree⟩ := hu _ rfl
    refine ⟨hv.onlyPolicy (putTx_internal (hk.pd ?_) _) hn, (putTx_sends_ctl (by decide) ?_).of_phy (by rw [hn.port]; rfl)⟩
    · exact fun _ => ⟨rfl, rfl⟩
    · rw [modPd_port_self]
      exact hfree

omit hp haw hreq hpe in
theorem Noted.wordUp {q : PortId} {op power : Nat} {u t : State} (hn : Noted u t) (hw : WordUp q op power u) : WordUp q op power t := by
  have hm : t.mbx = u.mbx := congrArg State.mbx (a₁ := withoutEvents t) (a₂ := withoutEvents u) hn.same
  unfold WordUp at *
  rw [hn.bud, hm]
  exact hw

/-- A Request within Source_Capabilities asks the arbiter for its power. -/
theorem exec_request_valid {x : Pdo} (hpos : 1 ≤ rdoPos rdo) (hx : (s.port p).pd.caps[rdoPos rdo - 1]? = some x) (hc : rdoCur rdo ≤ x.cur)
    (hm : rdoMax rdo ≤ x.cur ∨ rdoMismatch rdo = true) :
    ∃ t, exec (.request p h rdo) s = .next t ∧ WordUp p opCommit ((x.volt * rdoCur rdo + 199) / 200) t ∧ tHas t p .commit8ms = true ∧
      tHas t p .senderResponse = false ∧
      (t.port p).pd.req = some { objpos := rdoPos rdo, volt := x.volt, cur := rdoCur rdo, mismatch := rdoMismatch rdo } :=
  goes_onMsg hp (m := rxData .sop h [rdo]) rfl rfl rfl fun v t hv hn => by
    have hsome : validReq (v.port p).pd rdo = some { objpos := rdoPos rdo, volt := x.volt, cur := rdoCur rdo, mismatch := rdoMismatch rdo } := by
      rw [validReq, hv.caps, if_pos hpos, hx]
      exact if_pos ⟨hc, hm⟩
    rw [if_neg (hv.not_awaits haw), if_neg (hv.ready hreq hpe), hsome] at hn
    dsimp only at hn
    refine ⟨hn.wordUp (ask_wordUp ..), ?_, ?_, ?_⟩
    · simp [tHas, hn.port, ask_port, tOn]
    · simp [tHas, hn.port, ask_port, tOn, tOff, takeOver]
    · simp [hn.port, ask_port, tOn, tOff]

end

end

end Sys2Proof.Machine
end

section
/-!
PROOF. The answers to a sequence of the port's own, VCONN_Swap and BIST; the messages of the partner that the policy answers
(06 R187, R188, R206, R207, R211, Table 6.1).
-/
namespace Sys2Proof.Machine

/-! ### An answer ends the sequence that awaits it (Table 6.1) -/

/-- A sequence runs behind which nothing waits. -/
structure PortPd.Lone (q : Seq) (d : PortPd) : Prop where
  seq : d.seq = q
  own : d.own = []
  after : d.after = .none

section
variable {p : PortId} {q : Seq} {s : State}

/-- A sequence behind which nothing waits leaves none when it ends. -/
theorem endSeq_lone (hd : (s.port p).pd.Lone q) : ((endSeq p s).port p).pd.seq = .none := by
  have hown : launchOwn p (modPd p (fun d => { d with sinkNg := false }) (modPd p (fun d => { d with seq := .none, ownRun := false }) s)) =
      modPd p (fun d => { d with sinkNg := false }) (modPd p (fun d => { d with seq := .none, ownRun := false }) s) := by
    simp [launchOwn, hd.own]
  unfold endSeq
  simp only [hd.after, ne_eq, not_true_eq_false, if_false, hown]
  split
  · simp
  · simp [hd.own, setRp]

theorem PortPd.Lone.tOff (hd : (s.port p).pd.Lone q) (x : PdTimer) : ((Machine.tOff p x s).port p).pd.Lone q := by
  rw [Machine.tOff, modPd_port_self]
  exact ⟨hd.seq, hd.own, hd.after⟩

theorem endVdm_lone (hd : (s.port p).pd.Lone q) (hq : isVdm q = true) : ((endVdm p s).port p).pd.seq = .none := by
  have hd' := hd.tOff .vdm
  have heq : endVdm p s = endSeq p (tOff p .vdm s) := if_pos (hd'.seq ▸ hq)
  rw [heq]
  exact endSeq_lone hd'

theorem postAltAt_port (st : Option Stamp) (kind svid : Nat) : (postAltAt p st kind svid s).port p = s.port p := by
  cases st with
  | none => exact postAlt_port
  | some st => exact weaverPostAt_port ..

theorem vdmFailed_lone (hd : (s.port p).pd.Lone q) (hq : isVdm q = true) (st : Option Stamp) : ((vdmFailed p st s).port p).pd.seq = .none := by
  unfold vdmFailed
  dsimp only
  split
  · refine endVdm_lone (q := q) ?_ hq
    rw [postAltAt_port]
    exact hd
  · split
    · refine endVdm_lone (q := q) ?_ hq
      rw [postAltAt_port, modPd_port_self]
      exact ⟨hd.seq, hd.own, hd.after⟩
    · exact endVdm_lone hd hq

theorem dropSeq_lone (hd : (s.port p).pd.Lone q) (hq : q ≠ .softReset) : ((dropSeq p s).port p).pd.seq = .none := by
  unfold dropSeq
  rw [if_neg (by rw [hd.seq]; exact hq)]
  split
  · exact endSeq_lone hd
  · exact endSeq_lone (hd.tOff _)

section
variable (hd : (s.port p).pd.Lone q) (hn : q ≠ .none) (hs : q ≠ .softReset)
include hd hn hs

/-- Reject or Wait ends the sequence. -/
theorem refused_lone (hr : q ≠ .request) : ((refused p s).port p).pd.seq = .none := by
  unfold refused
  rw [hd.seq]
  dsimp only
  split
  · next hq => exact vdmFailed_lone hd hq _
  · rw [if_neg (fun e => e.elim hn hr)]
    exact dropSeq_lone hd hs

/-- Not_Supported ends the sequence. -/
theorem notSupported_lone : ((if vdmSeq (s.port p).pd ≠ .none then vdmFailed p (answerStamp s p) s
    else if (s.port p).pd.seq = .none then s else dropSeq p s).port p).pd.seq = .none := by
  split
  · next hv =>
    refine vdmFailed_lone hd ?_ _
    by_contra hq
    have hnone : isVdm .none = false := rfl
    exact hv (by simp only [vdmSeq, hd.seq, hd.after, hq, hnone, Bool.false_eq_true, if_false])
  · rw [if_neg (by rw [hd.seq]; exact hn)]
    exact dropSeq_lone hd hs

end

end

section
variable {p : PortId} {h : BitVec 16} {s : State} (hp : policyHears p .sop h s = true)
include hp

section
variable {q : Seq} (hd : (s.port p).pd.Lone q) (hn : q ≠ .none) (hs : q ≠ .softReset)
include hd hn hs

omit hp hn hs in
theorem Heard.lone {v : State} (hv : Heard p s v) : (v.port p).pd.Lone q := ⟨hv.seq.trans hd.seq, hv.own.trans hd.own, hv.after.trans hd.after⟩

theorem exec_pdReject_ends (hr : q ≠ .request) : ∃ t, exec (.pdReject p h) s = .next t ∧ (t.port p).pd.seq = .none :=
  goes_onMsg hp (m := rxCtl h) rfl rfl rfl fun _ _ hv k => by
    rw [k.port]
    exact refused_lone (hv.lone hd) hn hs hr

theorem exec_wait_ends (hr : q ≠ .request) (hw : mType h = 12 ∧ mObjs h = 0 ∧ mExt h = false) :
    ∃ t, exec (.unsupportedMessage p h) s = .next t ∧ (t.port p).pd.seq = .none :=
  goes_onMsg hp (m := rxCtl h) rfl rfl rfl fun _ _ hv k => by
    rw [if_pos ⟨hw.1, hw.2.1, by rw [hw.2.2]; decide⟩] at k
    rw [k.port]
    exact refused_lone (hv.lone hd) hn hs hr

theorem exec_notSupported_ends : ∃ t, exec (.notSupported p h) s = .next t ∧ (t.port p).pd.seq = .none :=
  goes_onMsg hp (m := rxCtl h) rfl rfl rfl fun _ _ hv k => by
    rw [k.port]
    exact notSupported_lone (hv.lone hd) hn hs

end

/-- A Soft_Reset of the port goes on waiting for its Accept behind Reject. -/
theorem exec_pdReject_softReset (hs : (s.port p).pd.seq = .softReset) :
    ∃ t, exec (.pdReject p h) s = .next t ∧ OnlyPolicy p s t ∧ (t.port p).pd.timers = (s.port p).pd.timers.filter (· != .noResponse) :=
  goes_onMsg hp (m := rxCtl h) rfl rfl rfl fun v t hv k => by
    have heq : refused p v = v := by simp [refused, dropSeq, hv.seq, hs, isVdm, stStep]
    rw [heq] at k
    exact ⟨hv.onlyPolicy (.refl p v) k, by rw [k.port, hv.timers]⟩

theorem exec_pdReject_calm (htx : (s.port p).phy.tx = none) (hc : (s.port p).pd.Calm) :
    ∃ t, exec (.pdReject p h) s = .next t ∧ OnlyPolicy p s t ∧ Sends p .sop 16 [] t :=
  notSupported_of hp htx (m := rxCtl h) rfl rfl rfl hc fun _ hv => refused_of_idle (hv.seq.trans hc.1)

theorem exec_notSupported_calm (htx : (s.port p).phy.tx = none) (hc : (s.port p).pd.Calm) :
    ∃ t, exec (.notSupported p h) s = .next t ∧ OnlyPolicy p s t ∧ (t.port p).phy.tx = none :=
  quiet_of hp htx (m := rxCtl h) rfl rfl rfl fun v hv => by
    obtain ⟨hs, -, -, ha⟩ := hc
    rw [if_neg (by simp [vdmSeq, hv.seq, hv.after, hs, ha, isVdm, stStep]), if_pos (hv.seq.trans hs)]
    exact ⟨.refl p v, rfl⟩

/-! ### Accept (06 R207, R213) -/

theorem exec_pdAccept_awaits (htx : (s.port p).phy.tx = none) (haw : (s.port p).pd.seq = .softReset ∨ (s.port p).pd.after = .softReset) :
    ∃ t, exec (.pdAccept p h false) s = .next t ∧ Sends p .sop 1 (pdoWords (t.port p).pd.caps) t ∧ tHas t p .senderResponse = false :=
  goes_onMsg hp (m := rxCtl h) rfl rfl rfl fun v t hv k => by
    rw [if_pos (hv.awaitsAccept.trans (awaitsAccept_iff.2 haw))] at k
    obtain ⟨a, n, o, l, caps, hpd, hl, -, hfree, -⟩ :=
      sendCaps_pd p .capsHold (modPd p (fun d => { d with seq := .none, after := .none }) (tOff p .senderResponse v))
    obtain ⟨-, hsends⟩ := hfree (by rw [modPd_port_self, tOff, modPd_port_self, hv.tx, htx])
    have hpt : (t.port p).pd = _ := (congrArg Port.pd (k.port p)).trans hpd
    refine ⟨?_, ?_⟩
    · rw [hpt]
      exact hsends.of_phy (by rw [k.port])
    · have hnot : PdTimer.senderResponse ∉ l := fun hm => by
        have hin := hl _ (by decide) hm
        simp [tOff] at hin
      rw [tHas, hpt]
      simp [PortPd.offering, takeOver, hnot]

theorem exec_pdAccept_calm (htx : (s.port p).phy.tx = none) (hc : (s.port p).pd.Calm) :
    ∃ t, exec (.pdAccept p h false) s = .next t ∧ OnlyPolicy p s t ∧ Sends p .sop 16 [] t :=
  notSupported_of hp htx (m := rxCtl h) rfl rfl rfl hc fun v hv => by
    obtain ⟨hs, -, -, ha⟩ := hc
    rw [if_neg (hv.not_awaits (by simp [hs, ha])), if_neg (by rw [hv.seq, hs]; decide)]

/-! ### VCONN_Swap (06 R206, R207) -/

omit hp in
section
variable {v : State} (hv : Heard p s v)
include hv

theorem Heard.vconnPartner : (v.port p).tc.vconnPartner = (s.port p).tc.vconnPartner := (congrArg PortTc.vconnPartner hv.tc :)
theorem Heard.vconnOc : (v.port p).tc.vconnOc = (s.port p).tc.vconnOc := (congrArg PortTc.vconnOc hv.tc :)
theorem Heard.ccHold : (v.port p).tc.ccHold = (s.port p).tc.ccHold := (congrArg PortTc.ccHold hv.tc :)
theorem Heard.cableDisc : cableDisc v p = cableDisc s p := by rw [Machine.cableDisc, Machine.cableDisc, hv.eff]
theorem Heard.vswapAcc : vswapAcc v p = vswapAcc s p := by rw [Machine.vswapAcc, Machine.vswapAcc, hv.eff]

theorem Heard.discEnded : discEnded v p = discEnded s p := by
  have hra : (v.port p).tc.ra = (s.port p).tc.ra := (congrArg PortTc.ra hv.tc :)
  have hon : (v.port p).tc.vconnOn = (s.port p).tc.vconnOn := (congrArg PortTc.vconnOn hv.tc :)
  simp only [Machine.discEnded, discWanted, hv.discDone, hv.cableDisc, hra, hon]

end

theorem exec_pdAccept_vconnSwap (hs : (s.port p).pd.seq = .vconnSwap) (ha : (s.port p).pd.after = .none)
    (hpart : (s.port p).tc.vconnPartner = false) : ∃ t, exec (.pdAccept p h false) s = .next t ∧ OnlyPolicy p s t ∧ tHas t p .vconnSource = true :=
  goes_onMsg hp (m := rxCtl h) rfl rfl rfl fun v t hv k => by
    have hpart' : ¬((tOff p .senderResponse v).port p).tc.vconnPartner = true := by
      rw [tOff, modPd_port_self, hv.vconnPartner, hpart]
      decide
    rw [if_neg (hv.not_awaits (by simp [hs, ha])), if_pos (hv.seq.trans hs), if_neg hpart'] at k
    exact ⟨hv.onlyPolicy (tOn_internal (tOff_internal (.refl p v) _) _) k, by rw [tHas, k.port]; exact tHas_tOn ..⟩

section
variable (htx : (s.port p).phy.tx = none)
include htx

section
variable (hpart : (s.port p).tc.vconnPartner = false)
include hpart

/-- The port that sources VCONN accepts a VCONN_Swap. -/
theorem exec_vconnSwap_accepted (ha : (vswapAcc s p = true ∧ discEnded s p = true) ∨ cableDisc s p = false) :
    ∃ t, exec (.vconnSwap p h false) s = .next t ∧ Sends p .sop 3 [] t ∧ (t.port p).pd.seq = .vconnSwap :=
  goes_onMsg hp (m := rxCtl h) rfl rfl rfl fun v t hv k => by
    have hfree : ((modPd p (takeOver .vconnSwap) v).port p).phy.tx = none := by rw [modPd_port_self, hv.tx, htx]
    rw [if_neg (by rw [hv.vconnPartner, hpart]; decide), if_pos (by simpa [hv.vswapAcc, hv.discEnded, hv.cableDisc] using ha)] at k
    dsimp only at k
    refine ⟨(putTx_sends_ctl (by decide) hfree).of_phy (by rw [k.port]; rfl), ?_⟩
    rw [k.port, putTx_free hfree, modPhy_port_self, modPd_port_self]
    rfl

theorem exec_vconnSwap_rejected (hc : cableDisc s p = true) (ha : vswapAcc s p = false ∨ discEnded s p = false) :
    ∃ t, exec (.vconnSwap p h false) s = .next t ∧ OnlyPolicy p s t ∧ Sends p .sop 4 [] t :=
  control_of hp htx (m := rxCtl h) rfl rfl rfl (by decide) fun v hv => by
    have hno : ¬((vswapAcc v p = true ∧ discEnded v p = true) ∨ ¬cableDisc v p = true) := by
      rw [hv.vswapAcc, hv.discEnded, hv.cableDisc, hc]
      rcases ha with e | e <;> simp [e]
    rw [if_neg (by rw [hv.vconnPartner, hpart]; decide), if_neg hno]
    rfl

end

/-- The partner sources VCONN, and the port takes it over. -/
theorem exec_vconnSwap_takes (hpart : (s.port p).tc.vconnPartner = true) (ha : vswapAcc s p = true) (hoc : (s.port p).tc.vconnOc = false)
    (hcc : (s.port p).tc.ccHold = false) : ∃ t, exec (.vconnSwap p h false) s = .next t ∧ Sends p .sop 3 [] t ∧
      (t.port p).tc.vconnOn = true ∧ (t.port p).tc.vconnPartner = false :=
  goes_onMsg hp (m := rxCtl h) rfl rfl rfl fun v t hv k => by
    have hsends := putTx_sends_ctl (s := v) (ty := 3) (by decide) (hv.tx.trans htx)
    rw [if_pos (hv.vconnPartner.trans hpart), if_pos ⟨hv.vswapAcc.trans ha, by rw [hv.vconnOc, hoc]; decide⟩, vconnToPort,
      if_neg (by simp [hv.vconnOc, hoc, hv.ccHold, hcc])] at k
    have hbusy : ((setVconn p true 3 (modPd p (fun d => { d with swapToPort := true }) (putTx p (ctlMsg v p cAccept) v))).port p).phy.tx =
        some { msg := ctlMsg v p cAccept } := by
      rw [setVconn, postVconn, weaverPost_port, modTc_port_self, modPd_port_self, putTx_free (hv.tx.trans htx), modPhy_port_self]
    have hport := k.port p
    rw [putTx_busy hbusy, modPd_port_self, setVconn, postVconn, weaverPost_port, modTc_port_self, modPd_port_self] at hport
    refine ⟨hsends.of_phy (by rw [hport]; rfl), by rw [hport], ?_⟩
    rw [hport]
    exact Bool.and_false _

end

/-- PS_RDY of the partner: the port's VCONN goes off. -/
theorem exec_psRdy_swap (ht : tHas s p .vconnSource = true) : ∃ t, exec (.psRdy p h) s = .next t ∧ (t.port p).tc.vconnOn = false ∧
    (t.port p).tc.vconnPartner = true :=
  goes_onMsg hp (m := rxCtl h) rfl rfl rfl fun v t hv k => by
    have htv : tHas v p .vconnSource = true := by
      rw [tHas, hv.timers]
      simpa [tHas] using ht
    rw [if_pos htv] at k
    rw [k.port]
    refine (endSeq_launches (.refl p _)).port.away ?_
    rw [vconnToPartner, modTc_port_self, setVconn, postVconn, weaverPost_port, modTc_port_self]
    exact ⟨rfl, rfl⟩

theorem exec_psRdy_calm (htx : (s.port p).phy.tx = none) (ht : tHas s p .vconnSource = false) (hc : (s.port p).pd.Calm) :
    ∃ t, exec (.psRdy p h) s = .next t ∧ OnlyPolicy p s t ∧ Sends p .sop 16 [] t :=
  notSupported_of hp htx (m := rxCtl h) rfl rfl rfl hc fun v hv => if_neg (by
    rw [tHas, hv.timers]
    simpa [tHas] using ht)

/-! ### BIST (06 R211) -/

section
variable {mode : Word}

theorem exec_bist_ignored (htx : (s.port p).phy.tx = none) (hno : (s.port p).pd.objpos = 0 ∨ (s.port p).pd.volt ≠ 100) :
    ∃ t, exec (.bist p h mode) s = .next t ∧ OnlyPolicy p s t ∧ (t.port p).phy.tx = none :=
  quiet_of hp htx (m := rxData .sop h [mode]) rfl rfl rfl fun v hv => by
    rw [if_pos (by rw [hv.objpos, hv.volt]; exact hno)]
    exact ⟨.refl p v, rfl⟩

variable (ho : (s.port p).pd.objpos ≠ 0) (hvolt : (s.port p).pd.volt = 100)
include ho hvolt

omit hp in
theorem Heard.atFive {v : State} (hv : Heard p s v) : ¬((v.port p).pd.objpos = 0 ∨ (v.port p).pd.volt ≠ 100) := by
  rw [hv.objpos, hv.volt]
  exact fun e => e.elim ho fun hne => hne hvolt

theorem exec_bist_carrier (hm : fld mode 31 28 = 5) : ∃ t, exec (.bist p h mode) s = .next t ∧ OnlyPolicy p s t ∧ (t.port p).phy.bist = true :=
  goes_onMsg hp (m := rxData .sop h [mode]) rfl rfl rfl fun v t hv k => by
    rw [if_neg (hv.atFive ho hvolt), if_pos hm] at k
    exact ⟨hv.onlyPolicy ((Internal.refl p v).phy _) k, by rw [k.port, modPhy_port_self]⟩

theorem exec_bist_testData (hm : fld mode 31 28 = 8) : ∃ t, exec (.bist p h mode) s = .next t ∧ OnlyPolicy p s t ∧ (t.port p).pd.bistMode = true :=
  goes_onMsg hp (m := rxData .sop h [mode]) rfl rfl rfl fun v t hv k => by
    rw [if_neg (hv.atFive ho hvolt), if_neg (by rw [hm]; decide), if_pos hm] at k
    exact ⟨hv.onlyPolicy ((Internal.refl p v).pd (by exact fun _ => ⟨rfl, rfl⟩)) k, by rw [k.port, modPd_port_self]⟩

end

end

/-- Settles O32, message by message: each acts from a state of `Heard`, and what the policy makes of it there is said by the message's lemmas. -/
theorem pdMessagesOfThePartner : Obligations.PdMessagesOfThePartner := by
  unfold Obligations.PdMessagesOfThePartner
  intro p s h rdo mode x
  extract_lets d tc goes control quiet calm awaits waits pos
  intro hp htx
  obtain ⟨hext, hchunk⟩ := exec_extendedMessage hp htx
  refine ⟨?drSwap, ?prSwap, ?alert, exec_unsupportedMessage_calm hp htx, exec_unsupportedMessage_table hp htx,
    exec_unsupportedMessage_inSequence hp htx, hext, hchunk, exec_getSourceCap hp htx, ?rev3, ?rev2, exec_softReset hp,
    fun hreq hpe haw => ⟨?valid, exec_request_invalid hp haw hreq hpe htx⟩, fun hpe haw => exec_request_transition hp haw htx hpe,
    exec_request_awaits hp, exec_pdReject_softReset hp, fun hpart => ⟨?vany, ?vacc, exec_vconnSwap_rejected hp htx hpart⟩,
    exec_vconnSwap_takes hp htx, exec_psRdy_swap hp, exec_psRdy_calm hp htx, exec_pdAccept_awaits hp htx, exec_pdAccept_vconnSwap hp,
    fun hc => ⟨exec_pdAccept_calm hp htx hc, exec_pdReject_calm hp htx hc, exec_notSupported_calm hp htx hc⟩,
    fun hn hr hs ho ha => ⟨exec_pdReject_ends hp ⟨rfl, ho, ha⟩ hn hs hr, exec_wait_ends hp ⟨rfl, ho, ha⟩ hn hs hr,
      exec_notSupported_ends hp ⟨rfl, ho, ha⟩ hn hs⟩,
    fun ho hv => ⟨exec_bist_carrier hp ho hv, exec_bist_testData hp ho hv⟩, exec_bist_ignored hp htx⟩
  case drSwap => exact control_of hp htx (m := rxCtl h) rfl rfl rfl (by decide) fun _ _ => rfl
  case prSwap => exact control_of hp htx (m := rxCtl h) rfl rfl rfl (by decide) fun _ _ => rfl
  case alert => exact quiet_of hp htx (m := rxCtl h) rfl rfl rfl fun v _ => ⟨.refl p v, rfl⟩
  case rev3 =>
    exact fun hr => ⟨exec_getSourceCapExtended hp htx hr, exec_getStatus hp htx hr, exec_getSourceInfo hp htx hr, exec_getRevision hp htx hr⟩
  case rev2 => exact fun hr hc => ⟨exec_rev2 hp htx hr hc rfl, exec_rev2 hp htx hr hc rfl, exec_rev2 hp htx hr hc rfl, exec_rev2 hp htx hr hc rfl⟩
  case valid => exact exec_request_valid hp haw hreq hpe
  case vany => exact fun hc => exec_vconnSwap_accepted hp htx hpart (.inr hc)
  case vacc => exact fun ha hd => exec_vconnSwap_accepted hp htx hpart (.inl ⟨ha, hd⟩)

end Sys2Proof.Machine
end

section
/-!
PROOF. What the operations of the power path leave as it is: other ports, the groups, the records on their way and the weavers that act
(07 R239, R242, R253, 06 R194 to R199).
-/
namespace Sys2Proof.Machine

/-! ### Records on their way, and weavers that act -/

/-- From `s` to `t` no record on its way is lost, and no weaver starts or stops acting. -/
structure Quiet (s t : State) : Prop where
  posts : s.posts ⊆ t.posts
  acts : ∀ q, weaverActs t q = weaverActs s q

theorem Quiet.refl (s : State) : Quiet s s := ⟨List.Subset.refl _, fun _ => rfl⟩

theorem Quiet.trans {r s t : State} (h : Quiet r s) (k : Quiet s t) : Quiet r t :=
  ⟨List.Subset.trans h.posts k.posts, fun q => (k.acts q).trans (h.acts q)⟩

theorem Posted.quiet {cls src : Nat} {s t : State} (h : Posted cls src s) (k : Quiet s t) : Posted cls src t := by
  obtain ⟨x, hx, hc⟩ := h
  exact ⟨x, k.posts hx, hc⟩

section
variable {r s : State} (h : Quiet r s)
include h

theorem Quiet.upd {t : State} (hp : t.posts = s.posts) (ha : ∀ q, weaverActs t q = weaverActs s q) : Quiet r t :=
  h.trans ⟨hp ▸ List.Subset.refl _, ha⟩

theorem pushRecord_quiet (place : PostSource) (x : Record) : Quiet r (pushRecord place x s) :=
  h.trans ⟨List.subset_append_left _ _, fun _ => rfl⟩

theorem epost_quiet (place : PostSource) (x : Record) : Quiet r (epost place x s) := by
  refine h.trans ⟨?_, fun q => weaverActs_epost place x q s⟩
  unfold epost
  split
  · exact List.subset_append_left _ _
  · split
    · exact List.Subset.refl _
    · exact List.Subset.refl _

theorem draw_quiet (n : Nat) : Quiet r { s with free := n } := h.upd rfl fun _ => rfl

theorem modBp_quiet (p : PortId) (f : BudPort → BudPort) : Quiet r (modBp p f s) := h.upd rfl fun _ => rfl

theorem budgetRecord_quiet (kind : Nat) (p : PortId) (power : Nat) : Quiet r (budgetRecord kind p power s) :=
  epost_quiet (draw_quiet h _) _ _

theorem weaverPost_quiet (p : PortId) (cls : Nat) (payload : Word) : Quiet r (weaverPost p cls payload s) :=
  epost_quiet (draw_quiet h _) _ _

theorem postTile_quiet (g : TileId) (cls src : Nat) (payload : Word) : Quiet r (postTile g cls src payload s) :=
  pushRecord_quiet (draw_quiet h _) _ _

theorem postHubFree_quiet (cls src : Nat) : Quiet r (postHubFree cls src s) := pushRecord_quiet (draw_quiet (draw_quiet h _) _) _ _

omit h in
theorem ite_quiet {c : Prop} [Decidable c] {a b : State} (ha : Quiet r a) (hb : Quiet r b) : Quiet r (if c then a else b) := by
  split
  · exact ha
  · exact hb

theorem forEach_quiet {β : Type} {l : List β} {f : β → State → State} (hf : ∀ b t, Quiet r t → Quiet r (f b t)) : Quiet r (forEach l f s) :=
  forEach_invariant hf h

/-! Allocations (06 R196 to R199) -/

theorem sendDown_quiet (p : PortId) (op : Nat) (tag : Byte) (power : Nat) : Quiet r (sendDown p op tag power s) := by
  unfold sendDown pumpDown
  split
  · exact h.upd rfl fun _ => rfl
  · split
    · exact h.upd rfl fun _ => rfl
    · exact h.upd rfl fun _ => rfl

theorem reclaimPort_quiet (excess : State → Nat) (p : PortId) : Quiet r (reclaimPort excess p s) := by
  unfold reclaimPort
  extract_lets b n
  exact ite_quiet (budgetRecord_quiet (sendDown_quiet (modBp_quiet (modBp_quiet h _ _) _ _) _ _ _ _) _ _ _) h

theorem offerPort_quiet (p : PortId) : Quiet r (offerPort p s) := by
  unfold offerPort
  extract_lets b fresh n
  exact ite_quiet (budgetRecord_quiet (sendDown_quiet (modBp_quiet (modBp_quiet h _ _) _ _) _ _ _ _) _ _ _) h

theorem settle_quiet : Quiet r (settle s) := by
  have hreclaim : Quiet r (reclaimAll s) :=
    ite_quiet (forEach_quiet (forEach_quiet h fun _ _ k => forEach_quiet k fun p _ k => reclaimPort_quiet k _ p)
      fun p _ k => reclaimPort_quiet k _ p) h
  have hoffer : Quiet r (offerAll (reclaimAll s)) := ite_quiet (forEach_quiet hreclaim fun p _ k => offerPort_quiet k p) hreclaim
  exact hoffer.upd rfl fun _ => rfl

theorem fallToBase_quiet (p : PortId) : Quiet r (fallToBase p s) := settle_quiet (modBp_quiet (modBp_quiet h _ _) _ _)

theorem groupDown_quiet (g : TileId) : Quiet r (groupDown g s) :=
  settle_quiet (forEach_quiet h fun p _ k => modBp_quiet (modBp_quiet k p _) p _)

end

theorem groupDown_aside (g : TileId) (s : State) : Aside s (groupDown g s) :=
  settle_aside (forEach_aside (.refl s) fun p _ k => modBp_aside (modBp_aside k p _) p _)

/-! ### Operations on one port -/

/-- From `s` to `t` no port but p changes and no group, and no record is lost. -/
structure Works (p : PortId) (s t : State) : Prop where
  others : ∀ q, q ≠ p → t.port q = s.port q
  grps : t.grps = s.grps
  quiet : Quiet s t

theorem Works.refl (p : PortId) (s : State) : Works p s s := ⟨fun _ _ => rfl, rfl, .refl s⟩

theorem Works.trans {p : PortId} {r s t : State} (h : Works p r s) (k : Works p s t) : Works p r t :=
  ⟨fun q hq => (k.others q hq).trans (h.others q hq), k.grps.trans h.grps, h.quiet.trans k.quiet⟩

theorem Aside.grps {s t : State} (h : Aside s t) : t.grps = s.grps := (h.onPort 0).grps

section
variable {p : PortId} {r s : State} (h : Works p r s)
include h

theorem modPort_works (f : Port → Port) : Works p r (modPort p f s) :=
  h.trans ⟨fun _ hq => modPort_port_of_ne _ _ _ hq, rfl, Quiet.upd (.refl s) rfl fun _ => rfl⟩

theorem modTc_works (f : PortTc → PortTc) : Works p r (modTc p f s) := modPort_works h _
theorem modPd_works (f : PortPd → PortPd) : Works p r (modPd p f s) := modPort_works h _
theorem modPhy_works (f : PdPhy → PdPhy) : Works p r (modPhy p f s) := modPort_works h _
theorem modPw_works (f : PortPwr → PortPwr) : Works p r (modPw p f s) := modPort_works h _

/-- An update of what is neither a port nor a group. -/
theorem Works.upd {t : State} (hp : t.ports = s.ports) (hg : t.grps = s.grps) (hq : Quiet s t) : Works p r t :=
  h.trans ⟨fun q _ => congrArg (fun v : Vector Port 64 => v[q]) hp, hg, hq⟩

theorem Works.aside {t : State} (k : Aside s t) (hq : Quiet s t) : Works p r t := h.upd k.ports k.grps hq

theorem postPort_works (cls : Nat) (payload : Word) : Works p r (postPort p cls payload s) :=
  h.upd rfl rfl (postTile_quiet (.refl s) _ _ _ _)

theorem weaverPost_works (cls : Nat) (payload : Word) : Works p r (weaverPost p cls payload s) :=
  h.aside (weaverPost_aside (.refl s) _ _ _) (weaverPost_quiet (.refl s) _ _ _)

theorem latchEv_works (bits : Word) : Works p r (latchEv p bits s) :=
  h.upd rfl rfl (Quiet.upd (.refl s) rfl fun q => weaverActs_latchEv p q bits s)

theorem fallToBase_works : Works p r (fallToBase p s) := h.aside (fallToBase_aside (.refl s) p) (fallToBase_quiet (.refl s) p)

omit h in
theorem ite_works {c : Prop} [Decidable c] {a b : State} (ha : Works p r a) (hb : Works p r b) : Works p r (if c then a else b) := by
  split
  · exact ha
  · exact hb

theorem onlyIf_works {c : Bool} {f : State → State} (hf : ∀ t, Works p r t → Works p r (f t)) : Works p r (onlyIf c f s) :=
  ite_works (hf s h) h

/-! The hub's status follows (03 R107) -/

theorem portChange_works (bits : BitVec 16) : Works p r (portChange p bits s) := by
  unfold portChange
  split
  · exact h.upd rfl rfl (Quiet.upd (.refl s) rfl fun _ => rfl)
  · exact ite_works h (modPort_works h _)

theorem stopServing_works : Works p r (stopServing p s) := by
  unfold stopServing
  extract_lets s₁
  have h₁ : Works p r s₁ := modPort_works h _
  exact h₁.upd rfl rfl (Quiet.upd (.refl s₁) rfl fun _ => rfl)

theorem syncOverCurrent_works : Works p r (syncOverCurrent p s) := by
  unfold syncOverCurrent
  extract_lets now s₁
  have h₁ : Works p r s₁ := portChange_works (modPort_works h _) _
  exact ite_works h (onlyIf_works h₁ fun _ => stopServing_works)

theorem syncConnection_works : Works p r (syncConnection p s) := by
  unfold syncConnection
  extract_lets now s₁ s₂
  have h₁ : Works p r s₁ := portChange_works (modPort_works h _) _
  have h₂ : Works p r s₂ := h₁.upd rfl rfl (postHubFree_quiet (.refl s₁) _ _)
  exact ite_works h (ite_works (modPort_works h₂ _) (modPort_works (stopServing_works h₂) _))

theorem syncHub_works : Works p r (syncHub p s) := syncConnection_works (syncOverCurrent_works h)

/-! Paths off, and the end of a contract (07 R239, R242) -/

theorem endContract_works : Works p r (endContract p s) := by
  unfold endContract
  extract_lets s₁
  have h₁ : Works p r s₁ := onlyIf_works h fun _ k => postPort_works k _ _
  exact modPd_works h₁ _

theorem pathsOff_works : Works p r (pathsOff p s) := syncHub_works (onlyIf_works (modPort_works h _) fun _ k => postPort_works k _ _)

theorem keeperNone_works (v : Word) : Works p r (keeperNone p v s) := pathsOff_works (modPort_works (endContract_works h) _)

/-! A trip, and what the policy makes of it (07 R253) -/

theorem tripPort_works (cause point current : Nat) (path : Path) : Works p r (tripPort p cause point current path s) := by
  unfold tripPort
  extract_lets w retries most latch stage code s₁ s₂ s₃ s₄ s₅
  have h₂ : Works p r s₂ := ite_works (modPort_works (modPort_works h _) _) (modPort_works (modPort_works h _) _)
  have h₃ : Works p r s₃ := latchEv_works (postPort_works h₂ _ _) _
  exact fallToBase_works (pathsOff_works (modPort_works (endContract_works h₃) _))

theorem vbusLost_works : Works p r (vbusLost p s) := by
  have hrestart : Works p r (pdRestart p s) := by
    unfold pdRestart
    refine ite_works h ?_
    extract_lets s₁ s₂
    have h₁ : Works p r s₁ := ite_works (weaverPost_works h _ _) h
    have h₂ : Works p r s₂ := modTc_works (modPhy_works h₁ _) _
    exact modTc_works (modPd_works h₂ _) _
  exact ite_works (ite_works (ite_works h (modPhy_works hrestart _)) (modPd_works h _)) h

theorem tripAndTell_works (cause point current : Nat) (path : Path) : Works p r (tripAndTell p cause point current path s) :=
  vbusLost_works (modPort_works (tripPort_works h _ _ _ _) _)

end

end Sys2Proof.Machine
end

section
/-!
PROOF. The port after its paths have gone off, after its keeper has gone to none, and after a trip (07 R239, R242, R253, R254).
-/
namespace Sys2Proof.Machine

/-! ### Paths off -/

/-- The power path of a port with both paths off: discharge runs where a path was on or VBUS stood. -/
def PortPwr.offPaths (w : PortPwr) : PortPwr :=
  { w with
    pathNow := .none, armed := false, ftRun := false, curveRun := Vector.replicate 8 false, probed := false
    discharge := w.discharge || (w.pathNow != .none || w.vbus != 0), ovHigh := 0, held := false, granted := false, pgood := false }

/-- The policy's state without a contract. -/
def PortPd.ended (d : PortPd) : PortPd := { d with objpos := 0, opCur := 0, volt := 0, mismatch := false, req := none, transMon := false }

section
variable (p : PortId) (s : State)

@[simp] theorem Port.sansHub_tc (x : Port) : x.sansHub.tc = x.tc := rfl
@[simp] theorem Port.sansHub_pd (x : Port) : x.sansHub.pd = x.pd := rfl
@[simp] theorem Port.sansHub_pw (x : Port) : x.sansHub.pw = x.pw := rfl

theorem pathsOff_port : ((pathsOff p s).port p).sansHub = { (s.port p).sansHub with pw := (s.port p).pw.offPaths } := by
  unfold pathsOff
  extract_lets w was s₁ s₂
  have hs₂ : s₂.port p = s₁.port p := by
    simp only [s₂, onlyIf]
    split <;> rfl
  rw [(syncHub_hubOnly (.refl p s₂)).port, hs₂, modPw_port_self]
  rfl

theorem pathsOff_bud : (pathsOff p s).bud = s.bud := by
  unfold pathsOff
  extract_lets w was s₁ s₂
  have hs₂ : s₂.bud = s.bud := by
    simp only [s₂, onlyIf]
    split <;> rfl
  exact (syncHub_hubOnly (.refl p s₂)).bud.trans hs₂

theorem endContract_port : (endContract p s).port p = { s.port p with pd := (s.port p).pd.ended } := by
  unfold endContract
  extract_lets s₁
  have hs₁ : s₁.port p = s.port p := by
    simp only [s₁, onlyIf]
    split <;> rfl
  rw [modPd_port_self, hs₁]
  rfl

theorem endContract_bud : (endContract p s).bud = s.bud := by
  unfold endContract onlyIf
  dsimp only
  split <;> rfl

/-! ### The keeper at none -/

theorem keeperNone_port (v : Word) : ((keeperNone p v s).port p).sansHub =
    { (s.port p).sansHub with
      pd := (s.port p).pd.ended
      pw := { (s.port p).pw with keeper := v, inForce := v, held := false, pstate := restState (s.port p).pw }.offPaths } := by
  unfold keeperNone
  extract_lets s₁ s₂
  rw [pathsOff_port, modPw_port_self, endContract_port]
  rfl

end

/-! ### A trip -/

/-- The marks of a trip: a cause up to 6 starts a cooldown of the next stage or latches off, any other leaves the port off. -/
def PortPwr.marked (cause now : Nat) (w : PortPwr) : PortPwr :=
  let w' : PortPwr := { w with flags := orBit w.flags cause, tripped := true }
  if cause ≤ 6 then
    { w' with
      retries := satInc w.retries 15, stage := min 4 w.retries, coolStart := now
      pstate := if fld w.effProt 15 12 ≠ 0 ∧ fld w.effProt 15 12 ≤ satInc w.retries 15 then .latched else .cooldown }
  else { w' with pstate := .off }

theorem PortPwr.marked_flags (cause now : Nat) (w : PortPwr) : (w.marked cause now).flags = orBit w.flags cause := by
  unfold marked
  dsimp only
  split <;> rfl

/-- The power path of a port after a trip. -/
def PortPwr.trip (cause now : Nat) (w : PortPwr) : PortPwr := { w.marked cause now with keeper := 0, inForce := 0 }.offPaths

section
variable (p : PortId) (cause point current : Nat) (path : Path) (s : State)

/-- The port of a trip before its record: the marks stand. -/
theorem tripPort_eq : ∃ u k, tripPort p cause point current path s =
      fallToBase p (pathsOff p (modPw p (fun w => { w with keeper := 0, inForce := 0 }) (endContract p
        (latchEv p (BitVec.ofNat 32 (2 ^ 10)) (postTrip p cause path point k current u))))) ∧
    u.port p = { s.port p with pw := (s.port p).pw.marked cause s.now } ∧ u.bud = s.bud := by
  unfold tripPort
  extract_lets w retries most latch stage code s₁ s₂ s₃ s₄ s₅
  refine ⟨s₂, code, rfl, ?_, ?_⟩
  · by_cases hc : cause ≤ 6
    · have hl : latch = decide (most ≠ 0 ∧ most ≤ retries) := Bool.eq_iff_iff.mpr (by simp [latch, hc])
      simp only [s₂, if_pos hc, PortPwr.marked, hl, decide_eq_true_eq, modPw_port_self, s₁]
      rfl
    · simp only [s₂, if_neg hc, PortPwr.marked, modPw_port_self, s₁]
      rfl
  · simp only [s₂]
    split <;> rfl

theorem tripPort_port : ((tripPort p cause point current path s).port p).sansHub =
    { (s.port p).sansHub with pd := (s.port p).pd.ended, pw := (s.port p).pw.trip cause s.now } := by
  obtain ⟨u, k, he, hp, -⟩ := tripPort_eq p cause point current path s
  have hu : (postTrip p cause path point k current u).port p = u.port p := rfl
  rw [he, fallToBase_port, pathsOff_port, modPw_port_self, endContract_port, latchEv_port, hu, hp]
  rfl

theorem tripPort_pw : ((tripPort p cause point current path s).port p).pw = (s.port p).pw.trip cause s.now := by
  rw [← Port.sansHub_pw, tripPort_port]

theorem tripPort_tc : ((tripPort p cause point current path s).port p).tc = (s.port p).tc := by
  rw [← Port.sansHub_tc, tripPort_port, Port.sansHub_tc]

theorem tripPort_pd : ((tripPort p cause point current path s).port p).pd = (s.port p).pd.ended := by
  rw [← Port.sansHub_pd, tripPort_port]

theorem tripPort_alloc : allocOf (tripPort p cause point current path s) p = min (allocOf s p) s.bud.port[p].base := by
  obtain ⟨u, k, he, -, hb⟩ := tripPort_eq p cause point current path s
  have hbud : (pathsOff p (modPw p (fun w => { w with keeper := 0, inForce := 0 }) (endContract p
      (latchEv p (BitVec.ofNat 32 (2 ^ 10)) (postTrip p cause path point k current u))))).bud = s.bud :=
    (pathsOff_bud p _).trans ((endContract_bud p _).trans hb)
  rw [he, fallToBase_alloc, allocOf, State.share, hbud]
  rfl

/-- The trip's record is on its way (07 Table 7.7). -/
theorem tripPort_posted : Posted 0x07 p.val (tripPort p cause point current path s) := by
  obtain ⟨u, k, he, -, -⟩ := tripPort_eq p cause point current path s
  have hpost : Posted 0x07 p.val (postTrip p cause path point k current u) := ⟨_, List.mem_append_right _ (List.mem_singleton.mpr rfl), rfl, rfl⟩
  have hrest : Works p (postTrip p cause path point k current u) (tripPort p cause point current path s) := by
    rw [he]
    exact fallToBase_works (pathsOff_works (modPw_works (endContract_works (latchEv_works (.refl p _) _)) _))
  exact hpost.quiet hrest.quiet

end

/-! ### The policy learns that VBUS is lost -/

section
variable (p : PortId) (s : State)

/-- PD before VBUS was good: what an attach keeps stays. -/
theorem pdRestart_policy (s : State) : Policy p s (pdRestart p s) := by
  unfold pdRestart
  refine ite_policy (.refl p s) ?_
  extract_lets s₁ s₂
  have h₁ : Policy p s s₁ := (Policy.refl p s).aside (endAlt_aside p s)
  have h₂ : Policy p s s₂ := h₁.launches (setRp_launches (phyOpts_launches (.refl p s₁) _ _) _)
  exact (Policy.pd h₂ (by exact fun _ => ⟨rfl, rfl⟩)).launches (openSbu_launches (.refl p _))

theorem pdRestart_bud (s : State) : (pdRestart p s).bud = s.bud := by
  unfold pdRestart
  split
  · rfl
  · exact endAlt_bud p s

theorem pdRestart_objpos {s : State} (h : (s.port p).pd.objpos = 0) : ((pdRestart p s).port p).pd.objpos = 0 := by
  unfold pdRestart
  split
  · exact h
  · simp only [openSbu, modTc_port_self, modPd_port_self]
    rfl

theorem vbusLost_policy : Policy p s (vbusLost p s) := by
  have hlost : Policy p s (pdLost p s) := ite_policy (.refl p s) (Policy.phy (pdRestart_policy p s) fun _ => ⟨rfl, rfl⟩)
  exact ite_policy (ite_policy hlost (Policy.pd (.refl p s) (by exact fun _ => ⟨rfl, rfl⟩))) (.refl p s)

theorem vbusLost_bud : (vbusLost p s).bud = s.bud := by
  unfold vbusLost orLater pdLost
  split
  · split
    · split
      · rfl
      · exact pdRestart_bud p s
    · rfl
  · rfl

theorem vbusLost_objpos {s : State} (h : (s.port p).pd.objpos = 0) : ((vbusLost p s).port p).pd.objpos = 0 := by
  unfold vbusLost orLater pdLost
  split
  · split
    · split
      · exact h
      · rw [modPhy_port_self]
        exact pdRestart_objpos p h
    · rw [modPd_port_self]
      exact h
  · exact h

theorem vbusLost_of_apart {s : State} (h : (s.port p).tc.st ≠ .attached) : vbusLost p s = s := if_neg h

end

section
variable {p : PortId} {r t : State} (h : Policy p r t)
include h

theorem Policy.pw : (t.port p).pw = (r.port p).pw := (congrArg Port.pw h.outside :)

end

end Sys2Proof.Machine
end

section
/-!
PROOF. A port that trips, as the commands of the rim slice bring it about (07 R253, R254).
-/
namespace Sys2Proof.Machine

/-! ### Commands on one port -/

theorem bitOf_orBit {i : Nat} (hi : i < 32) (w : Word) : bitOf (orBit w i) i = true := by
  rw [bitOf, orBit, BitVec.getLsbD_or, BitVec.getLsbD_ofNat, Nat.testBit_two_pow_self]
  simp [hi]

/-- A command whose condition on the port holds has its effect, and the events of the change are noted. -/
theorem goes_onPort {i : Instr} {p : PortId} {ok : State → Bool} {f : State → State} {s : State} (h : exec i s = onPort p ok f s)
    (hok : ok s = true) : ∃ t, exec i s = .next t ∧ Noted (f s) t :=
  goes_portEv (f := fun s => if ok s then f s else s) h (if_pos hok)

theorem Noted.quiet_posts {u t : State} (h : Noted u t) : t.posts = u.posts := h.same.posts

theorem Noted.posted {cls src : Nat} {u t : State} (h : Noted u t) (k : Posted cls src u) : Posted cls src t := by
  unfold Posted
  rw [h.quiet_posts]
  exact k

theorem Noted.others {p : PortId} {s u t : State} (h : Noted u t) (k : ∀ q, q ≠ p → u.port q = s.port q) : ∀ q, q ≠ p → t.port q = s.port q :=
  fun q hq => (h.port q).trans (k q hq)

theorem modTile_of_eq {t : TileId} {f : Tile → Tile} {s : State} (h : f (s.tile t) = s.tile t) : modTile t f s = s := by
  have hset : s.tiles.set t (f s.tiles[t]) = s.tiles := by
    have h' : f s.tiles[t] = s.tiles[t] := h
    rw [h']
    exact Vector.set_getElem_self _
  unfold modTile
  rw [hset]

theorem modThr_of_eq {p : PortId} {f : Cpu → Cpu} {s : State} (h : f (cpuOf s (.weaver p)) = cpuOf s (.weaver p)) : modThr p f s = s := by
  refine modTile_of_eq ?_
  have hset : (s.tile (tileOf p)).thr.set (laneOf p) (f (s.tile (tileOf p)).thr[laneOf p]) = (s.tile (tileOf p)).thr := by
    rw [← cpuOf_weaver, h]
    exact Vector.set_getElem_self _
  rw [hset]

/-- Where nothing changes, no event is latched. -/
theorem notePort_self (p : PortId) (s : State) : notePort s p s = s := by
  have hbits : portBits p s s = 0#32 := by simp [portBits, b2n, pack]
  have hnone (c : Cpu) : { c with epend := c.epend ||| 0#32 } = c := by rw [BitVec.or_zero]
  rw [notePort, if_pos rfl, hbits]
  exact modThr_of_eq (hnone _)

/-- A command whose condition on the port does not hold has no effect. -/
theorem onPort_refused {p : PortId} {ok : State → Bool} {f : State → State} {s : State} (h : ok s = false) : onPort p ok f s = .next s := by
  have hno : (if ok s then f s else s) = s := if_neg (by simp [h])
  exact congrArg Host.Outcome.next ((congrArg (notePort s p) hno).trans (notePort_self p s))

/-- A command that has replaced the power path of one port. -/
theorem goes_modPw {i : Instr} {p : PortId} {ok : State → Bool} {f : State → State} {s : State} {y : PortPwr} (h : exec i s = onPort p ok f s)
    (hok : ok s = true) {g : PortPwr → PortPwr} (hf : f s = modPw p g s) (hy : g (s.port p).pw = y) : ∃ t, exec i s = .next t ∧
      (∀ q, q ≠ p → t.port q = s.port q) ∧ SameButEvents t (setPort p { s.port p with pw := y } s) := by
  obtain ⟨t, ht, hn⟩ := goes_onPort h hok
  refine ⟨t, ht, hn.others fun q hq => ?_, ?_⟩
  · rw [hf, modPw_port_of_ne hq]
  · rw [hf] at hn
    rw [← hy]
    exact hn.same

/-! ### Trips -/

section
variable (p : PortId) (cause point current : Nat) (path : Path) (s : State)

theorem tripAndTell_pw : ((tripAndTell p cause point current path s).port p).pw = (s.port p).pw.trip cause s.now := by
  unfold tripAndTell
  extract_lets u v
  have hv : (v.port p).pw = (u.port p).pw := by simp [v]
  rw [(vbusLost_policy p v).pw, hv, tripPort_pw]

theorem tripAndTell_bud : (tripAndTell p cause point current path s).bud = (tripPort p cause point current path s).bud := by
  unfold tripAndTell
  extract_lets u v
  exact (vbusLost_bud p v).trans (modPort_bud p _ u)

theorem tripAndTell_objpos : ((tripAndTell p cause point current path s).port p).pd.objpos = 0 := by
  unfold tripAndTell
  extract_lets u v
  have hv : (v.port p).pd.objpos = 0 := by
    simp only [v, modPd_port_self, u, tripPort_pd]
    rfl
  exact vbusLost_objpos p hv

theorem tripAndTell_posted : Posted 0x07 p.val (tripAndTell p cause point current path s) :=
  (tripPort_posted p cause point current path s).quiet (vbusLost_works (modPd_works (.refl p _) _)).quiet

/-- R253, R254: what every trip does. -/
theorem tripAndTell_tripped (hc : cause < 32) : Tripped p cause s (tripAndTell p cause point current path s) := by
  have halloc : allocOf (tripAndTell p cause point current path s) p = min (allocOf s p) s.bud.port[p].base := by
    rw [allocOf_congr (congrArg Bud.port (tripAndTell_bud p cause point current path s)), tripPort_alloc]
  have hflag : bitOf ((s.port p).pw.trip cause s.now).flags cause = true := by
    refine Eq.trans (congrArg (bitOf · cause) ?_) (bitOf_orBit hc (s.port p).pw.flags)
    exact PortPwr.marked_flags ..
  unfold Tripped
  rw [tripAndTell_pw]
  refine ⟨rfl, rfl, rfl, rfl, rfl, hflag, tripAndTell_objpos .., halloc, fun h6 => ?_⟩
  simp only [PortPwr.trip, PortPwr.offPaths, PortPwr.marked, if_pos h6]
  exact ⟨trivial, trivial, trivial⟩

end

section
variable {p : PortId} {cause : Nat} {s u v t : State}

/-- A measurement or a mark that comes before the trip leaves what the trip starts from. -/
theorem Tripped.after (h : Tripped p cause u v) (hr : (u.port p).pw.retries = (s.port p).pw.retries)
    (he : (u.port p).pw.effProt = (s.port p).pw.effProt) (hb : u.bud = s.bud) : Tripped p cause s v := by
  unfold Tripped allocOf at *
  dsimp only at *
  rw [hr, he, hb] at h
  exact h

theorem Tripped.noted (h : Tripped p cause s u) (hn : Noted u t) : Tripped p cause s t := by
  unfold Tripped allocOf at *
  dsimp only at *
  rw [hn.port, hn.bud]
  exact h

/-- A command that trips the port after an update of its power path. -/
theorem goes_trip {i : Instr} {ok : State → Bool} {f : State → State} (h : exec i s = onPort p ok f s) (hok : ok s = true) (hc : cause < 32)
    {g : PortPwr → PortPwr} {point current : Nat} {path : Path} (hf : f s = tripAndTell p cause point current path (modPw p g s))
    (hr : ∀ w, (g w).retries = w.retries) (he : ∀ w, (g w).effProt = w.effProt) : ∃ t, exec i s = .next t ∧
      Tripped p cause s t ∧ (∀ q, q ≠ p → t.port q = s.port q) ∧ Posted 0x07 p.val t := by
  obtain ⟨t, ht, hn⟩ := goes_onPort h hok
  rw [hf] at hn
  have htrip := (tripAndTell_tripped p cause point current path (modPw p g s) hc).after (s := s) (by simp [hr]) (by simp [he]) rfl
  exact ⟨t, ht, htrip.noted hn, hn.others (tripAndTell_works (modPw_works (.refl p s) g) _ _ _ _).others, hn.posted (tripAndTell_posted ..)⟩

end

end Sys2Proof.Machine
end

section
/-!
PROOF. Breakers, protections and pass-FET checks of a port, and what follows a trip, command by command (07 R248 to R255).
-/
namespace Sys2Proof.Machine

theorem pathOn_iff {s : State} {p : PortId} : pathOn s p = true ↔ (s.port p).pw.pathNow ≠ .none := by simp [pathOn]

section
variable {p : PortId} {s : State} {vbus cur : Nat}

/-! ### Trips of a port whose path is on (07 R248 to R250) -/

section
variable (hp : (s.port p).pw.pathNow ≠ .none)
include hp

theorem exec_fastTrip_over (hc : scMa (s.port p).pw.effPwr (s.port p).pw.effProt < 10 * cur) : ∃ t, exec (.fastTrip p cur) s = .next t ∧
    Tripped p 0 s t ∧ (∀ q, q ≠ p → t.port q = s.port q) ∧ Posted 0x07 p.val t :=
  goes_trip (g := fun w => { w with cur := cur }) rfl (by simp [pathOn, hp, hc]) (by decide) rfl (fun _ => rfl) fun _ => rfl

theorem exec_reverseTrip_over (hc : 10 * max 1 (fld (s.port p).pw.effProt 11 8) < cur) : ∃ t, exec (.reverseTrip p cur) s = .next t ∧
    Tripped p 3 s t ∧ (∀ q, q ≠ p → t.port q = s.port q) ∧ Posted 0x07 p.val t :=
  goes_trip (g := fun w => { w with cur := -(cur : Int) }) rfl (by simp [pathOn, hp, revOf, hc]) (by decide) rfl (fun _ => rfl) fun _ => rfl

theorem exec_ovTrip_over (hc : ovNow (s.port p).pw < vbus) : ∃ t, exec (.ovTrip p vbus) s = .next t ∧
    Tripped p 4 s t ∧ (∀ q, q ≠ p → t.port q = s.port q) ∧ Posted 0x07 p.val t :=
  goes_trip (g := fun w => { w with vbus := vbus }) rfl (by simp [pathOn, hp, hc]) (by decide) rfl (fun _ => rfl) fun _ => rfl

theorem exec_classATrip_running (hb : classB s p = false) (hr : (s.port p).pw.ftRun = true) : ∃ t, exec (.classATrip p cur) s = .next t ∧
    Tripped p 1 s t ∧ (∀ q, q ≠ p → t.port q = s.port q) ∧ Posted 0x07 p.val t :=
  goes_trip (g := id) rfl (by simp [pathOn, hp, hb, hr]) (by decide) (congrArg (tripNow p 1 cur) (modPort_of_eq rfl).symm) (fun _ => rfl) fun _ => rfl

theorem exec_curveTrip_running {k : Fin 8} (hb : classB s p = true) (hr : (s.port p).pw.curveRun[k] = true) :
    ∃ t, exec (.curveTrip p k cur) s = .next t ∧ Tripped p 2 s t ∧ (∀ q, q ≠ p → t.port q = s.port q) ∧ Posted 0x07 p.val t :=
  goes_trip (g := id) rfl (by simpa [pathOn, hp, hb] using hr) (by decide)
    (congrArg (tripAndTell p 2 k.val cur (s.port p).pw.pathNow) (modPort_of_eq rfl).symm) (fun _ => rfl) fun _ => rfl

end

theorem exec_fastTrip_under (hc : 10 * cur ≤ scMa (s.port p).pw.effPwr (s.port p).pw.effProt) : exec (.fastTrip p cur) s = .next s :=
  onPort_refused (by simp [hc])

/-! ### Breakers (07 R248, R249) -/

/-- The power path of a port whose current crosses a level of its breaker. -/
def PortPwr.crossed (b : Bool) (cur : Nat) (w : PortPwr) : PortPwr :=
  if b then
    { w with cur := cur, curveRun := Vector.ofFn fun k =>
        curvePct w.effCurve[k] != 0 && (if curvePct w.effCurve[k] * kIbase w.inForce < 100 * cur then true
          else if 10000 * cur < 95 * (curvePct w.effCurve[k] * kIbase w.inForce) then false else w.curveRun[k]) }
  else { w with cur := cur, ftRun := decide (5 * kIbase w.inForce < 4 * cur) }

theorem PortPwr.crossed_classA (cur : Nat) (w : PortPwr) : (w.crossed false cur).cur = cur ∧
    (w.crossed false cur).ftRun = decide (5 * kIbase w.inForce < 4 * cur) ∧ (w.crossed false cur).curveRun = w.curveRun := ⟨rfl, rfl, rfl⟩

/-- Timer k of the curve starts above its point, and resets below 95 % of it. -/
theorem PortPwr.crossed_classB (cur : Nat) (w : PortPwr) (k : Fin 8) :
    let pt := curvePct w.effCurve[k] * kIbase w.inForce
    (w.crossed true cur).cur = cur ∧ (w.crossed true cur).ftRun = w.ftRun ∧
    (curvePct w.effCurve[k] = 0 → (w.crossed true cur).curveRun[k] = false) ∧
    (curvePct w.effCurve[k] ≠ 0 → pt < 100 * cur → (w.crossed true cur).curveRun[k] = true) ∧
    (10000 * cur < 95 * pt → (w.crossed true cur).curveRun[k] = false) := by
  intro pt
  have hrun : (w.crossed true cur).curveRun[k] = (curvePct w.effCurve[k] != 0 && (if pt < 100 * cur then true
      else if 10000 * cur < 95 * pt then false else w.curveRun[k])) := by
    simp [crossed, pt]
  refine ⟨rfl, rfl, fun h0 => ?_, fun h0 hlt => ?_, fun hlt => ?_⟩
  · rw [hrun, h0]
    rfl
  · rw [hrun, if_pos hlt]
    simpa using h0
  · rw [hrun, if_neg (by omega), if_pos hlt, Bool.and_false]

theorem exec_breakerCurrentCrossing_armed (hp : (s.port p).pw.pathNow ≠ .none) (ha : (s.port p).pw.armed = true) :
    ∃ t, exec (.breakerCurrentCrossing p cur) s = .next t ∧
      SameButEvents t (setPort p { s.port p with pw := (s.port p).pw.crossed (classB s p) cur } s) := by
  obtain ⟨t, ht, -, hsame⟩ := goes_modPw (i := .breakerCurrentCrossing p cur) (s := s) (p := p) rfl (by simp [pathOn, hp, ha]) rfl
    (y := (s.port p).pw.crossed (classB s p) cur) (by unfold PortPwr.crossed; cases classB s p <;> rfl)
  exact ⟨t, ht, hsame⟩

/-! ### Pass-FET checks of a path that is on (07 R251, R252) -/

/-- A pass-FET fault of the path that is on: it latches, and the port trips. -/
def pfetTrip (p : PortId) (cause : Nat) (s : State) : State :=
  tripAndTell p cause 0 (s.port p).pw.cur.natAbs (s.port p).pw.pathNow (latchPfet p (s.port p).pw.pathNow false s)

theorem goes_pfetTrip {i : Instr} {cause : Nat} (h : exec i s = onPort p (fun s => pathOn s p) (pfetTrip p cause) s)
    (hp : (s.port p).pw.pathNow ≠ .none) (h6 : 6 < cause) (hc : cause < 32) :
    (∃ t, exec i s = .next t ∧ Tripped p cause s t ∧ (∀ q, q ≠ p → t.port q = s.port q) ∧ Posted 0x07 p.val t) ∧
    ∃ t, exec i s = .next t ∧ (t.port p).pw.pstate = .off ∧ (t.port p).pw.pfetL = ((s.port p).pw.pfetL || (s.port p).pw.pathNow != .rail) ∧
      (t.port p).pw.pfetH = ((s.port p).pw.pfetH || (s.port p).pw.pathNow == .rail) := by
  have hok : pathOn s p = true := pathOn_iff.mpr hp
  refine ⟨goes_trip h hok hc rfl (fun _ => rfl) fun _ => rfl, ?_⟩
  obtain ⟨t, ht, hn⟩ := goes_onPort h hok
  refine ⟨t, ht, ?_⟩
  rw [hn.port, pfetTrip, tripAndTell_pw, latchPfet, modPw_port_self]
  simp only [PortPwr.trip, PortPwr.marked, if_neg (Nat.not_le.mpr h6), PortPwr.offPaths]
  exact ⟨trivial, trivial, trivial⟩

/-! ### After a trip (07 R254, R255) -/

/-- A port whose cooldown has ended, before its weaver acts on it. -/
def PortPwr.cooled (w : PortPwr) : PortPwr :=
  { w with pstate := if w.fwOff then .fwOff else if kPath w.inForce = .none then .off else .waiting }

theorem exec_portCooldownEnd (hc : (s.port p).pw.pstate = .cooldown) : ∃ t, exec (.portCooldownEnd p) s = .next t ∧
    (t.port p).pw = ((vbusAgain p (modPw p PortPwr.cooled s)).port p).pw := by
  obtain ⟨t, ht, hn⟩ := goes_onPort (i := .portCooldownEnd p) (s := s) (p := p) rfl (by simp [hc])
  exact ⟨t, ht, (congrArg Port.pw (hn.port p)).trans (syncHub_hubOnly (.refl p _)).pw⟩

/-- A weaver that does not act lets the 5 V setting wait. -/
theorem vbusAgain_later (ha : weaverActs s p = false) : ((vbusAgain p s).port p).pw = (s.port p).pw := by
  unfold vbusAgain orLater
  split
  · rw [if_neg (by simp [ha]), modPd_port_self]
  · rfl

/-- What Table 7.3 asks of a setting looks at the group, at the policy, and at five parts of the port's power path. -/
theorem keeperRefusal_congr {t : State} (hd : (t.port p).pd = (s.port p).pd) (hg : t.grps = s.grps)
    (hpwr : (t.port p).pw.effPwr = (s.port p).pw.effPwr) (hprot : (t.port p).pw.effProt = (s.port p).pw.effProt)
    (hcurve : (t.port p).pw.effCurve = (s.port p).pw.effCurve) (hl : (t.port p).pw.pfetL = (s.port p).pw.pfetL)
    (hh : (t.port p).pw.pfetH = (s.port p).pw.pfetH) (v : Word) : keeperRefusal t p v = keeperRefusal s p v := by
  have hgrp : t.grp (tileOf p) = s.grp (tileOf p) := congrArg (fun v : Vector Group 8 => v[tileOf p]) hg
  have hrail : railVolt t (tileOf p) = railVolt s (tileOf p) := by simp only [railVolt, hgrp]
  have hfeed : feedDownFor t p = feedDownFor s p := by simp only [feedDownFor, feedUp, hgrp]
  have hB : classB t p = classB s p := by simp only [classB, hd]
  have h5 : cable5A t p = cable5A s p := by simp only [cable5A, hd]
  unfold keeperRefusal
  dsimp only
  rw [hB, h5, hrail, hfeed, hgrp, hpwr, hprot, hcurve, hl, hh]

theorem setContract_none_pw (v : Word) : ((setContract p v none s).port p).pw = (s.port p).pw := by
  unfold setContract
  dsimp only
  split
  · rfl
  · rw [modPd_port_self, endContract_port]

/-- A port with no path on that does not ramp waits for a relay slot with its setting (07 R239). -/
theorem startSetting_waits {v : Word} (hpath : (s.port p).pw.pathNow = .none)
    (hst : (s.port p).pw.pstate = .off ∨ (s.port p).pw.pstate = .waiting) (hoff : (s.port p).pw.fwOff = false) :
    ((startSetting p v s).port p).pw = { (s.port p).pw with inForce := v, held := false, pstate := .waiting } := by
  unfold startSetting
  dsimp only
  rw [if_pos hpath, modPw_port_self]
  rcases hst with e | e <;> simp only [e, hoff, if_neg Bool.false_ne_true]

/-- The keeper accepts a setting while no path is on and no ramp runs. -/
theorem writeKeeper_waits {raw : Word} (hv : fld (raw &&& 0xFFF003FF#32) 31 30 ≠ 0)
    (hcode : keeperRefusal (latchPwrCfg p s) p (raw &&& 0xFFF003FF#32) = 0) (hpath : (s.port p).pw.pathNow = .none)
    (hst : (s.port p).pw.pstate = .off ∨ (s.port p).pw.pstate = .waiting) (hoff : (s.port p).pw.fwOff = false) :
    ((writeKeeper p raw none s).port p).pw.keeper = raw &&& 0xFFF003FF#32 ∧ ((writeKeeper p raw none s).port p).pw.pstate = .waiting := by
  unfold writeKeeper
  extract_lets v u code u₂
  have hu : (u₂.port p).pw.keeper = v ∧ (u₂.port p).pw.pathNow = .none ∧ (u₂.port p).pw.pstate = (s.port p).pw.pstate ∧
      (u₂.port p).pw.fwOff = false := by
    simp only [u₂, latchEv_port, modPw_port_self, setContract_none_pw, u, latchPwrCfg]
    exact ⟨trivial, hpath, trivial, hoff⟩
  obtain ⟨hk, hp, hs, hf⟩ := hu
  clear_value u₂
  rw [if_neg (by simpa [code] using hcode), if_neg hv]
  have hwait := startSetting_waits (v := v) hp (hs ▸ hst) hf
  rcases hst with e | e
  · simp only [hs, e, hwait]
    exact ⟨hk, trivial⟩
  · simp only [hs, e, hwait]
    exact ⟨hk, trivial⟩

/-- Where its weaver acts, an attached port takes up the 5 V setting of its Rp again, and waits for a slot. -/
theorem vbusAgain_now (ha : weaverActs s p = true) (hst : (s.port p).tc.st = .attached) (hw : (s.port p).pw.fwOff = false)
    (hpath : (s.port p).pw.pathNow = .none) (hs : (s.port p).pw.pstate = .off ∨ (s.port p).pw.pstate = .waiting)
    (hcode : keeperRefusal (latchPwrCfg p s) p (setting .five 100 (rpCurrent (s.port p).tc.rp) &&& 0xFFF003FF#32) = 0) :
    ((vbusAgain p s).port p).pw.keeper = setting .five 100 (rpCurrent (s.port p).tc.rp) &&& 0xFFF003FF#32 ∧
      ((vbusAgain p s).port p).pw.pstate = .waiting := by
  have hv : fld (setting .five 100 (rpCurrent (s.port p).tc.rp) &&& 0xFFF003FF#32) 31 30 ≠ 0 := by cases (s.port p).tc.rp <;> decide
  rw [vbusAgain, if_pos hst, orLater_of_acts ha, vbusOn, latchEv_port]
  exact writeKeeper_waits hv hcode hpath hs hw

/-- A cooldown that ends changes nothing that Table 7.3 asks for. -/
theorem keeperRefusal_cooled (v : Word) :
    keeperRefusal (latchPwrCfg p (modPw p PortPwr.cooled s)) p v = keeperRefusal (latchPwrCfg p s) p v := by
  apply keeperRefusal_congr
  all_goals simp [latchPwrCfg, PortPwr.cooled, modPw]

theorem exec_portStageReset (hg : (s.port p).pw.pgood = true) : ∃ t, exec (.portStageReset p) s = .next t ∧
    SameButEvents t (setPort p { s.port p with pw := { (s.port p).pw with stage := 0, retries := 0 } } s) := by
  obtain ⟨t, ht, -, hsame⟩ := goes_modPw (i := .portStageReset p) (s := s) (p := p) rfl hg rfl rfl
  exact ⟨t, ht, hsame⟩

theorem exec_dischargeEnd (hd : (s.port p).pw.discharge = true) : ∃ t, exec (.dischargeEnd p) s = .next t ∧
    (t.port p).pw.discharge = false ∧ (t.port p).pw.vbus < 10 := by
  obtain ⟨t, ht, hn⟩ := goes_onPort (i := .dischargeEnd p) (s := s) (p := p) rfl hd
  refine ⟨t, ht, ?_⟩
  rw [hn.port, modHub_port_self]
  simp only [modPw_port_self]
  exact ⟨trivial, Nat.mod_lt _ (by decide)⟩

end

end Sys2Proof.Machine
end

section
/-!
PROOF. A group whose feed goes down: its ports without path, setting and allocation (07 R230, R233, R234, 06 R199).
-/
namespace Sys2Proof.Machine

/-! ### Commands on one group -/

/-- A command whose condition on the group holds has its effect, and the events of the change are noted. -/
theorem groupEv_noted (g : TileId) (f : State → State) (s : State) : Noted (f s) (groupEv g f s) :=
  ⟨groupEv_same g f s, forEach_invariant (P := Latches (f s)) (fun p t h => h.trans (notePort_latches s p t)) (.refl _)⟩

theorem goes_groupEv {i : Instr} {g : TileId} {f : State → State} {s u : State} (h : exec i s = .next (groupEv g f s)) (hu : f s = u) :
    ∃ t, exec i s = .next t ∧ Noted u t := ⟨_, h, hu ▸ groupEv_noted g f s⟩

theorem goes_onGroup {i : Instr} {g : TileId} {ok : State → Bool} {f : State → State} {s : State} (h : exec i s = onGroup g ok f s)
    (hok : ok s = true) : ∃ t, exec i s = .next t ∧ Noted (f s) t :=
  goes_groupEv (f := fun s => if ok s then f s else s) h (if_pos hok)

theorem groupEv_of_same {g : TileId} {f : State → State} {s : State} (h : f s = s) : groupEv g f s = s := by
  unfold groupEv
  rw [h]
  exact forEach_invariant (P := fun t => t = s) (fun p t e => e ▸ notePort_self p s) rfl

/-- A command whose condition on the group does not hold has no effect. -/
theorem onGroup_refused {g : TileId} {ok : State → Bool} {f : State → State} {s : State} (h : ok s = false) : onGroup g ok f s = .next s :=
  congrArg Host.Outcome.next (groupEv_of_same (f := fun s => if ok s then f s else s) (if_neg (by simp [h])))

/-! ### Operations on one group -/

/-- From `s` to `t` no group but g changes and no port, and no record is lost. -/
structure OnGroup (g : TileId) (s t : State) : Prop where
  others : ∀ h, h ≠ g → t.grp h = s.grp h
  ports : t.ports = s.ports
  quiet : Quiet s t

theorem OnGroup.refl (g : TileId) (s : State) : OnGroup g s s := ⟨fun _ _ => rfl, rfl, .refl s⟩

theorem OnGroup.trans {g : TileId} {r s t : State} (h : OnGroup g r s) (k : OnGroup g s t) : OnGroup g r t :=
  ⟨fun i hi => (k.others i hi).trans (h.others i hi), k.ports.trans h.ports, h.quiet.trans k.quiet⟩

section
variable {g : TileId} {r s : State} (h : OnGroup g r s)
include h

theorem modGrp_onGroup (f : Group → Group) : OnGroup g r (modGrp g f s) :=
  h.trans ⟨fun _ hi => modGrp_grp_of_ne _ _ _ hi, rfl, Quiet.upd (.refl s) rfl fun _ => rfl⟩

theorem postTile_onGroup (cls src : Nat) (payload : Word) : OnGroup g r (postTile g cls src payload s) :=
  h.trans ⟨fun _ _ => rfl, rfl, postTile_quiet (.refl s) _ _ _ _⟩

theorem settle_onGroup : OnGroup g r (settle s) :=
  have hs := settle_aside (.refl s)
  h.trans ⟨fun i _ => congrArg (fun v : Vector Group 8 => v[i]) hs.grps, hs.ports, settle_quiet (.refl s)⟩

omit h in
theorem ite_onGroup {c : Prop} [Decidable c] {a b : State} (ha : OnGroup g r a) (hb : OnGroup g r b) : OnGroup g r (if c then a else b) := by
  split
  · exact ha
  · exact hb

theorem setFeed_onGroup (st : FeedState) : OnGroup g r (setFeed g st s) := ite_onGroup h (postTile_onGroup (modGrp_onGroup h _) _ _ _)

theorem putFeedPg_onGroup (on : Bool) (reason : Nat) : OnGroup g r (putFeedPg g on reason s) := postTile_onGroup (modGrp_onGroup h _) _ _ _

theorem setFeedPg_onGroup (on : Bool) (reason : Nat) : OnGroup g r (setFeedPg g on reason s) := ite_onGroup h (putFeedPg_onGroup h _ _)

theorem seeFeedV_onGroup (volt : Nat) : OnGroup g r (seeFeedV g volt s) := modGrp_onGroup h _

theorem seeFeedI_onGroup (current : Nat) : OnGroup g r (seeFeedI g current s) := modGrp_onGroup h _

end

section
variable (g : TileId) (s : State)

@[simp] theorem postTile_grp (cls src : Nat) (payload : Word) (h : TileId) : (postTile g cls src payload s).grp h = s.grp h := rfl

@[simp] theorem settle_grp (h : TileId) : (settle s).grp h = s.grp h :=
  congrArg (fun v : Vector Group 8 => v[h]) (settle_aside (.refl s)).grps

@[simp] theorem setFeed_grp_self (st : FeedState) : (setFeed g st s).grp g = { s.grp g with st := st } := by
  unfold setFeed
  split
  · next e => rw [← e]
  · exact (postTile_grp ..).trans (modGrp_grp_self ..)

@[simp] theorem putFeedPg_grp_self (on : Bool) (reason : Nat) : (putFeedPg g on reason s).grp g = { s.grp g with pg := on } :=
  (postTile_grp ..).trans (modGrp_grp_self ..)

@[simp] theorem setFeedPg_grp_self (on : Bool) (reason : Nat) : (setFeedPg g on reason s).grp g = { s.grp g with pg := on } := by
  unfold setFeedPg
  split
  · next e => rw [← e]
  · exact putFeedPg_grp_self ..

theorem postTile_posted (cls n : Nat) (payload : Word) : Posted cls n (postTile g cls n payload s) :=
  ⟨_, List.mem_append_right _ (List.mem_singleton.mpr rfl), rfl, rfl⟩

/-- A change of FEED_STATE is recorded (07 Table 7.7). -/
theorem setFeed_posted {st : FeedState} (h : (s.grp g).st ≠ st) : Posted 0x09 (0x48 + g.val) (setFeed g st s) := by
  rw [setFeed, if_neg h]
  exact postTile_posted ..

theorem putFeedPg_posted (on : Bool) (reason : Nat) : Posted 0x08 (0x48 + g.val) (putFeedPg g on reason s) := postTile_posted ..

end

/-! ### Loops over the ports of a group -/

theorem mem_portsOf {p : PortId} {g : TileId} : p ∈ portsOf g ↔ tileOf p = g := by
  revert p g
  decide

theorem portsOf_nodup (g : TileId) : (portsOf g).Nodup := by
  revert g
  decide

section
variable {l : List PortId} {F : PortId → State → State} {s : State}

/-- A loop that works on each port in turn changes no group and loses no record. -/
theorem forEach_works (hF : ∀ q u, Works q u (F q u)) : (forEach l F s).grps = s.grps ∧ Quiet s (forEach l F s) :=
  forEach_invariant (P := fun t => t.grps = s.grps ∧ Quiet s t)
    (fun q u h => ⟨(hF q u).grps.trans h.1, h.2.trans (hF q u).quiet⟩) ⟨rfl, .refl s⟩

/-- Such a loop leaves the ports that it does not visit. -/
theorem forEach_unvisited {p : PortId} (hF : ∀ q u, q ≠ p → (F q u).port p = u.port p) (hp : p ∉ l) : (forEach l F s).port p = s.port p := by
  induction l generalizing s with
  | nil => rfl
  | cons q qs ih =>
    obtain ⟨hq, hqs⟩ := List.ne_and_not_mem_of_not_mem_cons hp
    exact (ih hqs (s := F q s)).trans (hF q s (Ne.symm hq))

/-- What the visit of port p brings about from any state with `I`, which the other visits keep, holds after the loop. -/
theorem forEach_visited {p : PortId} {I J : State → Prop} (hp : p ∈ l) (hl : l.Nodup) (hI : ∀ q u, q ≠ p → I u → I (F q u))
    (hp' : ∀ u, I u → J (F p u)) (hJ : ∀ q u, q ≠ p → J u → J (F q u)) (h : I s) : J (forEach l F s) := by
  induction l generalizing s with
  | nil => exact absurd hp List.not_mem_nil
  | cons q qs ih =>
    obtain ⟨hq, hqs⟩ := List.nodup_cons.mp hl
    by_cases e : q = p
    · subst e
      have hrest : ∀ (m : List PortId) (u : State), q ∉ m → J u → J (forEach m F u) := by
        intro m
        induction m with
        | nil => exact fun u _ hu => hu
        | cons a as iha =>
          intro u hm hu
          obtain ⟨ha, has⟩ := List.ne_and_not_mem_of_not_mem_cons hm
          exact iha (F a u) has (hJ a u (Ne.symm ha) hu)
      exact hrest qs (F q s) hq (hp' s h)
    · exact ih (List.mem_of_ne_of_mem (Ne.symm e) hp) hqs (s := F q s) (hI q s e h)

end

end Sys2Proof.Machine
end

section
/-!
PROOF. A group's feed down: its ports without path, setting, contract and allocation (07 R230, R233, R234, 06 R199).
-/
namespace Sys2Proof.Machine

/-- A port whose keeper has gone to none. -/
def Port.unpowered (x : Port) : Port :=
  { x.sansHub with pd := x.pd.ended, pw := { x.pw with keeper := 0, inForce := 0, held := false, pstate := restState x.pw }.offPaths }

/-- From `s` to `t` the ports of group g have lost their paths, their settings and their allocations. -/
structure Unpowered (g : TileId) (s t : State) : Prop where
  grpSelf : t.grp g = { s.grp g with railUp := false, limiting := false }
  others : ∀ h, h ≠ g → t.grp h = s.grp h
  port : ∀ q, tileOf q = g → (t.port q).sansHub = (s.port q).unpowered
  apart : ∀ q, tileOf q ≠ g → t.port q = s.port q
  alloc : ∀ q, tileOf q = g → allocOf t q = 0
  quiet : Quiet s t

section
variable {g : TileId} {s t : State}

/-! ### The allocations of the group's ports (06 R199) -/

theorem groupDown_alloc {p : PortId} (hp : tileOf p = g) : allocOf (groupDown g s) p = 0 := by
  have hloop : Settled ((forEach (portsOf g) (fun p s => modBp p (fun x => { x with base := 0, want := 0, starved := false }) (setAlloc p 0 s)) s).share p) ∧
      ((forEach (portsOf g) (fun p s => modBp p (fun x => { x with base := 0, want := 0, starved := false }) (setAlloc p 0 s)) s).share p).alloc = 0 := by
    refine forEach_visited (I := fun _ => True) (J := fun t => Settled (t.share p) ∧ (t.share p).alloc = 0) (mem_portsOf.mpr hp) (portsOf_nodup g)
      (fun _ _ _ _ => trivial) (fun u _ => ?_) (fun q u hq hu => ?_) trivial
    · rw [modBp_share_self, setAlloc, modBp_share_self]
      exact ⟨⟨rfl, Nat.le_refl _⟩, rfl⟩
    · rw [modBp_share_of_ne (Ne.symm hq), setAlloc, modBp_share_of_ne (Ne.symm hq)]
      exact hu
  exact (congrArg BudPort.alloc (settle_settled hloop.1 rfl)).trans hloop.2

/-! ### Rail, paths and allocations go (07 R233) -/

theorem feedDownPorts_unpowered (g : TileId) (s : State) : Unpowered g s (feedDownPorts g s) := by
  unfold feedDownPorts
  extract_lets u v
  have hu : OnGroup g s u := modGrp_onGroup (.refl g s) _
  have hug : u.grp g = { s.grp g with railUp := false, limiting := false } := modGrp_grp_self ..
  have hup (q : PortId) : u.port q = s.port q := congrArg (fun v : Vector Port 64 => v[q]) hu.ports
  have hv : v.grps = u.grps ∧ Quiet u v := forEach_works fun q t => keeperNone_works (.refl q t) 0
  have hvg (h : TileId) : v.grp h = u.grp h := congrArg (fun w : Vector Group 8 => w[h]) hv.1
  have hother (q r : PortId) (t : State) (hr : r ≠ q) : (keeperNone r 0 t).port q = t.port q := (keeperNone_works (.refl r t) 0).others q (Ne.symm hr)
  have hd : Aside v (groupDown g v) := groupDown_aside g v
  have hdg (h : TileId) : (groupDown g v).grp h = v.grp h := congrArg (fun w : Vector Group 8 => w[h]) hd.grps
  refine ⟨by rw [hdg, hvg, hug], fun h hh => by rw [hdg, hvg, hu.others h hh], fun q hq => ?_, fun q hq => ?_, fun q hq => groupDown_alloc hq,
    hu.quiet.trans (hv.2.trans (groupDown_quiet (.refl v) g))⟩
  · rw [hd.port]
    refine forEach_visited (I := fun t => t.port q = s.port q) (J := fun t => (t.port q).sansHub = (s.port q).unpowered) (mem_portsOf.mpr hq)
      (portsOf_nodup g) (fun r t hr ht => (hother q r t hr).trans ht) (fun t ht => ?_) (fun r t hr ht => (congrArg Port.sansHub (hother q r t hr)).trans ht)
      (hup q)
    rw [keeperNone_port, ht]
    rfl
  · rw [hd.port]
    exact (forEach_unvisited (fun r t hr => hother q r t hr) (fun hm => hq (mem_portsOf.mp hm))).trans (hup q)

theorem Unpowered.pw (h : Unpowered g s t) {q : PortId} (hq : tileOf q = g) : (t.port q).pw = (s.port q).unpowered.pw := by
  rw [← Port.sansHub_pw, h.port q hq]

theorem Unpowered.tc (h : Unpowered g s t) {q : PortId} (hq : tileOf q = g) : (t.port q).tc = (s.port q).tc := by
  rw [← Port.sansHub_tc, h.port q hq]
  rfl

theorem Unpowered.feedDown (h : Unpowered g s t) (hpg : (s.grp g).pg = false) : FeedDown g t := by
  refine ⟨?_, ?_, ?_, fun q hq => ?_⟩
  · rw [h.grpSelf]
    exact hpg
  · rw [h.grpSelf]
  · rw [h.grpSelf]
  · rw [h.pw hq]
    exact ⟨rfl, rfl, rfl, h.alloc q hq⟩

/-! ### The policy of each port learns that VBUS is lost -/

/-- From `s` to `t` only the policy of ports acts. -/
structure Policies (s t : State) : Prop where
  grps : t.grps = s.grps
  pw : ∀ q, (t.port q).pw = (s.port q).pw
  bud : t.bud = s.bud
  quiet : Quiet s t

theorem feedLost_policies (g : TileId) (s : State) : Policies s (feedLost g s) := by
  obtain ⟨hg, hq⟩ := forEach_works (l := portsOf g) (F := vbusLost) (s := s) fun q t => vbusLost_works (.refl q t)
  refine ⟨hg, fun q => ?_, ?_, hq⟩
  · refine forEach_invariant (P := fun t => (t.port q).pw = (s.port q).pw) (fun r t ht => Eq.trans ?_ ht) rfl
    by_cases e : q = r
    · exact e ▸ (vbusLost_policy q t).pw
    · exact congrArg Port.pw ((vbusLost_works (.refl r t)).others q e)
  · exact forEach_invariant (P := fun t => t.bud = s.bud) (fun r t ht => (vbusLost_bud r t).trans ht) rfl

/-- A port without a partner keeps its state: its policy has nothing to lose. -/
theorem feedLost_apart {p : PortId} (h : (s.port p).tc.st ≠ .attached) : (feedLost g s).port p = s.port p := by
  refine forEach_invariant (P := fun t => t.port p = s.port p) (fun r t ht => ?_) rfl
  by_cases e : p = r
  · subst e
    rw [vbusLost_of_apart p (ht ▸ h), ht]
  · exact ((vbusLost_works (.refl r t)).others p e).trans ht

theorem Policies.grp (h : Policies s t) (g : TileId) : t.grp g = s.grp g := congrArg (fun v : Vector Group 8 => v[g]) h.grps

theorem FeedDown.policies {u : State} (h : FeedDown g u) (k : Policies u t) : FeedDown g t := by
  unfold FeedDown at *
  rw [k.grp]
  refine ⟨h.1, h.2.1, h.2.2.1, fun q hq => ?_⟩
  rw [k.pw, allocOf_congr (congrArg Bud.port k.bud)]
  exact h.2.2.2 q hq

theorem FeedDown.noted {u : State} (h : FeedDown g u) (k : Noted u t) : FeedDown g t := by
  have hg : t.grp g = u.grp g := congrArg (fun v : Vector Group 8 => v[g]) k.grps
  unfold FeedDown at *
  rw [hg]
  refine ⟨h.1, h.2.1, h.2.2.1, fun q hq => ?_⟩
  rw [k.port, allocOf_congr (congrArg Bud.port k.bud)]
  exact h.2.2.2 q hq

/-! ### The feed is disabled (07 R230) -/

/-- The group before its ports lose their power: power-good false, FEED_STATE disabled. -/
theorem feedDisable_eq (g : TileId) (s : State) : ∃ u, feedDisable g s = feedDownPorts g u ∧ OnGroup g s u ∧
    u.grp g = { s.grp g with st := .disabled, pg := false } := by
  refine ⟨_, rfl, setFeed_onGroup (ite_onGroup (putFeedPg_onGroup (.refl g s) _ _) (.refl g s)) _, ?_⟩
  rw [setFeed_grp_self]
  split
  · rw [putFeedPg_grp_self]
  · next h =>
    have hpg : (s.grp g).pg = false := by simp at h; exact h.2
    rw [← hpg]

/-- R230: a disabled feed is down. -/
theorem feedDisable_down (g : TileId) (s : State) : FeedDown g (feedDisable g s) ∧ ((feedDisable g s).grp g).st = .disabled := by
  obtain ⟨u, he, -, hg⟩ := feedDisable_eq g s
  have hd := feedDownPorts_unpowered g u
  rw [he]
  exact ⟨hd.feedDown (by rw [hg]), by rw [hd.grpSelf, hg]⟩

theorem feedDisable_pw {p : PortId} (hp : tileOf p = g) : ((feedDisable g s).port p).pw = (s.port p).unpowered.pw := by
  obtain ⟨u, he, hu, -⟩ := feedDisable_eq g s
  have hup : u.port p = s.port p := congrArg (fun v : Vector Port 64 => v[p]) hu.ports
  rw [he, (feedDownPorts_unpowered g u).pw hp, hup]

theorem feedDisable_tc {p : PortId} (hp : tileOf p = g) : ((feedDisable g s).port p).tc = (s.port p).tc := by
  obtain ⟨u, he, hu, -⟩ := feedDisable_eq g s
  have hup : u.port p = s.port p := congrArg (fun v : Vector Port 64 => v[p]) hu.ports
  rw [he, (feedDownPorts_unpowered g u).tc hp, hup]

end

end Sys2Proof.Machine
end

section
/-!
PROOF. A pass FET found shorted: the marks it leaves on the port, through the end of its connection and of its feed (07 R252).
-/
namespace Sys2Proof.Machine

/-- What a FET short leaves in the power path of a port: the latches, the flags and the setting. -/
def PortPwr.shortMarks (w : PortPwr) : Bool × Bool × Bool × Word × Word := (w.pfetL, w.pfetH, w.fetShort, w.flags, w.keeper)

theorem PortPwr.keeper_of_shortMarks {w : PortPwr} {l h b : Bool} {f k : Word} (e : w.shortMarks = (l, h, b, f, k)) : w.keeper = k :=
  congrArg (fun m => m.2.2.2.2) e

/-- From `s` to `t` no group changes, and the marks of a FET short of port p stay. -/
structure Marks (p : PortId) (s t : State) : Prop where
  grps : t.grps = s.grps
  marks : (t.port p).pw.shortMarks = (s.port p).pw.shortMarks

theorem Marks.refl (p : PortId) (s : State) : Marks p s s := ⟨rfl, rfl⟩

theorem Marks.trans {p : PortId} {r s t : State} (h : Marks p r s) (k : Marks p s t) : Marks p r t :=
  ⟨k.grps.trans h.grps, k.marks.trans h.marks⟩

section
variable {p : PortId} {r s : State} (h : Marks p r s)
include h

theorem modPw_marks {f : PortPwr → PortPwr} (hf : (f (s.port p).pw).shortMarks = (s.port p).pw.shortMarks) : Marks p r (modPw p f s) :=
  h.trans ⟨rfl, by rw [modPw_port_self]; exact hf⟩

theorem modTc_marks (f : PortTc → PortTc) : Marks p r (modTc p f s) := h.trans ⟨rfl, by rw [modTc_port_self]⟩
theorem modPd_marks (f : PortPd → PortPd) : Marks p r (modPd p f s) := h.trans ⟨rfl, by rw [modPd_port_self]⟩
theorem modPhy_marks (f : PdPhy → PdPhy) : Marks p r (modPhy p f s) := h.trans ⟨rfl, by rw [modPhy_port_self]⟩

theorem Marks.aside {t : State} (k : Aside s t) : Marks p r t := h.trans ⟨k.grps, congrArg (fun x : Port => x.pw.shortMarks) (k.port p)⟩

theorem syncHub_marks : Marks p r (syncHub p s) :=
  h.trans ⟨(syncHub_works (.refl p s)).grps, congrArg PortPwr.shortMarks (syncHub_hubOnly (.refl p s)).pw⟩

theorem onlyIf_marks {c : Bool} {f : State → State} (hf : ∀ t, Marks p r t → Marks p r (f t)) : Marks p r (onlyIf c f s) := by
  unfold onlyIf
  split
  · exact hf s h
  · exact h

theorem setVconn_marks (on : Bool) (cause : Nat) : Marks p r (setVconn p on cause s) := by
  unfold setVconn postVconn
  exact (modTc_marks h _).aside (weaverPost_aside (.refl _) ..)

theorem postPort_marks (cls : Nat) (payload : Word) : Marks p r (postPort p cls payload s) := h.trans ⟨rfl, rfl⟩

theorem clearLatch_marks : Marks p r (clearLatch p s) := syncHub_marks (modPw_marks h rfl)

theorem keeperNone_marks (hk : (s.port p).pw.keeper = 0) : Marks p r (keeperNone p 0 s) := by
  refine h.trans ⟨(keeperNone_works (.refl p s) 0).grps, ?_⟩
  rw [← Port.sansHub_pw, keeperNone_port]
  simp only [PortPwr.shortMarks, PortPwr.offPaths, hk]

theorem Marks.keeper (hk : (r.port p).pw.keeper = 0) : (s.port p).pw.keeper = 0 :=
  (congrArg (fun m => m.2.2.2.2) h.marks).trans hk

theorem phyOpts_marks (sop1 rev2 : Bool) : Marks p r (phyOpts p sop1 rev2 s) := modPhy_marks h _

theorem restTc_marks : Marks p r (restTc p s) := by
  unfold restTc
  exact modTc_marks h _

theorem endTrip_marks (c : Bool) : Marks p r (onlyIf c (clearLatch p) (modPw p (fun w => { w with tripped := false }) s)) :=
  onlyIf_marks (modPw_marks h rfl) fun _ => clearLatch_marks

theorem detach_marks (hk : (r.port p).pw.keeper = 0) (cause : Nat) (trans : Bool) (vbus : Nat) : Marks p r (detach p cause trans vbus s) := by
  unfold detach
  extract_lets s₁ s₂ s₃ s₄ s₅ s₆ s₇
  have h₂ : Marks p r s₂ := (h.aside (weaverPost_aside (.refl s) ..)).aside (endAlt_aside p s₁)
  have h₃ : Marks p r s₃ := keeperNone_marks h₂ (h₂.keeper hk)
  have h₄ : Marks p r s₄ := by
    simp only [s₄]
    split
    · exact setVconn_marks h₃ ..
    · exact h₃
  have h₆ : Marks p r s₆ := phyOpts_marks (modPhy_marks (modPd_marks (modTc_marks h₄ _) _) _) ..
  have h₇ : Marks p r s₇ := endTrip_marks h₆ _
  have hrest : Marks p r (restTc p s₇) := restTc_marks h₇
  have hzero : Aside (restTc p s₇) (fallToZero p (restTc p s₇)) := fallToZero_aside (.refl _) p
  exact syncHub_marks (hrest.aside (sendUp_aside hzero p _ _))

theorem hwDetach_marks (hk : (r.port p).pw.keeper = 0) (cause : Nat) (trans : Bool) (vbus : Nat) : Marks p r (hwDetach p cause trans vbus s) := by
  unfold hwDetach
  extract_lets s₁ s₂ s₃ s₄
  have h₀ : Marks p r (modPw p (fun w => { w with vbus := vbus, tripped := false }) s) := modPw_marks h rfl
  have h₁ : Marks p r s₁ := keeperNone_marks h₀ (h₀.keeper hk)
  have h₂ : Marks p r s₂ := postPort_marks h₁ ..
  have h₄ : Marks p r s₄ :=
    onlyIf_marks (phyOpts_marks (modPhy_marks (modPd_marks (modTc_marks h₂ _) _) _) ..) fun _ => clearLatch_marks
  have hrest : Marks p r (restTc p s₄) := restTc_marks h₄
  exact syncHub_marks (hrest.aside (fallToZero_aside (.refl _) p))

/-- R225: a port that is disabled keeps the marks, off as it is. -/
theorem disableTc_marks (hk : (r.port p).pw.keeper = 0) : Marks p r (disableTc p s) := by
  unfold disableTc
  extract_lets u
  have hu : Marks p r u := by
    simp only [u]
    split
    · exact h
    · split
      · exact detach_marks h hk ..
      · exact hwDetach_marks h hk ..
  exact modTc_marks hu _

end

section
variable {p : PortId} {s : State} {mv : Nat}

theorem disableTc_tc : ((disableTc p s).port p).tc.st = .disabled ∧ ((disableTc p s).port p).tc.rp = .none := by
  unfold disableTc
  dsimp only
  rw [modTc_port_self]
  exact ⟨rfl, rfl⟩

/-- The path whose pass FET conducts: the voltage behind it tells which (07 R252). -/
def shortPath (mv : Nat) : Path := if 7000 ≤ mv then .rail else .five

theorem shortPath_low : (shortPath mv != .rail) = decide (mv < 7000) := by
  unfold shortPath
  split
  · next h => exact (decide_eq_false (Nat.not_lt.mpr h)).symm
  · next h => exact (decide_eq_true (Nat.not_le.mp h)).symm

theorem shortPath_high : (shortPath mv == .rail) = decide (7000 ≤ mv) := by
  unfold shortPath
  split
  · next h => exact (decide_eq_true h).symm
  · next h => exact (decide_eq_false h).symm

/-- The port tripped by a FET short, without a connection. -/
def shortPort (p : PortId) (mv : Nat) (s : State) : State :=
  disableTc p (tripAndTell p 8 0 0 (shortPath mv) (latchPfet p (shortPath mv) true s))

/-- What a FET short leaves on port p. -/
structure Shorted (p : PortId) (mv : Nat) (s t : State) : Prop where
  marks : (t.port p).pw.shortMarks =
    ((s.port p).pw.pfetL || decide (mv < 7000), (s.port p).pw.pfetH || decide (7000 ≤ mv), true, orBit (s.port p).pw.flags 8, 0)
  st : (t.port p).tc.st = .disabled
  rp : (t.port p).tc.rp = .none

theorem shortPort_shorted (p : PortId) (mv : Nat) (s : State) : Shorted p mv s (shortPort p mv s) ∧ (shortPort p mv s).grps = s.grps := by
  unfold shortPort
  have hu : ((tripAndTell p 8 0 0 (shortPath mv) (latchPfet p (shortPath mv) true s)).port p).pw.shortMarks =
      ((s.port p).pw.pfetL || decide (mv < 7000), (s.port p).pw.pfetH || decide (7000 ≤ mv), true, orBit (s.port p).pw.flags 8, 0) := by
    rw [tripAndTell_pw, latchPfet, modPw_port_self, shortPath_low, shortPath_high]
    simp only [PortPwr.shortMarks, PortPwr.trip, PortPwr.marked, PortPwr.offPaths]
    simp
  have hg : (tripAndTell p 8 0 0 (shortPath mv) (latchPfet p (shortPath mv) true s)).grps = s.grps :=
    (tripAndTell_works (modPw_works (.refl p s) _) 8 0 0 (shortPath mv)).grps
  have hk : ((tripAndTell p 8 0 0 (shortPath mv) (latchPfet p (shortPath mv) true s)).port p).pw.keeper = 0 := PortPwr.keeper_of_shortMarks hu
  have hm := disableTc_marks (.refl p _) hk
  exact ⟨⟨hm.marks.trans hu, disableTc_tc.1, disableTc_tc.2⟩, hm.grps.trans hg⟩

/-- The feed that goes down with the port leaves what the short has left. -/
theorem Shorted.feedOff {u : State} (h : Shorted p mv s u) : Shorted p mv s (feedLost (tileOf p) (feedDisable (tileOf p) u)) := by
  have htc : ((feedDisable (tileOf p) u).port p).tc = (u.port p).tc := feedDisable_tc rfl
  have hlost : (feedLost (tileOf p) (feedDisable (tileOf p) u)).port p = (feedDisable (tileOf p) u).port p :=
    feedLost_apart (by rw [htc, h.st]; decide)
  refine ⟨?_, ?_, ?_⟩
  · rw [hlost, feedDisable_pw rfl]
    have hk : (u.port p).pw.keeper = 0 := PortPwr.keeper_of_shortMarks h.marks
    refine Eq.trans ?_ h.marks
    simp only [PortPwr.shortMarks, hk]
    rfl
  · rw [hlost, htc, h.st]
  · rw [hlost, htc, h.rp]

theorem Shorted.hub {u : State} (h : Shorted p mv s u) : Shorted p mv s (syncHub p u) := by
  have hub := syncHub_hubOnly (.refl p u)
  exact ⟨by rw [hub.pw, h.marks], by rw [hub.tc, h.st], by rw [hub.tc, h.rp]⟩

theorem Shorted.noted {u t : State} (h : Shorted p mv s u) (k : Noted u t) : Shorted p mv s t :=
  ⟨by rw [k.port, h.marks], by rw [k.port, h.st], by rw [k.port, h.rp]⟩

theorem exec_fetShort_below (hmv : mv ≤ 1000) : exec (.fetShort p mv) s = .next s :=
  congrArg Host.Outcome.next (groupEv_of_same (if_pos (.inr hmv)))

/-- R252: the port is off and without a connection, and SHORT_OFF takes its group down. -/
theorem exec_fetShort_above (hp : (s.port p).pw.pathNow = .none) (hmv : 1000 < mv) : ∃ t, exec (.fetShort p mv) s = .next t ∧
    Shorted p mv s t ∧ (bitOf (s.grp (tileOf p)).cfgNow 14 = true → (s.grp (tileOf p)).st ≠ .disabled →
      FeedDown (tileOf p) t ∧ (t.grp (tileOf p)).st = .disabled) := by
  obtain ⟨hs, hgrps⟩ := shortPort_shorted p mv s
  have hg : (shortPort p mv s).grp (tileOf p) = s.grp (tileOf p) := congrArg (fun v : Vector Group 8 => v[tileOf p]) hgrps
  have hno : ¬(pathOn s p = true ∨ mv ≤ 1000) := by
    rw [pathOn_iff]
    exact fun h => h.elim (fun h => h hp) (by omega)
  obtain ⟨t, ht, hn⟩ := goes_groupEv (i := .fetShort p mv) (s := s) rfl (if_neg hno)
  refine ⟨t, ht, ?_⟩
  change Noted (if bitOf ((shortPort p mv s).grp (tileOf p)).cfgNow 14 = true ∧ ((shortPort p mv s).grp (tileOf p)).st ≠ .disabled
    then feedLost (tileOf p) (feedDisable (tileOf p) (shortPort p mv s)) else syncHub p (shortPort p mv s)) t at hn
  rw [hg] at hn
  by_cases hoff : bitOf (s.grp (tileOf p)).cfgNow 14 = true ∧ (s.grp (tileOf p)).st ≠ .disabled
  · rw [if_pos hoff] at hn
    obtain ⟨hdown, hst⟩ := feedDisable_down (tileOf p) (shortPort p mv s)
    have hpol := feedLost_policies (tileOf p) (feedDisable (tileOf p) (shortPort p mv s))
    refine ⟨hs.feedOff.noted hn, fun _ _ => ⟨(hdown.policies hpol).noted hn, ?_⟩⟩
    have ht : t.grp (tileOf p) = _ := congrArg (fun v : Vector Group 8 => v[tileOf p]) hn.grps
    rw [ht]
    exact (congrArg Group.st (hpol.grp _)).trans hst
  · rw [if_neg hoff] at hn
    exact ⟨hs.hub.noted hn, fun hc hst => absurd ⟨hc, hst⟩ hoff⟩

end

end Sys2Proof.Machine
end

section
/-!
PROOF. O42: breakers, protections, pass-FET checks and trips of a port (07 R248 to R255).
-/
namespace Sys2Proof.Machine

section
variable {p : PortId} {s : State}

/-- After a cooldown the weaver, where it acts, takes up the 5 V setting again. -/
theorem exec_portCooldownEnd_acting (hc : (s.port p).pw.pstate = .cooldown) (ha : weaverActs s p = true) (hst : (s.port p).tc.st = .attached)
    (hw : (s.port p).pw.fwOff = false) (hpath : (s.port p).pw.pathNow = .none)
    (hcode : keeperRefusal (latchPwrCfg p s) p (setting .five 100 (rpCurrent (s.port p).tc.rp) &&& 0xFFF003FF#32) = 0) :
    ∃ t, exec (.portCooldownEnd p) s = .next t ∧
      (t.port p).pw.keeper = setting .five 100 (rpCurrent (s.port p).tc.rp) &&& 0xFFF003FF#32 ∧ (t.port p).pw.pstate = .waiting := by
  obtain ⟨t, ht, hpw⟩ := exec_portCooldownEnd hc
  refine ⟨t, ht, ?_⟩
  have hport : (modPw p PortPwr.cooled s).port p = { s.port p with pw := (s.port p).pw.cooled } := modPw_port_self ..
  have hstate : (s.port p).pw.cooled.pstate = .off ∨ (s.port p).pw.cooled.pstate = .waiting := by
    simp only [PortPwr.cooled, hw, if_neg Bool.false_ne_true]
    exact ite_eq_or_eq ..
  have hnow := vbusAgain_now (p := p) (s := modPw p PortPwr.cooled s) (by simpa using ha) (by rw [hport]; exact hst) (by rw [hport]; exact hw)
    (by rw [hport]; exact hpath) (by rw [hport]; exact hstate) (by rw [keeperRefusal_cooled, hport]; exact hcode)
  rw [hpw]
  rw [hport] at hnow
  exact hnow

theorem exec_portCooldownEnd_idle (hc : (s.port p).pw.pstate = .cooldown) (ha : weaverActs s p = false) :
    ∃ t, exec (.portCooldownEnd p) s = .next t ∧ (t.port p).pw = (s.port p).pw.cooled := by
  obtain ⟨t, ht, hpw⟩ := exec_portCooldownEnd hc
  refine ⟨t, ht, hpw.trans ((vbusAgain_later (by simpa using ha)).trans ?_)⟩
  rw [modPw_port_self]

end

/-- Settles O42: a trip is one operation (`tripAndTell_tripped`), which each breaker, protection and pass-FET check brings about under its own
condition; a FET short also ends the connection and, with SHORT_OFF, the group's feed. -/
theorem portProtection : Obligations.PortProtection := by
  unfold Obligations.PortProtection
  intro p s vbus cur mv k w tc goes trips ib five pct
  refine ⟨fun hp => ?_, fun hp => ?_, fun hc => ?_, exec_portStageReset, exec_dischargeEnd⟩
  · refine ⟨exec_fastTrip_over hp, fun h => ⟨s, exec_fastTrip_under h, .refl s⟩, exec_reverseTrip_over hp, exec_ovTrip_over hp,
      exec_classATrip_running hp, exec_curveTrip_running hp, fun ha => ?_, (goes_pfetTrip rfl hp (by decide) (by decide)).1,
      (goes_pfetTrip rfl hp (by decide) (by decide)).1, fun i hi => ?_⟩
    · obtain ⟨t, ht, hsame⟩ := exec_breakerCurrentCrossing_armed (cur := cur) hp ha
      refine ⟨t, ht, _, hsame, ?_, fun hb => ?_, fun hb => ?_⟩
      · cases classB s p <;> rfl
      · rw [hb]
        exact (PortPwr.crossed_classA cur w).2
      · rw [hb]
        exact (PortPwr.crossed_classB cur w k).2
    · rcases List.mem_pair.mp hi with rfl | rfl
      · exact (goes_pfetTrip (cause := 7) rfl hp (by decide) (by decide)).2
      · exact (goes_pfetTrip (cause := 9) rfl hp (by decide) (by decide)).2
  · refine ⟨fun h => ⟨s, exec_fetShort_below h, .refl s⟩, fun h => ?_⟩
    obtain ⟨t, ht, ⟨hmarks, hst, hrp⟩, hoff⟩ := exec_fetShort_above hp h
    obtain ⟨hl, hh, hshort, hflags, hkeeper⟩ : (t.port p).pw.pfetL = (w.pfetL || decide (mv < 7000)) ∧
        (t.port p).pw.pfetH = (w.pfetH || decide (7000 ≤ mv)) ∧ (t.port p).pw.fetShort = true ∧ (t.port p).pw.flags = orBit w.flags 8 ∧
        (t.port p).pw.keeper = 0 := by simpa [PortPwr.shortMarks] using hmarks
    exact ⟨t, ht, hshort, hl, hh, hst, hrp, hkeeper, hflags ▸ bitOf_orBit (by decide) _, hoff⟩
  · exact ⟨exec_portCooldownEnd_idle hc, exec_portCooldownEnd_acting hc⟩

end Sys2Proof.Machine
end

section
/-!
PROOF. What the policy of a port does when its group's feed or rail comes back or changes leaves the groups as they are
(06 R194, R195, R207, 07 R234, R236).
-/
namespace Sys2Proof.Machine

section
variable {p : PortId} {r s : State}

/-! ### The keeper takes a setting (07 R239) -/

theorem setContract_works (h : Works p r s) (v : Word) (c : Option ContractInfo) : Works p r (setContract p v c s) := by
  unfold setContract
  split
  · exact postPort_works (modPd_works h _) _ _
  · exact ite_works h (modPd_works (endContract_works h) _)

theorem startSetting_works (h : Works p r s) (v : Word) : Works p r (startSetting p v s) :=
  ite_works (modPw_works h _) (ite_works (modPw_works h _) (modPw_works h _))

theorem writeKeeper_works (h : Works p r s) (raw : Word) (c : Option ContractInfo) : Works p r (writeKeeper p raw c s) := by
  unfold writeKeeper
  extract_lets v u code u₂
  have hu : Works p r u := modPw_works h _
  have hu₂ : Works p r u₂ := latchEv_works (modPw_works (setContract_works hu v c) _) _
  refine ite_works (latchEv_works (modPw_works hu _) _) (ite_works (latchEv_works (keeperNone_works hu v) _) ?_)
  split
  · exact modPw_works hu₂ _
  · exact modPw_works hu₂ _
  · exact startSetting_works hu₂ v

/-! ### The policy asks the arbiter again (06 R195, R207) -/

theorem holdKnown_launches (h : Launches p r s) : Launches p r (holdKnown p s) :=
  ite_launches (fun _ => h) fun _ => ite_launches (fun _ => firstCaps_launches (h.pd (by exact fun _ => ⟨rfl, rfl, id, id⟩)))
    fun _ => startOwn_launches h _

theorem askWant_launches (p : PortId) (s : State) : Launches p s (askWant p s) := by
  unfold askWant
  extract_lets w
  have hheld : Launches p s (modPd p (fun d => { d with hold := w }) s) := (Launches.refl p s).pd (by exact fun _ => ⟨rfl, rfl, id, id⟩)
  exact ite_launches (fun _ => .refl p s) fun _ => ite_launches (fun _ => ask_launches (.refl p s) _ _) fun _ =>
    ite_launches (fun _ => holdKnown_launches (hheld.aside (sendUp_aside (.refl _) _ _ _))) fun _ => .refl p s

theorem rewant_grps (p : PortId) (s : State) : (rewant p s).grps = s.grps := by
  unfold rewant orLater
  split
  · split
    · exact (askWant_launches p s).on.grps
    · rfl
  · rfl

theorem askAgain_grps (p : PortId) (s : State) : (askAgain p s).grps = s.grps := by
  have hreserve : (reserveBase p s).grps = s.grps := by
    unfold reserveBase
    extract_lets n u
    have hu : u.grps = s.grps := by
      simp only [u]
      split
      · rfl
      · exact (budgetRecord_aside (.refl _) _ _ _).grps
    exact hu
  have hon (t : State) : (vbusOn p t).grps = t.grps := (latchEv_works (writeKeeper_works (.refl p t) _ none) _).grps
  unfold askAgain
  split
  · refine (ask_launches (.refl p _) _ _).on.grps.trans ?_
    split
    · exact (hon _).trans hreserve
    · rfl
  · rfl

theorem feedBack_grps (p : PortId) (s : State) : (feedBack p s).grps = s.grps := by
  unfold feedBack orLater
  split
  · split
    · exact askAgain_grps p s
    · rfl
  · rfl

/-! ### Loops over the ports of a group -/

theorem forEach_grps {l : List PortId} {F : PortId → State → State} (hF : ∀ q t, (F q t).grps = t.grps) : (forEach l F s).grps = s.grps :=
  forEach_invariant (P := fun t => t.grps = s.grps) (fun q t h => (hF q t).trans h) rfl

theorem ite_grps {c : Prop} [Decidable c] {a b : State} (ha : a.grps = s.grps) (hb : b.grps = s.grps) : (if c then a else b).grps = s.grps := by
  split
  · exact ha
  · exact hb

end

/-! ### A write of GRP_CFG whose FEED_EN goes to 0 (07 R230) -/

section
variable {g : TileId} {raw : Word} {s : State}

/-- After the write, what a feed that has gone down means for the ports changes no group. -/
theorem takeGrpCfg_grps (g : TileId) (raw : Word) (s : State) : (takeGrpCfg g raw s).grps = (writeGrpCfg g raw s).grps := by
  unfold takeGrpCfg
  extract_lets u v
  have hv : v.grps = u.grps := ite_grps (feedLost_policies g u).grps rfl
  exact (forEach_grps fun q t => ite_grps (rewant_grps q t) rfl).trans hv

/-- A written FEED_EN of 0 disables the feed of a released group whose feed is enabled by the values that it runs under. -/
theorem writeGrpCfg_disables (hen : feedEn (s.grp g) = true) (hrel : (s.grp g).released = true) (hv : bitOf (raw &&& 0x0000FFFF#32) 15 = false)
    (hkept : bitOf (setFld (raw &&& 0x0000FFFF#32) 13 12 (fld (s.grp g).cfgNow 13 12)) 15 = false) :
    ∃ u, writeGrpCfg g raw s = feedDisable g u := by
  unfold writeGrpCfg
  extract_lets x v busy v' s₁ moved s₂
  have hoff : bitOf v' 15 = false := by
    simp only [v']
    split
    · exact hkept
    · exact hv
  have hgrp : (s₂.grp g).released = true := by
    have hs₁ : (s₁.grp g).released = true := by
      simp only [s₁, onlyIf]
      split
      · rw [modGrp_grp_self]
        exact hrel
      · exact hrel
    simp only [s₂, modGrp_grp_self]
    exact hs₁
  rw [if_pos ⟨hen, by simp [hoff]⟩, if_pos hgrp]
  exact ⟨s₂, rfl⟩

end

end Sys2Proof.Machine
end

section
/-!
PROOF. O40: the write of GRP_CFG that changes RAIL_V while a port holds a rail setting, in a group that runs under the values of its rim
slice (07 R229, R230, R236, R503).
-/
namespace Sys2Proof.Machine

/-- Group 0 after DEEP, before step 6 has released it: its feed runs under the rim slice's values (FEED_EN = 1, RAIL_V = 3) with its rail up,
GRP_CFG reads its reset value 0 (FEED_EN = 0), and the keeper of port 0 holds a rail setting. -/
def railOfSlice : State :=
  { State.reset with
    pwr := { State.reset.pwr with phase := .run }
    ports := State.reset.ports.set 0 { pw := { keeper := 0x80000000#32 } }
    grps := State.reset.grps.set 0
      { cfg := 0, st := .good, pg := true, railUp := true, released := true, rim := some (0xB000#32, 0x1806C258#32, 0x28A05014#32) } }

theorem railOfSlice_writable : writable (.weaver 0) (.grpCfg 0) 0x30000 (setFld 0 13 12 0) railOfSlice = true := by decide

theorem railOfSlice_disables : ∃ u, writeGrpCfg 0 (setFld 0 13 12 0) railOfSlice = feedDisable 0 u :=
  writeGrpCfg_disables (by decide) (by decide) (by decide) (by decide)

theorem SameButEvents.grps {s t : State} (h : SameButEvents t s) : t.grps = s.grps :=
  congrArg State.grps (a₁ := withoutEvents t) (a₂ := withoutEvents s) h

/-- A change of RAIL_V whose write disables the feed takes the rail down. -/
theorem exec_railChange_disables {g : TileId} {rail : Fin 4} {s u : State}
    (hw : writable (.weaver g) (.grpCfg g) (addrGrp g 0) (setFld (s.grp g).cfg 13 12 rail.val) s = true)
    (hd : writeGrpCfg g (setFld (s.grp g).cfg 13 12 rail.val) s = feedDisable g u) :
    ∃ t, exec (.railChange (.weaver g) g rail) s = .next t ∧ (t.grp g).railUp = false := by
  refine ⟨_, congrArg Host.Outcome.next (masterWrite_weaver_of_writable hw), ?_⟩
  generalize setFld (s.grp g).cfg 13 12 rail.val = v at *
  have hev := (allEv_same (takeGrpCfg g v) s).grps
  have hgrps : (allEv (takeGrpCfg g v) s).grps = (feedDisable g u).grps := hev.trans ((takeGrpCfg_grps g v s).trans (congrArg State.grps hd))
  exact (congrArg (fun x : Vector Group 8 => x[g].railUp) hgrps).trans (feedDisable_down g u).1.2.1

/-- Refutes O40: a change of RAIL_V is refused while a port of the group holds a rail setting, but the rail does not stay up where the
register's FEED_EN is 0 and the feed runs under its rim slice: the same write disables the feed. -/
theorem not_powerRegisters : ¬ Obligations.PowerRegisters := by
  unfold Obligations.PowerRegisters
  intro h
  obtain ⟨-, -, -, hrail, -⟩ := h 0 railOfSlice 0 0 false
  obtain ⟨t, ht, -, -, -, hup⟩ := (hrail railOfSlice_writable).2 (by decide) (by decide)
  obtain ⟨u, hu⟩ := railOfSlice_disables
  obtain ⟨t', ht', hdown⟩ := exec_railChange_disables (rail := 0) railOfSlice_writable hu
  obtain rfl : t = t' := Host.Outcome.next.inj (ht.symm.trans ht')
  have hwas : (railOfSlice.grp 0).railUp = true := by decide
  exact absurd (hdown.symm.trans (hup.trans hwas)) (by decide)

end Sys2Proof.Machine
end

section
/-!
PROOF. The group feed from qualification to cooldown, command by command (07 R229 to R236, R252).
-/
namespace Sys2Proof.Machine

section
variable {g : TileId} {s u t : State}

theorem Noted.grp (h : Noted u t) (k : TileId) : t.grp k = u.grp k := congrArg (fun v : Vector Group 8 => v[k]) h.grps

theorem Noted.onGroup (h : Noted u t) (k : OnGroup g s u) : t.ports = s.ports ∧ ∀ h, h ≠ g → t.grp h = s.grp h :=
  ⟨h.same.ports.trans k.ports, fun i hi => (h.grp i).trans (k.others i hi)⟩

/-- A command that changes one group. -/
theorem goes_grp {i : Instr} {ok : State → Bool} {f : State → State} (h : exec i s = onGroup g ok f s) (hok : ok s = true) {x : Group}
    (hu : OnGroup g s (f s)) (hx : (f s).grp g = x) :
    ∃ t, exec i s = .next t ∧ t.grp g = x ∧ t.ports = s.ports ∧ ∀ h, h ≠ g → t.grp h = s.grp h := by
  obtain ⟨t, ht, hn⟩ := goes_onGroup h hok
  exact ⟨t, ht, (hn.grp g).trans hx, hn.onGroup hu⟩

/-- A command that changes FEED_STATE, and records it. -/
theorem goes_feedState {i : Instr} {ok : State → Bool} {f : State → State} (h : exec i s = onGroup g ok f s) (hok : ok s = true) {st : FeedState}
    (hu : OnGroup g s u) (hst : (u.grp g).st ≠ st) (hf : f s = setFeed g st u) : ∃ t, exec i s = .next t ∧
      (t.grp g).st = st ∧ Posted 0x09 (0x48 + g.val) t ∧ t.ports = s.ports ∧ ∀ h, h ≠ g → t.grp h = s.grp h := by
  obtain ⟨t, ht, hn⟩ := goes_onGroup h hok
  rw [hf] at hn
  exact ⟨t, ht, by rw [hn.grp, setFeed_grp_self], hn.posted (setFeed_posted g u hst), hn.onGroup (setFeed_onGroup hu st)⟩

/-! ### Qualification and ramp (07 R229) -/

/-- The feed lies between UV and OV, by 250 mV more where a comparator had crossed (07 R230). -/
theorem feedInWindow_iff {volt : Nat} : feedInWindow s g volt = true ↔
    fld (s.grp g).thrNow 29 20 + 5 * b2n (s.grp g).uvLow < volt ∧ volt + 5 * b2n (s.grp g).ovOver < fld (s.grp g).thrNow 9 0 := by
  change _ ↔ grpUv (s.grp g).thrNow + 5 * b2n (s.grp g).uvLow < volt ∧ volt + 5 * b2n (s.grp g).ovOver < grpOv (s.grp g).thrNow
  have hyst : feedHyst = 5 := rfl
  cases hl : (s.grp g).uvLow <;> cases ho : (s.grp g).ovOver
  all_goals
    simp [feedInWindow, belowNow, aboveNow, hl, ho, b2n]
    omega

theorem exec_feedQualify {volt : Nat} (hc : clocksRun s = true) (hst : (s.grp g).st = .off) (ha : feedAllowed s g = true) (hb : thrBad (s.grp g) = false)
    (hu : fld (s.grp g).thrNow 29 20 + 5 * b2n (s.grp g).uvLow < volt) (ho : volt + 5 * b2n (s.grp g).ovOver < fld (s.grp g).thrNow 9 0) :
    ∃ t, exec (.feedQualify g volt) s = .next t ∧
      (t.grp g).st = .qualifying ∧ Posted 0x09 (0x48 + g.val) t ∧ t.ports = s.ports ∧ ∀ h, h ≠ g → t.grp h = s.grp h := by
  have hwin : feedInWindow s g volt = true := feedInWindow_iff.mpr ⟨hu, ho⟩
  refine goes_feedState (i := .feedQualify g volt) (ok := _) (f := fun s => setFeed g .qualifying (seeFeedV g volt s)) rfl ?_
    (seeFeedV_onGroup (.refl g s) volt) ?_ rfl
  · simp [hc, hst, ha, hb, hwin]
  · rw [seeFeedV, modGrp_grp_self, hst]
    decide

theorem exec_feedQualifyBreak {volt : Nat} (hst : (s.grp g).st = .qualifying)
    (hv : volt ≤ fld (s.grp g).thrNow 29 20 + 5 * b2n (s.grp g).uvLow ∨ fld (s.grp g).thrNow 9 0 ≤ volt + 5 * b2n (s.grp g).ovOver) :
    ∃ t, exec (.feedQualifyBreak g volt) s = .next t ∧
      (t.grp g).st = .off ∧ Posted 0x09 (0x48 + g.val) t ∧ t.ports = s.ports ∧ ∀ h, h ≠ g → t.grp h = s.grp h := by
  have hwin : feedInWindow s g volt = false := by
    rw [Bool.eq_false_iff, ne_eq, feedInWindow_iff]
    omega
  refine goes_feedState (i := .feedQualifyBreak g volt) (ok := _) (f := fun s => setFeed g .off (seeFeedV g volt s)) rfl ?_
    (seeFeedV_onGroup (.refl g s) volt) ?_ rfl
  · simp [hst, hwin]
  · rw [seeFeedV, modGrp_grp_self, hst]
    decide

theorem exec_feedRampStart (hst : (s.grp g).st = .qualifying) (hb : thrBad (s.grp g) = false) : ∃ t, exec (.feedRampStart g) s = .next t ∧
    (t.grp g).st = .ramping ∧ Posted 0x09 (0x48 + g.val) t ∧ t.ports = s.ports ∧ ∀ h, h ≠ g → t.grp h = s.grp h :=
  goes_feedState (i := .feedRampStart g) rfl (by simp [hst, hb]) (.refl g s) (by rw [hst]; decide) rfl

theorem exec_feedRampStart_bad (hb : thrBad (s.grp g) = true) : exec (.feedRampStart g) s = .next s := onGroup_refused (by simp [hb])

theorem exec_feedOn (hst : (s.grp g).st = .ramping) : ∃ t, exec (.feedOn g) s = .next t ∧
    (t.grp g).st = .on ∧ Posted 0x09 (0x48 + g.val) t ∧ t.ports = s.ports ∧ ∀ h, h ≠ g → t.grp h = s.grp h := by
  obtain ⟨t, ht, hn⟩ := goes_onGroup (i := .feedOn g) (s := s) (g := g) rfl (by simp [hst])
  have hpost : Posted 0x09 (0x48 + g.val) (setFeed g .on s) := setFeed_posted g s (by rw [hst]; decide)
  refine ⟨t, ht, ?_, hn.posted (hpost.quiet (settle_quiet (.refl _))), hn.onGroup (settle_onGroup (setFeed_onGroup (.refl g s) .on))⟩
  rw [hn.grp, settle_grp, setFeed_grp_self]

/-! ### Power-good and its warning (07 R231, R234) -/

theorem exec_feedPgood {volt : Nat} (hl : (s.grp g).limiting = false)
    (hst : (s.grp g).st = .on ∨ (s.grp g).st = .warning ∧ fld (s.grp g).thrNow 19 10 + 5 < volt) : ∃ t, exec (.feedPgood g volt) s = .next t ∧
      (t.grp g).st = .good ∧ (t.grp g).pg = true ∧ (t.grp g).feedV = volt ∧ ∀ h, h ≠ g → t.grp h = s.grp h := by
  have hok : (!(s.grp g).limiting && ((s.grp g).st == .on || ((s.grp g).st == .warning && decide (grpWarn (s.grp g).thrNow + feedHyst < volt)))) = true := by
    rcases hst with e | ⟨e, hv⟩
    · simp [hl, e]
    · simp [hl, e, grpWarn, feedHyst, hv]
  obtain ⟨t, ht, hn⟩ := goes_onGroup (i := .feedPgood g volt) (s := s) (g := g) rfl hok
  have hu : OnGroup g s (settle (setFeedPg g true 3 (setFeed g .good (seeFeedV g volt s)))) :=
    settle_onGroup (setFeedPg_onGroup (setFeed_onGroup (seeFeedV_onGroup (.refl g s) volt) .good) true 3)
  have hg : (settle (setFeedPg g true 3 (setFeed g .good (seeFeedV g volt s)))).grp g = { (seeFeedV g volt s).grp g with st := .good, pg := true } := by
    rw [settle_grp, setFeedPg_grp_self, setFeed_grp_self]
  generalize settle (setFeedPg g true 3 (setFeed g .good (seeFeedV g volt s))) = u at hn hu hg
  have hgrps : t.grps = u.grps := by
    refine hn.grps.trans ((forEach_grps fun q v => (syncHub_works (.refl q v)).grps).trans ?_)
    exact ite_grps (forEach_grps feedBack_grps) rfl
  have htg (h : TileId) : t.grp h = u.grp h := congrArg (fun v : Vector Group 8 => v[h]) hgrps
  refine ⟨t, ht, ?_, ?_, ?_, fun h hh => (htg h).trans (hu.others h hh)⟩
  · rw [htg, hg]
  · rw [htg, hg]
  · rw [htg, hg, seeFeedV, modGrp_grp_self]

theorem exec_feedWarn {volt : Nat} (hst : (s.grp g).st = .good) (hv : volt < fld (s.grp g).thrNow 19 10) : ∃ t, exec (.feedWarn g volt) s = .next t ∧
    (t.grp g).st = .warning ∧ (t.grp g).pg = false ∧ (t.grp g).feedV = volt ∧ ∀ h, h ≠ g → t.grp h = s.grp h := by
  obtain ⟨t, ht, hx, -, ho⟩ := goes_grp (i := .feedWarn g volt) (s := s) (g := g) rfl (by simp [hst, grpWarn, hv])
    (settle_onGroup (setFeedPg_onGroup (setFeed_onGroup (seeFeedV_onGroup (.refl g s) volt) .warning) false 4))
    (x := { (seeFeedV g volt s).grp g with st := .warning, pg := false }) (by rw [settle_grp, setFeedPg_grp_self, setFeed_grp_self])
  refine ⟨t, ht, by rw [hx], by rw [hx], ?_, ho⟩
  rw [hx, seeFeedV, modGrp_grp_self]

/-! ### Current limit (07 R232) -/

theorem gateDriven_iff : gateDriven s g = true ↔ (s.grp g).st = .ramping ∨ (s.grp g).st = .on ∨ (s.grp g).st = .good ∨ (s.grp g).st = .warning := by
  unfold gateDriven feedUp
  cases (s.grp g).st <;> decide

theorem exec_feedLimit {cur : Nat} (hd : gateDriven s g = true)
    (hl : 100 * (if (s.grp g).st = .ramping then fld (s.grp g).limNow 7 0 else fld (s.grp g).limNow 15 8) ≤ cur * max 1 (fld (s.grp g).cfgNow 11 8)) :
    ∃ t, exec (.feedLimit ⟨g, cur⟩) s = .next t ∧
      t.grp g = { s.grp g with limiting := true, feedI := cur } ∧ t.ports = s.ports ∧ ∀ h, h ≠ g → t.grp h = s.grp h :=
  goes_grp (i := .feedLimit ⟨g, cur⟩) rfl (by rw [Bool.and_eq_true, decide_eq_true_eq]; exact ⟨hd, hl⟩)
    (modGrp_onGroup (seeFeedI_onGroup (.refl g s) cur) _) (by rw [modGrp_grp_self, seeFeedI, modGrp_grp_self])

theorem exec_feedLimitEnd {cur : Nat} (hd : (s.grp g).limiting = true) (hl : cur * max 1 (fld (s.grp g).cfgNow 11 8) + 200 ≤
      100 * (if (s.grp g).st = .ramping then fld (s.grp g).limNow 7 0 else fld (s.grp g).limNow 15 8)) :
    ∃ t, exec (.feedLimitEnd ⟨g, cur⟩) s = .next t ∧
      t.grp g = { s.grp g with limiting := false, feedI := cur } ∧ t.ports = s.ports ∧ ∀ h, h ≠ g → t.grp h = s.grp h :=
  goes_grp (i := .feedLimitEnd ⟨g, cur⟩) rfl (by rw [Bool.and_eq_true, decide_eq_true_eq]; exact ⟨hd, hl⟩)
    (modGrp_onGroup (seeFeedI_onGroup (.refl g s) cur) _) (by rw [modGrp_grp_self, seeFeedI, modGrp_grp_self])

/-! ### Cooldown (07 R230) -/

theorem exec_feedCooldownEnd (hst : (s.grp g).st = .cooldown) : ∃ t, exec (.feedCooldownEnd g) s = .next t ∧
    (t.grp g).st = (if feedAllowed s g then .off else .disabled) ∧ t.ports = s.ports ∧ ∀ h, h ≠ g → t.grp h = s.grp h := by
  obtain ⟨t, ht, hx, hrest⟩ := goes_grp (i := .feedCooldownEnd g) (s := s) (g := g) rfl (by simp [hst]) (setFeed_onGroup (.refl g s) _)
    (setFeed_grp_self ..)
  exact ⟨t, ht, by rw [hx], hrest⟩

theorem exec_feedStageReset (hp : (s.grp g).pg = true) : ∃ t, exec (.feedStageReset g) s = .next t ∧
    t.grp g = { s.grp g with trips := 0, stage := 0 } ∧ t.ports = s.ports ∧ ∀ h, h ≠ g → t.grp h = s.grp h :=
  goes_grp (i := .feedStageReset g) rfl hp (modGrp_onGroup (.refl g s) _) (modGrp_grp_self ..)

/-! ### The high rail comes up (07 R236) -/

theorem exec_railUp {volt : Nat} (hp : (s.grp g).pg = true) (hr : railVolt s g ≠ 0) (hu : (s.grp g).railUp = false)
    (hv : inWindow (railVolt s g) volt = true) : ∃ t, exec (.railUp g volt) s = .next t ∧
      t.grp g = { s.grp g with railUp := true, railV := volt } ∧ ∀ h, h ≠ g → t.grp h = s.grp h := by
  obtain ⟨t, ht, hn⟩ := goes_onGroup (i := .railUp g volt) (s := s) (g := g) rfl (by simp [hp, hr, hu, hv])
  have hgrps : t.grps = (modGrp g (fun x => { x with railUp := true, railV := volt }) s).grps :=
    hn.grps.trans (forEach_grps fun q v => ite_grps (rewant_grps q v) rfl)
  have htg (h : TileId) : t.grp h = (modGrp g (fun x => { x with railUp := true, railV := volt }) s).grp h :=
    congrArg (fun v : Vector Group 8 => v[h]) hgrps
  exact ⟨t, ht, (htg g).trans (modGrp_grp_self ..), fun h hh => (htg h).trans (modGrp_grp_of_ne _ _ _ hh)⟩

/-! ### A switch-off (07 R230) -/

/-- What a switch-off of the feed leaves: everything of `FeedDown`, the cooldown of its stage, its flag and its records. -/
def FeedTripped (g : TileId) (flag : Nat) (s t : State) : Prop :=
  FeedDown g t ∧ (t.grp g).st = .cooldown ∧ (t.grp g).trips = (s.grp g).trips + 1 ∧ (t.grp g).stage = min 4 (s.grp g).trips ∧
    (t.grp g).flags = (s.grp g).flags ||| BitVec.ofNat 8 (2 ^ flag) ∧ Posted 0x07 (0x48 + g.val) t ∧ Posted 0x08 (0x48 + g.val) t ∧
    ∀ h, h ≠ g → t.grp h = s.grp h

/-- The group's marks of a switch-off. -/
def Group.tripped (flag : Nat) (deep : Bool) (x : Group) : Group :=
  { x with flags := x.flags ||| BitVec.ofNat 8 (2 ^ flag), trips := x.trips + 1, stage := min 4 x.trips, deepTrip := deep, pg := false, st := .cooldown }

/-- The group before its ports lose their power: the marks and the records of the switch-off stand. -/
theorem feedTrip_eq (g : TileId) (flag cause current : Nat) (s : State) : ∃ u, feedTrip g flag cause current s = feedDownPorts g u ∧ OnGroup g s u ∧
    u.grp g = (s.grp g).tripped flag (inDeep s) ∧ Posted 0x07 (0x48 + g.val) u ∧ Posted 0x08 (0x48 + g.val) u := by
  unfold feedTrip
  extract_lets x stage s₁ s₂ s₃
  have h₁ : OnGroup g s s₁ := modGrp_onGroup (.refl g s) _
  have h₂ : OnGroup g s s₂ := postTile_onGroup h₁ _ _ _
  have hp₂ : Posted 0x07 (0x48 + g.val) s₂ := postTile_posted ..
  have hg₂ : s₂.grp g = { x with flags := x.flags ||| BitVec.ofNat 8 (2 ^ flag), trips := x.trips + 1, stage := stage, deepTrip := inDeep s } :=
    (postTile_grp ..).trans (modGrp_grp_self ..)
  clear_value s₂
  have hpg : OnGroup g s₂ (putFeedPg g false 5 s₂) := putFeedPg_onGroup (.refl g s₂) false 5
  have hst : OnGroup g (putFeedPg g false 5 s₂) s₃ := setFeed_onGroup (.refl g _) .cooldown
  refine ⟨s₃, rfl, h₂.trans (hpg.trans hst), ?_, hp₂.quiet (hpg.trans hst).quiet, (putFeedPg_posted g s₂ false 5).quiet hst.quiet⟩
  simp only [s₃, setFeed_grp_self, putFeedPg_grp_self, hg₂]
  rfl

theorem tripFeed_tripped (g : TileId) (flag cause current : Nat) (s : State) : FeedTripped g flag s (tripFeed g flag cause current s) := by
  unfold tripFeed
  obtain ⟨u, he, hu, hg, h7, h8⟩ := feedTrip_eq g flag cause current s
  rw [he]
  have hd := feedDownPorts_unpowered g u
  have hl := feedLost_policies g (feedDownPorts g u)
  have hx := hd.grpSelf
  rw [hg] at hx
  have hdown : FeedDown g (feedDownPorts g u) := hd.feedDown (by rw [hg]; rfl)
  unfold FeedTripped
  refine ⟨hdown.policies hl, ?_, ?_, ?_, ?_, h7.quiet (hd.quiet.trans hl.quiet), h8.quiet (hd.quiet.trans hl.quiet),
    fun h hh => (hl.grp h).trans ((hd.others h hh).trans (hu.others h hh))⟩
  all_goals
    rw [hl.grp, hx]
    rfl

/-- What was measured before the switch-off leaves what it starts from. -/
theorem FeedTripped.after {flag : Nat} (h : FeedTripped g flag u t) (ht : (u.grp g).trips = (s.grp g).trips) (hf : (u.grp g).flags = (s.grp g).flags)
    (ho : ∀ h, h ≠ g → u.grp h = s.grp h) : FeedTripped g flag s t := by
  obtain ⟨hd, hst, htr, hsg, hfl, h7, h8, hot⟩ := h
  exact ⟨hd, hst, ht ▸ htr, ht ▸ hsg, hf ▸ hfl, h7, h8, fun h hh => (hot h hh).trans (ho h hh)⟩

theorem FeedTripped.noted {flag : Nat} (h : FeedTripped g flag s u) (hn : Noted u t) : FeedTripped g flag s t := by
  obtain ⟨hd, hst, htr, hsg, hfl, h7, h8, hot⟩ := h
  refine ⟨hd.noted hn, ?_, ?_, ?_, ?_, hn.posted h7, hn.posted h8, fun h hh => (hn.grp h).trans (hot h hh)⟩
  all_goals
    rw [hn.grp]
    assumption

/-- A command that switches the feed off after a measurement. -/
theorem goes_tripFeed {i : Instr} {ok : State → Bool} {f : State → State} (h : exec i s = onGroup g ok f s) (hok : ok s = true)
    {k : Group → Group} {flag cause current : Nat} (hf : f s = tripFeed g flag cause current (modGrp g k s)) (ht : ∀ x, (k x).trips = x.trips)
    (hl : ∀ x, (k x).flags = x.flags) : ∃ t, exec i s = .next t ∧ FeedTripped g flag s t := by
  obtain ⟨t, hexec, hn⟩ := goes_onGroup h hok
  rw [hf] at hn
  refine ⟨t, hexec, ((tripFeed_tripped g flag cause current (modGrp g k s)).after ?_ ?_ fun h hh => modGrp_grp_of_ne _ _ _ hh).noted hn⟩
  · rw [modGrp_grp_self, ht]
  · rw [modGrp_grp_self, hl]

theorem modGrp_id (g : TileId) (s : State) : modGrp g id s = s := by
  have hset : s.grps.set g (id s.grps[g]) = s.grps := Vector.set_getElem_self _
  unfold modGrp
  rw [hset]

section
variable (hd : gateDriven s g = true) {volt cur : Nat}
include hd

theorem exec_feedFaultTimer (hl : (s.grp g).limiting = true) : ∃ t, exec (.feedFaultTimer g) s = .next t ∧ FeedTripped g 4 s t :=
  goes_tripFeed (i := .feedFaultTimer g) (k := id) rfl (by simp [hd, hl])
    (congrArg (tripFeed g 4 12 (s.grp g).feedI) (modGrp_id g s).symm) (fun _ => rfl) fun _ => rfl

theorem exec_feedFastTrip (hl : 100 * fld (s.grp g).limNow 23 16 < cur * max 1 (fld (s.grp g).cfgNow 11 8)) :
    ∃ t, exec (.feedFastTrip g cur) s = .next t ∧ FeedTripped g 5 s t :=
  goes_tripFeed (i := .feedFastTrip g cur) rfl (by rw [Bool.and_eq_true, decide_eq_true_eq]; exact ⟨hd, hl⟩) rfl (fun _ => rfl) fun _ => rfl

theorem exec_feedUv (hv : volt < fld (s.grp g).thrNow 29 20) : ∃ t, exec (.feedUv g volt) s = .next t ∧ FeedTripped g 2 s t :=
  goes_tripFeed (i := .feedUv g volt) rfl (by rw [Bool.and_eq_true, decide_eq_true_eq]; exact ⟨hd, hv⟩) rfl (fun _ => rfl) fun _ => rfl

theorem exec_feedOv (hv : fld (s.grp g).thrNow 9 0 < volt) : ∃ t, exec (.feedOv g volt) s = .next t ∧ FeedTripped g 3 s t :=
  goes_tripFeed (i := .feedOv g volt) rfl (by rw [Bool.and_eq_true, decide_eq_true_eq]; exact ⟨hd, hv⟩) rfl (fun _ => rfl) fun _ => rfl

theorem exec_feedGateRiseFail : ∃ t, exec (.feedGateRiseFail g) s = .next t ∧ FeedTripped g 6 s t :=
  goes_tripFeed (i := .feedGateRiseFail g) (k := id) rfl hd (congrArg (tripFeed g 6 14 (s.grp g).feedI) (modGrp_id g s).symm) (fun _ => rfl) fun _ => rfl

end

theorem exec_feedFastTrip_under {cur : Nat} (hl : cur * max 1 (fld (s.grp g).cfgNow 11 8) ≤ 100 * fld (s.grp g).limNow 23 16) :
    exec (.feedFastTrip g cur) s = .next s := by
  refine onGroup_refused ?_
  rw [Bool.and_eq_false_iff, decide_eq_false_iff_not]
  exact .inr (Nat.not_lt.mpr hl)

end

end Sys2Proof.Machine
end

section
/-!
PROOF. O39: a high rail that is lost trips the ports that it feeds, and each of their policies sends Hard Reset (07 R236).
-/
namespace Sys2Proof.Machine

/-! ### A weaver that acts goes on acting while another port sends a budget word -/

section
variable {p q : PortId} {s : State}

/-- The send stall of another port's weaver. -/
theorem followStall_acts (hq : q ≠ p) : weaverActs (followStall p s) q = weaverActs s q := by
  have hcpu : cpuOf (followStall p s) (.weaver q) = cpuOf s (.weaver q) := by rw [followStall, cpuOf_modThr, if_neg hq]
  exact weaverActs_congr (by rw [hcpu]) (by rw [hcpu]) rfl rfl rfl

/-- The words of other ports do not bear on a weaver. -/
theorem acts_of_words {t : State} (h : weaverActs s q = true) (hc : cpuOf t (.weaver q) = cpuOf s (.weaver q)) (hs : t.flt.safe = s.flt.safe)
    (hk : clocksRun t = clocksRun s) (hw : ∀ x ∈ t.bud.up, x.1 = q → x ∈ s.bud.up) : weaverActs t q = true := by
  simp only [weaverActs, weaverUp, weaverLives, sendStalled, wordPends, Bool.and_eq_true, Bool.not_eq_true', Bool.or_eq_false_iff, hc, hs, hk] at h ⊢
  obtain ⟨hup, hnone, hst⟩ := h
  refine ⟨hup, ?_, hst⟩
  rw [List.any_eq_false] at hnone ⊢
  intro x hx hxq
  exact hnone x (hw x hx (by simpa using hxq)) hxq

theorem acts_noWord {x : PortId × BudWord} (h : weaverActs s q = true) (hx : x ∈ s.bud.up) : x.1 ≠ q := by
  simp only [weaverActs, sendStalled, wordPends, Bool.and_eq_true, Bool.not_eq_true', Bool.or_eq_false_iff] at h
  obtain ⟨-, hnone, -⟩ := h
  exact fun e => List.any_eq_false.mp hnone x hx (by simpa using e)

theorem pumpUp_acts (g : TileId) (h : weaverActs s q = true) : weaverActs (pumpUp g s) q = true := by
  unfold pumpUp
  split
  · exact h
  · split
    · next x hx =>
      rw [followStall_acts (Ne.symm (acts_noWord h (List.mem_of_find?_eq_some hx)))]
      exact acts_of_words h rfl rfl rfl fun y hy _ => List.mem_of_mem_erase hy
    · exact h

theorem sendUp_acts (hq : q ≠ p) (op power : Nat) (h : weaverActs s q = true) : weaverActs (sendUp p op power s) q = true := by
  unfold sendUp drawNat
  dsimp only
  rw [followStall_acts hq]
  refine pumpUp_acts _ (acts_of_words h rfl rfl rfl fun x hx e => ?_)
  rcases List.mem_append.mp hx with hx | hx
  · exact hx
  · exact absurd (e ▸ congrArg Prod.fst (List.mem_singleton.mp hx)) hq

/-! ### The policy sends Hard Reset (07 R236, 06 R188) -/

theorem putTx_acts (m : PdMsg) : weaverActs (putTx p m s) q = weaverActs s q := by
  unfold putTx
  split <;> rfl

theorem hardResetSeq_acts (hq : q ≠ p) (sent : Bool) (h : weaverActs s q = true) : weaverActs (hardResetSeq p sent s) q = true := by
  unfold hardResetSeq
  extract_lets s₁ s₂ s₃ s₄ s₅
  have h₁ : weaverActs s₁ q = true := by
    simp only [s₁]
    split
    · rw [postAlt, weaverActs_weaverPost]
      exact h
    · exact h
  clear_value s₁
  have h₄ : weaverActs s₄ q = true := by
    simp only [s₄, s₃, s₂, setRp, phyOpts, openSbu, phyHardReset, weaverActs_modTc, weaverActs_modPhy, weaverActs_modPd]
    exact h₁
  clear_value s₄
  have h₅ : weaverActs s₅ q = true := by
    simp only [s₅]
    split
    · rw [putTx_acts]
      exact h₄
    · exact h₄
  exact sendUp_acts hq _ _ (((fallToBase_quiet (.refl s₅) p).acts q).trans h₅)

/-! ### A port on the rail -/

theorem loseRailPort_frame (p : PortId) (s : State) : (∀ q, q ≠ p → (loseRailPort p s).port q = s.port q) ∧ (loseRailPort p s).grps = s.grps := by
  unfold loseRailPort
  split
  · extract_lets u
    have hu : Works p s u := tripPort_works (.refl p s) _ _ _ _
    clear_value u
    have hlater : (∀ q, q ≠ p → (orLater p .sendReset (sendHardReset p) u).port q = u.port q) ∧
        (orLater p .sendReset (sendHardReset p) u).grps = u.grps := by
      unfold orLater
      split
      · have hr := (sendHardReset_policy (.refl p u)).on
        exact ⟨hr.others, hr.grps⟩
      · exact ⟨fun q hq => modPd_port_of_ne hq _, rfl⟩
    exact ⟨fun q hq => (hlater.1 q hq).trans (hu.others q hq), hlater.2.trans hu.grps⟩
  · exact ⟨fun _ _ => rfl, rfl⟩

theorem loseRailPort_acts (hq : q ≠ p) (h : weaverActs s q = true) : weaverActs (loseRailPort p s) q = true := by
  unfold loseRailPort
  split
  · extract_lets u
    have hu : weaverActs u q = true := ((tripPort_works (.refl p s) _ _ _ _).quiet.acts q).trans h
    clear_value u
    unfold orLater sendHardReset
    split
    · split
      · exact hardResetSeq_acts hq true hu
      · exact hu
    · exact hu
  · exact h

/-- What the loss of its rail leaves of port p, whose weaver acted (`acts`) on an attached port. -/
def RailGone (p : PortId) (acts : Bool) (t : State) : Prop :=
  (t.port p).pw.pathNow = .none ∧ (t.port p).pw.keeper = 0 ∧ (acts = true → (t.port p).pd.pe = .hardReset)

theorem loseRailPort_gone (h : (s.port p).pw.pathNow = .rail) :
    RailGone p (weaverActs s p && (s.port p).tc.st == .attached) (loseRailPort p s) := by
  unfold loseRailPort RailGone
  rw [if_pos h]
  extract_lets u
  have hpw : (u.port p).pw = (s.port p).pw.trip 15 s.now := tripPort_pw ..
  have htc : (u.port p).tc = (s.port p).tc := tripPort_tc ..
  have hacts : weaverActs u p = weaverActs s p := (tripPort_works (.refl p s) _ _ _ _).quiet.acts p
  clear_value u
  have hlater : ((orLater p .sendReset (sendHardReset p) u).port p).pw = (u.port p).pw := by
    unfold orLater
    split
    · exact (sendHardReset_policy (.refl p u)).pw
    · rw [modPd_port_self]
  rw [hlater, hpw]
  refine ⟨rfl, rfl, fun ha => ?_⟩
  obtain ⟨ha, hst⟩ : weaverActs s p = true ∧ (s.port p).tc.st = .attached := by simpa using ha
  rw [orLater_of_acts (hacts.trans ha), sendHardReset, if_pos (htc ▸ hst), hardResetSeq_port]
  rfl

theorem loseRailPort_apart (h : (s.port p).pw.pathNow ≠ .rail) : loseRailPort p s = s := if_neg h

end

section
variable {g : TileId} {p : PortId} {s : State} {volt : Nat}

/-- The loop over the ports of the group visits a port on the rail as it was, with its weaver acting as it did. -/
theorem loseRail_gone (hp : tileOf p = g) (h : (s.port p).pw.pathNow = .rail) :
    RailGone p (weaverActs s p && (s.port p).tc.st == .attached) (forEach (portsOf g) loseRailPort s) := by
  refine forEach_visited (I := fun u => u.port p = s.port p ∧ (weaverActs s p = true → weaverActs u p = true)) (mem_portsOf.mpr hp) (portsOf_nodup g)
    (fun q u hq hu => ⟨((loseRailPort_frame q u).1 p (Ne.symm hq)).trans hu.1, fun ha => loseRailPort_acts (Ne.symm hq) (hu.2 ha)⟩)
    (fun u hu => ?_) (fun q u hq hu => ?_) ⟨rfl, id⟩
  · obtain ⟨hport, hacts⟩ := hu
    obtain ⟨hn, hk, hpe⟩ := loseRailPort_gone (p := p) (s := u) (by rw [hport]; exact h)
    refine ⟨hn, hk, fun ha => hpe ?_⟩
    obtain ⟨ha, hst⟩ : weaverActs s p = true ∧ (s.port p).tc.st = .attached := by simpa using ha
    simp [hacts ha, hport, hst]
  · unfold RailGone at *
    rw [(loseRailPort_frame q u).1 p (Ne.symm hq)]
    exact hu

/-- A port that is not on the rail keeps its power path. -/
theorem loseRail_apart (h : (s.port p).pw.pathNow ≠ .rail) : (forEach (portsOf g) loseRailPort s).port p = s.port p := by
  refine forEach_invariant (P := fun u => u.port p = s.port p) (fun q u hu => ?_) rfl
  by_cases e : p = q
  · subst e
    rw [loseRailPort_apart (hu ▸ h), hu]
  · exact ((loseRailPort_frame q u).1 p e).trans hu

theorem exec_railLost (hu : (s.grp g).railUp = true) (hv : volt * 100 < railVolt s g * 90) : ∃ t, exec (.railLost g volt) s = .next t ∧
    (t.grp g).railUp = false ∧ (t.grp g).railV = volt ∧ (∀ h, h ≠ g → t.grp h = s.grp h) ∧
    (tileOf p = g → (s.port p).pw.pathNow = .rail → (t.port p).pw.pathNow = .none ∧ (t.port p).pw.keeper = 0 ∧
      (weaverActs s p = true → (s.port p).tc.st = .attached → (t.port p).pd.pe = .hardReset)) ∧
    ((s.port p).pw.pathNow ≠ .rail → (t.port p).pw = (s.port p).pw) := by
  obtain ⟨t, ht, hn⟩ := goes_onGroup (i := .railLost g volt) (s := s) (g := g) rfl (by simp [hu, hv])
  have hgrps := hn.grps.trans (forEach_grps fun q v => (loseRailPort_frame q v).2)
  have htg (h : TileId) : t.grp h = (modGrp g (fun x => { x with railUp := false, railV := volt }) s).grp h :=
    congrArg (fun v : Vector Group 8 => v[h]) hgrps
  refine ⟨t, ht, ?_, ?_, fun h hh => (htg h).trans (modGrp_grp_of_ne _ _ _ hh), fun hp hr => ?_, fun hr => ?_⟩
  · rw [htg, modGrp_grp_self]
  · rw [htg, modGrp_grp_self]
  · obtain ⟨hpath, hk, hpe⟩ := loseRail_gone (s := modGrp g (fun x => { x with railUp := false, railV := volt }) s) hp hr
    rw [hn.port]
    exact ⟨hpath, hk, fun ha hst => hpe (Bool.and_eq_true_iff.mpr ⟨ha, beq_iff_eq.mpr hst⟩)⟩
  · rw [hn.port]
    exact congrArg Port.pw (loseRail_apart (s := modGrp g (fun x => { x with railUp := false, railV := volt }) s) hr)

end

/-- Settles O39: each command under its own condition; every switch-off is one operation (`tripFeed_tripped`), and so is the loss of the rail for
each port that it feeds (`loseRail_gone`). -/
theorem groupFeeds : Obligations.GroupFeeds := by
  unfold Obligations.GroupFeeds
  intro g p s volt cur x others moved uv warn ov drop lim driven tripped
  have hdriven : driven = true → gateDriven s g = true := fun h => by
    rw [gateDriven_iff]
    simpa [driven, or_assoc] using h
  exact ⟨exec_feedQualify, exec_feedQualifyBreak, exec_feedRampStart, fun _ hb => ⟨s, exec_feedRampStart_bad hb, rfl, rfl⟩, exec_feedOn, exec_feedPgood,
    exec_feedWarn, fun hd => exec_feedLimit (hdriven hd), exec_feedLimitEnd, fun hd => exec_feedFaultTimer (hdriven hd),
    fun hd => exec_feedFastTrip (hdriven hd), fun hl => ⟨s, exec_feedFastTrip_under hl, rfl, rfl⟩, fun hd => exec_feedUv (hdriven hd),
    fun hd => exec_feedOv (hdriven hd), fun hd => exec_feedGateRiseFail (hdriven hd), exec_feedCooldownEnd, exec_feedStageReset, exec_railUp,
    exec_railLost⟩

end Sys2Proof.Machine
end

section
/-!
PROOF. Relay slots: the eligible port of the lowest rank, SPACING apart (07 R243).
-/
namespace Sys2Proof.Machine

/-! ### Ports in ascending order of a rank -/

section
variable {rank : PortId → Nat}

theorem insertBy_head? (p : PortId) (l : List PortId) : (insertBy rank p l).head? =
    some (match l.head? with
      | none => p
      | some q => if rank p ≤ rank q then p else q) := by
  cases l with
  | nil => rfl
  | cons q qs =>
    unfold insertBy
    simp only [List.head?_cons]
    split <;> rfl

/-- The first port has the lowest rank of all. -/
theorem sortBy_head? {p : PortId} {l : List PortId} (h : (sortBy rank l).head? = some p) : p ∈ l ∧ ∀ q ∈ l, rank p ≤ rank q := by
  induction l generalizing p with
  | nil => exact absurd h (by simp [sortBy])
  | cons x xs ih =>
    have hx : (sortBy rank (x :: xs)).head? = _ := insertBy_head? (rank := rank) x (sortBy rank xs)
    rw [h] at hx
    cases hq : (sortBy rank xs).head? with
    | none =>
      have hnil : xs = [] := by
        cases xs with
        | nil => rfl
        | cons y ys =>
          have hy : (sortBy rank (y :: ys)).head? = _ := insertBy_head? (rank := rank) y (sortBy rank ys)
          rw [hq] at hy
          exact absurd hy (by simp)
      simp only [hq, Option.some.injEq] at hx
      subst hnil hx
      exact ⟨List.mem_singleton.mpr rfl, fun q hm => by rw [List.mem_singleton.mp hm]⟩
    | some q =>
      obtain ⟨hmem, hleast⟩ := ih hq
      simp only [hq, Option.some.injEq] at hx
      split at hx
      · next hle =>
        subst hx
        exact ⟨List.mem_cons_self, List.forall_mem_cons.mpr ⟨Nat.le_refl _, fun y hy => Nat.le_trans hle (hleast y hy)⟩⟩
      · next hgt =>
        subst hx
        exact ⟨List.mem_cons_of_mem _ hmem, List.forall_mem_cons.mpr ⟨Nat.le_of_not_le hgt, hleast⟩⟩

theorem sortBy_head?_isSome {p : PortId} {l : List PortId} (h : p ∈ l) : ∃ q, (sortBy rank l).head? = some q := by
  cases l with
  | nil => exact absurd h List.not_mem_nil
  | cons x xs => exact ⟨_, insertBy_head? x (sortBy rank xs)⟩

end

/-! ### The relay engine (07 R243, 13 R429) -/

section
variable {p : PortId} {s : State}

/-- No two ports have the same rank. -/
theorem relayRank_inj {p q : PortId} (h : relayRank s p = relayRank s q) : p = q := by
  have hp := p.isLt
  have hq := q.isLt
  unfold relayRank at h
  exact Fin.ext (by omega)

theorem nextRelay_of_least (he : eligible s p = true) (hl : ∀ q, eligible s q = true → relayRank s p ≤ relayRank s q) : nextRelay s = some p := by
  have hmem (q : PortId) : q ∈ (fins 64).filter (eligible s) ↔ eligible s q = true := by simp [fins]
  obtain ⟨q, hq⟩ := sortBy_head?_isSome (rank := relayRank s) ((hmem p).mpr he)
  obtain ⟨hqm, hleast⟩ := sortBy_head? hq
  have heq : relayRank s p = relayRank s q := Nat.le_antisymm (hl q ((hmem q).mp hqm)) (hleast p ((hmem p).mpr he))
  rw [relayRank_inj heq]
  exact hq

theorem nextRelay_none (he : ∀ q, eligible s q = false) : nextRelay s = none := by
  have hnil : (fins 64).filter (eligible s) = [] := List.filter_eq_nil_iff.mpr fun q _ => by simp [he q]
  rw [nextRelay, hnil]
  rfl

theorem relayDue_iff : relayDue s = true ↔ ∀ a, s.bud.relayAt = some a → a + 12500 * max 5 (fld s.bud.relay 7 0) ≤ s.now := by
  unfold relayDue relayTicks
  cases s.bud.relayAt with
  | none => simp
  | some a => simp [Nat.mul_comm 12500]

/-- The port that takes the slot, and when it took it. -/
def relayStart (p : PortId) (s : State) : State := modBud (fun b => { b with relayAt := some s.now }) (startRamp p s)

theorem exec_relayGrant_due (hc : clocksRun s = true) (hs : s.flt.safe = false) (hd : relayDue s = true) (hn : nextRelay s = some p) :
    exec .relayGrant s = .next (portEv p (relayStart p) s) := by
  have hok : (clocksRun s && !s.flt.safe && relayDue s) = true := by simp [hc, hs, hd]
  refine congrArg Host.Outcome.next ((if_pos hok).trans ?_)
  rw [hn]
  rfl

theorem exec_relayGrant (hc : clocksRun s = true) (hs : s.flt.safe = false)
    (hd : ∀ a, s.bud.relayAt = some a → a + 12500 * max 5 (fld s.bud.relay 7 0) ≤ s.now) (he : eligible s p = true)
    (hl : ∀ q, eligible s q = true → relayRank s p ≤ relayRank s q) : ∃ t, exec .relayGrant s = .next t ∧ (∀ q, q ≠ p → t.port q = s.port q) ∧
      (t.port p).pw.pstate = .ramping ∧ (t.port p).pw.pathNow = kPath (s.port p).pw.inForce ∧ (t.port p).pw.granted = true ∧
      (t.port p).pw.armed = false ∧ (t.port p).pw.effPwr = (s.port p).pw.pwrCfg ∧ t.bud.relayAt = some s.now := by
  obtain ⟨t, ht, hnoted⟩ := goes_portEv (exec_relayGrant_due hc hs (relayDue_iff.mpr hd) (nextRelay_of_least he hl)) rfl
  have hport (q : PortId) : (relayStart p s).port q = (startRamp p s).port q := rfl
  refine ⟨t, ht, fun q hq => (hnoted.port q).trans ((hport q).trans ?_), ?_⟩
  · rw [startRamp, modPw_port_of_ne hq, latchPwrCfg, modPw_port_of_ne hq]
  · rw [hnoted.port, hport, hnoted.bud, startRamp, modPw_port_self, latchPwrCfg, modPw_port_self]
    exact ⟨rfl, rfl, rfl, rfl, rfl, rfl⟩

theorem exec_relayGrant_early {a : Nat} (ha : s.bud.relayAt = some a) (hd : s.now < a + 12500 * max 5 (fld s.bud.relay 7 0)) :
    exec .relayGrant s = .next s := by
  have hnot : relayDue s = false := by
    rw [Bool.eq_false_iff, ne_eq, relayDue_iff]
    exact fun h => absurd (h a ha) (Nat.not_le.mpr hd)
  exact congrArg Host.Outcome.next (if_neg (by simp [hnot]))

theorem exec_relayGrant_none (he : ∀ q, eligible s q = false) : exec .relayGrant s = .next s := by
  refine congrArg Host.Outcome.next ?_
  rw [nextRelay_none he]
  split <;> rfl

theorem exec_relayGrant_safe (hs : s.flt.safe = true) : exec .relayGrant s = .next s := congrArg Host.Outcome.next (if_neg (by simp [hs]))

end

end Sys2Proof.Machine
end

section
/-!
PROOF. Ramps: the probe, the checks, the gate loop, completion and timeout (07 R245 to R247).
-/
namespace Sys2Proof.Machine

section
variable {p : PortId} {s : State}

theorem modPw_modPw (f g : PortPwr → PortPwr) : modPw p f (modPw p g s) = modPw p (fun w => f (g w)) s := by
  have hset : (s.ports.set p { s.ports[p] with pw := g s.ports[p].pw }).set p
      { (s.ports.set p { s.ports[p] with pw := g s.ports[p].pw })[p] with pw := f (s.ports.set p { s.ports[p] with pw := g s.ports[p].pw })[p].pw } =
      s.ports.set p { s.ports[p] with pw := f (g s.ports[p].pw) } := by
    simp [Vector.set_set]
  exact congrArg (fun v : Vector Port 64 => { s with ports := v }) hset

theorem modPw_congr {f g : PortPwr → PortPwr} (h : f (s.port p).pw = g (s.port p).pw) : modPw p f s = modPw p g s :=
  congrArg (fun w => setPort p { s.port p with pw := w } s) h

/-- What a trip after an update of the power path leaves, its events noted. -/
theorem Noted.tripNow {t : State} {cause cur : Nat} {g : PortPwr → PortPwr} (hn : Noted (tripNow p cause cur (modPw p g s)) t) (hc : cause < 32)
    (hr : ∀ w, (g w).retries = w.retries) (he : ∀ w, (g w).effProt = w.effProt) :
    (∀ q, q ≠ p → t.port q = s.port q) ∧ Tripped p cause s t := by
  have htrip := (tripAndTell_tripped p cause 0 cur ((modPw p g s).port p).pw.pathNow (modPw p g s) hc).after (s := s)
    (by rw [modPw_port_self, hr]) (by rw [modPw_port_self, he]) rfl
  exact ⟨hn.others (tripAndTell_works (modPw_works (.refl p s) g) _ _ _ _).others, htrip.noted hn⟩

/-! ### The end of the probe (07 R245) -/

/-- The power path after the probe has measured the load. -/
def PortPwr.probeEnd (vbus cur cload : Nat) (w : PortPwr) : PortPwr :=
  { w with
    vbus := vbus, cur := cur, probed := true, rampBase := vbus, rampChecks := 0, cload := min 1023 cload
    slew := plannedSlew (inrushOf w.effPwr) cload }

/-- What the end of the probe makes of a state. -/
def rampProbed (p : PortId) (vbus cur slew : Nat) (s : State) : State :=
  let inr := inrushOf ((seePort p vbus cur s).port p).pw.effPwr
  let u := modPw p (fun w => { w with
    probed := true, rampBase := vbus, rampChecks := 0, cload := min 1023 (loadCap cur slew 0), slew := plannedSlew inr (loadCap cur slew 0) })
    (seePort p vbus cur s)
  if noLoad (u.port p).pw vbus cur then u else if vbus < 5 ∧ inr ≤ 2 * cur then tripNow p 5 cur u else u

theorem rampProbed_eq (vbus cur slew : Nat) : rampProbed p vbus cur slew s =
    if noLoad (s.port p).pw vbus cur then modPw p (PortPwr.probeEnd vbus cur (loadCap cur slew 0)) s
    else if vbus < 5 ∧ inrushOf (s.port p).pw.effPwr ≤ 2 * cur
      then tripNow p 5 cur (modPw p (PortPwr.probeEnd vbus cur (loadCap cur slew 0)) s)
    else modPw p (PortPwr.probeEnd vbus cur (loadCap cur slew 0)) s := by
  unfold rampProbed
  extract_lets inr u
  have hinr : inr = inrushOf (s.port p).pw.effPwr := by simp only [inr, seePort, modPw_port_self]
  have hu : u = modPw p (PortPwr.probeEnd vbus cur (loadCap cur slew 0)) s := by
    refine (modPw_modPw _ _).trans (modPw_congr ?_)
    rw [PortPwr.probeEnd, ← hinr]
  have hload : noLoad (u.port p).pw vbus cur = noLoad (s.port p).pw vbus cur := by
    rw [hu, modPw_port_self]
    rfl
  rw [hload, hinr, hu]

theorem plannedSlew_of_le {inr cload : Nat} (h : cload ≤ 1023) :
    plannedSlew inr cload = if cload = 0 then 1000 else clampNat 50 1000 ((800 * inr + cload / 2) / cload) := by
  unfold plannedSlew
  rw [if_neg (Nat.not_lt.mpr h)]

theorem loadCap_of_slew {cur slew n : Nat} (h : slew ≠ 0) : loadCap cur slew n = (1000 * cur + slew / 2) / slew := if_neg h

theorem goes_rampProbeEnd {vbus cur slew : Nat} (hst : (s.port p).pw.pstate = .ramping) (hp : (s.port p).pw.probed = false)
    (h : ¬(cur = 0 ∧ slew = 0)) : ∃ t, exec (.rampProbeEnd p vbus cur slew) s = .next t ∧ Noted (rampProbed p vbus cur slew s) t := by
  obtain ⟨t, ht, hn⟩ := goes_onPort (i := .rampProbeEnd p vbus cur slew) (s := s) (p := p) rfl (by simp [ramping, hst, hp])
  refine ⟨t, ht, ?_⟩
  dsimp only at hn
  rw [if_neg h] at hn
  exact hn

section
variable {vbus cur slew : Nat}

theorem exec_rampProbeEnd_measured (hst : (s.port p).pw.pstate = .ramping) (hp : (s.port p).pw.probed = false) (hs : slew ≠ 0)
    (hc : (1000 * cur + slew / 2) / slew ≤ 1023)
    (hload : noLoad (s.port p).pw vbus cur = true ∨ 5 ≤ vbus ∨ 2 * cur < 10 * max 1 (fld (s.port p).pw.effPwr 15 8)) :
    ∃ t, exec (.rampProbeEnd p vbus cur slew) s = .next t ∧ (∀ q, q ≠ p → t.port q = s.port q) ∧
      SameButEvents t (setPort p { s.port p with pw := { (s.port p).pw with
        vbus := vbus, cur := cur, probed := true, rampBase := vbus, rampChecks := 0, cload := min 1023 ((1000 * cur + slew / 2) / slew)
        slew := if (1000 * cur + slew / 2) / slew = 0 then 1000 else clampNat 50 1000
          ((800 * (10 * max 1 (fld (s.port p).pw.effPwr 15 8)) + (1000 * cur + slew / 2) / slew / 2) / ((1000 * cur + slew / 2) / slew)) } } s) := by
  obtain ⟨t, ht, hn⟩ := goes_rampProbeEnd (vbus := vbus) hst hp fun h : cur = 0 ∧ slew = 0 => hs h.2
  have hput : rampProbed p vbus cur slew s = modPw p (PortPwr.probeEnd vbus cur ((1000 * cur + slew / 2) / slew)) s := by
    rw [rampProbed_eq, loadCap_of_slew hs]
    rcases hload with h | h
    · rw [if_pos h]
    · rw [if_neg (c := vbus < 5 ∧ inrushOf (s.port p).pw.effPwr ≤ 2 * cur) (by unfold inrushOf; omega), ite_self]
  rw [hput] at hn
  refine ⟨t, ht, hn.others fun q hq => modPw_port_of_ne hq _, ?_⟩
  rw [← inrushOf, ← plannedSlew_of_le hc]
  exact hn.same

theorem exec_rampProbeEnd_shorted (hst : (s.port p).pw.pstate = .ramping) (hp : (s.port p).pw.probed = false)
    (hload : noLoad (s.port p).pw vbus cur = false) (hv : vbus < 5) (hc : 10 * max 1 (fld (s.port p).pw.effPwr 15 8) ≤ 2 * cur) :
    ∃ t, exec (.rampProbeEnd p vbus cur slew) s = .next t ∧ (∀ q, q ≠ p → t.port q = s.port q) ∧ Tripped p 5 s t := by
  obtain ⟨t, ht, hn⟩ := goes_rampProbeEnd (vbus := vbus) hst hp fun h : cur = 0 ∧ slew = 0 => by omega
  rw [rampProbed_eq, if_neg (by simp [hload]), if_pos ⟨hv, hc⟩] at hn
  exact ⟨t, ht, hn.tripNow (by decide) (fun _ => rfl) fun _ => rfl⟩

/-! ### The checks of the ramp (07 R247) -/

section
variable (hst : (s.port p).pw.pstate = .ramping) (hp : (s.port p).pw.probed = true)
include hst hp

/-- What a check of the ramp makes of a state. -/
def rampChecked (p : PortId) (vbus cur : Nat) (s : State) : State :=
  let u := seePort p vbus cur s
  let w := (u.port p).pw
  if noLoad w vbus cur then modPw p (fun w => { w with rampBase := vbus, rampChecks := 0 }) u
  else if 40 * (vbus - w.rampBase) < min (w.slew * (w.rampChecks + 1)) (20 * (kVolt w.inForce - w.rampBase)) then
    tripNow p (if vbus < 5 then 5 else 6) cur u
  else modPw p (fun x => { x with rampChecks := w.rampChecks + 1 }) u

theorem goes_rampCheck : ∃ t, exec (.rampCheck p vbus cur) s = .next t ∧ Noted (rampChecked p vbus cur s) t :=
  goes_onPort (i := .rampCheck p vbus cur) rfl (by simp [ramping, hst, hp])

omit hst hp in
theorem rampChecked_eq : rampChecked p vbus cur s =
    if noLoad (s.port p).pw vbus cur then modPw p (fun w => { w with vbus := vbus, cur := cur, rampBase := vbus, rampChecks := 0 }) s
    else if 40 * (vbus - (s.port p).pw.rampBase) < min ((s.port p).pw.slew * ((s.port p).pw.rampChecks + 1))
        (20 * (kVolt (s.port p).pw.inForce - (s.port p).pw.rampBase)) then
      tripNow p (if vbus < 5 then 5 else 6) cur (modPw p (fun w => { w with vbus := vbus, cur := cur }) s)
    else modPw p (fun w => { w with vbus := vbus, cur := cur, rampChecks := (s.port p).pw.rampChecks + 1 }) s := by
  unfold rampChecked seePort
  extract_lets u w
  have hw : w = { (s.port p).pw with vbus := vbus, cur := cur } := by simp only [w, u, modPw_port_self]
  simp only [u, modPw_modPw, hw]
  rfl

theorem exec_rampCheck_idle (hl : noLoad (s.port p).pw vbus cur = true) : ∃ t, exec (.rampCheck p vbus cur) s = .next t ∧
    (∀ q, q ≠ p → t.port q = s.port q) ∧
    SameButEvents t (setPort p { s.port p with pw := { (s.port p).pw with vbus := vbus, cur := cur, rampBase := vbus, rampChecks := 0 } } s) := by
  obtain ⟨t, ht, hn⟩ := goes_rampCheck (vbus := vbus) (cur := cur) hst hp
  rw [rampChecked_eq, if_pos hl] at hn
  exact ⟨t, ht, hn.others fun q hq => modPw_port_of_ne hq _, hn.same⟩

theorem exec_rampCheck_rising (hl : noLoad (s.port p).pw vbus cur = false)
    (hd : min ((s.port p).pw.slew * ((s.port p).pw.rampChecks + 1)) (20 * (kVolt (s.port p).pw.inForce - (s.port p).pw.rampBase)) ≤
      40 * (vbus - (s.port p).pw.rampBase)) : ∃ t, exec (.rampCheck p vbus cur) s = .next t ∧ (∀ q, q ≠ p → t.port q = s.port q) ∧
    SameButEvents t (setPort p { s.port p with pw := { (s.port p).pw with
      vbus := vbus, cur := cur, rampChecks := (s.port p).pw.rampChecks + 1 } } s) := by
  obtain ⟨t, ht, hn⟩ := goes_rampCheck (vbus := vbus) (cur := cur) hst hp
  rw [rampChecked_eq, if_neg (by simp [hl]), if_neg (Nat.not_lt.mpr hd)] at hn
  exact ⟨t, ht, hn.others fun q hq => modPw_port_of_ne hq _, hn.same⟩

theorem exec_rampCheck_failed (hl : noLoad (s.port p).pw vbus cur = false)
    (hd : 40 * (vbus - (s.port p).pw.rampBase) <
      min ((s.port p).pw.slew * ((s.port p).pw.rampChecks + 1)) (20 * (kVolt (s.port p).pw.inForce - (s.port p).pw.rampBase))) :
    ∃ t, exec (.rampCheck p vbus cur) s = .next t ∧ (∀ q, q ≠ p → t.port q = s.port q) ∧ Tripped p (if vbus < 5 then 5 else 6) s t := by
  obtain ⟨t, ht, hn⟩ := goes_rampCheck (vbus := vbus) (cur := cur) hst hp
  rw [rampChecked_eq, if_neg (by simp [hl]), if_pos hd] at hn
  exact ⟨t, ht, hn.tripNow (by split <;> decide) (fun _ => rfl) fun _ => rfl⟩

end

/-! ### The gate loop, the breakers and the timeout (07 R246, R247) -/

section
variable (hst : (s.port p).pw.pstate = .ramping)
include hst

theorem exec_gateLoopTick (delta : Nat) : ∃ t, exec (.gateLoopTick p ⟨slew, delta⟩) s = .next t ∧ (∀ q, q ≠ p → t.port q = s.port q) ∧
    SameButEvents t (setPort p { s.port p with pw := { (s.port p).pw with
      gateNow := if slew < (if (s.port p).pw.probed then (s.port p).pw.slew else 500) then
          min 255 ((s.port p).pw.gateNow + min delta ((s.port p).pw.gateNow / 16))
        else if (if (s.port p).pw.probed then (s.port p).pw.slew else 500) < slew then (s.port p).pw.gateNow - min delta ((s.port p).pw.gateNow / 16)
        else (s.port p).pw.gateNow } } s) :=
  goes_modPw (i := .gateLoopTick p ⟨slew, delta⟩) rfl (by simp [ramping, hst]) rfl rfl

theorem exec_breakersArm : ∃ t, exec (.breakersArm p) s = .next t ∧ (∀ q, q ≠ p → t.port q = s.port q) ∧
    SameButEvents t (setPort p { s.port p with pw := { (s.port p).pw with armed := true } } s) :=
  goes_modPw (i := .breakersArm p) rfl (by simp [ramping, hst]) rfl rfl

theorem exec_rampTimeout (ha : (s.port p).pw.armed = false) (hl : 5 ≤ (s.port p).pw.vbus ∨ noloadOf (s.port p).pw.effProt ≤ cur) :
    ∃ t, exec (.rampTimeout p cur) s = .next t ∧ (∀ q, q ≠ p → t.port q = s.port q) ∧ Tripped p 6 s t := by
  have hload : noLoad (s.port p).pw (s.port p).pw.vbus cur = false := by
    simp only [noLoad, Bool.and_eq_false_iff, decide_eq_false_iff_not]
    omega
  obtain ⟨t, ht, hn⟩ := goes_onPort (i := .rampTimeout p cur) (s := s) (p := p) rfl (by simp [ramping, hst, ha, hload])
  have hid : modPw p id s = s := modPort_of_eq rfl
  exact ⟨t, ht, Noted.tripNow (g := id) (hid.symm ▸ hn) (by decide) (fun _ => rfl) fun _ => rfl⟩

end

end

end

end Sys2Proof.Machine
end

section
/-!
PROOF. O41: a ramp or a transition that ends, with the setting that was held, and power-good (07 R239, R240, R242, R246).
-/
namespace Sys2Proof.Machine

section
variable {p : PortId} {s : State}

/-! ### PS_RDY after the setting is reached (06 R190) -/

theorem contractMade_launches (p : PortId) (s : State) : Launches p s (contractMade p s) :=
  ite_launches (fun _ => putTx_launches (tOff_launches (.refl p s) _) _) fun _ => .refl p s

theorem contractMade_pw (p : PortId) (s : State) : ((contractMade p s).port p).pw = (s.port p).pw := (contractMade_launches p s).policy.pw

theorem contractMade_others (p : PortId) (s : State) : ∀ q, q ≠ p → (contractMade p s).port q = s.port q := (contractMade_launches p s).on.others

theorem tHas_tOff (x : PdTimer) : tHas (tOff p x s) p x = false := by simp [tHas, tOff]

/-- A port whose contract's setting stands, and whose transmitter is free, sends PS_RDY. -/
theorem contractMade_sends (he : expires .srcSettle p s = true) (hheld : (s.port p).pw.held = false) (hst : (s.port p).pw.pstate = .on)
    (hv : kVolt (s.port p).pw.inForce = (s.port p).pd.volt) (htx : (s.port p).phy.tx = none) :
    Sends p .sop 6 [] (contractMade p s) ∧ tHas (contractMade p s) p .srcSettle = false := by
  obtain ⟨hhas, hacts⟩ := expires_iff.mp he
  have hfree : ((tOff p .srcSettle s).port p).phy.tx = none := by rw [tOff, modPd_port_self, htx]
  have hmade : contractMade p s = putTx p (ctlMsg s p cPsRdy) (tOff p .srcSettle s) :=
    if_pos ⟨hacts, hhas, by simp [hheld], hst, hv⟩
  rw [hmade]
  refine ⟨putTx_sends_ctl (by decide) hfree, ?_⟩
  rw [putTx_free hfree]
  exact Eq.trans (congrArg (fun x : Port => x.pd.timers.contains .srcSettle) (modPhy_port_self ..)) (tHas_tOff .srcSettle)

/-! ### The held setting starts (07 R240) -/

theorem startHeld_none (h : (s.port p).pw.held = false) : startHeld p s = modPw p (fun w => { w with ovHigh := 0 }) s := by
  unfold startHeld
  exact if_neg (by simp [h])

/-- Whatever path was on, the port takes up the setting. -/
theorem startSetting_takes (v : Word) : ((startSetting p v s).port p).pw.held = false ∧
    ((startSetting p v s).port p).pw.keeper = (s.port p).pw.keeper ∧ ((startSetting p v s).port p).pw.inForce = v := by
  unfold startSetting
  extract_lets w ov
  split
  · rw [modPw_port_self]
    exact ⟨rfl, rfl, rfl⟩
  · split
    · rw [modPw_port_self]
      exact ⟨rfl, rfl, rfl⟩
    · rw [modPw_port_self]
      exact ⟨rfl, rfl, rfl⟩

theorem startHeld_works (h : Works p s t) : Works p s (startHeld p t) := by
  unfold startHeld
  exact ite_works (ite_works (startSetting_works h _) (latchEv_works (modPw_works (modPw_works h _) _) _)) (modPw_works h _)

theorem heldRefusal_congr {t : State} (hg : t.grps = s.grps) (hl : (t.port p).pw.pfetL = (s.port p).pw.pfetL)
    (hh : (t.port p).pw.pfetH = (s.port p).pw.pfetH) (v : Word) : heldRefusal t p v = heldRefusal s p v := by
  have hgrp : t.grp (tileOf p) = s.grp (tileOf p) := congrArg (fun v : Vector Group 8 => v[tileOf p]) hg
  have hfeed : feedDownFor t p = feedDownFor s p := by simp only [feedDownFor, feedUp, hgrp]
  unfold heldRefusal
  dsimp only
  rw [hgrp, hl, hh, hfeed]

/-! ### The ramp has reached its voltage (07 R245, R246) -/

theorem learnGate_length (w : PortPwr) (n : Nat) : (learnGate w n).gateSamples.length = min 4 (w.gateSamples.length + 1) := by
  simp [learnGate]
  omega

theorem exec_rampComplete {sample : Nat} (hst : (s.port p).pw.pstate = .ramping) (hheld : (s.port p).pw.held = false) :
    ∃ t, exec (.rampComplete p sample) s = .next t ∧ (∀ q, q ≠ p → t.port q = s.port q) ∧ (t.port p).pw.pstate = .on ∧
      (t.port p).pw.armed = true ∧ (t.port p).pw.vbus = kVolt (s.port p).pw.inForce ∧
      (t.port p).pw.gateSamples.length = min 4 ((s.port p).pw.gateSamples.length + 1) := by
  obtain ⟨t, ht, hn⟩ := goes_onPort (i := .rampComplete p sample) (s := s) (p := p) rfl (by simp [ramping, hst])
  generalize hu : modPw p (fun w => learnGate { w with pstate := .on, armed := true, vbus := kVolt w.inForce } sample) s = u at hn
  have hpw : (u.port p).pw = learnGate { (s.port p).pw with pstate := .on, armed := true, vbus := kVolt (s.port p).pw.inForce } sample := by
    rw [← hu, modPw_port_self]
  have hothers : ∀ q, q ≠ p → u.port q = s.port q := fun q hq => hu ▸ modPw_port_of_ne hq _
  refine ⟨t, ht, hn.others fun q hq => (contractMade_others p _ q hq).trans (((startHeld_works (.refl p u)).others q hq).trans (hothers q hq)), ?_⟩
  rw [hn.port, contractMade_pw, startHeld_none (by rw [hpw]; exact hheld), modPw_port_self, hpw]
  exact ⟨rfl, rfl, rfl, learnGate_length _ _⟩

/-! ### The transition has ended (07 R239, R240) -/

/-- The port before the held setting starts: the new path is on, alone. -/
def PortPwr.arrived (vbus : Nat) (w : PortPwr) : PortPwr :=
  { w with vbus := vbus, pstate := .on, pathNow := kPath w.inForce, discharge := false }

/-- The state in which the held setting starts; a ramp that ends leaves a sample besides. -/
def arrival (p : PortId) (vbus : Nat) (s : State) : State :=
  modPw p (fun w => { w with pstate := .on, pathNow := kPath w.inForce, discharge := false })
    (learnHeldRamp p (modPw p (fun w => { w with vbus := vbus }) s))

theorem learnHeldRamp_works : Works p s (learnHeldRamp p s) := by
  unfold learnHeldRamp drawNat
  dsimp only
  split
  · have hdraw : Works p s { s with free := s.free + 1 } := (Works.refl p s).upd rfl rfl (draw_quiet (.refl s) _)
    exact modPw_works hdraw _
  · exact .refl p s

theorem learnHeldRamp_pw : ∃ a l g, ((learnHeldRamp p s).port p).pw = { (s.port p).pw with armed := a, gateSamples := l, gateLearn := g } := by
  unfold learnHeldRamp drawNat
  dsimp only
  split
  · exact ⟨_, _, _, (congrArg Port.pw (modPw_port_self p { s with free := s.free + 1 } _)).trans rfl⟩
  · exact ⟨_, _, _, rfl⟩

theorem arrival_works (vbus : Nat) : Works p s (arrival p vbus s) :=
  modPw_works ((modPw_works (.refl p s) _).trans learnHeldRamp_works) _

theorem arrival_pw (vbus : Nat) : ∃ a l g, ((arrival p vbus s).port p).pw =
    { (s.port p).pw.arrived vbus with armed := a, gateSamples := l, gateLearn := g } := by
  obtain ⟨a, l, g, h⟩ := learnHeldRamp_pw (p := p) (s := modPw p (fun w => { w with vbus := vbus }) s)
  refine ⟨a, l, g, ?_⟩
  rw [arrival, modPw_port_self, h, modPw_port_self]
  rfl

theorem arrival_of_transition {vbus : Nat} (hst : (s.port p).pw.pstate = .transition) : arrival p vbus s = modPw p (PortPwr.arrived vbus) s := by
  have hno : learnHeldRamp p (modPw p (fun w => { w with vbus := vbus }) s) = modPw p (fun w => { w with vbus := vbus }) s :=
    if_neg (by rw [modPw_port_self, hst]; decide)
  rw [arrival, hno, modPw_modPw]
  rfl

theorem goes_transitionEnd {vbus : Nat} (hs : settling (s.port p).pw = true) (hm : transitionMet (s.port p).pw vbus = true) :
    ∃ t, exec (.transitionEnd p vbus) s = .next t ∧ (∀ q, q ≠ p → t.port q = s.port q) ∧
      Noted (contractMade p (startHeld p (arrival p vbus s))) t := by
  obtain ⟨t, ht, hn⟩ := goes_onPort (i := .transitionEnd p vbus) (s := s) (p := p) rfl (by simp [hs, hm])
  exact ⟨t, ht, hn.others fun q hq => (contractMade_others p _ q hq).trans ((startHeld_works (arrival_works vbus)).others q hq), hn⟩

theorem exec_transitionEnd_held {vbus : Nat} (hst : (s.port p).pw.pstate = .transition ∨ (s.port p).pw.pstate = .ramping)
    (hm : transitionMet (s.port p).pw vbus = true) (hheld : (s.port p).pw.held = true) (hcode : heldRefusal s p (s.port p).pw.keeper = 0) :
    ∃ t, exec (.transitionEnd p vbus) s = .next t ∧ (∀ q, q ≠ p → t.port q = s.port q) ∧ (t.port p).pw.held = false ∧
      (t.port p).pw.keeper = (s.port p).pw.keeper ∧ (t.port p).pw.inForce = (s.port p).pw.keeper := by
  have hs : settling (s.port p).pw = true := by
    rcases hst with h | h
    · simp [settling, h]
    · simp [settling, h, hheld]
  obtain ⟨t, ht, ho, hn⟩ := goes_transitionEnd hs hm
  refine ⟨t, ht, ho, ?_⟩
  obtain ⟨a, l, g, hpw⟩ := arrival_pw (p := p) (s := s) vbus
  have hgrps := (arrival_works (p := p) (s := s) vbus).grps
  generalize arrival p vbus s = u at hn hpw hgrps
  have hk : (u.port p).pw.keeper = (s.port p).pw.keeper := by
    rw [hpw]
    rfl
  have hstart : startHeld p u = startSetting p (s.port p).pw.keeper u := by
    unfold startHeld
    dsimp only
    rw [if_pos (by rw [hpw]; exact hheld), hk, heldRefusal_congr hgrps (by rw [hpw]; rfl) (by rw [hpw]; rfl), if_pos hcode]
  obtain ⟨h₁, h₂, h₃⟩ := startSetting_takes (p := p) (s := u) (s.port p).pw.keeper
  rw [hn.port, contractMade_pw, hstart]
  exact ⟨h₁, h₂.trans hk, h₃⟩

section
variable {vbus : Nat} (hst : (s.port p).pw.pstate = .transition) (hm : transitionMet (s.port p).pw vbus = true) (hheld : (s.port p).pw.held = false)
include hst hm hheld

/-- Nothing is held: the setting in force stands. -/
theorem goes_transitionEnd_free : ∃ t, exec (.transitionEnd p vbus) s = .next t ∧ (∀ q, q ≠ p → t.port q = s.port q) ∧
    Noted (contractMade p (modPw p (fun w => { w.arrived vbus with ovHigh := 0 }) s)) t := by
  obtain ⟨t, ht, ho, hn⟩ := goes_transitionEnd (by simp [settling, hst]) hm
  rw [arrival_of_transition hst, startHeld_none (by rw [modPw_port_self]; exact hheld), modPw_modPw] at hn
  exact ⟨t, ht, ho, hn⟩

theorem exec_transitionEnd_free : ∃ t, exec (.transitionEnd p vbus) s = .next t ∧ (∀ q, q ≠ p → t.port q = s.port q) ∧
    (t.port p).pw = { (s.port p).pw with
      pstate := .on, vbus := vbus, pathNow := kPath (s.port p).pw.inForce, discharge := false, ovHigh := 0 } := by
  obtain ⟨t, ht, ho, hn⟩ := goes_transitionEnd_free hst hm hheld
  refine ⟨t, ht, ho, ?_⟩
  rw [hn.port, contractMade_pw, modPw_port_self]
  rfl

theorem exec_transitionEnd_ready (he : expires .srcSettle p s = true) (hv : kVolt (s.port p).pw.inForce = (s.port p).pd.volt)
    (htx : (s.port p).phy.tx = none) : ∃ t, exec (.transitionEnd p vbus) s = .next t ∧ (∀ q, q ≠ p → t.port q = s.port q) ∧
      Sends p .sop 6 [] t ∧ tHas t p .srcSettle = false := by
  obtain ⟨t, ht, ho, hn⟩ := goes_transitionEnd_free hst hm hheld
  refine ⟨t, ht, ho, ?_⟩
  generalize hu : modPw p (fun w => { w.arrived vbus with ovHigh := 0 }) s = u at hn
  have hport : u.port p = { s.port p with pw := { (s.port p).pw.arrived vbus with ovHigh := 0 } } := by rw [← hu, modPw_port_self]
  have hexp : expires .srcSettle p u = true := by
    obtain ⟨hhas, hacts⟩ := expires_iff.mp he
    refine expires_iff.mpr ⟨?_, ?_⟩
    · unfold tHas
      rw [hport]
      exact hhas
    · rw [← hu, weaverActs_modPw]
      exact hacts
  obtain ⟨hsend, hno⟩ := contractMade_sends hexp (by rw [hport]; exact hheld) (by rw [hport]; rfl) (by rw [hport]; exact hv) (by rw [hport]; exact htx)
  refine ⟨hsend.of_phy (congrArg Port.phy (hn.port p)), ?_⟩
  unfold tHas at *
  rw [hn.port]
  exact hno

end

/-! ### Power-good (07 R242) -/

theorem sendUp_posts (op power : Nat) : (sendUp p op power s).posts = s.posts := by
  unfold sendUp drawNat pumpUp
  dsimp only
  split
  · rfl
  · split <;> rfl

theorem weaverPost_posts (cls : Nat) (payload : Word) : s.posts ⊆ (weaverPost p cls payload s).posts := (weaverPost_quiet (.refl s) p cls payload).posts

theorem vconnFollow_posts (p : PortId) (s : State) : s.posts ⊆ (vconnFollow p s).posts := by
  have hon : s.posts ⊆ (setVconn p true 0 s).posts := by
    unfold setVconn postVconn
    exact weaverPost_posts (s := modTc p _ s) _ _
  unfold vconnFollow
  dsimp only
  split
  · split
    · exact hon
    · exact hon
  · exact List.Subset.refl _

theorem vbusGood_posts (p : PortId) (s : State) : s.posts ⊆ (vbusGood p s).posts := by
  unfold vbusGood
  extract_lets u
  have hhold : (holdVconn p s).posts = s.posts := by
    unfold holdVconn
    dsimp only
    split <;> rfl
  have hu : s.posts ⊆ u.posts := hhold ▸ vconnFollow_posts p (holdVconn p s)
  clear_value u
  split
  · exact List.Subset.refl _
  · split
    · exact hu
    · split
      · exact hu
      · split
        · unfold askHold ask
          rw [sendUp_posts]
          exact hu
        · exact hu

theorem postPgood_posted (on : Bool) (reason : Nat) : Posted 0x08 p.val (postPgood p on reason s) :=
  ⟨_, List.mem_append_right _ (List.mem_singleton.mpr rfl), rfl, rfl⟩

theorem postPgood_port (on : Bool) (reason : Nat) (q : PortId) : (postPgood p on reason s).port q = s.port q := rfl

theorem exec_pgoodRise {vbus : Nat} (hpg : (s.port p).pw.pgood = false) (hpath : (s.port p).pw.pathNow ≠ .none)
    (hst : (s.port p).pw.pstate ≠ .transition) (hheld : (s.port p).pw.held = false) (hw : inWindow (kVolt (s.port p).pw.inForce) vbus = true) :
    ∃ t, exec (.pgoodRise p vbus) s = .next t ∧ (∀ q, q ≠ p → t.port q = s.port q) ∧ (t.port p).pw.pgood = true ∧ (t.port p).pw.vbus = vbus ∧
      Posted 0x08 p.val t := by
  obtain ⟨t, ht, hn⟩ := goes_onPort (i := .pgoodRise p vbus) (s := s) (p := p) rfl (by simp [hpg, hpath, hst, hheld, hw])
  dsimp only at hn
  generalize hu : modPw p (fun w => { w with pgood := true, vbus := vbus, tripped := false }) s = u at hn
  have hupw : (u.port p).pw = { (s.port p).pw with pgood := true, vbus := vbus, tripped := false } := by rw [← hu, modPw_port_self]
  have hothers : ∀ q, q ≠ p → u.port q = s.port q := fun q hq => hu ▸ modPw_port_of_ne hq _
  have hsync : Works p (postPgood p true 0 u) (syncHub p (postPgood p true 0 u)) := syncHub_works (.refl p _)
  have hpw : ((syncHub p (postPgood p true 0 u)).port p).pw = (u.port p).pw := (syncHub_hubOnly (.refl p _)).pw
  have hpost : Posted 0x08 p.val (syncHub p (postPgood p true 0 u)) := (postPgood_posted true 0).quiet hsync.quiet
  have hso : ∀ q, q ≠ p → (syncHub p (postPgood p true 0 u)).port q = s.port q := fun q hq => (hsync.others q hq).trans (hothers q hq)
  generalize syncHub p (postPgood p true 0 u) = v at hn hpw hpost hso
  have hgood := vbusGood_policy (.refl p v)
  obtain ⟨x, hx, hc⟩ := hpost
  refine ⟨t, ht, hn.others fun q hq => (hgood.on.others q hq).trans (hso q hq), ?_, ?_, hn.posted ⟨x, vbusGood_posts p v hx, hc⟩⟩
  · rw [hn.port, hgood.pw, hpw, hupw]
  · rw [hn.port, hgood.pw, hpw, hupw]

theorem exec_pgoodFall {vbus : Nat} (hpg : (s.port p).pw.pgood = true) (hst : (s.port p).pw.pstate ≠ .transition) (hheld : (s.port p).pw.held = false)
    (hw : inWindow (kVolt (s.port p).pw.inForce) vbus = false) : ∃ t, exec (.pgoodFall p vbus) s = .next t ∧ (∀ q, q ≠ p → t.port q = s.port q) ∧
      (t.port p).pw = { (s.port p).pw with pgood := false, vbus := vbus } ∧ Posted 0x08 p.val t := by
  obtain ⟨t, ht, hn⟩ := goes_onPort (i := .pgoodFall p vbus) (s := s) (p := p) rfl (by simp [hpg, hst, hheld, hw])
  generalize hu : modPw p (fun w => { w with pgood := false, vbus := vbus }) s = u at hn
  have hupw : (u.port p).pw = { (s.port p).pw with pgood := false, vbus := vbus } := by rw [← hu, modPw_port_self]
  have hothers : ∀ q, q ≠ p → u.port q = s.port q := fun q hq => hu ▸ modPw_port_of_ne hq _
  have hsync : Works p (postPgood p false 1 u) (syncHub p (postPgood p false 1 u)) := syncHub_works (.refl p _)
  refine ⟨t, ht, hn.others fun q hq => (hsync.others q hq).trans (hothers q hq), ?_, hn.posted ((postPgood_posted false 1).quiet hsync.quiet)⟩
  rw [hn.port, (syncHub_hubOnly (.refl p _)).pw, postPgood_port, hupw]

/-- While a transition runs, or a setting is held, power-good stands (07 R242). -/
theorem exec_pgood_stands {vbus : Nat} (h : (s.port p).pw.pstate = .transition ∨ (s.port p).pw.held = true) :
    exec (.pgoodRise p vbus) s = .next s ∧ exec (.pgoodFall p vbus) s = .next s := by
  rcases h with h | h
  · exact ⟨onPort_refused (by simp [h]), onPort_refused (by simp [h])⟩
  · exact ⟨onPort_refused (by simp [h]), onPort_refused (by simp [h])⟩

end

end Sys2Proof.Machine
end

section
/-!
PROOF. O41: relay slots, ramps, transitions and power-good of a port (07 R239 to R247).
-/
namespace Sys2Proof.Machine

/-- Settles O41: each command under its own condition; a ramp that fails a check is a trip like any other (`Noted.tripNow`), and what a transition
leaves follows from the state in which the held setting starts (`arrival_pw`). -/
theorem rampsAndPowerGood : Obligations.RampsAndPowerGood := by
  unfold Obligations.RampsAndPowerGood
  intro p s vbus cur slew sample delta w goes put seen idle inr cload probed held step met due
  refine ⟨exec_relayGrant, fun _ => exec_relayGrant_early, fun _ => exec_relayGrant_none, fun hst => ?_, exec_transitionEnd_held, fun hst hm hheld => ?_,
    exec_pgoodRise, exec_pgood_stands, exec_pgoodFall, exec_relayGrant_safe⟩
  · exact ⟨exec_rampProbeEnd_measured hst, exec_rampProbeEnd_shorted hst,
      fun hp => ⟨exec_rampCheck_idle hst hp, exec_rampCheck_rising hst hp, exec_rampCheck_failed hst hp⟩, exec_gateLoopTick hst delta,
      exec_breakersArm hst, exec_rampComplete hst, exec_rampTimeout hst⟩
  · exact ⟨exec_transitionEnd_free hst hm hheld, exec_transitionEnd_ready hst hm hheld⟩

end Sys2Proof.Machine
end
